-- ==== Sys2Proof/Word.lean ====
section
/-!
DEFINITION. The word types of the module and its sparse tables.
A memory is a `Host.Cell` list, a table of registers a list of (number, value) pairs: both are
`Map`s in one canonical form, kept by the operations of Machine/Maps.lean.
-/
namespace Sys2Proof

/-- One byte. -/
abbrev Byte := BitVec 8

/-- A string of bytes, the lowest address first. -/
abbrev Bytes := List Byte

/-- A sparse table: strictly rising keys, and no entry equal to what an unlisted key reads as. -/
abbrev Map (α : Type) := List (Nat × α)

/-- A byte memory: an unlisted address reads as zero (log entry 2). -/
abbrev Mem := Map Byte

/-- A device physical address, 52 bits (R9). -/
abbrev Addr := BitVec 52

end Sys2Proof
end

