-- ==== Sys2Proof/Machine/Maps.lean ====
section
/-!
DEFINITION. Reading and writing a sparse table, and the byte-order helpers every block uses.
`Map.get` and `Map.set` are the only accesses to a memory or to a table of registers.
-/
namespace Sys2Proof

/-- What key `k` holds; `d` where the table lists nothing. -/
def Map.get {α : Type} (d : α) (m : Map α) (k : Nat) : α :=
  match m with
  | [] => d
  | (k', v) :: t => if k = k' then v else Map.get d t k

/-- The table with key `k` unlisted. -/
def Map.erase {α : Type} (m : Map α) (k : Nat) : Map α :=
  match m with
  | [] => []
  | (k', v) :: t => if k = k' then t else if k < k' then (k', v) :: t else (k', v) :: Map.erase t k

/-- The table with key `k` listed as `v`, in key order. -/
def Map.put {α : Type} (m : Map α) (k : Nat) (v : α) : Map α :=
  match m with
  | [] => [(k, v)]
  | (k', v') :: t =>
    if k = k' then (k, v) :: t
    else if k < k' then (k, v) :: (k', v') :: t
    else (k', v') :: Map.put t k v

/-- The table in which key `k` reads `v`: a value equal to the default unlists the key. -/
def Map.set {α : Type} [DecidableEq α] (d : α) (m : Map α) (k : Nat) (v : α) : Map α :=
  if v = d then Map.erase m k else Map.put m k v

/-- Change the value of one key. -/
def Map.modify {α : Type} [DecidableEq α] (d : α) (m : Map α) (k : Nat) (f : α → α) : Map α :=
  Map.set d m k (f (Map.get d m k))

/-- The canonical form above a lower bound of the keys. -/
def Map.wfFrom {α : Type} [DecidableEq α] (d : α) (lo : Nat) (m : Map α) : Bool :=
  match m with
  | [] => true
  | (k, v) :: t => decide (lo ≤ k) && decide (v ≠ d) && Map.wfFrom d (k + 1) t

/-- The canonical form: keys strictly rise and no entry holds the default. -/
def Map.wf {α : Type} [DecidableEq α] (d : α) (m : Map α) : Bool :=
  Map.wfFrom d 0 m

/-- Drop every entry whose key fails the test. -/
def Map.keep {α : Type} (m : Map α) (p : Nat → Bool) : Map α :=
  m.filter (fun e => p e.1)

/-- Fill keys from `k` on with the listed values, in order. -/
def Map.fill {α : Type} [DecidableEq α] (d : α) (m : Map α) (k : Nat) (vs : List α) : Map α :=
  match vs with
  | [] => m
  | v :: t => Map.fill d (Map.set d m k v) (k + 1) t

/-- The values of `n` keys from `k` on. -/
def Map.run {α : Type} (d : α) (m : Map α) (k n : Nat) : List α :=
  match n with
  | 0 => []
  | n + 1 => Map.get d m k :: Map.run d m (k + 1) n

/-- One byte of a memory. -/
def memGet (m : Mem) (a : Nat) : Byte := Map.get 0#8 m a

/-- Store one byte. -/
def memSet (m : Mem) (a : Nat) (b : Byte) : Mem := Map.set 0#8 m a b

/-- `n` bytes from address `a` on. -/
def memRead (m : Mem) (a n : Nat) : Bytes := Map.run 0#8 m a n

/-- Store bytes from address `a` on. -/
def memWrite (m : Mem) (a : Nat) (bs : Bytes) : Mem := Map.fill 0#8 m a bs

/-- A memory is in canonical form. -/
def Memory.wf (m : Mem) : Bool := Map.wf 0#8 m

/-! ### Byte order: a field that spans bytes is stored little-endian (R3) -/

/-- The number a little-endian byte string spells. -/
def leNat (bs : Bytes) : Nat :=
  match bs with
  | [] => 0
  | b :: t => b.toNat + 256 * leNat t

/-- The low `n` bytes of a number, lowest first. -/
def leBytes (n v : Nat) : Bytes :=
  match n with
  | 0 => []
  | n + 1 => BitVec.ofNat 8 v :: leBytes n (v / 256)

/-- The little-endian bytes of a register value. -/
def regBytes {w : Nat} (v : BitVec w) : Bytes := leBytes ((w + 7) / 8) v.toNat

/-- Bits [lo+w-1:lo] of a number. -/
def field (v lo w : Nat) : Nat := v / 2 ^ lo % 2 ^ w

/-- Bit n of a number. -/
def bitOf (v n : Nat) : Bool := v.testBit n

/-- A Bool as 0 or 1. -/
def b2n (b : Bool) : Nat := if b then 1 else 0

/-- Add to a register and stop at its largest value ("saturating"). -/
def satAdd {w : Nat} (v : BitVec w) (n : Nat) : BitVec w :=
  BitVec.ofNat w (min (v.toNat + n) (2 ^ w - 1))

/-- Pad a byte string with zeros, or cut it, to `n` bytes. -/
def padTo (n : Nat) (bs : Bytes) : Bytes := (bs ++ List.replicate (n - bs.length) 0#8).take n

/-- A visible string's bytes. -/
def strBytes (s : String) : Bytes := s.toList.map (fun c => BitVec.ofNat 8 c.toNat)

/-- Split a list into pieces of `n` (the last may be shorter); `fuel` bounds the number of pieces. -/
def chunks {α : Type} (fuel n : Nat) (l : List α) : List (List α) :=
  match fuel with
  | 0 => []
  | f + 1 => match l with
    | [] => []
    | _ => l.take n :: chunks f n (l.drop n)

/-- The index, counted from `i`, of the first element that passes the test. -/
def findIdxFrom {α : Type} (p : α → Bool) (i : Nat) (l : List α) : Option Nat :=
  match l with
  | [] => none
  | a :: t => if p a then some i else findIdxFrom p (i + 1) t

/-- Replace the element at index `i`. -/
def listSet {α : Type} (l : List α) (i : Nat) (a : α) : List α :=
  match l, i with
  | [], _ => []
  | _ :: t, 0 => a :: t
  | x :: t, i + 1 => x :: listSet t i a

/-- The element at index `i`, or `d`. -/
def listGet {α : Type} (d : α) (l : List α) (i : Nat) : α :=
  match l, i with
  | [], _ => d
  | x :: _, 0 => x
  | _ :: t, i + 1 => listGet d t i

/-- XOR of the elements of two byte strings. -/
def xorBytes (a b : Bytes) : Bytes := List.zipWith (fun x y => x ^^^ y) a b

/-- Repeat an update `n` times, handing it the counts 0, 1, … in turn. -/
def iterUp {σ : Type} (n : Nat) (f : Nat → σ → σ) (s : σ) : σ :=
  (List.range n).foldl (fun t i => f i t) s

end Sys2Proof
end

