-- ==== Sys2Proof/Machine/Codes.lean ====
section
/-!
DEFINITION. The codes over stored and carried data: the Hsiao (72,64) code with its invalid tag (R170 to R172),
the Reed–Solomon code RS(36,32) with stored poison (R194, R196), the CRCs (R144, R289), the SM3 digest and the
SM2 signature check (R481).
-/
namespace Sys2Proof.Machine

/-! ### Hsiao (72,64) -/

/-- The number of 1 bits among the low 8. -/
def weight8 (v : Nat) : Nat := (List.range 8).foldl (fun n i => n + b2n (bitOf v i)) 0

/-- The 56 columns of weight 3, in ascending order (R170). -/
def hsiaoWeight3 : List Nat := (List.range 256).filter (fun v => weight8 v = 3)

/-- 0x1F rotated left by k within 8 bits. -/
def rot1F (k : Nat) : Nat := (0x1F * 2 ^ k) % 256 + 0x1F * 2 ^ k / 256

/-- The column of each data bit j, 0 to 63 (R170). -/
def hsiaoCols : List Nat := hsiaoWeight3 ++ (List.range 8).map rot1F

/-- The check bits of a data word: the exclusive OR of the columns of its 1 bits. -/
def hsiaoXor (cols : List Nat) (d : Nat) : Nat :=
  match cols with
  | [] => 0
  | c :: t => (if d % 2 = 1 then c else 0) ^^^ hsiaoXor t (d / 2)

/-- The check bits c[7:0] of d[63:0] (R170). -/
def hsiaoCheck (d : BitVec 64) : BitVec 8 :=
  if d = 0#64 then 0#8 else BitVec.ofNat 8 (hsiaoXor hsiaoCols d.toNat)

/-- The mask that turns clean check bits into the invalid tag (R171). -/
def tagMask : BitVec 8 := 0x7F#8

/-- What a reader makes of a code word (R172). -/
inductive HClass where
  /-- syndrome 0 -/
  | clean
  /-- syndrome 0x7F: the invalid tag -/
  | tagged
  /-- a single error, corrected -/
  | single
  /-- any other syndrome -/
  | uncorrectable
deriving DecidableEq, Repr

/-- The syndrome of a stored code word (R170). -/
def hsiaoSyndrome (d : BitVec 64) (c : BitVec 8) : BitVec 8 := c ^^^ hsiaoCheck d

/-- Decode a code word: the class and the data as delivered (R172). -/
def hsiaoDecode (d : BitVec 64) (c : BitVec 8) : HClass × BitVec 64 :=
  let s := hsiaoSyndrome d c
  if s = 0#8 then (.clean, d)
  else if s = tagMask then (.tagged, d)
  else
    match findIdxFrom (fun h => h = s.toNat) 0 hsiaoCols with
    | some j => (.single, d ^^^ BitVec.ofNat 64 (2 ^ j))
    | none => if weight8 s.toNat = 1 then (.single, d) else (.uncorrectable, d)

/-- A word is delivered with the invalid tag. -/
def HClass.invalid : HClass → Bool
  | .clean => false
  | .single => false
  | .tagged => true
  | .uncorrectable => true

/-! ### RS(36,32) over GF(2^8) -/

/-- Multiply by α = 0x02 in the field of 0x11D (R194). -/
def gfDouble (a : Nat) : Nat := if a < 128 then 2 * a else (2 * a) ^^^ 0x11D

/-- The product in GF(2^8): fuel is the 8 bits of the second factor. -/
def gfMulBits : Nat → Nat → Nat → Nat
  | 0, _, _ => 0
  | n + 1, a, b => (if b % 2 = 1 then a else 0) ^^^ gfMulBits n (gfDouble a) (b / 2)

/-- The product in GF(2^8) (R194). -/
def gfMul (a b : Nat) : Nat := gfMulBits 8 a b

/-- α^n. -/
def gfPow : Nat → Nat
  | 0 => 1
  | n + 1 => gfDouble (gfPow n)

/-- The remainder register while the message bytes of a systematic word are shifted in:
c0 first, the coefficient of x^3 (R194). -/
def rsStep (r : Nat × Nat × Nat × Nat) (m : Nat) : Nat × Nat × Nat × Nat :=
  let f := m ^^^ r.1
  (r.2.1 ^^^ gfMul f 0x0F, r.2.2.1 ^^^ gfMul f 0x36, r.2.2.2 ^^^ gfMul f 0x78, gfMul f 0x40)

/-- The four check symbols of 32 data bytes (R194). -/
def rsCheck (d : Bytes) : Bytes :=
  let r := d.foldl (fun s b => rsStep s b.toNat) (0, 0, 0, 0)
  [BitVec.ofNat 8 r.1, BitVec.ofNat 8 r.2.1, BitVec.ofNat 8 r.2.2.1, BitVec.ofNat 8 r.2.2.2]

/-- The word's value at α^i: byte k is the coefficient of x^(35−k) (R194, R196). -/
def rsEval (w : Bytes) (i : Nat) : Nat :=
  w.foldl (fun s b => gfMul s (gfPow i) ^^^ b.toNat) 0

/-- The syndromes S0 to S3 of a 36-byte code word (R196). -/
def rsSyndromes (w : Bytes) : List Nat := [rsEval w 0, rsEval w 1, rsEval w 2, rsEval w 3]

/-- c0 and c3 XORed with 0xFF: the mask of stored poison (R196). -/
def poisonMask : Bytes := List.replicate 32 0#8 ++ [0xFF#8, 0#8, 0#8, 0xFF#8]

/-- The class of a code word (R196), in the numbering of TEST_CLASS (R207). -/
inductive RsClass where
  | clean
  | single
  | poison
  | uncorrectable
deriving DecidableEq, Repr

/-- TEST_CLASS of a class (R207). -/
def RsClass.code : RsClass → Nat
  | .clean => 0
  | .single => 1
  | .poison => 2
  | .uncorrectable => 3

/-- The degree j at which a single-symbol error stands, if the syndromes are those of one (R196). -/
def rsDegree (s : List Nat) : Option Nat :=
  match s with
  | [s0, s1, s2, s3] =>
    if s0 = 0 then none
    else findIdxFrom (fun j =>
      gfMul s0 (gfPow j) = s1 ∧ gfMul s1 (gfPow j) = s2 ∧ gfMul s2 (gfPow j) = s3) 0 (List.range 36)
  | _ => none

/-- Decode a 36-byte code word: its class and its corrected bytes (R196). -/
def rsDecode (w : Bytes) : RsClass × Bytes :=
  let s := rsSyndromes w
  if s = [0, 0, 0, 0] then (.clean, w)
  else if s = rsSyndromes poisonMask then (.poison, w)
  else
    match rsDegree s with
    | some j =>
      let k := 35 - j
      (.single, listSet w k (listGet 0#8 w k ^^^ BitVec.ofNat 8 (listGet 0 s 0)))
    | none => (.uncorrectable, w)

/-- The code word of 32 data bytes (R194). -/
def rsEncode (d : Bytes) : Bytes := d ++ rsCheck d

/-- Stored poison over 32 data bytes: the correct code word with c0 and c3 inverted (R196). -/
def rsPoison (d : Bytes) : Bytes := xorBytes (rsEncode d) poisonMask

/-! ### CRCs -/

/-- One bit of a reflected CRC. -/
def crcBit (poly reg : Nat) : Nat := if reg % 2 = 1 then (reg / 2) ^^^ poly else reg / 2

/-- One byte of a reflected CRC, least significant bit first (R144, R289). -/
def crcByte (poly reg : Nat) (b : Byte) : Nat :=
  (List.range 8).foldl (fun r _ => crcBit poly r) (reg ^^^ b.toNat)

/-- The reflected polynomial of CRC-32 (R289). -/
def crc32Poly : Nat := 0xEDB88320

/-- CRC-32 with the parameters of R289. -/
def crc32 (bs : Bytes) : Nat := (bs.foldl (crcByte crc32Poly) 0xFFFFFFFF) ^^^ 0xFFFFFFFF

/-- The reflected polynomial of CRC-64 (R144: 0x42F0_E1EB_A9EA_3693, reflected). -/
def crc64Poly : Nat := 0xC96C5795D7870F42

/-- The running register over further bytes, without initial value or inversion (R223). -/
def crc64Update (reg : Nat) (bs : Bytes) : Nat := bs.foldl (crcByte crc64Poly) reg

/-- CRC-64 with the parameters of R144. -/
def crc64 (bs : Bytes) : Nat := crc64Update 0xFFFFFFFFFFFFFFFF bs ^^^ 0xFFFFFFFFFFFFFFFF

/-! ### SM3 (R481; the algorithm of GB/T 32905: log entry 8) -/

/-- The eight words of the chaining value. -/
abbrev Sm3State := List (BitVec 32)

/-- The initial value. -/
def sm3Iv : Sm3State :=
  [0x7380166f#32, 0x4914b2b9#32, 0x172442d7#32, 0xda8a0600#32,
   0xa96f30bc#32, 0x163138aa#32, 0xe38dee4d#32, 0xb0fb0e4e#32]

/-- Rotate left. -/
def rol32 (v : BitVec 32) (n : Nat) : BitVec 32 := v.rotateLeft n

/-- P0. -/
def sm3P0 (v : BitVec 32) : BitVec 32 := v ^^^ rol32 v 9 ^^^ rol32 v 17
/-- P1. -/
def sm3P1 (v : BitVec 32) : BitVec 32 := v ^^^ rol32 v 15 ^^^ rol32 v 23

/-- The expanded words W16 to W67, newest first: the window holds the last sixteen. -/
def sm3Expand : Nat → List (BitVec 32) → List (BitVec 32)
  | 0, w => w
  | n + 1, w =>
    let g := fun i => listGet 0#32 w (i - 1)
    let x := sm3P1 (g 16 ^^^ g 9 ^^^ rol32 (g 3) 15) ^^^ rol32 (g 13) 7 ^^^ g 6
    sm3Expand n (x :: w)

/-- One round, over the words W[j] and W'[j] = W[j] XOR W[j+4]. -/
def sm3Round (j : Nat) (w w' : BitVec 32) (v : Sm3State) : Sm3State :=
  match v with
  | [a, b, c, d, e, f, g, h] =>
    let t : BitVec 32 := if j < 16 then 0x79cc4519#32 else 0x7a879d8a#32
    let ss1 := rol32 (rol32 a 12 + e + rol32 t (j % 32)) 7
    let ss2 := ss1 ^^^ rol32 a 12
    let ff := if j < 16 then a ^^^ b ^^^ c else (a &&& b) ||| (a &&& c) ||| (b &&& c)
    let gg := if j < 16 then e ^^^ f ^^^ g else (e &&& f) ||| (~~~e &&& g)
    let tt1 := ff + d + ss2 + w'
    let tt2 := gg + h + ss1 + w
    [tt1, a, rol32 b 9, c, sm3P0 tt2, e, rol32 f 19, g]
  | _ => v

/-- The rounds from j on, over the remaining expanded words. -/
def sm3Rounds : Nat → Nat → List (BitVec 32) → Sm3State → Sm3State
  | 0, _, _, v => v
  | n + 1, j, w, v =>
    sm3Rounds n (j + 1) w.tail (sm3Round j (listGet 0#32 w 0) (listGet 0#32 w 0 ^^^ listGet 0#32 w 4) v)

/-- The big-endian 32-bit words of a byte string. -/
def beWords (bs : Bytes) : List (BitVec 32) :=
  (chunks bs.length 4 bs).map (fun c => BitVec.ofNat 32 (leNat c.reverse))

/-- Compress one 64-byte block into the chaining value. -/
def sm3Block (v : Sm3State) (b : Bytes) : Sm3State :=
  let w := (sm3Expand 52 (beWords b).reverse).reverse
  List.zipWith (fun x y => x ^^^ y) v (sm3Rounds 64 0 w v)

/-- The padded message. -/
def sm3Pad (bs : Bytes) : Bytes :=
  let n := bs.length
  bs ++ 0x80#8 :: List.replicate ((119 - n % 64) % 64) 0#8 ++ (leBytes 8 (8 * n)).reverse

/-- The SM3 digest, 32 bytes in output order (R481). -/
def sm3 (bs : Bytes) : Bytes :=
  let p := sm3Pad bs
  let v := (chunks (p.length / 64 + 1) 64 p).foldl sm3Block sm3Iv
  (v.map (fun w => (leBytes 4 w.toNat).reverse)).flatten

/-! ### SM2 (R481; the recommended curve of GB/T 32918: log entry 8) -/

/-- The field prime. -/
def sm2P : Nat := 0xFFFFFFFEFFFFFFFFFFFFFFFFFFFFFFFFFFFFFFFF00000000FFFFFFFFFFFFFFFF
/-- The coefficient b; a is p − 3. -/
def sm2B : Nat := 0x28E9FA9E9D9F5E344D5A9E4BCF6509A7F39789F515AB8F92DDBCBD414D940E93
/-- The group order. -/
def sm2N : Nat := 0xFFFFFFFEFFFFFFFFFFFFFFFFFFFFFFFF7203DF6B21C6052B53BBF40939D54123
/-- The base point's x. -/
def sm2Gx : Nat := 0x32C4AE2C1F1981195F9904466A39C9948FE30BBFF2660BE1715A4589334C74C7
/-- The base point's y. -/
def sm2Gy : Nat := 0xBC3736A2F4F6779C59BDCEE36B692153D0A9877CC62A474002DF32E52139F0A0

/-- A point of the curve, or the point at infinity. -/
abbrev EcPoint := Option (Nat × Nat)

/-- b^e mod p, over the low `n` bits of e. -/
def powMod (p : Nat) : Nat → Nat → Nat → Nat
  | 0, _, _ => 1 % p
  | n + 1, b, e => (if e % 2 = 1 then b else 1) * powMod p n (b * b % p) (e / 2) % p

/-- The inverse modulo the field prime. -/
def sm2Inv (v : Nat) : Nat := powMod sm2P 256 (v % sm2P) (sm2P - 2)

/-- Difference modulo the field prime. -/
def sm2Sub (a b : Nat) : Nat := (a + (sm2P - b % sm2P)) % sm2P

/-- The third point on a line of slope `l`, mirrored. -/
def ecChord (l : Nat) (x1 y1 x2 : Nat) : EcPoint :=
  let x := sm2Sub (sm2Sub (l * l % sm2P) x1) x2
  some (x, sm2Sub (l * sm2Sub x1 x % sm2P) y1)

/-- Point addition. -/
def ecAdd (a b : EcPoint) : EcPoint :=
  match a, b with
  | none, q => q
  | q, none => q
  | some (x1, y1), some (x2, y2) =>
    if x1 = x2 then
      if (y1 + y2) % sm2P = 0 then none
      else ecChord (sm2Sub (3 * x1 * x1 % sm2P) 3 * sm2Inv (2 * y1) % sm2P) x1 y1 x2
    else ecChord (sm2Sub y2 y1 * sm2Inv (sm2Sub x2 x1) % sm2P) x1 y1 x2

/-- k times a point, over the low `n` bits of k. -/
def ecMul : Nat → Nat → EcPoint → EcPoint
  | 0, _, _ => none
  | n + 1, k, p => ecAdd (if k % 2 = 1 then p else none) (ecMul n (k / 2) (ecAdd p p))

/-- A 32-byte big-endian integer. -/
def be32 (v : Nat) : Bytes := (leBytes 32 v).reverse

/-- The 16 B distinguishing identifier (R481). -/
def sm2Id : Bytes := strBytes "1234567812345678"

/-- ZA of a public key (x, y) (R481). -/
def sm2Za (x y : Nat) : Bytes :=
  sm3 ([0x00#8, 0x80#8] ++ sm2Id ++ be32 (sm2P - 3) ++ be32 sm2B ++ be32 sm2Gx ++ be32 sm2Gy ++ be32 x ++ be32 y)

/-- The number a big-endian byte string spells. -/
def beNat (bs : Bytes) : Nat := leNat bs.reverse

/-- The signature (64 B, r then s, each little-endian) over a message verifies with a public key
(64 B, x then y) (R481). -/
def sm2Verify (key msg sig : Bytes) : Bool :=
  let x := leNat (key.take 32)
  let y := leNat ((key.drop 32).take 32)
  let r := leNat (sig.take 32)
  let s := leNat ((sig.drop 32).take 32)
  let e := beNat (sm3 (sm2Za x y ++ msg))
  let t := (r + s) % sm2N
  let onCurve := decide (x < sm2P ∧ y < sm2P ∧ y * y % sm2P = (x * x * x + (sm2P - 3) * x + sm2B) % sm2P)
  onCurve && decide (0 < r ∧ r < sm2N ∧ 0 < s ∧ s < sm2N ∧ t ≠ 0) &&
    match ecAdd (ecMul 256 s (some (sm2Gx, sm2Gy))) (ecMul 256 t (some (x, y))) with
    | some (x1, _) => decide ((e + x1) % sm2N = r)
    | none => false

end Sys2Proof.Machine
end

