-- ==== Sys2Proof/Config.lean ====
section
/-!
DEFINITION. What an implementation fixes and the spec leaves open: opaque constants, so that no proof can
see a value of them. Each is named in a log entry.
-/
namespace Sys2Proof

/-- Which of the values within 1 ulp the windrow engine answers: a fixed function of the operation
(0 exp, 1 reciprocal, 2 reciprocal square root) and the operand bits (R90, R223). Log entry 3. -/
opaque Config.windrowPick : Nat → BitVec 32 → Nat

/-- The n-th undefined value of a run: what a drain writes for a poisoned tile, what a transfer stores from a
source written under it, and the like. Log entry 4. -/
opaque Config.freeByte : Nat → Byte

/-- The n-th challenge the random generator draws (R497). Log entry 5. -/
opaque Config.challenge : Nat → BitVec 256

/-- The signature (r, s) the identity key gives for the n-th signed digest (R495). Log entry 5. -/
opaque Config.signature : Nat → BitVec 256 → BitVec 512

/-- Byte k of the 4 KiB fuse map, whose layout the spec does not give, as a function of every value that the fuses hold
(R493). Log entry 10. -/
opaque Config.fuseByte : List Nat → Nat → Byte

/-- The 16 characters of SW_VERSION for a firmware version: the spec gives no text for it (R397). Log entry 42. -/
opaque Config.swVersion : BitVec 32 → BitVec 128

end Sys2Proof
end

