-- ==== Sys2Proof/Machine/Fp.lean ====
section
/-!
DEFINITION. Number formats, products and accumulation (R81 to R92): every format as exact numbers
(−1)^sign · m · 2^q, one rounding to nearest even, the Ac44 accumulator, the exact 32-element block sum,
the drain conversions, and the fp32 arithmetic of the vector unit and the windrow engine.
-/
namespace Sys2Proof.Machine

/-- An unpacked number: `fin neg m q` is (−1)^neg · m · 2^q. -/
inductive Num where
  | nan
  | inf (neg : Bool)
  | fin (neg : Bool) (m : Nat) (q : Int)
deriving DecidableEq, Repr

/-- How a format spends its largest exponent (R82). -/
inductive Specials where
  /-- infinities and NaNs, as in IEEE 754 -/
  | ieee
  /-- no infinity, and NaN only where every bit but the sign is 1 (E4M3) -/
  | nanOnly
  /-- neither -/
  | none
deriving DecidableEq, Repr

/-- A sign, exponent and fraction format (R81). -/
structure FpFmt where
  ew : Nat
  fw : Nat
  bias : Nat
  sp : Specials
deriving DecidableEq, Repr

/-- fp32 (R81). -/
def fmtF32 : FpFmt := ⟨8, 23, 127, .ieee⟩
/-- bf16 (R81). -/
def fmtBf16 : FpFmt := ⟨8, 7, 127, .ieee⟩
/-- fp8 E4M3 (R81). -/
def fmtE4M3 : FpFmt := ⟨4, 3, 7, .nanOnly⟩
/-- fp8 E5M2 (R81). -/
def fmtE5M2 : FpFmt := ⟨5, 2, 15, .ieee⟩
/-- FP6 E2M3 (R81). -/
def fmtE2M3 : FpFmt := ⟨2, 3, 1, .none⟩
/-- FP6 E3M2 (R81). -/
def fmtE3M2 : FpFmt := ⟨3, 2, 3, .none⟩
/-- FP4 E2M1 (R81). -/
def fmtE2M1 : FpFmt := ⟨2, 1, 1, .none⟩
/-- Ac44, without its payload (R85). -/
def fmtAc44 : FpFmt := ⟨10, 33, 511, .ieee⟩

/-- The width of a format in bits. -/
def FpFmt.width (f : FpFmt) : Nat := 1 + f.ew + f.fw

/-- The number an encoding stands for (R81, R82); every NaN is alike (R83). -/
def FpFmt.decode (f : FpFmt) (b : Nat) : Num :=
  let fr := field b 0 f.fw
  let e := field b f.fw f.ew
  let neg := bitOf b (f.ew + f.fw)
  let top := e = 2 ^ f.ew - 1
  if f.sp = .ieee ∧ top then (if fr = 0 then .inf neg else .nan)
  else if f.sp = .nanOnly ∧ top ∧ fr = 2 ^ f.fw - 1 then .nan
  else if e = 0 then .fin neg fr (1 - (f.bias : Int) - f.fw)
  else .fin neg (fr + 2 ^ f.fw) ((e : Int) - f.bias - f.fw)

/-- The largest finite magnitude's encoding (R82). -/
def FpFmt.maxBits (f : FpFmt) : Nat :=
  match f.sp with
  | .ieee => (2 ^ f.ew - 1) * 2 ^ f.fw - 1
  | .nanOnly => 2 ^ (f.ew + f.fw) - 2
  | .none => 2 ^ (f.ew + f.fw) - 1

/-- `m ÷ 2^s` rounded to nearest, ties to even. -/
def rneShift (m s : Nat) : Nat :=
  if s = 0 then m
  else
    let n := m / 2 ^ s
    let r := m % 2 ^ s
    let half := 2 ^ (s - 1)
    if half < r ∨ (r = half ∧ n % 2 = 1) then n + 1 else n

/-- The exponent of the format's unit in the last place at the magnitude m · 2^q. -/
def FpFmt.ulpExp (f : FpFmt) (m : Nat) (q : Int) : Int :=
  max ((Nat.log2 m : Int) + q - f.fw) (1 - (f.bias : Int) - f.fw)

/-- Pack an integer number of units in the last place; a carry runs into the exponent. -/
def FpFmt.packUlps (f : FpFmt) (n : Nat) (e : Int) : Nat :=
  ((e + f.bias + f.fw).toNat - 1) * 2 ^ f.fw + n

/-- The magnitude m · 2^q rounded to nearest even, as an encoding without sign; it may pass `maxBits`. -/
def FpFmt.roundMag (f : FpFmt) (m : Nat) (q : Int) : Nat :=
  if m = 0 then 0
  else
    let e := f.ulpExp m q
    let n := if e ≤ q then m * 2 ^ (q - e).toNat else rneShift m (e - q).toNat
    f.packUlps n e

/-- The encoding of infinity's magnitude in a format that has one. -/
def FpFmt.infBits (f : FpFmt) : Nat := (2 ^ f.ew - 1) * 2 ^ f.fw

/-- The positive canonical NaN (R82, R83). -/
def FpFmt.nanBits (f : FpFmt) : Nat :=
  match f.sp with
  | .ieee => if f.fw = 2 then f.infBits + 2 else f.infBits + 2 ^ (f.fw - 1)
  | .nanOnly => 2 ^ (f.ew + f.fw) - 1
  | .none => 0

/-- The sign bit of a format. -/
def FpFmt.signBit (f : FpFmt) (neg : Bool) : Nat := if neg then 2 ^ (f.ew + f.fw) else 0

/-- Round to nearest even into a format; a finite result beyond range saturates, or becomes an infinity
where the format has one. -/
def FpFmt.encode (f : FpFmt) (saturate : Bool) (x : Num) : Nat :=
  match x with
  | .nan => f.nanBits
  | .inf neg =>
    match f.sp with
    | .ieee => f.infBits + f.signBit neg
    | .nanOnly => f.nanBits
    | .none => f.maxBits + f.signBit neg
  | .fin neg m q =>
    let mag := f.roundMag m q
    let lim := if f.maxBits < mag then (if saturate ∨ f.sp = .none then f.maxBits else f.infBits) else mag
    lim + f.signBit neg

/-- Change the sign. -/
def Num.negate : Num → Num
  | .nan => .nan
  | .inf n => .inf (!n)
  | .fin n m q => .fin (!n) m q

/-- A number with a sign, from an exact integer multiple of 2^q; an exact zero is +0 (R86). -/
def Num.ofInt (s q : Int) : Num := .fin (decide (s < 0)) s.natAbs q

/-- The signed integer multiple of 2^q0 that a finite number is, for q0 at most its exponent. -/
def scaleTo (neg : Bool) (m : Nat) (q q0 : Int) : Int :=
  let a : Int := (m : Int) * 2 ^ (q - q0).toNat
  if neg then -a else a

/-- The exact sum, with the IEEE 754 rules for zeros, infinities and NaNs (R86). -/
def Num.add (x y : Num) : Num :=
  match x, y with
  | .nan, _ => .nan
  | _, .nan => .nan
  | .inf a, .inf b => if a = b then .inf a else .nan
  | .inf a, .fin .. => .inf a
  | .fin .., .inf b => .inf b
  | .fin a m q, .fin b n r =>
    if m = 0 ∧ n = 0 then .fin (a && b) 0 (min q r)
    else
      let q0 := min q r
      Num.ofInt (scaleTo a m q q0 + scaleTo b n r q0) q0

/-- The exact product. -/
def Num.mul (x y : Num) : Num :=
  match x, y with
  | .nan, _ => .nan
  | _, .nan => .nan
  | .inf a, .inf b => .inf (a != b)
  | .inf a, .fin b n _ => if n = 0 then .nan else .inf (a != b)
  | .fin a m _, .inf b => if m = 0 then .nan else .inf (a != b)
  | .fin a m q, .fin b n r => .fin (a != b) (m * n) (q + r)

/-- Compare two numbers: the first is less. NaNs compare false; zeros are equal. -/
def Num.lt (x y : Num) : Bool :=
  match x, y with
  | .nan, _ => false
  | _, .nan => false
  | .inf a, .inf b => a && !b
  | .inf a, .fin .. => a
  | .fin .., .inf b => !b
  | .fin a m q, .fin b n r => decide (scaleTo a m q (min q r) < scaleTo b n r (min q r))

/-- The number is a NaN or an infinity. -/
def Num.nonfinite : Num → Bool
  | .nan => true
  | .inf _ => true
  | .fin .. => false

/-! ### fp32 (R90) -/

/-- The number an fp32 word stands for. -/
def f32 (b : BitVec 32) : Num := fmtF32.decode b.toNat

/-- Round an exact number to fp32. -/
def toF32 (x : Num) : BitVec 32 := BitVec.ofNat 32 (fmtF32.encode false x)

/-- fp32 addition (R90). -/
def f32Add (a b : BitVec 32) : BitVec 32 := toF32 ((f32 a).add (f32 b))
/-- fp32 multiplication (R90). -/
def f32Mul (a b : BitVec 32) : BitVec 32 := toF32 ((f32 a).mul (f32 b))
/-- fp32 fused multiply-add, one rounding (R90). -/
def f32Fma (a b c : BitVec 32) : BitVec 32 := toF32 (((f32 a).mul (f32 b)).add (f32 c))
/-- fp32 subtraction. -/
def f32Sub (a b : BitVec 32) : BitVec 32 := toF32 ((f32 a).add (f32 b).negate)
/-- fp32 sign change; a NaN becomes canonical. -/
def f32Neg (a : BitVec 32) : BitVec 32 := toF32 (f32 a).negate

/-- The fp32 constants the pseudocode of the spec names. -/
def f32One : BitVec 32 := 0x3F800000#32
/-- Plus zero. -/
def f32Zero : BitVec 32 := 0x00000000#32
/-- Plus infinity. -/
def f32Inf : BitVec 32 := 0x7F800000#32
/-- Minus infinity. -/
def f32NegInf : BitVec 32 := 0xFF800000#32
/-- The canonical NaN (R83). -/
def f32NaN : BitVec 32 := 0x7FC00000#32

/-- An unsigned integer as fp32. -/
def f32OfNat (n : Nat) : BitVec 32 := toF32 (.fin false n 0)

/-- A NaN of fp32. -/
def f32IsNaN (a : BitVec 32) : Bool := match f32 a with | .nan => true | _ => false

/-- The larger of two values, −0 below +0; a NaN operand gives the canonical NaN (log entry 6). -/
def f32Max (a b : BitVec 32) : BitVec 32 :=
  if f32IsNaN a || f32IsNaN b then f32NaN
  else if (f32 a).lt (f32 b) then b
  else if (f32 b).lt (f32 a) then a
  else if bitOf a.toNat 31 then b else a

/-- The smaller of two values, −0 below +0; a NaN operand gives the canonical NaN (log entry 6). -/
def f32Min (a b : BitVec 32) : BitVec 32 :=
  if f32IsNaN a || f32IsNaN b then f32NaN
  else if (f32 a).lt (f32 b) then a
  else if (f32 b).lt (f32 a) then b
  else if bitOf a.toNat 31 then a else b

/-- The magnitude of an fp32 value; a NaN becomes canonical. -/
def f32Abs (a : BitVec 32) : BitVec 32 :=
  if f32IsNaN a then f32NaN else a &&& 0x7FFFFFFF#32

/-! ### The windrow engine's functions, within 1 ulp (R90) -/

/-- The result of a function whose exact magnitude lies between the encodings `lo` and `lo + 1`
(or is exactly `lo`): the engine's pick among the values with an error of at most 1 ulp. -/
def windrowResult (op : Nat) (x : BitVec 32) (neg : Bool) (lo : Nat) (exact : Bool) : BitVec 32 :=
  let k := Config.windrowPick op x
  let mag := if exact then lo - 1 + k % 3 else lo + k % 2
  BitVec.ofNat 32 (min mag fmtF32.infBits + fmtF32.signBit neg)

/-- The largest fp32 encoding whose value is at most n ÷ d (n and d positive), and whether it is exact. -/
def floorQuot (n d : Nat) : Nat × Bool :=
  -- scale so that the quotient has 26 or more significant bits above 2^-150
  let s : Nat := 200 + Nat.log2 d
  let q := n * 2 ^ s / d
  let sticky := n * 2 ^ s % d ≠ 0
  if q = 0 then (0, false)
  else
    let e := fmtF32.ulpExp q (-(s : Int))
    let sh := (e + s).toNat
    (fmtF32.packUlps (q / 2 ^ sh) e, decide (q % 2 ^ sh = 0) && !sticky)

/-- m · 2^q as a quotient of integers. -/
def asQuot (m : Nat) (q : Int) : Nat × Nat :=
  if 0 ≤ q then (m * 2 ^ q.toNat, 1) else (m, 2 ^ (-q).toNat)

/-- Reciprocal (R90): of ±0 the infinity of that sign, of an infinity the zero of that sign (log entry 6). -/
def f32Rcp (x : BitVec 32) : BitVec 32 :=
  match f32 x with
  | .nan => f32NaN
  | .inf neg => BitVec.ofNat 32 (fmtF32.signBit neg)
  | .fin neg m q =>
    if m = 0 then BitVec.ofNat 32 (fmtF32.infBits + fmtF32.signBit neg)
    else
      let nd := asQuot m q
      let r := floorQuot nd.2 nd.1
      windrowResult 1 x neg r.1 r.2

/-- Reciprocal square root (R90): of ±0 the infinity of that sign, of a negative number NaN, of +∞ +0
(log entry 6). -/
def f32Rsqrt (x : BitVec 32) : BitVec 32 :=
  match f32 x with
  | .nan => f32NaN
  | .inf true => f32NaN
  | .inf false => f32Zero
  | .fin neg m q =>
    if m = 0 then BitVec.ofNat 32 (fmtF32.infBits + fmtF32.signBit neg)
    else if neg then f32NaN
    else
      -- sqrt(2^(2s)·d ÷ n) floored to an integer over 2^s
      let nd := asQuot m q
      let s : Nat := 200
      let quo := nd.2 * 2 ^ (2 * s) / nd.1
      let r := Nat.sqrt quo
      let ex := decide (r * r = quo) && decide (nd.2 * 2 ^ (2 * s) % nd.1 = 0)
      let e := fmtF32.ulpExp r (-(s : Int))
      let sh := (e + s).toNat
      windrowResult 2 x false (fmtF32.packUlps (r / 2 ^ sh) e) (ex && decide (r % 2 ^ sh = 0))

/-- The Taylor sum Σ r^k ÷ k! over `n` terms, in fixed point with `p` fraction bits. -/
def expTaylor (p : Nat) (r : Int) : Nat → Nat → Int → Int → Int
  | 0, _, _, acc => acc
  | n + 1, k, term, acc =>
    let term' := term * r / ((k : Int) * 2 ^ p)
    expTaylor p r n (k + 1) term' (acc + term')

/-- Square a fixed-point number `n` times. -/
def sqTimes (p : Nat) : Nat → Int → Int
  | 0, v => v
  | n + 1, v => sqTimes p n (v * v / 2 ^ p)

/-- exp of m · 2^q as a fixed-point number with 400 fraction bits, for a magnitude below 2^7:
the argument is divided by 2^16, summed and squared 16 times. -/
def expFixed (neg : Bool) (m : Nat) (q : Int) : Int :=
  let p : Nat := 400
  let e : Int := q + p - 16
  let mag : Int := if 0 ≤ e then (m : Int) * 2 ^ e.toNat else (m : Int) / 2 ^ (-e).toNat
  let r := if neg then -mag else mag
  sqTimes p 16 (expTaylor p r 40 1 (2 ^ p) (2 ^ p))

/-- exp (R90); exp(+∞) = +∞ and exp(−∞) = +0. Past the range of fp32 it is +∞ above and within 1 ulp of 0
below. -/
def f32Exp (x : BitVec 32) : BitVec 32 :=
  match f32 x with
  | .nan => f32NaN
  | .inf neg => if neg then f32Zero else f32Inf
  | .fin neg m q =>
    if m = 0 then windrowResult 0 x false f32One.toNat true
    else if 7 ≤ (Nat.log2 m : Int) + q then
      (if neg then windrowResult 0 x false 0 false else f32Inf)
    else
      -- a value between 1 and the next number above or below it, for arguments below 2^-30
      if (Nat.log2 m : Int) + q < -30 then
        windrowResult 0 x false (if neg then f32One.toNat - 1 else f32One.toNat) false
      else
        let v := (expFixed neg m q).toNat
        if v = 0 then windrowResult 0 x false 0 false
        else
          let e := fmtF32.ulpExp v (-400)
          windrowResult 0 x false (fmtF32.packUlps (v / 2 ^ (e + 400).toNat) e) false

/-! ### Ac44 and the arrays' accumulation (R85 to R87) -/

/-- The number an accumulator holds. -/
def ac44 (a : BitVec 44) : Num :=
  let v := a.toNat
  if field v 33 10 = 0x3FF then (if bitOf v 32 then .nan else .inf (bitOf v 43))
  else fmtAc44.decode v

/-- A number as Ac44, rounded to nearest even; a non-finite one carries the payload (R85). -/
def toAc44 (x : Num) (payload : Nat) : BitVec 44 :=
  let p := payload % 2 ^ 16
  match x with
  | .nan => BitVec.ofNat 44 (0x7FF * 2 ^ 32 + p)
  | .inf neg => BitVec.ofNat 44 (0x3FF * 2 ^ 33 + p + fmtAc44.signBit neg)
  | .fin neg m q =>
    let mag := fmtAc44.roundMag m q
    if fmtAc44.maxBits < mag then BitVec.ofNat 44 (0x3FF * 2 ^ 33 + p + fmtAc44.signBit neg)
    else BitVec.ofNat 44 (mag + fmtAc44.signBit neg)

/-- The accumulator is non-finite. -/
def acNonfinite (a : BitVec 44) : Bool := field a.toNat 33 10 == 0x3FF

/-- The K-block payload of a non-finite accumulator (R85). -/
def acPayload (a : BitVec 44) : Nat := field a.toNat 0 16

/-- One add into an accumulator with one rounding; a payload once set never changes (R85, R86). -/
def acAdd (a : BitVec 44) (x : Num) (kblock : Nat) : BitVec 44 :=
  toAc44 ((ac44 a).add x) (if acNonfinite a then acPayload a else min kblock 0xFFFE)

/-- A preload value as Ac44; a non-finite one carries the payload 0xFFFF (R73, R85). -/
def acPreload (x : Num) : BitVec 44 := toAc44 x 0xFFFF

/-- A residue modulo 7 as the position carries it (R77): that of the significand. -/
def acResidue (a : BitVec 44) : Nat :=
  let e := field a.toNat 33 10
  (field a.toNat 0 33 + if e = 0 ∨ e = 0x3FF then 0 else 2 ^ 33) % 7

/-- One pair of elements of a K block, and the two block scales as E8M0 bytes. -/
structure KPair where
  a : Num
  w : Num
deriving DecidableEq, Repr

/-- The exact sum of a block's products, or what stands in its place (R87); `none` leaves the accumulator
bit-identical. -/
def blockSum (pairs : List KPair) (sa sw : Nat) : Option Num :=
  let prods := pairs.map (fun p => p.a.mul p.w)
  let anyNan := prods.any (fun x => x = .nan)
  let pos := prods.any (fun x => x = .inf false)
  let neg := prods.any (fun x => x = .inf true)
  if sa = 0xFF ∨ sw = 0xFF ∨ anyNan then some .nan
  else if pos ∧ neg then some .nan
  else if pos then some (.inf false)
  else if neg then some (.inf true)
  else
    match prods.foldl Num.add (.fin false 0 0) with
    | .fin n m q => if m = 0 then none else some (.fin n m (q + ((sa : Int) - 127) + ((sw : Int) - 127)))
    | x => some x

/-- Add one K block into an accumulator, with the only rounding (R87). -/
def acAddBlock (a : BitVec 44) (pairs : List KPair) (sa sw kblock : Nat) : BitVec 44 :=
  match blockSum pairs sa sw with
  | none => a
  | some x => acAdd a x kblock

/-! ### Drain conversions and stochastic rounding (R88, R89) -/

/-- One step of the 32-bit Galois LFSR of R89 (log entry 7). -/
def lfsrStep (v : BitVec 32) : BitVec 32 :=
  if v.toNat % 2 = 1 then (v >>> 1) ^^^ 0x80200003#32 else v >>> 1

/-- The next 16 bits of the LFSR, first bit lowest, and the state after them. -/
def lfsr16 (v : BitVec 32) : Nat × BitVec 32 :=
  (List.range 16).foldl (fun (s : Nat × BitVec 32) i =>
    (s.1 + (s.2.toNat % 2) * 2 ^ i, lfsrStep s.2)) (0, v)

/-- The seed in use: 0 is replaced by 1 (R89). -/
def lfsrSeed (v : BitVec 32) : BitVec 32 := if v = 0#32 then 1#32 else v

/-- bf16 with stochastic rounding by the 16 random bits `r` (R89). -/
def bf16Stochastic (x : Num) (r : Nat) : Nat :=
  match x with
  | .fin neg m q =>
    if m = 0 then fmtBf16.signBit neg
    else
      let e := fmtBf16.ulpExp m q
      if e ≤ q then fmtBf16.encode false x
      else
        let s := (e - q).toNat
        let n := m / 2 ^ s
        let f := (m % 2 ^ s) * 2 ^ 16 / 2 ^ s
        let n' := if 65536 ≤ f + r then n + 1 else n
        let mag := if n' = 0 then 0 else fmtBf16.packUlps n' e
        (if fmtBf16.maxBits < mag then fmtBf16.infBits else mag) + fmtBf16.signBit neg
  | _ => fmtBf16.encode false x

/-- The drain format of a code; codes 5 to 7 are reserved (R88). -/
def drainFmt (code : Nat) : Option FpFmt :=
  match code with
  | 0 => some fmtF32
  | 1 => some fmtBf16
  | 2 => some fmtBf16
  | 3 => some fmtE4M3
  | 4 => some fmtE5M2
  | _ => none

/-- A value in the format of a drain code: the fp8 formats saturate (R88). -/
def drainConvert (code : Nat) (x : Num) (r : Nat) : Nat :=
  match code with
  | 0 => fmtF32.encode false x
  | 1 => fmtBf16.encode false x
  | 2 => bf16Stochastic x r
  | 3 => fmtE4M3.encode true x
  | _ => fmtE5M2.encode true x

/-! ### MX quantise (R91) -/

/-- emax_elem of an element format (R91). -/
def mxEmax (f : FpFmt) : Int :=
  if f = fmtE4M3 then 8 else if f = fmtE5M2 then 15 else if f = fmtE3M2 then 4 else 2

/-- floor(log2) of a finite positive magnitude. -/
def floorLog2 (m : Nat) (q : Int) : Int := (Nat.log2 m : Int) + q

/-- The scale byte and the element encodings of one block (R91). -/
def mxQuant (f : FpFmt) (vs : List (BitVec 32)) : Nat × List Nat :=
  let xs := vs.map f32
  if xs.any Num.nonfinite then (0xFF, vs.map (fun _ => 0))
  else
    let amax := vs.foldl (fun a v => f32Max a (f32Abs v)) f32Zero
    match f32 amax with
    | .fin _ m q =>
      if m = 0 then (0, vs.map (fun _ => 0))
      else
        let x := max (floorLog2 m q - mxEmax f) (-127)
        ((x + 127).toNat, xs.map (fun v => match v with
          | .fin n m' q' => f.encode true (.fin n m' (q' - x))
          | y => f.encode true y))
    | _ => (0xFF, vs.map (fun _ => 0))

end Sys2Proof.Machine
end

