-- ==== Sys2Proof/Machine/Events.lean ====
section
/-!
DEFINITION. The events of every subsystem (R17 to R19 and the event table of each chapter): a name, a code and
exactly one severity each.
-/
namespace Sys2Proof.Machine

/-- The severities, in their encoding 0 to 3 (R18). -/
inductive Severity where
  | info | degraded | fault | dangerous
deriving DecidableEq, Repr

/-- The encoding of a severity (R18). -/
def Severity.code : Severity → Nat
  | .info => 0
  | .degraded => 1
  | .fault => 2
  | .dangerous => 3

/-- Every event of the module, named as its chapter names it. -/
inductive Event where
  /-- BAND_DARK -/
  | bandDark
  /-- RETIRE_ACCEPTED -/
  | retireAccepted
  /-- ROUTE_FAULT -/
  | routeFault
  /-- FP_RECORD_FAULT -/
  | fpRecordFault
  /-- RESIDUE_MISMATCH -/
  | residueMismatch
  /-- RESIDUE_REPEAT -/
  | residueRepeat
  /-- MX_ILLEGAL -/
  | mxIllegal
  /-- NONFINITE_TILE -/
  | nonfiniteTile
  /-- POISON_CONSUMED -/
  | poisonConsumed
  /-- SLIP_LIMIT -/
  | slipLimit
  /-- STREAM_PARITY -/
  | streamParity
  /-- FETCH_POISON -/
  | fetchPoison
  /-- LOOP_FAULT -/
  | loopFault
  /-- SLOT_ILLEGAL -/
  | slotIllegal
  /-- AG_RANGE -/
  | agRange
  /-- DESC_SEQ -/
  | descSeq
  /-- DESC_KIND -/
  | descKind
  /-- PM_DEFERRED -/
  | pmDeferred
  /-- IMAGE_WRITE -/
  | imageWrite
  /-- LEA_FORMED -/
  | leaFormed
  /-- LEA_STOPPED -/
  | leaStopped
  /-- LEA_DIVERGENCE -/
  | leaDivergence
  /-- LEA_MEMBER_PAUSED -/
  | leaMemberPaused
  /-- LEA_MEMBER_LOST -/
  | leaMemberLost
  /-- BARRIER_OVERDUE -/
  | barrierOverdue
  /-- LEA_INPUT_LATE -/
  | leaInputLate
  /-- LEA_PACE_CHANGED -/
  | leaPaceChanged
  /-- LEA_MEMBER_FAULTED -/
  | leaMemberFaulted
  /-- TL_CORRECTED -/
  | tlCorrected
  /-- TL_UNCORRECTABLE -/
  | tlUncorrectable
  /-- CROSS_CAL_FAIL -/
  | crossCalFail
  /-- CROSS_MARGIN -/
  | crossMargin
  /-- MEM_CORRECTED -/
  | memCorrected
  /-- MEM_UNCORRECTABLE -/
  | memUncorrectable
  /-- MEM_POISON_READ -/
  | memPoisonRead
  /-- MERGE_ON_POISON -/
  | mergeOnPoison
  /-- SCRUB_UNCORRECTABLE -/
  | scrubUncorrectable
  /-- SCRUB_OVERDUE -/
  | scrubOverdue
  /-- META_UNCORRECTABLE -/
  | metaUncorrectable
  /-- CHECKER_TEST -/
  | checkerTest
  /-- GLN_UNCORRECTABLE -/
  | glnUncorrectable
  /-- GLN_WATCHDOG -/
  | glnWatchdog
  /-- GLN_PROGRAM_ERROR -/
  | glnProgramError
  /-- GLN_ABORTED -/
  | glnAborted
  /-- GLN_COMPLETION_LOST -/
  | glnCompletionLost
  /-- RICK_THRASH -/
  | rickThrash
  /-- READ_AFTER_FALLOW -/
  | readAfterFallow
  /-- RICK_DATA_UE -/
  | rickDataUe
  /-- RICK_TAG_FAULT -/
  | rickTagFault
  /-- DMA_DESC_FAULT -/
  | dmaDescFault
  /-- DMA_QUEUE_HALTED -/
  | dmaQueueHalted
  /-- DMA_DEADLINE -/
  | dmaDeadline
  /-- DMA_RESET_ABORT -/
  | dmaResetAbort
  /-- DMA_HOST_ERROR -/
  | dmaHostError
  /-- WALK_FAULT -/
  | walkFault
  /-- PAGE_FAULT -/
  | pageFault
  /-- PUBLISH_REFUSED -/
  | publishRefused
  /-- STEP_SKIPPED -/
  | stepSkipped
  /-- SIDE_KIND -/
  | sideKind
  /-- OPT_UPDATE_FAILED -/
  | optUpdateFailed
  /-- HDG_PORT_UP -/
  | hdgPortUp
  /-- HDG_PORT_DOWN -/
  | hdgPortDown
  /-- HDG_PORT_FAILED -/
  | hdgPortFailed
  /-- HDG_FEC_DEGRADED -/
  | hdgFecDegraded
  /-- HDG_PEER_CHANGED -/
  | hdgPeerChanged
  /-- HDG_XFER_MISMATCH -/
  | hdgXferMismatch
  /-- HDG_BE_DROPPED -/
  | hdgBeDropped
  /-- JNL_LINK_UP -/
  | jnlLinkUp
  /-- JNL_LINK_LOST -/
  | jnlLinkLost
  /-- JNL_LINK_FAILED -/
  | jnlLinkFailed
  /-- JNL_FEC_DEGRADED -/
  | jnlFecDegraded
  /-- NODE_ID_DEFAULT -/
  | nodeIdDefault
  /-- MGMT_HEARTBEAT_LOST -/
  | mgmtHeartbeatLost
  /-- CAN_BUS_OFF -/
  | canBusOff
  /-- PDO_OVERRUN -/
  | pdoOverrun
  /-- PLANE_MISMATCH -/
  | planeMismatch
  /-- LOG_UNREAD_LOST -/
  | logUnreadLost
  /-- PM_REJECTED -/
  | pmRejected
  /-- NMT_STATE -/
  | nmtState
  /-- PHASE_FAILED -/
  | phaseFailed
  /-- PHASE_LIMIT -/
  | phaseLimit
  /-- PHASE_COLLAPSE -/
  | phaseCollapse
  /-- BAND_OVERCURRENT -/
  | bandOvercurrent
  /-- RAIL_FAULT -/
  | railFault
  /-- INPUT_UNDERVOLT -/
  | inputUndervolt
  /-- CAP_EXCEEDED -/
  | capExceeded
  /-- DROOP_SEVERE -/
  | droopSevere
  /-- AGEING_TRIM -/
  | ageingTrim
  /-- AGEING_LIMIT -/
  | ageingLimit
  /-- AGEING_EXHAUSTED -/
  | ageingExhausted
  /-- THM_THROTTLE -/
  | thmThrottle
  /-- THM_MAX -/
  | thmMax
  /-- THM_DANGEROUS -/
  | thmDangerous
  /-- THM_PAIR_SUSPECT -/
  | thmPairSuspect
  /-- THM_LAYER_SUSPECT -/
  | thmLayerSuspect
  /-- STACK_OVERTEMP -/
  | stackOvertemp
  /-- COOLANT_LOW -/
  | coolantLow
  /-- COOLANT_FAULT -/
  | coolantFault
  /-- COOLANT_LOSS -/
  | coolantLoss
  /-- COOLANT_INLET -/
  | coolantInlet
  /-- FLOW_SENSOR_SUSPECT -/
  | flowSensorSuspect
  /-- ROTATION -/
  | rotation
  /-- ROT_SUSPENDED -/
  | rotSuspended
  /-- SAFE_STATE -/
  | safeState
  /-- SAFE_STATE_LEFT -/
  | safeStateLeft
  /-- MC_WATCHDOG -/
  | mcWatchdog
  /-- WEIGHT_MISMATCH -/
  | weightMismatch
  /-- SENSOR_FAULT -/
  | sensorFault
  /-- FP_PASS_LATE -/
  | fpPassLate
  /-- CAIRN_DROPPED -/
  | cairnDropped
  /-- CAIRN_FAULT -/
  | cairnFault
  /-- FI_INJECTED -/
  | fiInjected
  /-- SAFE_REQUESTED -/
  | safeRequested
  /-- SEC_FW_FALLBACK -/
  | secFwFallback
  /-- SEC_RECOVERY -/
  | secRecovery
  /-- SEC_VERIFY_FAIL -/
  | secVerifyFail
  /-- AUTH_OPENED -/
  | authOpened
  /-- AUTH_CLOSED -/
  | authClosed
  /-- AUTH_REJECTED -/
  | authRejected
  /-- AUTH_LOCKOUT -/
  | authLockout
  /-- ATTEST_SIGNED -/
  | attestSigned
  /-- SEC_KEY_CHANGED -/
  | secKeyChanged
  /-- SVN_COMMITTED -/
  | svnCommitted
  /-- BU_BOOT -/
  | buBoot
  /-- BU_STEP_DONE -/
  | buStepDone
  /-- BU_STEP_FAILED -/
  | buStepFailed
  /-- IMAGE_LOADED -/
  | imageLoaded
  /-- IMAGE_STARTED -/
  | imageStarted
  /-- RESET_DONE -/
  | resetDone
  /-- SELFTEST_UNIT_FAIL -/
  | selftestUnitFail
deriving DecidableEq, Repr

/-- The 16-bit event code: subsystem in [15:8] (R17). -/
def Event.code : Event → Nat
  | .bandDark => 0x0101
  | .retireAccepted => 0x0102
  | .routeFault => 0x0103
  | .fpRecordFault => 0x0104
  | .residueMismatch => 0x0201
  | .residueRepeat => 0x0202
  | .mxIllegal => 0x0203
  | .nonfiniteTile => 0x0204
  | .poisonConsumed => 0x0205
  | .slipLimit => 0x0301
  | .streamParity => 0x0302
  | .fetchPoison => 0x0303
  | .loopFault => 0x0304
  | .slotIllegal => 0x0305
  | .agRange => 0x0306
  | .descSeq => 0x0307
  | .descKind => 0x0308
  | .pmDeferred => 0x0309
  | .imageWrite => 0x030A
  | .leaFormed => 0x0311
  | .leaStopped => 0x0312
  | .leaDivergence => 0x0313
  | .leaMemberPaused => 0x0314
  | .leaMemberLost => 0x0315
  | .barrierOverdue => 0x0316
  | .leaInputLate => 0x0317
  | .leaPaceChanged => 0x0318
  | .leaMemberFaulted => 0x0319
  | .tlCorrected => 0x0401
  | .tlUncorrectable => 0x0402
  | .crossCalFail => 0x0403
  | .crossMargin => 0x0404
  | .memCorrected => 0x0501
  | .memUncorrectable => 0x0502
  | .memPoisonRead => 0x0503
  | .mergeOnPoison => 0x0504
  | .scrubUncorrectable => 0x0505
  | .scrubOverdue => 0x0506
  | .metaUncorrectable => 0x0507
  | .checkerTest => 0x0508
  | .glnUncorrectable => 0x0601
  | .glnWatchdog => 0x0602
  | .glnProgramError => 0x0603
  | .glnAborted => 0x0604
  | .glnCompletionLost => 0x0605
  | .rickThrash => 0x0701
  | .readAfterFallow => 0x0702
  | .rickDataUe => 0x0703
  | .rickTagFault => 0x0704
  | .dmaDescFault => 0x0801
  | .dmaQueueHalted => 0x0802
  | .dmaDeadline => 0x0803
  | .dmaResetAbort => 0x0804
  | .dmaHostError => 0x0805
  | .walkFault => 0x0901
  | .pageFault => 0x0902
  | .publishRefused => 0x0903
  | .stepSkipped => 0x0A01
  | .sideKind => 0x0A02
  | .optUpdateFailed => 0x0A03
  | .hdgPortUp => 0x0B01
  | .hdgPortDown => 0x0B02
  | .hdgPortFailed => 0x0B03
  | .hdgFecDegraded => 0x0B04
  | .hdgPeerChanged => 0x0B05
  | .hdgXferMismatch => 0x0B06
  | .hdgBeDropped => 0x0B07
  | .jnlLinkUp => 0x0C01
  | .jnlLinkLost => 0x0C02
  | .jnlLinkFailed => 0x0C03
  | .jnlFecDegraded => 0x0C04
  | .nodeIdDefault => 0x0D01
  | .mgmtHeartbeatLost => 0x0D02
  | .canBusOff => 0x0D03
  | .pdoOverrun => 0x0D04
  | .planeMismatch => 0x0D05
  | .logUnreadLost => 0x0D06
  | .pmRejected => 0x0D07
  | .nmtState => 0x0D08
  | .phaseFailed => 0x0E01
  | .phaseLimit => 0x0E02
  | .phaseCollapse => 0x0E03
  | .bandOvercurrent => 0x0E04
  | .railFault => 0x0E05
  | .inputUndervolt => 0x0E06
  | .capExceeded => 0x0E07
  | .droopSevere => 0x0E08
  | .ageingTrim => 0x0E09
  | .ageingLimit => 0x0E0A
  | .ageingExhausted => 0x0E0B
  | .thmThrottle => 0x0F01
  | .thmMax => 0x0F02
  | .thmDangerous => 0x0F03
  | .thmPairSuspect => 0x0F04
  | .thmLayerSuspect => 0x0F05
  | .stackOvertemp => 0x0F06
  | .coolantLow => 0x0F07
  | .coolantFault => 0x0F08
  | .coolantLoss => 0x0F09
  | .coolantInlet => 0x0F0A
  | .flowSensorSuspect => 0x0F0B
  | .rotation => 0x0F0C
  | .rotSuspended => 0x0F0D
  | .safeState => 0x1001
  | .safeStateLeft => 0x1002
  | .mcWatchdog => 0x1003
  | .weightMismatch => 0x1004
  | .sensorFault => 0x1005
  | .fpPassLate => 0x1006
  | .cairnDropped => 0x1007
  | .cairnFault => 0x1008
  | .fiInjected => 0x1009
  | .safeRequested => 0x100A
  | .secFwFallback => 0x1101
  | .secRecovery => 0x1102
  | .secVerifyFail => 0x1103
  | .authOpened => 0x1104
  | .authClosed => 0x1105
  | .authRejected => 0x1106
  | .authLockout => 0x1107
  | .attestSigned => 0x1108
  | .secKeyChanged => 0x1109
  | .svnCommitted => 0x110A
  | .buBoot => 0x1201
  | .buStepDone => 0x1202
  | .buStepFailed => 0x1203
  | .imageLoaded => 0x1204
  | .imageStarted => 0x1205
  | .resetDone => 0x1206
  | .selftestUnitFail => 0x1207

/-- The event's one severity (R18). -/
def Event.severity : Event → Severity
  | .bandDark => .degraded
  | .retireAccepted => .info
  | .routeFault => .fault
  | .fpRecordFault => .fault
  | .residueMismatch => .degraded
  | .residueRepeat => .fault
  | .mxIllegal => .fault
  | .nonfiniteTile => .info
  | .poisonConsumed => .degraded
  | .slipLimit => .info
  | .streamParity => .fault
  | .fetchPoison => .fault
  | .loopFault => .fault
  | .slotIllegal => .fault
  | .agRange => .fault
  | .descSeq => .fault
  | .descKind => .fault
  | .pmDeferred => .info
  | .imageWrite => .degraded
  | .leaFormed => .info
  | .leaStopped => .info
  | .leaDivergence => .dangerous
  | .leaMemberPaused => .degraded
  | .leaMemberLost => .degraded
  | .barrierOverdue => .fault
  | .leaInputLate => .info
  | .leaPaceChanged => .info
  | .leaMemberFaulted => .degraded
  | .tlCorrected => .info
  | .tlUncorrectable => .degraded
  | .crossCalFail => .fault
  | .crossMargin => .info
  | .memCorrected => .info
  | .memUncorrectable => .degraded
  | .memPoisonRead => .info
  | .mergeOnPoison => .degraded
  | .scrubUncorrectable => .degraded
  | .scrubOverdue => .degraded
  | .metaUncorrectable => .fault
  | .checkerTest => .info
  | .glnUncorrectable => .degraded
  | .glnWatchdog => .fault
  | .glnProgramError => .degraded
  | .glnAborted => .info
  | .glnCompletionLost => .info
  | .rickThrash => .info
  | .readAfterFallow => .info
  | .rickDataUe => .degraded
  | .rickTagFault => .fault
  | .dmaDescFault => .fault
  | .dmaQueueHalted => .degraded
  | .dmaDeadline => .info
  | .dmaResetAbort => .degraded
  | .dmaHostError => .degraded
  | .walkFault => .info
  | .pageFault => .info
  | .publishRefused => .info
  | .stepSkipped => .info
  | .sideKind => .fault
  | .optUpdateFailed => .degraded
  | .hdgPortUp => .info
  | .hdgPortDown => .degraded
  | .hdgPortFailed => .fault
  | .hdgFecDegraded => .degraded
  | .hdgPeerChanged => .info
  | .hdgXferMismatch => .fault
  | .hdgBeDropped => .info
  | .jnlLinkUp => .info
  | .jnlLinkLost => .degraded
  | .jnlLinkFailed => .fault
  | .jnlFecDegraded => .degraded
  | .nodeIdDefault => .info
  | .mgmtHeartbeatLost => .dangerous
  | .canBusOff => .degraded
  | .pdoOverrun => .info
  | .planeMismatch => .degraded
  | .logUnreadLost => .info
  | .pmRejected => .degraded
  | .nmtState => .info
  | .phaseFailed => .degraded
  | .phaseLimit => .degraded
  | .phaseCollapse => .dangerous
  | .bandOvercurrent => .dangerous
  | .railFault => .fault
  | .inputUndervolt => .degraded
  | .capExceeded => .info
  | .droopSevere => .degraded
  | .ageingTrim => .info
  | .ageingLimit => .degraded
  | .ageingExhausted => .degraded
  | .thmThrottle => .info
  | .thmMax => .degraded
  | .thmDangerous => .dangerous
  | .thmPairSuspect => .degraded
  | .thmLayerSuspect => .degraded
  | .stackOvertemp => .degraded
  | .coolantLow => .degraded
  | .coolantFault => .fault
  | .coolantLoss => .dangerous
  | .coolantInlet => .degraded
  | .flowSensorSuspect => .degraded
  | .rotation => .info
  | .rotSuspended => .degraded
  | .safeState => .fault
  | .safeStateLeft => .info
  | .mcWatchdog => .dangerous
  | .weightMismatch => .dangerous
  | .sensorFault => .degraded
  | .fpPassLate => .degraded
  | .cairnDropped => .degraded
  | .cairnFault => .fault
  | .fiInjected => .info
  | .safeRequested => .dangerous
  | .secFwFallback => .degraded
  | .secRecovery => .fault
  | .secVerifyFail => .degraded
  | .authOpened => .info
  | .authClosed => .info
  | .authRejected => .degraded
  | .authLockout => .degraded
  | .attestSigned => .info
  | .secKeyChanged => .info
  | .svnCommitted => .info
  | .buBoot => .info
  | .buStepDone => .info
  | .buStepFailed => .degraded
  | .imageLoaded => .info
  | .imageStarted => .info
  | .resetDone => .info
  | .selftestUnitFail => .degraded

end Sys2Proof.Machine
end

