-- ==== Sys2Proof/Machine/StateMgmt.lean ====
section
/-!
DEFINITION. The management plane's part of State: time, the CAN FD node, the unit state table, the event log,
the beacon, the cairn, fingerprints and fault injection (R388 to R410, R457 to R480, R523).
-/
namespace Sys2Proof.Machine

/-- Time, and the counts of values the model leaves free. -/
structure Clock where
  /-- µs since the last power-up (R465) -/
  timeUs : Nat
  /-- the value of `timeUs` at the last full reset -/
  resetUs : Nat
  /-- the model's own count of undefined bytes drawn (log entry 4) -/
  freeCtr : Nat
  /-- the model's own count of challenges drawn (log entry 5) -/
  challengeCtr : Nat
  /-- the model's own count of signatures made (log entry 5) -/
  signCtr : Nat
deriving DecidableEq, Repr

/-- The states of a unit (R403), in the order of their codes. -/
inductive UState where
  | off | fenced | degraded | ready | run | fault
deriving DecidableEq, Repr

/-- The state codes of R403. -/
def UState.code : UState → Nat
  | .off => 0
  | .fenced => 1
  | .degraded => 2
  | .ready => 3
  | .run => 4
  | .fault => 5

/-- What the management plane and the unit itself record about one unit, beside what power and work give. -/
structure UnitRec where
  /-- FAULT of a kind the management plane owns (R404) -/
  mgmtFault : Bool
  /-- FAULT the unit itself reports (R404) -/
  dataFault : Bool
  /-- fenced by the management plane (R404) -/
  fenced : Bool
  /-- recorded as running with reduced capacity (R404) -/
  degraded : Bool
  /-- the data view, where the unit has not brought it into agreement with the management view (R404) -/
  lag : Option UState
  /-- comparisons in a row that found the views in disagreement, at most 2 (R404) -/
  seen : Nat
  /-- the mismatch bit (R405) -/
  mismatch : Bool
  /-- when a force waits for a barrier: the time at which the disagreement was found (R405) -/
  forceAt : Option Nat
deriving DecidableEq, Repr

/-- A unit about which nothing is recorded. -/
def UnitRec.none : UnitRec := ⟨false, false, false, false, .none, 0, false, .none⟩

/-- The unit state table and its objects (R403 to R406). -/
structure Units where
  /-- by unit ID: class in [31:16], instance in [15:0] -/
  recs : Map UnitRec
  unitSelect : BitVec 32
  mismatchCount : BitVec 32
  firstMismatch : BitVec 64
deriving DecidableEq, Repr

/-- The common event record (R465). -/
structure EventRec where
  event : Event
  test : Bool
  cairn : Bool
  unit : BitVec 32
  index : BitVec 64
  timeUs : Nat
  step : BitVec 48
  barSeq : BitVec 48
  modState : UState
  payload : Bytes
deriving DecidableEq, Repr

/-- The event log (R407) and its objects. -/
structure Log where
  /-- the records held, oldest first: at most 1,024 -/
  ring : List EventRec
  next : BitVec 64
  select : BitVec 64
  read : BitVec 64
  unreadLost : BitVec 32
  emcySeverity : BitVec 8
  pdoOverruns : BitVec 32
  /-- last second in which LOG_UNREAD_LOST was raised (at most once per second), plus 1 -/
  lostRaised : Nat
  /-- last second in which PDO_OVERRUN was raised, plus 1 -/
  overrunRaised : Nat
deriving DecidableEq, Repr

/-- NMT states (R392). -/
inductive Nmt where
  | preOperational | operational | stopped
deriving DecidableEq, Repr

/-- A frame the node has put on the bus: COB-ID and data. The list of them is the model's own output. -/
structure CanFrame where
  cobId : Nat
  data : Bytes
deriving DecidableEq, Repr

/-- One transmit PDO (R395 to R397). -/
structure Tpdo where
  cobId : BitVec 32
  ttype : BitVec 8
  inhibit : BitVec 16
  timer : BitVec 16
  mapCount : BitVec 8
  map : List (BitVec 32)
  /-- SYNC frames since the last instance (R396) -/
  syncs : Nat
  /-- the queued instance's data (R396) -/
  queued : Option Bytes
deriving DecidableEq, Repr

/-- An open segmented transfer (R390). -/
structure SdoTransfer where
  download : Bool
  index : Nat
  sub : Nat
  /-- served as USDO (an FD frame) rather than SDO (R389) -/
  usdo : Bool
  /-- bytes announced -/
  size : Nat
  /-- upload: what is still to send from the snapshot; download: what has arrived -/
  data : Bytes
deriving DecidableEq, Repr

/-- What the server says in an answer (R389, R394). -/
inductive SdoResult where
  /-- the write has taken effect -/
  | done
  /-- the object's value, in the answer itself -/
  | data (bytes : Bytes)
  /-- a segmented transfer of that many bytes is open -/
  | opened (size : Nat)
  /-- the segment of a download has been taken -/
  | more
  /-- a segment of an upload, and whether it is the last -/
  | segment (bytes : Bytes) (last : Bool)
  | abort (code : Nat)
deriving DecidableEq, Repr

/-- An answer of the SDO or USDO server: the model's own output (log entry 43). -/
structure SdoAnswer where
  fd : Bool
  index : Nat
  sub : Nat
  result : SdoResult
deriving DecidableEq, Repr

/-- The CAN FD node (R388 to R397). -/
structure Can where
  nmt : Nmt
  strapNodeId : BitVec 7
  nodeIdOverride : BitVec 8
  activeNodeId : BitVec 8
  errorRegister : BitVec 8
  syncCobId : BitVec 32
  consumerHb : BitVec 32
  /-- MGMT_HEARTBEAT_LOST has been raised and no heartbeat has arrived since (R393, R523) -/
  hbLost : Bool
  /-- a heartbeat has arrived since the loss that set SAFE_CAUSE bit 5 (R464) -/
  hbBack : Bool
  busOff : Bool
  tpdos : List Tpdo
  transfer : Option SdoTransfer
  /-- frames put on the bus, oldest first: the model's own output -/
  out : List CanFrame
  /-- answers of the SDO and USDO server, oldest first: the model's own output -/
  answers : List SdoAnswer
deriving DecidableEq, Repr

/-- Kinds of a cairn record (R467). -/
inductive CairnKind where
  | event | snapshot | seal | powerOn | clear | verdict
deriving DecidableEq, Repr

/-- The code of a record kind (R467). -/
def CairnKind.code : CairnKind → Nat
  | .event => 1
  | .snapshot => 2
  | .seal => 3
  | .powerOn => 4
  | .clear => 5
  | .verdict => 6

/-- A record waiting to be written: what R467 lets it hold before RECNO and chain are known. -/
structure CairnPending where
  kind : CairnKind
  /-- FLAGS[2] -/
  test : Bool
  /-- the event record of a KIND 1 or 6 record -/
  event : Option EventRec
  /-- bytes 192 on -/
  body : Bytes
  timeUs : Nat
  /-- a seal is due after this record (R468) -/
  thenSeal : Bool
deriving DecidableEq, Repr

/-- A record of the ring: its 4,096 bytes as written (R467). -/
abbrev CairnBytes := Bytes

/-- The cairn (R466 to R471). -/
structure Cairn where
  /-- slot (RECNO mod 8,192) to record -/
  ring : Map CairnBytes
  /-- RECNO of the next record (control block) -/
  next : Nat
  /-- the first-fault area: at most 64 records -/
  firstFault : List CairnBytes
  /-- RECNO of the last seal; all ones before the first -/
  lastSeal : BitVec 64
  /-- records since the last seal, or since manufacture -/
  sinceSeal : Nat
  /-- chain value of the last record; 32 zero bytes before the first -/
  chain : Bytes
  /-- the 32-entry queue, in the order of writing; its head is the record being written -/
  queue : List CairnPending
  /-- dangerous events, snapshots and seals that wait for an entry (R469) -/
  waiting : List CairnPending
  select : BitVec 64
  dropped : BitVec 32
  faults : BitVec 32
  ffSelect : BitVec 8
  /-- power-ups since manufacture (R467) -/
  powerCycles : Nat
deriving DecidableEq, Repr

/-- The beacon and the safety objects (R459 to R464, R478). -/
structure Safe where
  active : Bool
  cause : BitVec 16
  entryMs : BitVec 32
  count : BitVec 32
  fallowStrict : Bool
  /-- when the management controller last signalled, in µs (R459) -/
  mcSignal : Nat
  /-- bands for which SENSOR_FAULT has been raised (R461) -/
  sensorFault : BitVec 16
deriving DecidableEq, Repr

/-- Weight fingerprints (R472 to R474, R478). -/
structure Fingerprint where
  planAddr : BitVec 64
  outAddr : BitVec 64
  pass : BitVec 64
  verdict : BitVec 64
  status : BitVec 8
  /-- SHARDS and entries of the accepted plan: BASE and PIECES -/
  shards : List (Nat × Nat)
  /-- when the plan was accepted, or the last pass fell due, in µs -/
  since : Nat
deriving DecidableEq, Repr

/-- Fault injection (R476 to R478). -/
structure Inject where
  target : BitVec 8
  mode : BitVec 8
  count : BitVec 16
  param : BitVec 64
  armed : Bool
  status : BitVec 8
  done : BitVec 16
  /-- target, mode, count and parameter of the armed injection -/
  armTarget : BitVec 8
  armMode : BitVec 8
  armCount : BitVec 16
  armParam : BitVec 64
  /-- the first flit of a pair to be swapped (mode 3): its port and its bytes -/
  swapHeld : Option (Nat × Bytes)
deriving DecidableEq, Repr

/-! ### Values after a full reset -/

/-- Time starts at 0. -/
def Clock.reset : Clock := ⟨0, 0, 0, 0, 0⟩

/-- The unit objects after a full reset (R406). -/
def Units.reset : Units := ⟨[], 0#32, 0#32, 0#64⟩

/-- The event log after a full reset: empty (R407). -/
def Log.reset : Log := ⟨[], 0#64, 0#64, 0#64, 0#32, 2#8, 0#32, 0, 0⟩

/-- TPDO n (0 to 7) at its defaults for a node-ID (R397). -/
def Tpdo.reset (node : Nat) (n : Nat) : Tpdo where
  cobId := if n < 4 then BitVec.ofNat 32 (0x180 + 0x100 * n + node) else 0x80000000#32
  ttype := 0xFE#8
  inhibit := 0#16
  timer := if n = 0 then 100#16 else 0#16
  mapCount := if n = 0 then 5#8 else 0#8
  map := if n = 0 then
      [0x10010008#32, 0x3E000140#32, 0x48020108#32, 0x48020240#32, 0x48400140#32] ++ List.replicate 27 0#32
    else List.replicate 32 0#32
  syncs := 0
  queued := none

/-- The node at boot, with the active node-ID `node` (R392). -/
def Can.reset (strap : BitVec 7) (override : BitVec 8) (node : Nat) : Can where
  nmt := .preOperational
  strapNodeId := strap
  nodeIdOverride := override
  activeNodeId := BitVec.ofNat 8 node
  errorRegister := 0#8
  syncCobId := 0x80#32
  consumerHb := 0#32
  hbLost := false
  hbBack := false
  busOff := false
  tpdos := (List.range 8).map (Tpdo.reset node)
  transfer := none
  out := []
  answers := []

/-- A cairn as manufactured (log entry 9). -/
def Cairn.reset : Cairn where
  ring := []
  next := 0
  firstFault := []
  lastSeal := 0xFFFFFFFFFFFFFFFF#64
  sinceSeal := 0
  chain := List.replicate 32 0#8
  queue := []
  waiting := []
  select := 0#64
  dropped := 0#32
  faults := 0#32
  ffSelect := 0#8
  powerCycles := 1

/-- The safety objects after a full reset (R478). -/
def Safe.reset : Safe := ⟨false, 0#16, 0#32, 0#32, false, 0, 0#16⟩

/-- The fingerprint objects after a full reset (R478). -/
def Fingerprint.reset : Fingerprint := ⟨0#64, 0#64, 0#64, 0#64, 0#8, [], 0⟩

/-- The injection objects after a full reset (R478). -/
def Inject.reset : Inject := ⟨0#8, 0#8, 0#16, 0#64, false, 0#8, 0#16, 0#8, 0#8, 0#16, 0#64, none⟩

end Sys2Proof.Machine
end

