-- ==== Sys2Proof/Machine/StateCells.lean ====
section
/-!
DEFINITION. The data plane's part of State around the cells: fuses and floor plan, planting map, cells, row
lanes and on-chip links, the instruction stream (R43 to R134, R164 to R182, R320 to R334).
-/
namespace Sys2Proof.Machine

/-! ### Fuses, floor plan and planting map -/

/-- The fuses burned at manufacture and in the field, and what survives loss of power beside the cairn
(R23, R47, R429, R482, R490). -/
structure Fuses where
  /-- manufacture row entries by d × 48 + r (R48); unlisted: 0x0FF0, a row whose spare is healthy (log entry 10) -/
  rows : Map (BitVec 16)
  /-- field retirements by d × 48 + r: the retired column plus 1; unlisted: none (R51) -/
  retired : Map Nat
  /-- failed phases, 24 bits a band (R429) -/
  phases : Map (BitVec 24)
  /-- the sixteen characters of SERIAL (R399) -/
  serial : Bytes
  mfgWeek : BitVec 16
  bootRom : BitVec 32
  /-- SM3 digests of firmware keys 0–3, and of the service key (R482) -/
  fwKeys : List Bytes
  revoked : BitVec 8
  svcKey : Bytes
  idPub : Bytes
  devCert : Bytes
  mcSvn : BitVec 8
  ccSvn : BitVec 8
deriving DecidableEq, Repr

/-- The floor plan record (R47). -/
structure Plan where
  usableCells : BitVec 16
  shortRows : BitVec 8
  darkBands : BitVec 16
  rowMap : Map (BitVec 16)
  digest : Bytes
  retire : BitVec 16
deriving DecidableEq, Repr

/-- A hop of a mesh source route (R56): a lateral direction, or the crossing to the other die at a row's end. -/
inductive Dir where
  | north | south | east | west | cross
deriving DecidableEq, Repr

/-- What the planting map assigns to a role (R124). -/
structure Role where
  /-- the role number, 0–4,607 -/
  number : Nat
  /-- the row (d × 48 + r) and logical column it is bound to; none: unbound -/
  bound : Option (Nat × Nat)
  /-- generators 0–31 (R125); unlisted: all zero -/
  gens : Map (BitVec 256)
  /-- routes 0–63; unlisted: empty -/
  routes : Map (List Dir)
  /-- stochastic-rounding seed (R89) -/
  seed : BitVec 32
deriving DecidableEq, Repr

/-- A planting map (R124). -/
structure PlantMap where
  roles : List Role
  /-- lane-source lists by row (R124) -/
  lanes : Map (List Nat)
  /-- the floor plan it was compiled for (R402) -/
  fpDigest : Bytes
  /-- SM3 of the map's bytes (R133) -/
  digest : Bytes
deriving DecidableEq, Repr

/-! ### One cell -/

/-- A 64-bit word on its way, with the invalid tag of R96. -/
structure TWord where
  d : BitVec 64
  bad : Bool
deriving DecidableEq, Repr

/-- A formed operand address: byte address in tile memory or Loam, and the MX scale address (R126). -/
structure OpAddr where
  space : Nat
  addr : Nat
  scale : Nat
deriving DecidableEq, Repr

/-- One matrix array's K-block state (R68, R87). -/
structure KState where
  /-- K elements taken since the tile's first advance -/
  taken : Nat
  /-- the open block's activation elements by logical row, and its weight elements by logical column -/
  a : List (List Num)
  w : List (List Num)
  /-- marks gathered so far in the tile (R93) -/
  poison : Bool
  residue : Bool
  /-- marked invalid by a rule other than those two: R68, R180 -/
  illegal : Bool
deriving DecidableEq, Repr

/-- A running ADV (R69, R117, R118). -/
structure Adv where
  word : BitVec 64
  a : OpAddr
  w : OpAddr
  /-- steps of the feed so far, and advances made -/
  steps : Nat
  made : Nat
  /-- activation bytes taken from a lane or link and not yet used, and how many were used -/
  act : Bytes
  actUsed : Nat
deriving DecidableEq, Repr

/-- A swap whose drain has not ended (R70). -/
structure Drain where
  word : BitVec 64
  /-- the tile's mode code -/
  mode : BitVec 2
  d : OpAddr
  s : OpAddr
  /-- the accumulators read out, by array × 512 + position -/
  acc : Map (BitVec 44)
  poison : Bool
  residue : Bool
  illegal : Bool
  /-- the mask descriptor and tb in force at the swap (R301) -/
  maskDesc : Option (BitVec 512)
  tb : Nat
  /-- steps until the drain ends -/
  left : Nat
deriving DecidableEq, Repr

/-- A running VX operation (R119). -/
structure VxRun where
  word : BitVec 64
  a : OpAddr
  b : OpAddr
  c : OpAddr
  d : OpAddr
  /-- 64-element units done -/
  unit : Nat
  lfsr : BitVec 32
  /-- a tagged word has been read (R96) -/
  bad : Bool
deriving DecidableEq, Repr

/-- A running MV operation (R120). -/
structure MvRun where
  word : BitVec 64
  src : OpAddr
  dst : OpAddr
  /-- units sent or moved, and units received -/
  tx : Nat
  rx : Nat
deriving DecidableEq, Repr

/-- Words that land in tile memory after some more steps (R168). -/
structure Landing where
  left : Nat
  word : Nat
  data : List TWord
deriving DecidableEq, Repr

/-- An entry of the windrow side memory, as a code word with its kind (R320). -/
structure SideEntry where
  w : BitVec 64
  check : BitVec 8
  kind : BitVec 3
deriving DecidableEq, Repr

/-- A line of a cell's L1: 1 KiB at a swath address (R239). -/
structure L1Line where
  line : Nat
  data : Bytes
  /-- words (32 B each) that carry poison -/
  bad : BitVec 32
deriving DecidableEq, Repr

/-- One cell (R43). -/
structure CellState where
  /-- 9 bytes a word: 8 data bytes and the check byte (R170) -/
  tile : Mem
  loam : Mem
  /-- 0 Square, 1 Wide, 2 Sliver (R65) -/
  mode : BitVec 2
  /-- accumulators by array × 512 + pr × 32 + pc (R65, R85) -/
  acc : Map (BitVec 44)
  k : List KState
  /-- arrays that have advanced in the current tile -/
  arrays : BitVec 4
  adv : Option Adv
  drain : Option Drain
  /-- steps for which the MX slot is still occupied by a swap's stall or a context move (R72, R98) -/
  mxBusy : Nat
  /-- steps for which each direction of the vertical channel is occupied by a context move (R168) -/
  upBusy : Nat
  downBusy : Nat
  vx : Option VxRun
  mv : Option MvRun
  landing : List Landing
  lfsr : BitVec 32
  side : Map SideEntry
  gradNf : Bool
  /-- the last flag read gave 1.0 (R332) -/
  flagRead : Bool
  /-- NONFINITE_TILE and TL_CORRECTED have been raised in this barrier interval (R99, R182) -/
  nfRaised : Bool
  tlRaised : Bool
  /-- descriptor queues Q0–Q3, oldest first (R128) -/
  queues : List (List (BitVec 512))
  regs : List (BitVec 512)
  seq : List (BitVec 16)
  maskDesc : Option (BitVec 512)
  tb : Nat
  /-- tb of the most recent masked SWAP (R321) -/
  tbUsed : Nat
  l1 : List L1Line
deriving DecidableEq, Repr

/-- Which crossing of a position (R522). -/
structure Crossing where
  tap : BitVec 6
  recal : Bool
  /-- the ageing trims of its bands at a calibration of its own, in units of 0.1 mV; none: those of `calTrim` -/
  trims : Option (Nat × Nat)
  /-- CROSS_MARGIN raised in this barrier interval (R177) -/
  margin : Bool
deriving DecidableEq, Repr

/-- Counters of tile memory, Loam and crossings (R181). -/
structure TileLoam where
  tmCe : BitVec 32
  tmUe : BitVec 32
  loamCe : BitVec 32
  loamUe : BitVec 32
  crossCe : BitVec 32
  firstUe : BitVec 64
  recalCount : BitVec 32
  marginCount : BitVec 32
  /-- by cell × 8 + crossing code -/
  crossings : Map Crossing
  /-- bands whose droop exceeds 40 mV: their crossings stall (R178) -/
  stalled : BitVec 16
  /-- the ageing trim of each band when its crossings were last calibrated together, in units of 0.1 mV (R176) -/
  calTrim : List Nat
  /-- a recalibration waits for the end of a stall (R176) -/
  recalWait : Bool
deriving DecidableEq, Repr

/-! ### Rows and on-chip paths -/

/-- 128 B on a row's data lane, usable after `left` more steps (R54). -/
structure LaneItem where
  row : Nat
  left : Nat
  data : List TWord
deriving DecidableEq, Repr

/-- A mesh flit on its way to a cell (R54). -/
structure MeshFlit where
  dst : Nat
  left : Nat
  data : List TWord
deriving DecidableEq, Repr

/-- Rows, lanes, links and mesh (R53 to R57, R120, R279). -/
structure OnChip where
  /-- units waiting at a cell's receiving link, by cell × 8 + link code, oldest first: at most 2 -/
  links : Map (List (List TWord))
  mesh : List MeshFlit
  lanes : List LaneItem
  /-- what DMA has put into each row's 4 KiB injector buffer, and into each die's broadcast tree
      (rows 96 and 97) and the tree of both dies (98) -/
  injector : Map (List TWord)
  /-- completion queues by control core, oldest first: at most 256 records of 16 B (R128, R131) -/
  completions : Map (List (BitVec 128))
  /-- descriptors that control cores have formed and not yet sent, by cell × 4 + queue, and the SEQ of the next one
      they form (R128, R130) -/
  outbox : Map (List (BitVec 512))
  sendSeq : Map Nat
  /-- the status a cell's last context save returned (R100) -/
  status : Map (BitVec 8)
deriving DecidableEq, Repr

/-! ### The instruction stream -/

/-- A loop on the stack (R111). -/
structure LoopEntry where
  ctr : Nat
  index : Nat
  count : Nat
  /-- start of the body, and its end, in units of 16 B -/
  start : Nat
  stop : Nat
deriving DecidableEq, Repr

/-- Where the current bundle stands (R109). -/
inductive Phase where
  | run | loop | barrier | fin
deriving DecidableEq, Repr

/-- The stream and its objects (R101 to R113, R132 to R134). -/
structure Stream where
  running : Bool
  /-- bundle offset in units of 16 B -/
  pos : Nat
  rep : Nat
  phase : Phase
  /-- where the stream goes on after the bundle, if its loop operation has said so (R111) -/
  next : Option Nat
  loops : List LoopEntry
  /-- the bundle buffer: units of 16 B in order of arrival, at most 131,072 (R104) -/
  buffer : List (Nat × BitVec 128)
  /-- a permit has been granted and not yet used (R102) -/
  permit : Bool
  stepCount : BitVec 64
  restSteps : BitVec 64
  slipTotal : BitVec 64
  slipCause : List (BitVec 64)
  firstSlip : BitVec 64
  slipLimit : BitVec 32
  pmDeferCount : BitVec 32
  /-- slips of the present barrier interval, the lowest cause among them, and whether SLIP_LIMIT was raised -/
  slips : Nat
  slipLow : Nat
  slipRaised : Bool
  /-- offsets, in units of 16 B, that the fetch unit has found poisoned (R106) -/
  fetchBad : List Nat
  /-- program steps since the last lea barrier (R140) -/
  sinceLea : Nat
  /-- barriers taken, for one-per-barrier-interval events -/
  barriers : Nat
deriving DecidableEq, Repr

/-- The planting maps (R127, R133). -/
structure Planting where
  active : PlantMap
  /-- the staged map, and whether rotation staged it (rather than image load) -/
  staged : Option (PlantMap × Bool)
deriving DecidableEq, Repr

/-- Training counters (R332). -/
structure Train where
  optSteps : BitVec 64
  skippedSteps : BitVec 64
  lastSkipBar : BitVec 64
  firstNfCell : BitVec 16
  optFails : BitVec 32
deriving DecidableEq, Repr

/-! ### Values after a full reset -/

/-- No K elements taken. -/
def KState.reset : KState := ⟨0, [], [], false, false, false⟩

/-- A cell after a full reset: zero memories with clean check bits, Square, zero accumulators (R66, R174). -/
def CellState.reset : CellState where
  tile := []
  loam := []
  mode := 0#2
  acc := []
  k := List.replicate 4 KState.reset
  arrays := 0#4
  adv := none
  drain := none
  mxBusy := 0
  upBusy := 0
  downBusy := 0
  vx := none
  mv := none
  landing := []
  lfsr := 0#32
  side := []
  gradNf := false
  flagRead := false
  nfRaised := false
  tlRaised := false
  queues := List.replicate 4 []
  regs := List.replicate 4 0#512
  seq := List.replicate 4 0#16
  maskDesc := none
  tb := 0
  tbUsed := 0
  l1 := []

/-- A row entry of a healthy row: POS_A = 48, POS_B = 0x3F, reason 0 (R48). -/
def rowHealthy : BitVec 16 := 0x0FF0#16

/-- A side entry of kind 0. -/
def SideEntry.reset : SideEntry := ⟨0#64, 0#8, 0#3⟩

/-- A crossing before its first calibration. -/
def Crossing.reset : Crossing := ⟨0#6, false, none, false⟩

/-- The counters of R181 after a full reset. -/
def TileLoam.reset : TileLoam :=
  ⟨0#32, 0#32, 0#32, 0#32, 0#32, 0#64, 0#32, 0#32, [], 0#16, List.replicate 16 0, false⟩

/-- No data on any lane, link or mesh. -/
def OnChip.reset : OnChip := ⟨[], [], [], [], [], [], [], []⟩

/-- No stream runs; every counter is 0 (R133). -/
def Stream.reset : Stream where
  running := false
  pos := 0
  rep := 0
  phase := .run
  next := none
  loops := []
  buffer := []
  permit := false
  stepCount := 0#64
  restSteps := 0#64
  slipTotal := 0#64
  slipCause := List.replicate 11 0#64
  firstSlip := 0#64
  slipLimit := 0#32
  pmDeferCount := 0#32
  slips := 0
  slipLow := 0
  slipRaised := false
  fetchBad := []
  sinceLea := 0
  barriers := 0

/-- No planting map: nothing is loaded. -/
def Planting.reset : Planting := ⟨⟨[], [], [], sm3 []⟩, none⟩

/-- Training counters (R332). -/
def Train.reset : Train := ⟨0#64, 0#64, 0#64, 0xFFFF#16, 0#32⟩

end Sys2Proof.Machine
end

