-- ==== Sys2Proof/Machine/Operands.lean ====
section
/-!
DEFINITION. The forms of the commands' operands that are not plain numbers.
-/
namespace Sys2Proof.Machine

/-- Which gleaners a register write reaches: one, or a scope of the broadcast window (R214). -/
inductive GlnTarget where
  | one (g : Fin 12288)
  | channel (stack : Fin 12) (ch : Fin 32)
  | stack (stack : Fin 12)
  | all
deriving DecidableEq, Repr

/-- The gleaners of a target, lowest first. -/
def GlnTarget.list : GlnTarget → List Nat
  | .one g => [g.val]
  | .channel s c => (List.range 32).map (fun b => (s.val * 32 + c.val) * 32 + b)
  | .stack s => (List.range 1024).map (fun i => s.val * 1024 + i)
  | .all => List.range 12288

/-- The target is the broadcast window (R214, R232). -/
def GlnTarget.isGroup : GlnTarget → Bool
  | .one _ => false
  | _ => true

/-- Whose completion GLN_COMPLETION delivers (R232). -/
inductive GlnDone where
  | one (g : Fin 12288)
  | group (stack : Fin 12)
deriving DecidableEq, Repr

/-- What a DMA row starts: the next descriptor of a queue in free mode, with its 64 bytes as the host's ring holds
them where the ring is in host memory, or the oldest waiting issue of a row (R265, R273). -/
inductive DmaSource where
  | queue (q : Fin 64) (hostDesc : BitVec 512)
  | stream (row : Fin 96)
deriving DecidableEq, Repr

/-- What the management controller has measured over a 1 ms window (R432). -/
structure PowerWindow where
  /-- subindices 1 to 7 of 0x2800, in mV -/
  railMv : List (BitVec 16)
  /-- subindices 1 to 45 of 0x2810, in units of 0.1 A -/
  current : List (BitVec 16)
  /-- sense voltage by band, in mV -/
  senseMv : List (BitVec 12)
  inputMv : BitVec 16
  /-- in units of 0.01 A -/
  inputCa : BitVec 16
  inputW : BitVec 16
deriving DecidableEq, Repr

/-- What a scan of the cell, Loam, cap and stack diodes has read (R445), in units of 0.1 °C. -/
structure SensorReadings where
  /-- by linear cell index; unlisted: 0x8000 -/
  cells : Map (BitVec 16)
  /-- 64 diodes a layer: 8 above each band pair -/
  loam1 : List (BitVec 16)
  loam2 : List (BitVec 16)
  cap : List (BitVec 16)
  /-- stack × 4 + diode -/
  memStacks : List (BitVec 16)
deriving DecidableEq, Repr

/-- What the hardware does to data or arithmetic on its own during a step: an upset or an early sampler's verdict. -/
inductive Upset where
  /-- bits of a stored code word flip: tile memory (0), Loam (1) or side memory (2); 64 data bits, then 8 check bits -/
  | flip (cell : Fin 4704) (store : Fin 3) (word : Nat) (mask : BitVec 72)
  /-- bit errors on the words of the unit that reaches the cell over a link or crossing (R173) -/
  | cross (cell : Fin 4704) (masks : List (BitVec 72))
  /-- the early sampler of a crossing disagrees (R177) -/
  | margin (cell : Fin 4704) (crossing : Fin 7)
  /-- the residue of an output fails as it is read: array, logical row and column (R77, R78) -/
  | residue (cell : Fin 4704) (array : Fin 4) (row col : Nat)
deriving DecidableEq, Repr

/-- A crossing's window as a calibration finds it: the first and the last tap that pass (R175). -/
structure CrossWindow where
  cell : Fin 4704
  crossing : Fin 7
  lo : Fin 64
  hi : Fin 64
deriving DecidableEq, Repr

/-- What the verification phase has found for one sequence: the accepted path, the token sampled last, and the status
that another member's walk gave, if one failed. -/
structure Verdict where
  entry : Fin 4096
  path : List (Fin 16)
  token : BitVec 32
  walkBad : Option (BitVec 8)
deriving DecidableEq, Repr

/-- What a phase barrier closes: a decode step, whose verdicts these are, and the prefill positions run. -/
structure StepClose where
  decode : Option (List Verdict)
  prefill : List (Fin 4096 × Fin 2049)
deriving DecidableEq, Repr

/-- What the hardware and firmware bring to a barrier: the verdicts and prefill of the step it closes (R307), the windows
that recalibrating crossings find (R176), the lea-wide gradient flag if an optimiser step begins there (R331), and the
standard gleaner programs that the firmware loads where the barrier starts an image (R234): store word and
micro-instruction. -/
structure BarrierIn where
  close : StepClose
  windows : List CrossWindow
  grad : Option Bool
  programs : List (Fin 512 × BitVec 64)
deriving DecidableEq, Repr

/-- What the part and the firmware bring to a write that starts something: the variants of the planting map that an image
part spells (log entry 41), and what a barrier takes. -/
structure ObjIn where
  variants : List PlantMap
  barrier : BarrierIn
deriving DecidableEq, Repr

/-- What the hardware has found when a running step ends. -/
structure StepEnd where
  /-- RAILS: a rail fails its check -/
  railBad : Bool
  /-- TRAIN: stacks whose interface does not train -/
  memStacks : List (Fin 12)
  /-- TRAIN: the windows that the calibration of crossings finds -/
  windows : List CrossWindow
  /-- HEADERS: the first band that does not come up -/
  band : Option (Fin 16)
  /-- SELF_TEST: the units that fail, each with the test of R522 -/
  units : List (BitVec 32 × BitVec 8)
deriving DecidableEq, Repr

end Sys2Proof.Machine
end

