-- ==== Sys2Proof/Machine/StateLea.lean ====
section
/-!
DEFINITION. The lea's part of State: configuration, barrier tree, held completions (R135 to R163).
-/
namespace Sys2Proof.Machine

/-- Subindices 01 to 06 of 0x4800 (R137). -/
structure LeaCfg where
  id : BitVec 32
  size : BitVec 16
  dims : BitVec 16
  index : BitVec 16
  seqFirst : BitVec 16
  seqCount : BitVec 16
deriving DecidableEq, Repr

/-- LEA_STATE (R162). -/
inductive LeaSt where
  | none | forming | running | stopped | diverged
deriving DecidableEq, Repr

/-- The code of LEA_STATE. -/
def LeaSt.code : LeaSt → Nat
  | .none => 0
  | .forming => 1
  | .running => 2
  | .stopped => 3
  | .diverged => 4

/-- A step token (R142). -/
structure Token where
  type : BitVec 8
  stop : Bool
  mismatch : Bool
  paused : Bool
  lost : Bool
  fault : Bool
  barId : BitVec 16
  leaId : BitVec 32
  barSeq : BitVec 48
  pace : BitVec 8
  kind : BitVec 8
  checksum : BitVec 64
  firstBad : BitVec 16
  count : BitVec 10
deriving DecidableEq, Repr

/-- A lea barrier that the member has taken locally and that is not yet released (R141). -/
structure BarrierWait where
  own : Token
  /-- when it was taken, in µs -/
  since : Nat
  /-- the combined report, once sent (or, at the leader, once complete) -/
  sent : Option Token
deriving DecidableEq, Repr

/-- The lea and its objects. -/
structure Lea where
  staged : LeaCfg
  active : LeaCfg
  /-- a COMMIT waits for its swap (R400) -/
  locked : Bool
  result : BitVec 8
  st : LeaSt
  barSeq : BitVec 64
  pace : BitVec 8
  lastChecksum : BitVec 64
  firstBad : BitVec 16
  waitMax : BitVec 32
  foreign : BitVec 32
  /-- the state before START (R158) -/
  before : LeaSt
  wait : Option BarrierWait
  /-- reports held from children, by member index -/
  reports : List (Nat × Token)
  stopReq : Bool
  /-- the bundle that carries END has taken its lea barrier (R157) -/
  ending : Bool
  /-- an ABORT has arrived and the halt waits for the next lea barrier (R156) -/
  abort : Option Token
  /-- the ABORT sent on to the children, resent until they are STOPPED (R348) -/
  aborting : Option Token
  /-- the last RELEASE sent on, for a REPORT that comes again (R348) -/
  lastRelease : Option Token
  /-- a reset runs and ALIVE carries PAUSED (R155) -/
  paused : Bool
  /-- a band went dark: leave after the stop (R157) -/
  leaveAfter : Bool
  /-- a stop waits for the image to be reloaded (R153) -/
  reload : Bool
deriving DecidableEq, Repr

/-- A cleared configuration. -/
def LeaCfg.zero : LeaCfg := ⟨0#32, 0#16, 0#16, 0#16, 0#16, 0#16⟩

/-- The lea after a full reset (R162). -/
def Lea.reset : Lea where
  staged := LeaCfg.zero
  active := LeaCfg.zero
  locked := false
  result := 0#8
  st := .none
  barSeq := 0#64
  pace := 0#8
  lastChecksum := 0#64
  firstBad := 0xFFFF#16
  waitMax := 0#32
  foreign := 0#32
  before := .none
  wait := none
  reports := []
  stopReq := false
  ending := false
  abort := none
  aborting := none
  lastRelease := none
  paused := false
  leaveAfter := false
  reload := false

end Sys2Proof.Machine
end

