-- ==== Sys2Proof/Syntax.lean ====
section
/-!
DEFINITION. The commands: one constructor for each row of spec/opcode_table.json, in the order of the table, those without
operands after the others (the runtime of Lean holds at most 244 kinds of value with fields in one type).
`fd` says whether a request comes in an FD frame (USDO) or a classic one (SDO) (R389); `input` is what the hardware and the
firmware bring to a command; an address is a device physical address, or an offset of the window where it says so.
-/
namespace Sys2Proof

open Machine

/-- A command. -/
inductive Instr where
  /-- REGISTER_WRITE (R11): a write to a register that has no row of its own, applied under its access code. -/
  | registerWrite (window : Bool) (addr : BitVec 64) (data : Bytes) (writer : BitVec 32) (comps : Nat)
  /-- UNASSIGNED_ACCESS (R10): a read or write at an unassigned address or window offset: reads return zeros, writes
  are discarded and counted. -/
  | unassignedAccess (window write : Bool) (addr : BitVec 64) (len : Nat) (data : Bytes)
  /-- SDO_DOWNLOAD (R390): an SDO or USDO write request to an object that has no row of its own, checked in abort
  order and applied whole. -/
  | sdoDownload (valid fd : Bool) (index : BitVec 16) (sub : BitVec 8) (size : Nat) (data : Option Bytes)
      (input : ObjIn)
  /-- SDO_UPLOAD (R390): an SDO or USDO read request, served from one snapshot taken when the transfer begins. -/
  | sdoUpload (valid fd : Bool) (index : BitVec 16) (sub : BitVec 8)
  /-- SDO_SEGMENT (R390): a segment of an open segmented transfer arrives; after the last segment the write takes
  effect whole. -/
  | sdoSegment (fd : Bool) (data : Bytes) (last : Bool) (input : ObjIn)
  /-- BOOT (R411): after input power has held 40 V for 1 ms, or after a beacon restart, the boot ROM verifies the
  firmware, forms the floor plan record and sends the boot-up message. -/
  | boot (straps : BitVec 7) (resetLow : Bool) (bootMs : BitVec 32)
  /-- RETIRE (R51): a write to 0x2010:07 requests retirement of one enabled position, and the field fuse is burned if
  the request is accepted. -/
  | retire (fd : Bool) (v : BitVec 16)
  /-- PERMIT_PERIOD (R102): a pacer permit period ends as a program step, a rest step or a slip step. -/
  | permitPeriod (causes : BitVec 11)
  /-- PROGRAM_STEP (R101): once every active unit has acknowledged and a permit is granted, the module advances one
  step and executes the row words of the current bundle. -/
  | programStep (ups : List Upset) (hosts : List (Fin 96 × BitVec 512)) (emptyRows : Nat)
  /-- BUNDLE_FETCH (R105): the fetch unit completes a read of stream bundles from the memory stacks into the bundle
  buffer. -/
  | bundleFetch (unit count : Nat)
  /-- LOCAL_BARRIER (R113): a kind-1 barrier is taken once every earlier operation has completed, and the barrier-time
  changes are applied. -/
  | localBarrier (input : BarrierIn)
  /-- LEA_BARRIER (R141): a kind-2 barrier is taken locally, and the REPORT is sent once the reports of all children
  have arrived. -/
  | leaBarrier (input : BarrierIn)
  /-- LEA_PHASE_BOUNDARY (R140): a kind-3 lea barrier at a schedule phase boundary is taken and reported. -/
  | leaPhaseBoundary (input : BarrierIn)
  /-- DESCRIPTOR_ARRIVAL (R128): a 64 B descriptor flit from a control core arrives at a cell's descriptor queue. -/
  | descriptorArrival (cell : Fin 4704) (queue : Fin 4) (desc : Option (BitVec 512))
  /-- ADV (R117): an MX ADV is issued: its operand addresses are formed, and the weight feed starts reading at its
  declared share. -/
  | adv (cell : Fin 4704) (word : BitVec 64)
  /-- ADVANCE (R69): once the staged feed bytes cover a full advance, the enabled arrays make one advance. -/
  | advance (cell : Fin 4704)
  /-- SWAP (R70): an MX SWAP reads out the accumulators with a residue check and writes the preload values. -/
  | swap (cell : Fin 4704) (word : BitVec 64) (ups : List Upset)
  /-- SWAP_SAVED (R180): a SWAP with PRELOAD = SAVED drains the tile and restores the saved accumulator image from
  Loam. -/
  | swapSaved (cell : Fin 4704) (word : BitVec 64) (ups : List Upset)
  /-- TILE_DRAIN (R70): the drain path converts and writes a tile's values, row statistics and status word, ending in
  step s + 16. -/
  | tileDrain (cell : Fin 4704)
  /-- CTX_SAVE (R98): the accumulators are copied into the cell's reserved Loam area over 90 steps. -/
  | ctxSave (cell : Fin 4704)
  /-- CTX_RESTORE (R98): the accumulators are restored from the reserved Loam area, and each residue is rebuilt. -/
  | ctxRestore (cell : Fin 4704)
  /-- ADD (R119): VX ADD. -/
  | add (cell : Fin 4704) (word : BitVec 64) (ups : List Upset)
  /-- MUL (R119): VX MUL. -/
  | mul (cell : Fin 4704) (word : BitVec 64) (ups : List Upset)
  /-- FMA (R119): VX fused multiply-add with one rounding. -/
  | fma (cell : Fin 4704) (word : BitVec 64) (ups : List Upset) (empty : Nat)
  /-- MAX (R119): VX MAX. -/
  | max (cell : Fin 4704) (word : BitVec 64) (ups : List Upset)
  /-- MIN (R119): VX MIN. -/
  | min (cell : Fin 4704) (word : BitVec 64) (ups : List Upset)
  /-- CVT (R90): VX conversion from SFMT to DFMT. -/
  | cvt (cell : Fin 4704) (word : BitVec 64) (ups : List Upset)
  /-- QUANT (R91): VX MX quantise of blocks of 32 values. -/
  | quant (cell : Fin 4704) (word : BitVec 64) (ups : List Upset)
  /-- EXP (R90): windrow exp. -/
  | exp (cell : Fin 4704) (word : BitVec 64) (ups : List Upset)
  /-- RCP (R90): windrow reciprocal. -/
  | rcp (cell : Fin 4704) (word : BitVec 64) (ups : List Upset)
  /-- RSQRT (R90): windrow reciprocal square root. -/
  | rsqrt (cell : Fin 4704) (word : BitVec 64) (ups : List Upset)
  /-- ROWSTAT (R322): row mean and reciprocal standard deviation, or RMS, written to side memory. -/
  | rowstat (cell : Fin 4704) (word : BitVec 64) (ups : List Upset)
  /-- NORM (R321): normalise rows by the side-memory statistics. -/
  | norm (cell : Fin 4704) (word : BitVec 64) (ups : List Upset)
  /-- SOFTMAX (R303): normalise rows by the row statistics, masked as selected. -/
  | softmax (cell : Fin 4704) (word : BitVec 64) (ups : List Upset)
  /-- SOFTMAX_BWD (R322): backward of softmax, using the side memory entries. -/
  | softmaxBwd (cell : Fin 4704) (word : BitVec 64) (ups : List Upset)
  /-- NORM_BWD (R322): backward of normalisation. -/
  | normBwd (cell : Fin 4704) (word : BitVec 64) (ups : List Upset)
  /-- ROWSUM (R321): row sums, which with MODE 1 also write a delta side entry. -/
  | rowsum (cell : Fin 4704) (word : BitVec 64) (ups : List Upset)
  /-- ROWMAX (R321): row maxima. -/
  | rowmax (cell : Fin 4704) (word : BitVec 64) (ups : List Upset)
  /-- FLAG_READ (R330): ROWMAX with MODE 1 writes GRAD_NF as 1.0 or +0 and clears it. -/
  | flagRead (cell : Fin 4704) (word : BitVec 64) (ups : List Upset)
  /-- COPY (R120): MV copy from tile memory to tile memory. -/
  | copy (cell : Fin 4704) (word : BitVec 64) (ups : List Upset)
  /-- LOAM_IN (R168): loam rows to tile memory, one per step. -/
  | loamIn (cell : Fin 4704) (word : BitVec 64) (ups : List Upset)
  /-- LOAM_OUT (R168): tile memory rows to Loam, one per step. -/
  | loamOut (cell : Fin 4704) (word : BitVec 64) (ups : List Upset)
  /-- LOAM_XCHG (R169): one row out to Loam and one row in from Loam per step. -/
  | loamXchg (cell : Fin 4704) (word : BitVec 64) (ups : List Upset)
  /-- LINK (R120): send and receive 256 B units on the partner or neighbour links. -/
  | link (cell : Fin 4704) (word : BitVec 64) (ups : List Upset)
  /-- MESH_TX (R120): send flits on a mesh route in reserved steps. -/
  | meshTx (cell : Fin 4704) (word : BitVec 64) (ups : List Upset)
  /-- MESH_RX (R120): receive scheduled mesh flits into tile memory. -/
  | meshRx (cell : Fin 4704) (word : BitVec 64) (ups : List Upset)
  /-- LANE_TX (R120): drive the row's data lane. -/
  | laneTx (cell : Fin 4704) (word : BitVec 64) (ups : List Upset)
  /-- LANE_RX (R120): write the data lane's bytes into tile memory. -/
  | laneRx (cell : Fin 4704) (word : BitVec 64) (ups : List Upset)
  /-- GATHER (R301): gather the 128 B items named by a descriptor through the cell L1. -/
  | gather (cell : Fin 4704) (word : BitVec 64) (ups : List Upset)
  /-- ISSUE (R273): a DM slot starts the next descriptor of a stream queue and binds it to a tag. -/
  | issue (row : Fin 96) (dq : Fin 64) (tag : Fin 256) (xb : Bool) (dline : Fin 8192) (hostDesc : BitVec 512)
  /-- ISSUE_D (R273): a DM slot starts the DMA descriptor held in a cell's descriptor register. -/
  | issueD (row : Fin 96) (q : Fin 4) (tag : Fin 256) (xb : Bool) (dline : Fin 8192) (lsrc : Fin 8)
  /-- WAITQ (R128): pop a descriptor queue into a descriptor register, waiting if the queue is empty. -/
  | waitq (row : Fin 96) (q : Fin 4)
  /-- POSTQ (R131): post a completion record to the band's control core. -/
  | postq (row : Fin 96) (tag : Fin 256) (lsrc : Fin 8)
  /-- WAITTAG (R122): wait until no transfer holds the tag. -/
  | waittag (row : Fin 96) (tag : Fin 256)
  /-- DEBUG_READ (R97): a debug read returns one accumulator while the cell is halted. -/
  | debugRead (sel : BitVec 32)
  /-- LEA_SIZE (R139): a write to the staged LEA_SIZE, with zero refused as ZERO_INVALID. -/
  | leaSize (fd : Bool) (v : BitVec 16)
  /-- LEA_COMMIT (R138): COMMIT of the staged lea configuration after its consistency checks. -/
  | leaCommit (fd : Bool) (v : BitVec 8)
  /-- LEA_START (R158): START written to 0x4801:01 sends the formation REPORT. -/
  | leaStart (fd : Bool) (input : BarrierIn)
  /-- LEAVE (R159): LEAVE clears the active lea configuration. -/
  | leave (fd : Bool)
  /-- STOP_REQ (R157): requests a stop at the next lea barrier. -/
  | stopReq (fd : Bool) (v : BitVec 8)
  /-- REPORT (R143): a REPORT token arrives from a child and is combined with the node's own values. -/
  | report (gate : Fin 6) (token : Token) (input : BarrierIn)
  /-- RELEASE (R143): a RELEASE token arrives; the barrier completes, held completions are delivered and the new pace
  applies. -/
  | release (gate : Fin 6) (token : Token) (input : BarrierIn)
  /-- ALIVE (R154): an ALIVE token arrives and is forwarded toward the leader if it carries a flag. -/
  | alive (gate : Fin 6) (token : Token) (input : BarrierIn)
  /-- ABORT (R156): an ABORT token arrives, and the member halts at its next lea barrier. -/
  | abort (gate : Fin 6) (token : Token) (input : BarrierIn)
  /-- NEIGHBOUR_LOST (R154): no token from a tree neighbour for 100 µs, so the neighbour is declared lost. -/
  | neighbourLost (gate : Fin 6)
  /-- PLACE_COMMIT (R185): COMMIT of the placement modes; fields whose mode changes become unsown. -/
  | placeCommit (fd : Bool) (v : BitVec 8)
  /-- STACK_READ (R196): a controller read of a 32 B word is decoded and delivered, corrected or poisoned. -/
  | stackRead (addr : BitVec 52) (requester : BitVec 32) (err : Bytes)
  /-- STACK_WRITE (R197): a controller write: whole words are written, narrow writes merge, and unsown blocks are
  zero-filled. -/
  | stackWrite (addr : BitVec 52) (data : Bytes) (poison : Bool) (requester : BitVec 32)
  /-- MERGE_TIMER_EXPIRY (R197): a merge entry's 256 ns timer expires with an incomplete mask, and a read-modify-write
  follows. -/
  | mergeTimerExpiry (stack : Fin 12)
  /-- UNSOW_REQUEST (R202): the rick hands a fallow line to the controller to unsow or poison under the policy. -/
  | unsowRequest (addr : BitVec 52) (whole : Bool)
  /-- SCRUB_READ (R205): the scrubber reads a word in its claimed slot, correcting or poisoning it. -/
  | scrubRead (stack : Fin 12) (err : Bytes)
  /-- SCRUB_OVERDUE (R206): a scrub pass has not completed 24 h after it began. -/
  | scrubOverdue (stack : Fin 12)
  /-- REFRESH (R192): the base die refreshes a bank, postponed by at most 4 intervals. -/
  | refresh (bank : Fin 12288) (postpone : Bool)
  /-- TEST_ENABLE (R207): enters or leaves checker test mode. -/
  | testEnable (fd : Bool) (v : BitVec 8)
  /-- RAW_WRITE (R207): store TEST_DATA and TEST_CHECK unchanged. -/
  | rawWrite (fd : Bool)
  /-- RAW_READ (R207): load the data and check symbols without decoding. -/
  | rawRead (fd : Bool)
  /-- DECODE_READ (R207): read through the decoder into TEST_DATA, reporting the syndromes and class. -/
  | decodeRead (fd : Bool)
  /-- GLN_CTRL_GO (R217): a launch write, direct or broadcast, is checked and, if accepted, starts preparation. -/
  | glnCtrlGo (target : GlnTarget) (v : BitVec 64)
  /-- GLN_CTRL_ABORT (R230): ABORT ends the program with GLN_ABORTED and poisons the write window. -/
  | glnCtrlAbort (target : GlnTarget) (v : BitVec 64)
  /-- PROGRAM_STORE_WRITE (R215): an aligned 8 B micro-instruction write to a program store. -/
  | programStoreWrite (target : GlnTarget) (word : Fin 512) (v : BitVec 64)
  /-- PROGRAM_START (R218): preparation completes; STATE becomes RUNNING and the program starts at ENTRY. -/
  | programStart (g : Fin 12288)
  /-- GLN_NOP (R221): gleaner NOP. -/
  | glnNop (g : Fin 12288)
  /-- HALT (R221): ends the program with OK; held accesses are released. -/
  | halt (g : Fin 12288)
  /-- JMP (R221): gleaner jump. -/
  | jmp (g : Fin 12288)
  /-- BZ (R221): gleaner branch if zero. -/
  | bz (g : Fin 12288)
  /-- LOOP (R221): gleaner counted loop. -/
  | loop (g : Fin 12288)
  /-- MOVI (R221): move an immediate. -/
  | movi (g : Fin 12288)
  /-- MOVHI (R221): move an immediate into the high half. -/
  | movhi (g : Fin 12288)
  /-- MOVP (R221): move a parameter. -/
  | movp (g : Fin 12288)
  /-- ADDI (R221): add an immediate. -/
  | addi (g : Fin 12288)
  /-- GLN_ADD (R221): scalar add. -/
  | glnAdd (g : Fin 12288)
  /-- XORI (R221): XOR with an immediate. -/
  | xori (g : Fin 12288)
  /-- SHLI (R221): shift left by an immediate. -/
  | shli (g : Fin 12288)
  /-- PUTR (R221): write a result register. -/
  | putr (g : Fin 12288)
  /-- LD (R222): load bank data into a vector register. -/
  | ld (g : Fin 12288)
  /-- ST (R228): store a vector register to the bank. -/
  | st (g : Fin 12288)
  /-- LDS (R221): load side-row data. -/
  | lds (g : Fin 12288)
  /-- LDSA (R221): load 32 bits of the side row into a scalar. -/
  | ldsa (g : Fin 12288)
  /-- LATCH (R221): copy a bank row into the side row. -/
  | latch (g : Fin 12288)
  /-- QST (R221): quantise a block and store it. -/
  | qst (g : Fin 12288)
  /-- VINS (R221): insert a scalar into a vector element. -/
  | vins (g : Fin 12288)
  /-- LDA (R221): load bank data into a scalar. -/
  | lda (g : Fin 12288)
  /-- CRC (R223): CRC-64 update over 32 B. -/
  | crc (g : Fin 12288)
  /-- VADD (R221): vector add. -/
  | vadd (g : Fin 12288)
  /-- VMUL (R221): vector multiply. -/
  | vmul (g : Fin 12288)
  /-- VFMA (R221): vector fused multiply-add. -/
  | vfma (g : Fin 12288)
  /-- VMAX (R221): vector max. -/
  | vmax (g : Fin 12288)
  /-- VMIN (R221): vector min. -/
  | vmin (g : Fin 12288)
  /-- VRCP (R223): vector reciprocal. -/
  | vrcp (g : Fin 12288)
  /-- VRSQ (R223): vector reciprocal square root. -/
  | vrsq (g : Fin 12288)
  /-- VSPLAT (R221): broadcast a scalar to every lane. -/
  | vsplat (g : Fin 12288)
  /-- VSUM (R223): pairwise lane sum. -/
  | vsum (g : Fin 12288)
  /-- VAMAX (R221): largest lane magnitude. -/
  | vamax (g : Fin 12288)
  /-- GLN_WATCHDOG (R227): a program reaches 50 µs; it ends and the gleaner enters FAULT. -/
  | glnWatchdog (g : Fin 12288)
  /-- GLN_COMPLETION (R232): a completion record is delivered to the named control core when its queue has room. -/
  | glnCompletion (done : GlnDone) (drained : Nat) (optimiser : Bool)
  /-- PIN (R255): pin the lines of a range, or fail with PIN_FULL. -/
  | pin (slice : Option (Fin 12)) (tag : BitVec 8) (requester : BitVec 32)
  /-- UNPIN (R255): release the pins of a range. -/
  | unpin (slice : Option (Fin 12)) (tag : BitVec 8) (requester : BitVec 32)
  /-- FALLOW (R257): declare the lines of a range dead: drop, invalidate, filter and unsow. -/
  | fallow (slice : Option (Fin 12)) (tag : BitVec 8) (requester : BitVec 32)
  /-- CLEAN (R253): write back dirty sectors and keep the lines. -/
  | clean (slice : Option (Fin 12)) (tag : BitVec 8) (requester : BitVec 32)
  /-- CLEAN_DROP (R253): write back dirty sectors and drop the lines. -/
  | cleanDrop (slice : Option (Fin 12)) (tag : BitVec 8) (requester : BitVec 32)
  /-- RICK_READ (R244): a read through a rick slice: a hit, a miss with allocation, or a bypass. -/
  | rickRead (addr : BitVec 52) (len : Nat) (cls : Fin 8) (sheaf : Bool) (requester : BitVec 32) (err : Bytes)
  /-- RICK_WRITE (R244): a write through a rick slice, with L1 invalidation by the presence vector. -/
  | rickWrite (addr : BitVec 52) (data : Bytes) (poison : Bool) (cls : Fin 8) (sheaf : Bool) (requester : BitVec 32)
  /-- MISS_FILL (R247): a miss register's fill arrives and is delivered to its waiters. -/
  | missFill (slice : Fin 12) (region : Nat)
  /-- STREAM_BYPASS_TIMEOUT (R250): 10 µs pass without a miss of the stream, so the stream detector re-arms. -/
  | streamBypassTimeout (slice : Fin 12) (cls : Fin 8)
  /-- DMAQ_HEAD (R268): a producer-index doorbell for a DMA queue. -/
  | dmaqHead (q : Fin 64) (v : BitVec 16) (hostComps : Nat)
  /-- DMAQ_CTRL_ENABLE (R269): enables or disables a DMA queue. -/
  | dmaqCtrlEnable (q : Fin 64) (v : BitVec 64)
  /-- DMA_COPY (R272): a DMA COPY descriptor starts on a channel after its checks. -/
  | dmaCopy (source : DmaSource) (early : Nat)
  /-- TRANSPOSE (R276): a DMA TRANSPOSE descriptor starts. -/
  | transpose (source : DmaSource) (early : Nat)
  /-- SCATTER (R277): a DMA SCATTER descriptor starts. -/
  | scatter (source : DmaSource) (early : Nat)
  /-- DMA_FALLOW (R272): a DMA FALLOW descriptor sends the fallow command to the slices. -/
  | dmaFallow (source : DmaSource) (early : Nat)
  /-- TRANSFER_COMPLETION (R280): a transfer completes: its tag is released and its completion record is written. -/
  | transferCompletion (transfer : Nat)
  /-- DEADLINE_DUE (R275): a scheduled transfer's due step begins before it has completed. -/
  | deadlineDue (row : Fin 96) (tag : Fin 256)
  /-- PUBLISH_WRITE (R292): a 16 B write of a sequence entry's publish word, accepted only if its GEN advances by 1.
  -/
  | publishWrite (entry : Fin 4096) (word : BitVec 128) (writer : BitVec 32)
  /-- SEQT_FENCE (R295): a write that arms the walk-complete fence for an entry and generation. -/
  | seqtFence (v : BitVec 64)
  /-- FENCE_CLEAR (R295): no walk of the old generation remains, so PENDING clears. -/
  | fenceClear (done : List Nat)
  /-- WALK (R299): a control core walks one work entry and sends the page descriptors. -/
  | walk (cmdId entry : Nat)
  /-- OPEN (R310): an OPEN submission makes an entry live and sets its sampler state. -/
  | openSub (core : Fin 16)
  /-- PROMPT (R310): a PROMPT submission fetches token IDs and queues prefill. -/
  | prompt (core : Fin 16)
  /-- PUBLISH (R310): a PUBLISH submission applies a publish word and completes after its fence. -/
  | publish (core : Fin 16)
  /-- CANDIDATES (R310): a CANDIDATES submission sets the candidate chain or tree. -/
  | candidates (core : Fin 16)
  /-- CLOSE (R310): a CLOSE submission clears LIVE once the fence clears. -/
  | closeSub (core : Fin 16)
  /-- LEA_FLIT (R344): a LEA lane flit is received, accepted in order or discarded with NAK; ACK and NAK are
  processed. -/
  | leaFlit (port : Fin 36) (flit : Bytes) (fecBad : Bool) (input : BarrierIn)
  /-- IDLE_FLIT (R341): an IDLE flit is received, carrying ACK, NAK and the token region. -/
  | idleFlit (port : Fin 36) (flit : Bytes) (fecBad : Bool) (input : BarrierIn)
  /-- IDENT (R352): a hedgerow LINK IDENT flit is received, stored in PEER and echoed. -/
  | ident (port : Fin 36) (flit : Bytes) (fecBad : Bool)
  /-- LANE_RESET (R342): a LANE_RESET flit resets a lane's SEQ, ACK and replay buffer. -/
  | laneReset (port : Fin 36) (flit : Bytes) (fecBad : Bool)
  /-- LINK_FLIT_REPEAT (R342): an unechoed LINK flit is repeated every 1 µs. -/
  | linkFlitRepeat (link : Fin 37)
  /-- REPLAY_TIMEOUT (R344): 2 µs without ACK progress, so unacknowledged flits are resent. -/
  | replayTimeout (port : Fin 36) (be : Bool)
  /-- PORT_SIGNAL_DETECTED (R349): signal appears on all 4 lanes, and the port enters SIGNAL. -/
  | portSignalDetected (port : Fin 36)
  /-- PORT_SIGNAL_DONE (R349): clock recovery and equalisation complete, and the port enters ALIGN. -/
  | portSignalDone (port : Fin 36)
  /-- PORT_ALIGN_DONE (R349): codeword lock is achieved, and the port enters IDENT. -/
  | portAlignDone (port : Fin 36)
  /-- PORT_STATE_TIMEOUT (R349): a training bound is exceeded; the port returns to DOWN or enters FAILED. -/
  | portStateTimeout (port : Fin 36)
  /-- PORT_CODEWORD_UE (R350): an uncorrectable codeword is received, possibly triggering RETRAIN. -/
  | portCodewordUe (port : Fin 36)
  /-- FEC_WINDOW (R350): the 1 s corrected-symbol ratio is evaluated. -/
  | fecWindow (port : Fin 36) (corrected received : Nat)
  /-- RETRAIN_REQ (R351): acts on a hedgerow port according to its state. -/
  | retrainReq (fd : Bool) (v : BitVec 8)
  /-- LEA_TRANSFER_DUE (R354): a transfer list repeat falls due and takes its tag. -/
  | leaTransferDue (port : Fin 36) (recv : Bool)
  /-- HDG_BEQ_HEAD (R361): a doorbell for a best-effort send queue. -/
  | hdgBeqHead (q : Fin 8) (v : BitVec 16)
  /-- WRITE (R360): a best-effort WRITE message arrives: it is forwarded, dropped, or written into a receive window
  and acknowledged. -/
  | beWrite (port : Fin 36)
  /-- ACK (R363): a best-effort ACK message arrives and completes its send record. -/
  | beAck (port : Fin 36)
  /-- ACK_TIMEOUT (R363): no ACK within 10 ms, so the message completes HDG_UNREACHABLE. -/
  | ackTimeout (msgId : Nat)
  /-- JNL_IDENT (R370): a Jaeno LINK IDENT flit is received and checked. -/
  | jnlIdent (flit : Bytes) (fecBad : Bool)
  /-- MEMORY_WRITE (R374): a host memory write packet is applied in arrival order. -/
  | memoryWrite (addr : BitVec 64) (data : Bytes) (ep : Bool) (comps : Nat)
  /-- MEMORY_READ (R374): a host memory read packet is served after earlier writes and answered with a completion. -/
  | memoryRead (addr : BitVec 64) (len : Nat) (tag : BitVec 10)
  /-- COMPLETION (R368): a completion packet from the JA-2 answers a module read request. -/
  | completion (tag : BitVec 10) (data : Bytes) (ep : Bool) (cst : BitVec 3)
  /-- JNL_FEC_WINDOW (R372): the 1 s Jaeno corrected-symbol ratio is evaluated. -/
  | jnlFecWindow (corrected received : Nat)
  /-- JNL_RETRAIN_REQ (R372): acts on the Jaeno link according to its state. -/
  | jnlRetrainReq (fd : Bool) (v : BitVec 8)
  /-- JNL_INT_PEND (R381): a w1c write clears pending interrupt vectors. -/
  | jnlIntPend (high : Bool) (v : BitVec 64)
  /-- JNL_INT_MASK (R381): a mask write; unmasking a pending vector sends its interrupt. -/
  | jnlIntMask (high : Bool) (v : BitVec 64)
  /-- HRM_COPY (R380): a control-core sheaf line write is copied to the host register mirror page. -/
  | hrmCopy (core : Fin 16) (line : Fin 32) (data : Bytes)
  /-- CCMB_IN_HEAD (R378): a mailbox doorbell. -/
  | ccmbInHead (core : Fin 16) (v : BitVec 16)
  /-- MAILBOX_RECORD (R378): a control core takes the next submission record and advances TAIL. -/
  | mailboxRecord (core : Fin 16)
  /-- MAILBOX_COMPLETION (R378): a mailbox completion is written to the outbound ring once a slot is free. -/
  | mailboxCompletion (core : Fin 16)
  /-- CONSUMED_HEARTBEAT (R393): a heartbeat of the consumed host node arrives. -/
  | consumedHeartbeat (node : BitVec 7)
  /-- CONSUMER_HB (R393): a write to 0x1016:01, with 0 refused while RUN. -/
  | consumerHb (fd : Bool) (v : BitVec 32)
  /-- SYNC (R396): a SYNC frame triggers due TPDOs. -/
  | sync (cob : BitVec 11)
  /-- TPDO_EVENT_TIMER (R396): a TPDO's event timer expires, and the PDO is queued from a snapshot. -/
  | tpdoEventTimer (n : Fin 8)
  /-- STATE_COMPARISON (R404): every 100 µs the two views of every unit are compared. -/
  | stateComparison (reports : List (BitVec 32 × Option UState))
  /-- MISMATCH_CLEAR (R406): clears the mismatch bits of units whose views agree. -/
  | mismatchClear (fd : Bool) (v : BitVec 8)
  /-- RAILS (R414): GO to step 1: the rails are switched on and checked. -/
  | rails (fd : Bool) (v : BitVec 8)
  /-- TRAIN (R415): GO to step 2: stacks, metadata, the Jaeno link and crossings are trained. -/
  | train (fd : Bool) (v : BitVec 8)
  /-- HEADERS (R525): GO to step 3: the band headers are closed one band at a time. -/
  | headers (fd : Bool) (v : BitVec 8)
  /-- FIRMWARE (R486): GO to step 4: the control-core package is verified and the cores are started. -/
  | firmware (fd : Bool) (v : BitVec 8)
  /-- SELF_TEST (R416): GO to step 5: known-answer and march tests. -/
  | selfTest (fd : Bool) (v : BitVec 8)
  /-- IMAGE_LOAD (R418): GO to step 6: an image part is checked and loaded. -/
  | imageLoad (fd : Bool) (v : BitVec 8) (variants : List PlantMap)
  /-- START (R420): GO to step 7: a loaded non-lea image starts. -/
  | start (fd : Bool) (v : BitVec 8) (programs : List (Fin 512 × BitVec 64))
  /-- STEP_COMPLETION (R413): a running bring-up step ends DONE or FAILED. -/
  | stepCompletion (found : StepEnd)
  /-- COMPUTE_RESET (R422): RESET_CMD kind 1, 2 or 3: a compute reset of die L, die U or both, optionally with SAVE.
  -/
  | computeReset (fd : Bool) (kind : Fin 3) (save : Bool)
  /-- LOWER_DIE_FULL_RESET (R423): RESET_CMD kind 4: the full reset procedure of the Lower die. -/
  | lowerDieFullReset (fd : Bool)
  /-- FULL_RESET (R422): RESET_CMD kind 5: a full reset of the module. -/
  | fullReset (fd : Bool)
  /-- PARTIAL_RESET (R423): RESET_CMD kind 6: a partial reset of RESET_UNIT. -/
  | partialReset (fd : Bool)
  /-- RESET_COMPLETION (R421): a running reset ends, and RESET_RESULT is set. -/
  | resetCompletion (windows : List CrossWindow)
  /-- PHASE_OVERCURRENT (R429): a phase exceeds 18 A for 2 µs or reports a fault, and is switched off and fused. -/
  | phaseOvercurrent (band : Fin 16) (phase : Fin 24)
  /-- REGULATOR_OVERCURRENT (R430): a band's current exceeds its working phases' limit for 5 µs. -/
  | regulatorOvercurrent (band : Fin 16) (current : BitVec 16)
  /-- RAIL_TOLERANCE_TIMEOUT (R427): a rail stays more than 5% off its setpoint for 100 µs. -/
  | railToleranceTimeout (rail : Fin 7) (mv : BitVec 16)
  /-- TELEMETRY_WINDOW (R437): at the end of each 1 ms window, measurements are published and the cap loop runs. -/
  | telemetryWindow (measured : PowerWindow)
  /-- CAP_W (R437): a write of the power cap. -/
  | capW (fd : Bool) (v : BitVec 16)
  /-- PACE_LIMIT (R434): a write of the host pace limit. -/
  | paceLimit (fd : Bool) (v : BitVec 8)
  /-- DROOP (R440): a band's droop exceeds 25 mV, and the droop response begins. -/
  | droop (band : Fin 16)
  /-- SEVERE_DROOP (R440): droop above 60 mV for 5 µs reduces the allowance for 1 s. -/
  | severeDroop (band : Fin 16) (peak : BitVec 16)
  /-- CROSSING_STALL_END (R178): droop has stayed at or below 40 mV for 50 ns, and the crossing stall ends. -/
  | crossingStallEnd (band : Fin 16) (windows : List CrossWindow)
  /-- AGEING_CHECK (R441): each hour, at a barrier, the monitors are checked and the trim is raised. -/
  | ageingCheck (lost : BitVec 16)
  /-- HOT_SPOT_SAMPLE (R446): every 100 µs the hot-spot pairs are sampled and the control values formed. -/
  | hotSpotSample (pairs : List (BitVec 16 × BitVec 16))
  /-- SENSOR_SCAN (R445): every 1 ms the cell, Loam, cap and stack diodes are sampled. -/
  | sensorScan (readings : SensorReadings)
  /-- FLOW_SAMPLE (R452): every 200 µs flow and pressure are sampled, and loss is judged. -/
  | flowSample (flowA flowB pIn pOut : BitVec 16)
  /-- COOLANT_TEMP_SAMPLE (R451): every 100 ms the inlet and outlet temperatures are sampled. -/
  | coolantTempSample (tIn tOut : BitVec 16)
  /-- SAFE_REQ (R478): a write that enters the safe state with cause bit 8. -/
  | safeReq (fd : Bool) (v : BitVec 8)
  /-- FF_CLEAR (R470): empties the first-fault area and writes a CLEAR record. -/
  | ffClear (fd : Bool) (v : BitVec 8)
  /-- FP_PLAN_ADDR (R472): a write of the fingerprint plan address, checked at once. -/
  | fpPlanAddr (fd : Bool) (v : BitVec 64)
  /-- FP_VERDICT (R474): a fingerprint verdict write; a non-zero verdict enters the safe state. -/
  | fpVerdict (fd : Bool) (v : BitVec 64)
  /-- FI_ARM (R476): arms one fault injection. -/
  | fiArm (fd : Bool) (v : BitVec 8)
  /-- ATT_GO (R492): takes an attestation snapshot and starts signing. -/
  | attGo (fd : Bool) (v : BitVec 8)
  /-- AUTH_REQ (R497): requests a session and draws a new challenge. -/
  | authReq (fd : Bool) (v : BitVec 32)
  /-- AUTH_RESPONSE (R497): writes a signed response to the challenge and starts verification. -/
  | authResponse (fd : Bool) (v : BitVec 512)
  /-- RESPONSE_VERIFIED (R498): verification of the response completes, and the session opens or is rejected. -/
  | responseVerified (svcKey : Bytes)
  /-- AUTH_CLOSE (R498): ends the open session, or discards an unused challenge. -/
  | authClose (fd : Bool) (v : BitVec 8)
  /-- SEC_PROFILE (R500): a write of the security profile, which may withdraw session rights. -/
  | secProfile (fd : Bool) (v : BitVec 8)
  /-- SVN_COMMIT (R488): raises the SVN fuses to the running packages. -/
  | svnCommit (fd : Bool) (v : BitVec 8)
  /-- FW_REVOKE (R496): burns firmware key revocation fuses. -/
  | fwRevoke (fd : Bool) (v : BitVec 8)
  /-- OWNER_KEY (R497): enrols or withdraws the owner key. -/
  | ownerKey (fd : Bool) (v : BitVec 512)
  /-- IMAGE_KEY (R487): enrols or withdraws the image key. -/
  | imageKey (fd : Bool) (v : BitVec 512)
  /-- FW_CHUNK (R490): stores a firmware chunk at FW_OFFSET and advances the offset. -/
  | fwChunk (fd : Bool) (data : Bytes)
  /-- FW_COMMIT (R490): verifies the slot and selects it for the next boot. -/
  | fwCommit (fd : Bool) (v : BitVec 8)
  /-- DBG_HALT (R499): halts or resumes the stream for debug. -/
  | dbgHalt (fd : Bool) (v : BitVec 8)
  /-- DBG_ACC (R499): reads the accumulator named by DBG_SEL while halted. -/
  | dbgAcc (fd : Bool)
  /-- BE_FLIT (R344): a BE lane flit (TYPE 2) is received on a hedgerow port, accepted in SEQ order or discarded with
  NAK_B, and its ACK and NAK fields are processed. -/
  | beFlit (port : Fin 36) (flit : Bytes) (fecBad : Bool) (input : BarrierIn)
  /-- JNL_FLIT (R369): a Jaeno DATA or IDLE flit is received, checked against its CRC and SEQ, and its ACK and NAK are
  processed, with replay on NAK. -/
  | jnlFlit (flit : Bytes) (fecBad : Bool) (comps : List Nat)
  /-- TPDO_SENT (R396): a queued TPDO instance is transmitted on the CAN FD bus after its inhibit time and bus access,
  emptying its queue slot. -/
  | tpdoSent (n : Fin 8)
  /-- CROSSING_STALL (R178): a band's droop exceeds 40 mV, and every crossing at that band stalls by handshake,
  holding the module at its step boundary. -/
  | crossingStall (band : Fin 16)
  /-- SDO_SEGMENT_TIMEOUT (R390): a segmented transfer has waited 1 s for its next segment and is ended with abort
  0x0504_0000. -/
  | sdoSegmentTimeout
  /-- INPUT_POWER_LOST (R23): input power is lost; the hold-up bank completes only a cairn record already started, and
  volatile contents are lost. -/
  | inputPowerLost
  /-- NOP (R114): a slot opcode 0, which has no effect. -/
  | nop
  /-- LOOP_BEGIN (R111): a bundle's LOOP_BEGIN pushes a loop counter, or skips the body when LOOP_COUNT is 0. -/
  | loopBegin
  /-- LOOP_END (R111): a bundle's LOOP_END either returns to the start of the body or pops the counter. -/
  | loopEnd
  /-- END (R109): after the bundle and its barrier, the stream stops and the module returns to READY. -/
  | streamEnd
  /-- RESTART (R109): after the bundle and its barrier, the stream continues at offset 0. -/
  | restart
  /-- HEAVY_PHASE_HINT (R439): a bundle with a non-zero HINT_LEVEL announces a heavy phase at S0. -/
  | heavyPhaseHint
  /-- HINT_RAMP (R439): when 20 µs or less remain before S0, the pacer starts raising V_set by the hint boost. -/
  | hintRamp
  /-- BOOST_END (R439): 65,536 program steps after S0, the hint boost ends. -/
  | boostEnd
  /-- ALIVE_TIMER (R154): every 20 µs a running member sends ALIVE to its tree neighbours. -/
  | aliveTimer
  /-- FORMATION_TIMEOUT (R158): no release 1 s after START, so LEA_FORM_TIMEOUT is set. -/
  | formationTimeout
  /-- BARRIER_OVERDUE (R140): 65,536 program steps pass without a lea barrier; the stream halts in FAULT. -/
  | barrierOverdue
  /-- TOKEN_RESEND (R348): a REPORT or ABORT is resent every 10 µs while unanswered. -/
  | tokenResend
  /-- RICK_INTERVAL (R256): at the end of each 1 ms interval, each class is evaluated for thrashing. -/
  | rickInterval
  /-- RESET_QUIESCE_TIMEOUT (R284): the 100 µs wait of a Lower-die full reset ends, and running transfers are aborted.
  -/
  | resetQuiesceTimeout
  /-- IDENT_TIMER (R352): IDENT is sent every 100 ms. -/
  | identTimer
  /-- JNL_REPLAY_TIMEOUT (R369): 5 µs without ACK progress, so Jaeno flits are replayed. -/
  | jnlReplayTimeout
  /-- JNL_SIGNAL_DETECTED (R371): signal on all 16 lanes, and the link enters SIGNAL. -/
  | jnlSignalDetected
  /-- JNL_SIGNAL_DONE (R371): equalisation completes, and the link enters ALIGN. -/
  | jnlSignalDone
  /-- JNL_ALIGN_DONE (R371): codeword lock is achieved, and the link enters IDENT. -/
  | jnlAlignDone
  /-- JNL_STATE_TIMEOUT (R371): a Jaeno training bound is exceeded. -/
  | jnlStateTimeout
  /-- JNL_CODEWORD_UE (R372): an uncorrectable Jaeno codeword, possibly triggering RETRAIN. -/
  | jnlCodewordUe
  /-- NMT_START (R392): NMT start. -/
  | nmtStart
  /-- NMT_STOP (R392): NMT stop. -/
  | nmtStop
  /-- ENTER_PRE_OPERATIONAL (R392): NMT enter pre-operational. -/
  | enterPreOperational
  /-- RESET_NODE (R392): NMT reset node, carried out as reset communication. -/
  | resetNode
  /-- RESET_COMMUNICATION (R392): communication objects return to their defaults, and a boot-up message is sent. -/
  | resetCommunication
  /-- HEARTBEAT (R393): the node sends its heartbeat every 100 ms. -/
  | heartbeat
  /-- MGMT_HEARTBEAT_LOST (R393): no heartbeat for the consumer time; the module enters the safe state. -/
  | mgmtHeartbeatLost
  /-- CAN_BUS_OFF (R388): the CAN FD controller went bus-off. -/
  | canBusOff
  /-- BUS_OFF_RECOVERY (R388): after 128 occurrences of 11 recessive bits, the controller recovers from bus-off. -/
  | busOffRecovery
  /-- FORCE_TIMEOUT (R405): the barrier has not been reached 700 µs after a disagreement, so the unit is forced at
  once. -/
  | forceTimeout
  /-- ERROR_REGISTER_UPDATE (R523): the ERROR_REGISTER levels are evaluated at least every 1 ms. -/
  | errorRegisterUpdate
  /-- STEP_BOUND_EXPIRY (R413): a step passes its bound and ends FAILED with BU_TIMEOUT. -/
  | stepBoundExpiry
  /-- RESET_N (R513): RESET_N held low for 10 µs or more starts a full reset. -/
  | resetN
  /-- PHASE_LIMIT_TIMEOUT (R429): the barrier has not been reached 1 ms after a 9-phase limit, so the stream halts and
  the band goes dark. -/
  | phaseLimitTimeout
  /-- INPUT_UNDERVOLTAGE (R427): the input is below 40 V for 100 µs, and the pace allowance falls to the floor. -/
  | inputUndervoltage
  /-- UNDERVOLT_RECOVERY (R427): the input has stayed at 40 V or above for 10 ms, and the limit lifts. -/
  | undervoltRecovery
  /-- SLEW_COMPLETE (R436): every band reaches its new voltage target, and the raised pace applies. -/
  | slewComplete
  /-- DROOP_CLEARED (R440): every band has stayed at 10 mV or less for 2 µs; permits and deferred changes resume. -/
  | droopCleared
  /-- DROOP_REDUCTION_END (R440): the 1 s severe-droop reduction ends. -/
  | droopReductionEnd
  /-- CROSS_LAYER_ESTIMATE (R447): every 1 ms each band's temperature is estimated from the neighbouring layers. -/
  | crossLayerEstimate
  /-- THERMAL_WINDOW (R450): at the end of each 1 ms window, the thermal limit is adjusted. -/
  | thermalWindow
  /-- FLOW_AVERAGE (R451): every 100 ms the average flow sets the LOW state and the coolant limit. -/
  | flowAverage
  /-- LOW_HELD (R451): LOW has held for 10 s, and the module enters FAULT. -/
  | lowHeld
  /-- LOSS_COMPARISON (R452): every 1 ms after a coolant loss, the beacon compares temperatures and may open every
  header. -/
  | lossComparison
  /-- MC_SIGNAL (R459): the management controller signals the beacon every 1 ms. -/
  | mcSignal
  /-- MC_WATCHDOG (R459): 5 ms without a signal: the module enters the safe state and the management controller
  restarts. -/
  | mcWatchdog
  /-- CAIRN_RECORD_WRITE (R466): a queued cairn record finishes writing, and the next record begins. -/
  | cairnRecordWrite
  /-- FINGERPRINT_PASS (R473): every 600 s a fingerprint pass of FP_ROWS runs over the shards. -/
  | fingerprintPass
  /-- FP_PASS_LATE (R473): a pass did not complete within 600 s. -/
  | fpPassLate
  /-- ATTEST_SIGNED (R492): signing completes, and the report is ready. -/
  | attestSigned
  /-- DURATION_END (R498): the session's DURATION expires, and the session ends. -/
  | durationEnd
  /-- CHALLENGE_EXPIRY (R497): a challenge expires after 60 s. -/
  | challengeExpiry
  /-- LOCKOUT_END (R498): the 60 s lockout ends. -/
  | lockoutEnd
  /-- REFCLK_LOST (R510): REFCLK is judged lost, and every active link PHY returns to DOWN. -/
  | refclkLost
  /-- REFCLK_RESTORED (R510): REFCLK has been within ±100 ppm for 1 ms, and the PHYs train again. -/
  | refclkRestored
  /-- RESET_N_RELEASED (R513): RESET_N returns high; after 1 ms high, GO writes to step objects are accepted again and
  ALERT_N is released if nothing else holds it low. -/
  | resetNReleased
  /-- FW_COMMIT_VERIFIED (R490): verification of the slot named by FW_COMMIT completes; on OK the slot is selected for
  the next boot, and in recovery mode the committed slot is booted with a full reset. -/
  | fwCommitVerified
deriving DecidableEq, Repr

end Sys2Proof
end

