-- ==== Sys2Proof/Machine/FloorPlan.lean ====
section
/-!
DEFINITION. The floor plan: coordinates, enabled positions, neighbours, mesh routes and the record formed from
the fuses (R44 to R56).
-/
namespace Sys2Proof.Machine

/-- Row of a position, d × 48 + r: the linear index is d × 2,352 + r × 49 + c. -/
def rowOf (cell : Nat) : Nat := cell / 49
/-- Column of a position. -/
def colOf (cell : Nat) : Nat := cell % 49
/-- Band of a row: L0–L7, then U0–U7. -/
def bandOfRow (row : Nat) : Nat := row / 6
/-- Band of a position. -/
def bandOf (cell : Nat) : Nat := bandOfRow (rowOf cell)
/-- Die of a row: 0 L, 1 U. -/
def dieOfRow (row : Nat) : Nat := row / 48
/-- The position at a row and column. -/
def cellAt (row col : Nat) : Nat := row * 49 + col

/-- The row entry of the record (R48). -/
def rowEntry (m : Map (BitVec 16)) (row : Nat) : Nat := (Map.get rowHealthy m row).toNat

/-- The position's column is disabled by its row entry (R48). -/
def disabledIn (entry col : Nat) : Bool := col == field entry 0 6 || col == field entry 6 6

/-- The position is enabled (R45). -/
def isEnabled (p : Plan) (cell : Nat) : Bool := !disabledIn (rowEntry p.rowMap (rowOf cell)) (colOf cell)

/-- The band is dark (R47). -/
def isDark (p : Plan) (band : Nat) : Bool := bitOf p.darkBands.toNat band

/-- The position is enabled and outside every dark band. -/
def isUsable (p : Plan) (cell : Nat) : Bool :=
  decide (cell < 4704) && isEnabled p cell && !isDark p (bandOf cell)

/-- Physical columns of a row's logical columns, in order (R50). -/
def logicalCols (p : Plan) (row : Nat) : List Nat :=
  (List.range 49).filter (fun c => !disabledIn (rowEntry p.rowMap row) c)

/-- The position of a logical column of a row, if the row has it (R50). -/
def cellOfLogical (p : Plan) (row lcol : Nat) : Option Nat :=
  if lcol < (logicalCols p row).length then some (cellAt row (listGet 0 (logicalCols p row) lcol)) else none

/-- The logical column of an enabled position. -/
def logicalOf (p : Plan) (cell : Nat) : Nat :=
  ((List.range (colOf cell)).filter (fun c => !disabledIn (rowEntry p.rowMap (rowOf cell)) c)).length

/-- Every usable position, in ascending order. -/
def usableList (p : Plan) : List Nat := (List.range 4704).filter (isUsable p)

/-- The nearest enabled position to the west, across a bypass (R44, R45). -/
def westOf (p : Plan) (cell : Nat) : Option Nat :=
  ((List.range (colOf cell)).reverse.find? (fun c => isUsable p (cellAt (rowOf cell) c))).map (cellAt (rowOf cell))

/-- The nearest enabled position to the east, across a bypass (R44, R45). -/
def eastOf (p : Plan) (cell : Nat) : Option Nat :=
  ((List.range 49).find? (fun c => decide (colOf cell < c) && isUsable p (cellAt (rowOf cell) c))).map
    (cellAt (rowOf cell))

/-- The position to the north, where it exists and is usable (R44). -/
def northOf (p : Plan) (cell : Nat) : Option Nat :=
  if rowOf cell % 48 < 47 ∧ isUsable p (cell + 49) then some (cell + 49) else none

/-- The position to the south, where it exists and is usable (R44). -/
def southOf (p : Plan) (cell : Nat) : Option Nat :=
  if 0 < rowOf cell % 48 ∧ isUsable p (cell - 49) then some (cell - 49) else none

/-- The partner on the other die, where it is usable (R45). -/
def partnerOf (p : Plan) (cell : Nat) : Option Nat :=
  let q := if cell < 2352 then cell + 2352 else cell - 2352
  if isUsable p q then some q else none

/-- The neighbour on a link: 1 partner, 2 west, 3 east, 4 north, 5 south (R120). -/
def linkPeer (p : Plan) (cell link : Nat) : Option Nat :=
  match link with
  | 1 => partnerOf p cell
  | 2 => westOf p cell
  | 3 => eastOf p cell
  | 4 => northOf p cell
  | 5 => southOf p cell
  | _ => none

/-- The link code under which the other end receives. -/
def linkBack (link : Nat) : Nat :=
  match link with
  | 2 => 3
  | 3 => 2
  | 4 => 5
  | 5 => 4
  | l => l

/-- The mesh crossing to the other die at the row's west or east end (R54; log entry 11). -/
def crossOf (p : Plan) (cell : Nat) : Option Nat :=
  let row := rowOf cell
  let other := if row < 48 then row + 48 else row - 48
  let us := (List.range 49).filter (fun c => isUsable p (cellAt other c))
  if westOf p cell = none then us.head?.map (cellAt other)
  else if eastOf p cell = none then us.getLast?.map (cellAt other)
  else none

/-- One hop of a mesh route. -/
def hop (p : Plan) (cell : Nat) (d : Dir) : Option Nat :=
  match d with
  | .north => northOf p cell
  | .south => southOf p cell
  | .east => eastOf p cell
  | .west => westOf p cell
  | .cross => crossOf p cell

/-- Where a route ends, or the index of the hop that breaks R56 and the position reached. -/
def walkRoute (p : Plan) (i cell : Nat) (route : List Dir) : Except (Nat × Nat) Nat :=
  match route with
  | [] => .ok cell
  | d :: t =>
    if 127 ≤ i then .error (i, cell)
    else match hop p cell d with
      | none => .error (i, cell)
      | some c => walkRoute p (i + 1) c t

/-! ### The record -/

/-- The row entry that the manufacture fuses and a field retirement give (R51). -/
def fusedRow (f : Fuses) (row : Nat) : BitVec 16 :=
  match Map.get 0 f.retired row with
  | 0 => Map.get rowHealthy f.rows row
  | c + 1 => BitVec.ofNat 16 (c % 64 + 0x3F * 64 + 3 * 4096)

/-- A row entry obeys R48, and disables one or two positions (R46). -/
def rowEntryOk (e : Nat) : Bool :=
  let a := field e 0 6
  let b := field e 6 6
  let ra := field e 12 2
  let rb := field e 14 2
  decide (a ≤ 48) &&
    (if b = 0x3F then decide (rb = 0) else decide (a < b ∧ b ≤ 48 ∧ ra ≠ 0 ∧ rb ≠ 0))

/-- The row has two disabled positions. -/
def shortRow (e : Nat) : Bool := decide (field e 6 6 ≠ 0x3F)

/-- The number of failed phases a band's fuses record (R429). -/
def failedPhases (f : Fuses) (band : Nat) : Nat :=
  ((List.range 24).filter (fun i => bitOf (Map.get 0#24 f.phases band).toNat i)).length

/-- Bands with 9 or more failed phases are dark (R47, R429). -/
def fusedDark (f : Fuses) : BitVec 16 :=
  BitVec.ofNat 16 ((List.range 16).foldl (fun v b => if 9 ≤ failedPhases f b then v + 2 ^ b else v) 0)

/-- Usable cells: over rows outside dark bands, 49 minus the row's disabled positions (R48). -/
def countUsable (rowMap : Map (BitVec 16)) (dark : BitVec 16) : Nat :=
  ((List.range 96).map (fun r =>
    if bitOf dark.toNat (bandOfRow r) then 0 else if shortRow (rowEntry rowMap r) then 47 else 48)).foldl (· + ·) 0

/-- The 192 bytes of ROW_MAP (R47). -/
def rowMapBytes (rowMap : Map (BitVec 16)) : Bytes :=
  ((List.range 96).map (fun r => leBytes 2 (rowEntry rowMap r))).flatten

/-- FP_DIGEST: SM3 of FP_FORMAT, ROW_MAP and DARK_BANDS (R47). -/
def planDigest (rowMap : Map (BitVec 16)) (dark : BitVec 16) : Bytes :=
  sm3 (leBytes 2 1 ++ rowMapBytes rowMap ++ leBytes 2 dark.toNat)

/-- The record with a set of dark bands: DARK_BANDS, USABLE_CELLS and FP_DIGEST change together (R49). -/
def Plan.withDark (p : Plan) (dark : BitVec 16) : Plan :=
  { p with
    darkBands := dark
    usableCells := BitVec.ofNat 16 (countUsable p.rowMap dark)
    digest := planDigest p.rowMap dark }

/-- The record the fuses form at a full reset (R47). -/
def formPlan (f : Fuses) : Plan :=
  let rowMap := (List.range 96).foldl (fun m r => Map.set rowHealthy m r (fusedRow f r)) []
  let short := ((List.range 96).filter (fun r => shortRow (rowEntry rowMap r))).length
  Plan.withDark ⟨0#16, BitVec.ofNat 8 short, 0#16, rowMap, [], 0#16⟩ (fusedDark f)

/-- The record obeys R46 and R48. -/
def planOk (p : Plan) : Bool :=
  (List.range 96).all (fun r => rowEntryOk (rowEntry p.rowMap r)) && decide (p.shortRows.toNat ≤ 6)

end Sys2Proof.Machine
end

