-- ==== Sys2Proof/Machine/CellMem.lean ====
section
/-!
DEFINITION. A cell's access to its tile memory, Loam and side memory through the SEC-DED code, and the forming of
operand addresses (R125, R126, R164 to R173). What an operation causes outside its cell is a list of `Fx`.
-/
namespace Sys2Proof.Machine

/-- What a cell's operation causes outside the cell's own state. -/
inductive Fx where
  /-- MX_ILLEGAL with the number of the rule broken; the cell enters FAULT (R80) -/
  | mxIllegal (rule : Nat)
  /-- SLOT_ILLEGAL in a slot (0 MX, 1 VX, 2 MV, 3 DM, 4 SB); the cell enters FAULT (R123) -/
  | slotIllegal (slot : Nat)
  /-- AG_RANGE; the cell enters FAULT (R126) -/
  | agRange (gen : Nat) (addr : Nat)
  /-- RESIDUE_MISMATCH at the first failing output (R78) -/
  | residue (array row col : Nat)
  /-- NONFINITE_TILE with the status word (R99) -/
  | nonfinite (status : BitVec 64)
  /-- POISON_CONSUMED with the status word so far (R95) -/
  | poisonConsumed (status : BitVec 64)
  /-- SIDE_KIND; the cell enters FAULT (R322) -/
  | sideKind (vop entry : Nat)
  /-- a corrected word of tile memory (0), Loam (1) or a crossing (2) (R172, R173) -/
  | corrected (store : Nat)
  /-- an uncorrectable word: store and byte address ÷ 8 (R172, R181) -/
  | uncorrectable (store word : Nat)
  /-- CROSS_MARGIN at a crossing (R177) -/
  | margin (crossing : Nat)
  /-- a 256 B unit is sent on a link (R120) -/
  | linkSend (link : Nat) (data : List TWord)
  /-- the oldest unit of a link's buffer has been taken (R120) -/
  | linkTake (link : Nat)
  /-- a 64 B flit is sent on a mesh route (R56) -/
  | meshSend (route : Nat) (data : List TWord)
  /-- the oldest flit for the cell has been taken -/
  | meshTake
  /-- the cell drives its row's data lane with 128 B (R120) -/
  | laneDrive (data : List TWord)
  /-- a status the operation returns (R100) -/
  | status (code : BitVec 8)
  /-- the operation used this many undefined bytes (log entry 4) -/
  | freeUsed (n : Nat)
deriving DecidableEq, Repr

/-- The effect is a fault-severity event: the cell enters FAULT (R18). -/
def Fx.faults : Fx → Bool
  | .mxIllegal _ => true
  | .slotIllegal _ => true
  | .agRange _ _ => true
  | .sideKind _ _ => true
  | _ => false

/-- What the stream and the planting map give a cell for one step (R118, R124, R126). -/
structure CellEnv where
  cell : Nat
  gens : Map (BitVec 256)
  seed : BitVec 32
  /-- the repeat index, and the index of each loop counter (0 when inactive) -/
  rep : Nat
  idx : List Nat
  training : Bool
  /-- undefined bytes drawn so far (log entry 4) -/
  free : Nat
deriving DecidableEq, Repr

/-! ### Code words in a byte table: 9 bytes a word -/

/-- The stored code word. -/
def rawWord (m : Mem) (w : Nat) : BitVec 64 × BitVec 8 :=
  (BitVec.ofNat 64 (leNat (memRead m (9 * w) 8)), memGet m (9 * w + 8))

/-- Store a code word as it stands. -/
def putRaw (m : Mem) (w : Nat) (d : BitVec 64) (c : BitVec 8) : Mem :=
  memWrite m (9 * w) (leBytes 8 d.toNat ++ [c])

/-- Store a word: its check bits, or those of the invalid tag (R171). -/
def storeWord (m : Mem) (w : Nat) (t : TWord) : Mem :=
  putRaw m w t.d (if t.bad then hsiaoCheck t.d ^^^ tagMask else hsiaoCheck t.d)

/-- Read a word through the decoder: as delivered, and its class (R172). -/
def loadWord (m : Mem) (w : Nat) : TWord × HClass :=
  let r := rawWord m w
  let x := hsiaoDecode r.1 r.2
  (⟨x.2, x.1.invalid⟩, x.1)

/-- What a reader counts for one word (R172). -/
def classFx (store w : Nat) (c : HClass) : List Fx :=
  match c with
  | .clean => []
  | .tagged => []
  | .single => [.corrected store]
  | .uncorrectable => [.uncorrectable store w]

/-- Read `n` words from word `w` on. -/
def loadWords (m : Mem) (store w n : Nat) : List TWord × List Fx :=
  match n with
  | 0 => ([], [])
  | n + 1 =>
    let x := loadWord m w
    let r := loadWords m store (w + 1) n
    (x.1 :: r.1, classFx store w x.2 ++ r.2)

/-- Store words from word `w` on. -/
def storeWords (m : Mem) (w : Nat) (ts : List TWord) : Mem :=
  match ts with
  | [] => m
  | t :: rest => storeWords (storeWord m w t) (w + 1) rest

/-- The bytes of words as delivered. -/
def wordBytes (ts : List TWord) : Bytes := (ts.map (fun t => leBytes 8 t.d.toNat)).flatten

/-- Some word carries the invalid tag. -/
def anyBad (ts : List TWord) : Bool := ts.any (fun t => t.bad)

/-- `n` bytes from byte address `a` on: the bytes, whether a word read was invalid, and what is counted. -/
def readTile (m : Mem) (a n : Nat) : Bytes × Bool × List Fx :=
  if n = 0 then ([], false, [])
  else
    let w := a / 8
    let r := loadWords m 0 w ((a + n - 1) / 8 - w + 1)
    (((wordBytes r.1).drop (a % 8)).take n, anyBad r.1, r.2)

/-- Write bytes into one word; a tag goes only when the whole word is overwritten (R96, R171). -/
def putInWord (m : Mem) (w off : Nat) (bs : Bytes) (bad : Bool) : Mem :=
  let old := (loadWord m w).1
  let ob := leBytes 8 old.d.toNat
  let nb := ob.take off ++ bs ++ ob.drop (off + bs.length)
  storeWord m w ⟨BitVec.ofNat 64 (leNat nb), bad || (decide (bs.length < 8) && old.bad)⟩

/-- Write bytes at byte address `a`, word by word; `fuel` bounds the number of words. -/
def writeTileFrom (fuel : Nat) (m : Mem) (a : Nat) (bs : Bytes) (bad : Bool) : Mem :=
  match fuel with
  | 0 => m
  | f + 1 =>
    match bs with
    | [] => m
    | _ =>
      let k := 8 - a % 8
      writeTileFrom f (putInWord m (a / 8) (a % 8) (bs.take k) bad) (a + k) (bs.drop k) bad

/-- Write bytes at byte address `a`, tagged where `bad`. -/
def writeTile (m : Mem) (a : Nat) (bs : Bytes) (bad : Bool) : Mem :=
  writeTileFrom (bs.length + 1) m a bs bad

/-- An access of `n` bytes at `a` lies in tile memory (R164). -/
def inTile (a n : Nat) : Bool := decide (a + n ≤ 0x80000)

/-- Loam rows the schedule may name (R167). -/
def loamRowOk (row : Nat) : Bool := decide (row < 6054)

/-! ### Operand addresses -/

/-- The bytes of a block of 32 elements of a format code, and the bits of an element (R84, R116). -/
def fmtBits (code : Nat) : Nat :=
  match code with
  | 0 => 32
  | 1 => 16
  | 6 => 6
  | 7 => 6
  | 8 => 4
  | _ => 8

/-- The format code is one of the MX formats (R116). -/
def fmtMx (code : Nat) : Bool := decide (4 ≤ code ∧ code ≤ 8)

/-- The element format of a format code (R116). -/
def fmtOf (code : Nat) : FpFmt :=
  match code with
  | 0 => fmtF32
  | 1 => fmtBf16
  | 2 => fmtE4M3
  | 3 => fmtE5M2
  | 4 => fmtE4M3
  | 5 => fmtE5M2
  | 6 => fmtE2M3
  | 7 => fmtE3M2
  | _ => fmtE2M1

/-- A signed field of `w` bits. -/
def signed (v w : Nat) : Int := if v < 2 ^ (w - 1) then v else (v : Int) - 2 ^ w

/-- The offset a generator forms from the stream counters (R126). -/
def agOffset (env : CellEnv) (g : Nat) : Int :=
  let off := signed (field g 36 24) 24 * env.rep +
    ((List.range 8).map (fun i => signed (field g (84 + 20 * i) 20) 20 * ((listGet 0 env.idx i : Nat) : Int))).foldl (· + ·) 0
  let wrap := field g 4 5
  if wrap = 0 then off else off % (2 ^ wrap : Int)

/-- ADDR of a descriptor (R129). -/
def descAddr (d : BitVec 512) : Nat := field d.toNat 64 52

/-- The start of a position's tile memory aperture (R187). -/
def tileAperture (cell : Nat) : Nat := 0x8000100000000 + cell * 0x100000

/-- Form an address (R126): element and scale address in the generator's space; a device address of SPACE 2–5
is the cell's own tile memory where it lies in the cell's own aperture (log entry 12). -/
def formAddr (env : CellEnv) (c : CellState) (gen : Nat) (fmt : Option Nat) : Except Fx OpAddr :=
  let g := (Map.get 0#256 env.gens gen).toNat
  let space := field g 0 4
  let off := agOffset env g
  let mx : Bool := match fmt with | some f => fmtMx f | none => false
  let blk : Nat := match fmt with | some f => 4 * fmtBits f | none => 1
  if mx ∧ off % (blk : Int) ≠ 0 then .error (.mxIllegal 126)
  else
    let base : Int := (field g 12 24 : Int) + off
    let scale : Int := if mx then (field g 60 24 : Int) + off / (blk : Int) else 0
    let dev : Int := if 2 ≤ space ∧ space ≤ 5 then (descAddr (listGet 0#512 c.regs (space - 2)) : Int) else 0
    let local' : Int := if 2 ≤ space ∧ space ≤ 5 then base + dev - tileAperture env.cell else base
    let lim : Int := if space = 1 then 0xC0000 else 0x80000
    if local' < 0 ∨ lim ≤ local' ∨ scale < 0 ∨ lim ≤ scale ∨ 5 < space then
      .error (.agRange gen ((base + dev) % (2 ^ 64 : Int)).toNat)
    else .ok ⟨if space = 1 then 1 else 0, local'.toNat, scale.toNat⟩

/-- Form an address that must lie in tile memory (R164). -/
def formTile (env : CellEnv) (c : CellState) (gen : Nat) (fmt : Option Nat) : Except Fx OpAddr :=
  match formAddr env c gen fmt with
  | .error e => .error e
  | .ok a => if a.space = 0 then .ok a else .error (.agRange gen a.addr)

/-- Form an address that must name a Loam row outside the reserved area (R167). -/
def formLoam (env : CellEnv) (c : CellState) (gen : Nat) : Except Fx OpAddr :=
  match formAddr env c gen none with
  | .error e => .error e
  | .ok a =>
    if a.space = 1 ∧ a.addr % 128 = 0 ∧ loamRowOk (a.addr / 128) then .ok a else .error (.agRange gen a.addr)

/-- The bits of element `t` in a packed little-endian block (R84). -/
def elemBits (blk : Bytes) (bits t : Nat) : Nat := field (leNat blk) (t * bits) bits

/-- Pack element encodings little-endian into bytes (R84). -/
def packElems (bits : Nat) (es : List Nat) : Bytes :=
  let v := es.foldr (fun e acc => e % 2 ^ bits + 2 ^ bits * acc) 0
  leBytes ((es.length * bits + 7) / 8) v

/-- The number an MX element stands for, with its block's scale byte; scale 0xFF is NaN (R82, R84). -/
def scaled (x : Num) (s : Nat) : Num :=
  if s = 0xFF then .nan
  else match x with
    | .fin n m q => .fin n m (q + (s : Int) - 127)
    | y => y

end Sys2Proof.Machine
end

