-- ==== Sys2Proof/Machine/StateBoot.lean ====
section
/-!
DEFINITION. Bring-up, resets, the loaded image, security and the pins: that part of State (R411 to R425,
R481 to R502, R510 to R514).
-/
namespace Sys2Proof.Machine

/-- STATE of a bring-up step (R412). -/
inductive StepSt where
  | notDone | running | done | failed
deriving DecidableEq, Repr

/-- The code of a step's STATE. -/
def StepSt.code : StepSt → Nat
  | .notDone => 0
  | .running => 1
  | .done => 2
  | .failed => 3

/-- A step object (R412). -/
structure StepObj where
  st : StepSt
  status : BitVec 8
  elapsedUs : BitVec 32
  param : BitVec 64
  /-- when the present run began, in µs -/
  since : Nat
deriving DecidableEq, Repr

/-- A section of the loaded image part: where it lies and how long it is (R417). -/
structure Section where
  addr : Nat
  len : Nat
deriving DecidableEq, Repr

/-- The loaded image part (R417, R418). -/
structure Image where
  addr : Nat
  sections : List Section
  training : Bool
  lea : Bool
  partIndex : BitVec 16
  leaSize : BitVec 16
  portMask : BitVec 36
  leaDigest : Bytes
  digest : Bytes
  /-- 12 × 80 slot class codes (R189) -/
  slots : List (List (BitVec 2))
  /-- hedgerow slot maps and lists by port: entries of R353 -/
  hdgSlots : List (BitVec 64)
  hdgLists : List (List (BitVec 256))
  /-- attention commands in CMD_ID order (R296) -/
  attn : List (BitVec 1024)
  /-- variants of the planting map (R453) -/
  variants : List PlantMap
deriving DecidableEq, Repr

/-- The verified control-core package (R483, R420). -/
structure CoreFw where
  addr : Nat
  len : Nat
  svn : BitVec 6
  version : BitVec 32
  key : BitVec 2
  measure : Bytes
deriving DecidableEq, Repr

/-- The running step: its number, PARAM at its GO, and the variants of the planting map that the part at PARAM spells
(log entry 41). -/
structure StepWork where
  step : Nat
  addr : Nat
  variants : List PlantMap
deriving DecidableEq, Repr

/-- A running reset (R421 to R423): its kind, and a status it has already met. -/
structure ResetRun where
  kind : Nat
  status : BitVec 8
deriving DecidableEq, Repr

/-- Bring-up and resets (R411 to R423). -/
structure Bring where
  /-- input power is present and the boot ROM has run (R411) -/
  powered : Bool
  /-- the beacon restarts the management controller: its services are down until its boot (R459, R460) -/
  mcDown : Bool
  /-- RESET_N is low, or has not been high for 1 ms (R513) -/
  resetHeld : Bool
  /-- the work the module's stream part does: FENCED, READY or RUN (R411, R418, R420) -/
  work : UState
  steps : List StepObj
  bootMs : BitVec 32
  selftestFails : BitVec 16
  run : Option StepWork
  resetUnit : BitVec 32
  resetResult : BitVec 8
  saveFails : BitVec 16
  rst : Option ResetRun
  image : Option Image
  coreFw : Option CoreFw
  /-- REFCLK is present (R510) -/
  refclk : Bool
  /-- control cores held in reset, by bit (R422) -/
  coresHeld : BitVec 16
  /-- history of residue mismatches by cell × 4 + array: time in µs plus 1; kept across resets (R79) -/
  mismatches : Map Nat
  /-- what the fuses held at the last full reset (R493) -/
  fuseSnap : List Nat
deriving DecidableEq, Repr

/-- A session (R496, R497). -/
structure Session where
  rights : BitVec 3
  service : Bool
  /-- when it ends, in µs -/
  ends : Nat
deriving DecidableEq, Repr

/-- A challenge (R497). -/
structure Challenge where
  value : BitVec 256
  rights : BitVec 3
  service : Bool
  duration : BitVec 16
  /-- when it was drawn, in µs -/
  since : Nat
deriving DecidableEq, Repr

/-- Security and its objects (R500). -/
structure Sec where
  profile : BitVec 8
  mcSlot : BitVec 8
  /-- the slot selected for the next boot (R490) -/
  nextSlot : BitVec 8
  /-- the two firmware slots, 2 MiB each: non-volatile -/
  slotA : Mem
  slotB : Mem
  mcVersion : BitVec 32
  mcMeasure : Bytes
  result : BitVec 8
  ownerKey : Bytes
  /-- OWNER_KEY has been written without a session (R497) -/
  ownerOnce : Bool
  imageKey : Bytes
  attNonce : Bytes
  attState : BitVec 8
  attReport : Bytes
  challenge : Option Challenge
  /-- the response being verified: the challenge and the signature -/
  verifying : Option (Challenge × Bytes)
  session : Option Session
  fails : BitVec 32
  /-- failures in a row, and whether a lockout holds -/
  failRun : Nat
  lockout : Bool
  fwSlot : BitVec 8
  fwOffset : BitVec 32
  /-- the slot that FW_COMMIT is verifying -/
  committing : Option (BitVec 8)
  dbgHalt : BitVec 8
  dbgSel : BitVec 32
  dbgStatus : BitVec 8
  /-- the word that the last debug read returned (R97) -/
  dbgAcc : BitVec 64
  /-- recovery mode (R489) -/
  recovery : Bool
deriving DecidableEq, Repr

/-- A step that has not run. -/
def StepObj.reset : StepObj := ⟨.notDone, 0#8, 0#32, 0#64, 0⟩

/-- Bring-up after a full reset: FENCED, no step done (R411, R422). -/
def Bring.reset (bootMs : BitVec 32) (mismatches : Map Nat) : Bring where
  powered := true
  mcDown := false
  resetHeld := false
  work := .fenced
  steps := List.replicate 7 StepObj.reset
  bootMs := bootMs
  selftestFails := 0#16
  run := none
  resetUnit := 0#32
  resetResult := 0#8
  saveFails := 0#16
  rst := none
  image := none
  coreFw := none
  refclk := true
  coresHeld := 0xFFFF#16
  mismatches := mismatches
  fuseSnap := []

/-- Security as manufactured, booted from slot A (R500; log entry 17). -/
def Sec.reset : Sec where
  profile := 0#8
  mcSlot := 0#8
  nextSlot := 0#8
  slotA := []
  slotB := []
  mcVersion := 0#32
  mcMeasure := List.replicate 32 0#8
  result := 0#8
  ownerKey := List.replicate 64 0#8
  ownerOnce := false
  imageKey := List.replicate 64 0#8
  attNonce := List.replicate 32 0#8
  attState := 0#8
  attReport := List.replicate 512 0#8
  challenge := none
  verifying := none
  session := none
  fails := 0#32
  failRun := 0
  lockout := false
  fwSlot := 1#8
  fwOffset := 0#32
  committing := none
  dbgHalt := 0#8
  dbgSel := 0#32
  dbgStatus := 0#8
  dbgAcc := 0#64
  recovery := false

end Sys2Proof.Machine
end

