-- ==== Sys2Proof/Machine/StateDma.lean ====
section
/-!
DEFINITION. Bulk transfers and attention: queues, transfers, tags, the sequence table, walks and submissions
(R265 to R314).
-/
namespace Sys2Proof.Machine

/-- The place of a descriptor taken from a queue, until its record is written. -/
structure DmaPlace where
  /-- ring index -/
  index : Nat
  comp : Bool
  /-- its completion record, once it has completed -/
  record : Option Bytes
  /-- the record is held until that barrier has completed (R148) -/
  held : Option Nat
deriving DecidableEq, Repr

/-- One DMA queue (R267). -/
structure DmaQueue where
  enable : Bool
  mode : Bool
  ringHost : Bool
  cqHost : Bool
  ringBase : BitVec 64
  ringSize : BitVec 5
  head : BitVec 16
  tail : BitVec 16
  cqBase : BitVec 64
  cqSize : BitVec 5
  cqHead : BitVec 16
  /-- 0 DISABLED, 1 IDLE, 2 ACTIVE, 3 HALTED -/
  state : BitVec 2
  last : BitVec 8
  errIndex : BitVec 16
  done : BitVec 48
  cqRead : BitVec 16
  /-- records not yet written, in ring order (R278) -/
  order : List DmaPlace
deriving DecidableEq, Repr

/-- Who started a transfer (R273). -/
inductive XferOwner where
  /-- queue and ring index -/
  | queue (q index : Nat)
  /-- row and tag, XB, the step at which it is due until its miss is counted (R275), the queue or register named, a queue's ring index -/
  | stream (w : Nat × Nat) (xb : Bool) (due : Option Nat) (dq : Nat) (index : Option Nat)
deriving DecidableEq, Repr

/-- One write a transfer makes. -/
structure XferWrite where
  /-- the device address of its source bytes; none where they came from host memory -/
  src : Option Nat
  dst : Nat
  bytes : Bytes
  bad : Bool
deriving DecidableEq, Repr

/-- A transfer on a channel (R265). -/
structure Xfer where
  id : Nat
  desc : BitVec 512
  owner : XferOwner
  /-- its writes of device memory, in order, and how many of them have been made -/
  plan : List XferWrite
  made : Nat
  /-- a host source: bytes received by offset, ranges that came marked, bytes received and asked for -/
  host : Mem
  hostBad : List (Nat × Nat)
  hostGot : Nat
  hostAsked : Nat
  /-- words for a row's injector that have not found room in its buffer yet, with their marks (R279) -/
  lane : List (Bytes × Bool)
  /-- what it has met (R281) -/
  poison : Bool
  merge : Bool
  locked : Bool
  range : Bool
  hostErr : Bool
  /-- the status a FALLOW's slices gave, or of a failed check -/
  early : BitVec 8
  done : Nat
  /-- byte offset of the first poisoned or discarded word -/
  firstBad : Option Nat
deriving DecidableEq, Repr

/-- A stream issue that waits for its step boundary or for a channel (R265, R273). -/
structure WaitIssue where
  row : Nat
  tag : Nat
  xb : Bool
  /-- the step at which it is due (R275), until its miss is counted -/
  due : Option Nat
  /-- the queue or register named, for the event -/
  dq : Nat
  desc : BitVec 512
  /-- ring index of a queue's descriptor: check 2 of R271 applies to it -/
  index : Option Nat
deriving DecidableEq, Repr

/-- A row tag that is held (R121, R354): row, tag, XB. -/
structure HeldTag where
  row : Nat
  tag : Nat
  xb : Bool
deriving DecidableEq, Repr

/-- The DMA engines and their objects (R285). -/
structure Dma where
  queues : List DmaQueue
  xfers : List Xfer
  waiting : List WaitIssue
  tags : List HeldTag
  nextId : Nat
  /-- the queue at which round robin goes on (R265) -/
  turn : Nat
  /-- the engines have stopped starting transfers (R284) -/
  quiesce : Bool
  transfers : BitVec 64
  bytes : BitVec 64
  deadlineMisses : BitVec 64
  firstMiss : BitVec 64
  queueHalts : BitVec 32
  headOverruns : BitVec 32
  resetAborts : BitVec 32
  /-- DMA_DEADLINE has been raised in this barrier interval -/
  deadlineRaised : Bool
  /-- transfers aborted that CC-U0 to CC-U7 were told of (R284) -/
  notices : List (BitVec 32)
deriving DecidableEq, Repr

/-- A walk whose command has not posted its final completion (R295). -/
structure WalkRec where
  entry : Nat
  gen : Nat
  cell : Nat
  cmdId : Nat
deriving DecidableEq, Repr

/-- A submission taken from a mailbox and not yet completed (R310). -/
structure Submission where
  core : Nat
  index : Nat
  word : BitVec 1024
  /-- token IDs of a PROMPT by byte offset, bytes asked for and bytes arrived -/
  tokens : Mem
  asked : Nat
  got : Nat
  /-- applied, and waiting for the fence of its entry and GEN -/
  fence : Option (Nat × Nat)
  /-- its effect has been made, or it has been refused: the core completes it in index order -/
  applied : Bool
  status : BitVec 8
deriving DecidableEq, Repr

/-- A prompt queued for prefill (R310). -/
structure Prompt where
  entry : Nat
  count : Nat
  tokens : Bytes
deriving DecidableEq, Repr

/-- The sequence table, the fence, walks, submissions and their objects (R290 to R312). -/
structure Attn where
  seqt : Mem
  fencePending : Bool
  fenceEntry : Nat
  fenceGen : Nat
  fenceStatus : BitVec 8
  walks : List WalkRec
  subs : List Submission
  prefill : List Prompt
  /-- first failing status by entry in the present decode step (R307) -/
  bad : Map (BitVec 8)
  nWalks : BitVec 64
  pageDescs : BitVec 64
  emptyRow : BitVec 64
  walkFaults : BitVec 32
  pageFaults : BitVec 32
  publishRefused : BitVec 32
  seqtDiscards : BitVec 32
  commits : BitVec 64
  accepted : BitVec 64
  firstFault : BitVec 64
deriving DecidableEq, Repr

/-- A queue after a full reset (R267). -/
def DmaQueue.reset : DmaQueue where
  enable := false
  mode := false
  ringHost := false
  cqHost := false
  ringBase := 0#64
  ringSize := 4#5
  head := 0#16
  tail := 0#16
  cqBase := 0#64
  cqSize := 4#5
  cqHead := 0#16
  state := 0#2
  last := 0#8
  errIndex := 0#16
  done := 0#48
  cqRead := 0#16
  order := []

/-- The engines after a full reset. -/
def Dma.reset : Dma where
  queues := List.replicate 64 DmaQueue.reset
  xfers := []
  waiting := []
  tags := []
  nextId := 0
  turn := 0
  quiesce := false
  transfers := 0#64
  bytes := 0#64
  deadlineMisses := 0#64
  firstMiss := 0#64
  queueHalts := 0#32
  headOverruns := 0#32
  resetAborts := 0#32
  deadlineRaised := false
  notices := List.replicate 8 0#32

/-- The sequence table and its counters after a full reset (R290, R312). -/
def Attn.reset : Attn where
  seqt := []
  fencePending := false
  fenceEntry := 0
  fenceGen := 0
  fenceStatus := 0#8
  walks := []
  subs := []
  prefill := []
  bad := []
  nWalks := 0#64
  pageDescs := 0#64
  emptyRow := 0#64
  walkFaults := 0#32
  pageFaults := 0#32
  publishRefused := 0#32
  seqtDiscards := 0#32
  commits := 0#64
  accepted := 0#64
  firstFault := 0#64

end Sys2Proof.Machine
end

