-- ==== Sys2Proof/Machine/StateGlean.lean ====
section
/-!
DEFINITION. The gleaners' part of State (R212 to R238).
-/
namespace Sys2Proof.Machine

/-- GLN_STATUS.STATE (R216). -/
inductive GlnState where
  | idle | preparing | running | done | aborted | fault
deriving DecidableEq, Repr

/-- The encoding of STATE (R216). -/
def GlnState.code : GlnState → Nat
  | .idle => 0
  | .preparing => 1
  | .running => 2
  | .done => 3
  | .aborted => 4
  | .fault => 5

/-- A row window: FIRST_ROW in [14:0], ROWS in [24:16] of its register (R216). -/
structure RowWin where
  first : BitVec 15
  rows : BitVec 9
deriving DecidableEq, Repr

/-- One gleaner: its registers, side row, program store and command area (R213 to R216). -/
structure Gleaner where
  /-- A1 to A15; A0 is never stored -/
  a : Map (BitVec 64)
  v : Map (BitVec 512)
  side : Mem
  pc : Nat
  /-- program store, 9 bytes a word (R215) -/
  store : Mem
  entry : BitVec 9
  tag : BitVec 8
  cc : BitVec 5
  state : GlnState
  /-- the unit's FAULT, shown in 0x3101, until a full reset (R231) -/
  faulted : Bool
  status : BitVec 8
  lastPc : BitVec 9
  elapsed : BitVec 16
  held : BitVec 16
  rwin0 : RowWin
  rwin1 : RowWin
  wwin : RowWin
  faultAddr : BitVec 27
  param : Map (BitVec 64)
  res : Map (BitVec 64)
  /-- program time so far in ns, and the open bank row (R221) -/
  timeNs : Nat
  openRow : Option Nat
  /-- a store of this launch was discarded under R106 -/
  locked : Bool
  /-- the launch came through the broadcast window (R232) -/
  group : Bool
  /-- the completion record that waits for delivery (R232) -/
  waiting : Option (BitVec 128)
deriving DecidableEq, Repr

/-- A group launch in one stack (R232). -/
structure GlnGroup where
  stack : Nat
  cc : BitVec 5
  tag : BitVec 8
  /-- gleaners still preparing or running -/
  pending : List Nat
  launched : Nat
  failed : Nat
  /-- lowest-indexed failing gleaner and its status -/
  lowest : Option (Nat × BitVec 8)
  elapsed : BitVec 16
deriving DecidableEq, Repr

/-- What an access that is held does when it is released. -/
inductive HeldKind where
  /-- a read or write at its slice -/
  | access
  /-- a read or write at the controller itself, past the slice -/
  | direct
  /-- an unsow request, of a whole block or not, under the policy (R202) -/
  | unsow (whole strict : Bool)
  /-- a checker test command (R207) -/
  | test (op : Nat)
deriving DecidableEq, Repr

/-- An ordinary access held while a program has its bank (R225). -/
structure HeldAccess where
  /-- device physical address, data (a write) or length (a read) -/
  addr : Nat
  write : Bool
  data : Bytes
  poison : Bool
  len : Nat
  requester : BitVec 32
  cls : Nat
  sheaf : Bool
  kind : HeldKind
  /-- when it was held, in µs -/
  since : Nat
deriving DecidableEq, Repr

/-- The gleaners and their administration (R232, R235). -/
structure Gleaners where
  cells : Map Gleaner
  groups : List GlnGroup
  /-- gleaner completion queue by control core: at most 64 (R232) -/
  queues : Map (List (BitVec 128))
  /-- held accesses by channel (stack × 32 + channel), in order of arrival (R225) -/
  held : Map (List HeldAccess)
  launches : BitVec 64
  endedOk : BitVec 64
  endedNotOk : BitVec 64
  ueEnds : BitVec 32
  watchdogEnds : BitVec 32
  rejectedWrites : BitVec 32
  holdMax : BitVec 32
  enable : BitVec 8
deriving DecidableEq, Repr

/-- A gleaner after a full reset: everything zero but CC (R215, R216). -/
def Gleaner.reset : Gleaner where
  a := []
  v := []
  side := []
  pc := 0
  store := []
  entry := 0#9
  tag := 0#8
  cc := 0x1F#5
  state := .idle
  faulted := false
  status := 0#8
  lastPc := 0#9
  elapsed := 0#16
  held := 0#16
  rwin0 := ⟨0#15, 0#9⟩
  rwin1 := ⟨0#15, 0#9⟩
  wwin := ⟨0#15, 0#9⟩
  faultAddr := 0#27
  param := []
  res := []
  timeNs := 0
  openRow := none
  locked := false
  group := false
  waiting := none

/-- The gleaners after a full reset (R233, R235). -/
def Gleaners.reset : Gleaners := ⟨[], [], [], [], 0#64, 0#64, 0#64, 0#32, 0#32, 0#32, 0#32, 1#8⟩

end Sys2Proof.Machine
end

