-- ==== Sys2Proof/Machine/StateLinks.lean ====
section
/-!
DEFINITION. The links' part of State: hedgerow ports, lea transfer lists, best-effort messages, the Jaeno link,
its window registers and the mailboxes (R335 to R387).
-/
namespace Sys2Proof.Machine

/-- Training states of a port and of the Jaeno link (R349, R371). -/
inductive LinkSt where
  | down | signal | align | ident | up | retrain | failed
deriving DecidableEq, Repr

/-- The code of a link state. -/
def LinkSt.code : LinkSt → Nat
  | .down => 0
  | .signal => 1
  | .align => 2
  | .ident => 3
  | .up => 4
  | .retrain => 5
  | .failed => 6

/-- One lane of a port, or the DATA lane of the Jaeno link (R343, R344, R369). -/
structure Lane where
  /-- SEQ of the next new flit -/
  next : Nat
  /-- unacknowledged flits: SEQ, and the flit without its ACK fields and CRC -/
  replay : List (Nat × Bytes)
  /-- flits that wait for room in the replay buffer -/
  queue : List Bytes
  /-- the SEQ expected next, the last accepted (none since the reset), and whether a gap follows it -/
  expect : Nat
  acked : Option Nat
  nak : Bool
  /-- replays by timeout in a row -/
  timeouts : Nat
  /-- a LANE_RESET of this end has not been echoed -/
  resetting : Bool
  /-- the present gap has been answered by a replay -/
  replayed : Bool
deriving DecidableEq, Repr

/-- A LINK flit sent and not yet echoed: subtype, serial, and the payload after the link header (R342). -/
structure LinkWait where
  subtype : Nat
  serial : Nat
  body : Bytes
deriving DecidableEq, Repr

/-- What training and replay keep for one link. -/
structure LinkTrain where
  st : LinkSt
  /-- in RETRAIN: 0 SIGNAL, 1 ALIGN, 2 IDENT (R349) -/
  sub : Nat
  /-- consecutive failed attempts -/
  attempts : Nat
  /-- when the retrains that count were made, in µs (R351, R372) -/
  retrains : List Nat
  /-- uncorrectable codewords in a row, and when those of the last ms came -/
  ueRun : Nat
  ueTimes : List Nat
  degraded : Bool
  /-- in IDENT: the peer's IDENT has come; its echo of ours has come -/
  identIn : Bool
  identEchoed : Bool
  serial : Nat
  waits : List LinkWait
  /-- (subtype, serial) pairs already acted on -/
  acted : List (Nat × Nat)
deriving DecidableEq, Repr

/-- A transfer entry (R353): its 32 bytes as a word. -/
abbrev XferEntry := BitVec 256

/-- A port's list of one direction, with the place reached (R354). -/
structure XferList where
  entries : List XferEntry
  entry : Nat
  rep : Nat
  /-- the present repeat holds its tag -/
  busy : Bool
  /-- bytes received so far of a receive repeat -/
  done : Nat
deriving DecidableEq, Repr

/-- A best-effort message as it is put together: its bytes from the header on, and the marks of its words. -/
structure MsgBuf where
  data : Bytes
  marks : List Bool
deriving DecidableEq, Repr

/-- One hedgerow port. -/
structure Port where
  train : LinkTrain
  peer : BitVec 64
  peerLea : BitVec 32
  lea : Lane
  be : Lane
  send : XferList
  recv : XferList
  /-- the receive channel is in FAULT (R355) -/
  fault : Bool
  /-- LEA flits accepted before their receive repeat took its tag: payload, marks, LAST -/
  leaIn : List (Bytes × BitVec 62 × Bool)
  /-- the BE message being received, and those received whole, oldest first -/
  rx : Option MsgBuf
  inbox : List MsgBuf
deriving DecidableEq, Repr

/-- A best-effort queue (R361). -/
structure BeQueue where
  enable : Bool
  ringBase : BitVec 64
  ringSize : BitVec 4
  head : BitVec 16
  tail : BitVec 16
  cqBase : BitVec 64
  cqHead : BitVec 16
  state : Bool
  last : BitVec 8
deriving DecidableEq, Repr

/-- A best-effort message whose ACK is awaited, or whose completion waits for its turn (R363). -/
structure BeMsg where
  queue : Nat
  index : Nat
  user : BitVec 32
  msgId : Nat
  /-- when it was sent, in µs -/
  since : Nat
  /-- a source word was poison -/
  marked : Bool
  status : Option (BitVec 8)
deriving DecidableEq, Repr

/-- The hedgerow fabric and its objects (R364). -/
structure Hedgerow where
  ports : List Port
  fecCorrected : BitVec 64
  fecUncorr : BitVec 64
  crcFail : BitVec 64
  replays : BitVec 64
  retrains : BitVec 32
  markedWords : BitVec 64
  firstMark : BitVec 64
  beDropped : BitVec 32
  /-- last second, plus 1, in which HDG_BE_DROPPED was raised -/
  dropRaised : Nat
  fleetId : BitVec 16
  route : Bytes
  winBase : List (BitVec 64)
  winLen : List (BitVec 32)
  queues : List BeQueue
  msgs : List BeMsg
  /-- MSG_ID of the next message this module sends -/
  nextMsg : Nat
  /-- flits sent: port and 512 bytes, oldest first; the model's own output -/
  out : List (Nat × Bytes)
deriving DecidableEq, Repr

/-- A mailbox's registers and the core's place in it (R377, R378). -/
structure Mailbox where
  inHead : BitVec 16
  inTail : BitVec 16
  outBase : BitVec 64
  outSize : BitVec 4
  outHead : BitVec 16
  outRead : BitVec 16
  overruns : BitVec 32
  /-- completions that wait for a slot, for the link or for their barrier, oldest first: 16 bytes each, and the
      number of the barrier that closes the interval of a held one (R148) -/
  waiting : List (Bytes × Option Nat)
deriving DecidableEq, Repr

/-- A module read request whose completion is awaited (R379): what it is for. -/
structure HostRead where
  tag : Nat
  hostAddr : Nat
  len : Nat
  /-- transfer number (R280) and the offset of its bytes; or a mailbox record, by core and index -/
  xfer : Option (Nat × Nat)
  record : Option (Nat × Nat)
deriving DecidableEq, Repr

/-- A host request that has reached the module and not yet been served (R374): window offset, a write's bytes or a read's
length, EP and TAG. -/
structure HostReq where
  write : Bool
  off : Nat
  data : Bytes
  len : Nat
  ep : Bool
  tag : Nat
  /-- descriptors with COMP in a host ring that a DMAQ_HEAD write covers (R268) -/
  comps : Nat
  /-- when a gleaner's hold stopped it, in µs (R225) -/
  heldAt : Option Nat
deriving DecidableEq, Repr

/-- A packet the module has put on the link (R368): its header word and its data. -/
structure Packet where
  header : BitVec 128
  data : Bytes
deriving DecidableEq, Repr

/-- The Jaeno link, its window and its objects (R367 to R387). -/
structure Jaeno where
  train : LinkTrain
  lane : Lane
  /-- PART, REVISION and MAX_READ of the JA-2 -/
  peerPart : Bytes
  peerRev : BitVec 8
  maxRead : Nat
  /-- the link has been UP since the last full reset (R523) -/
  wasUp : Bool
  ready : Bool
  apertureBase : BitVec 64
  hrmSrc : BitVec 64
  hrmDst : BitVec 64
  hrmEnable : Bool
  intMask : BitVec 82
  intPend : BitVec 82
  unassigned : BitVec 32
  mailboxes : List Mailbox
  /-- control-core apertures: core × 1 MiB + offset (R187, R377) -/
  ccMem : Mem
  /-- payload bytes of packets still incomplete (R368) -/
  rx : Bytes
  /-- host requests in arrival order -/
  hostQ : List HostReq
  reads : List HostRead
  /-- module writes and interrupts that wait for the link, oldest first -/
  pendingOut : List Packet
  fecCorrected : BitVec 64
  fecUncorr : BitVec 64
  crcFail : BitVec 64
  replays : BitVec 64
  retrains : BitVec 32
  losses : BitVec 32
  /-- packets sent, oldest first; the model's own output -/
  out : List Packet
  /-- LINK and IDLE flits sent; the model's own output -/
  flits : List Bytes
deriving DecidableEq, Repr

/-- A lane after a lane reset (R342). -/
def Lane.reset : Lane := ⟨0, [], [], 0, none, false, 0, false, false⟩

/-- A link that waits for signal. -/
def LinkTrain.reset : LinkTrain := ⟨.down, 0, 0, [], 0, [], false, false, false, 0, [], []⟩

/-- An empty list. -/
def XferList.reset : XferList := ⟨[], 0, 0, false, 0⟩

/-- A port after a full reset (R358). -/
def Port.reset : Port := ⟨LinkTrain.reset, 0#64, 0#32, Lane.reset, Lane.reset, XferList.reset, XferList.reset,
  false, [], none, []⟩

/-- A best-effort queue after a full reset (R361). -/
def BeQueue.reset : BeQueue := ⟨false, 0#64, 4#4, 0#16, 0#16, 0#64, 0#16, false, 0#8⟩

/-- The fabric after a full reset (R364). -/
def Hedgerow.reset : Hedgerow where
  ports := List.replicate 36 Port.reset
  fecCorrected := 0#64
  fecUncorr := 0#64
  crcFail := 0#64
  replays := 0#64
  retrains := 0#32
  markedWords := 0#64
  firstMark := 0#64
  beDropped := 0#32
  dropRaised := 0
  fleetId := 0#16
  route := List.replicate 2048 0xFF#8
  winBase := List.replicate 16 0#64
  winLen := List.replicate 16 0#32
  queues := List.replicate 8 BeQueue.reset
  msgs := []
  nextMsg := 0
  out := []

/-- A mailbox after a reset (R377). -/
def Mailbox.reset : Mailbox := ⟨0#16, 0#16, 0#64, 4#4, 0#16, 0#16, 0#32, []⟩

/-- The link after a full reset (R375, R384, R386). -/
def Jaeno.reset : Jaeno where
  train := LinkTrain.reset
  lane := Lane.reset
  peerPart := List.replicate 13 0#8
  peerRev := 0#8
  maxRead := 4096
  wasUp := false
  ready := true
  apertureBase := 0#64
  hrmSrc := 0#64
  hrmDst := 0#64
  hrmEnable := false
  intMask := BitVec.allOnes 82
  intPend := 0#82
  unassigned := 0#32
  mailboxes := List.replicate 16 Mailbox.reset
  ccMem := []
  rx := []
  hostQ := []
  reads := []
  pendingOut := []
  fecCorrected := 0#64
  fecUncorr := 0#64
  crcFail := 0#64
  replays := 0#64
  retrains := 0#32
  losses := 0#32
  out := []
  flits := []

end Sys2Proof.Machine
end

