-- ==== Sys2Proof/Machine/StatePower.lean ====
section
/-!
DEFINITION. Power, pacing, temperature and coolant: that part of State (R426 to R456).
-/
namespace Sys2Proof.Machine

/-- One compute band. -/
structure Band where
  /-- its headers are closed (R431) -/
  closed : Bool
  /-- its headers have opened or failed to come up: OFF until the next full reset (R431, R525) -/
  held : Bool
  /-- droop above 25 mV now (R443) -/
  droop : Bool
  senseMv : BitVec 12
  /-- 9 to 16 phases have failed and the band waits for its barrier: when the limit was applied, in µs (R429) -/
  dyingAt : Option Nat
  /-- trim raised but not yet applied, in units of 0.1 mV (R441) -/
  trimPending : Nat
deriving DecidableEq, Repr

/-- An announced heavy phase (R439). -/
structure Hint where
  s0 : Nat
  level : Nat
  /-- the voltage boost is in force -/
  active : Bool
deriving DecidableEq, Repr

/-- Rails, bands, telemetry, pacer, cap (R426 to R443). -/
structure Power where
  /-- the rails of step 1 are on -/
  railsOn : Bool
  /-- rails (bit = subindex of 0x2800 minus 1) found more than 5% off their setpoint, and not yet measured back
  within 5% of it (R427, R523) -/
  railBad : BitVec 7
  bands : List Band
  railMv : List (BitVec 16)
  current : List (BitVec 16)
  inputMv : BitVec 16
  inputCa : BitVec 16
  inputW : BitVec 16
  energyJ : BitVec 64
  /-- mJ not yet a whole J of ENERGY_J -/
  energyMj : Nat
  paceLimit : BitVec 8
  paceAllow : BitVec 8
  paceNow : BitVec 8
  limitCause : BitVec 16
  rest : BitVec 8
  droopCount : BitVec 32
  paceDeferred : BitVec 32
  capW : BitVec 16
  /-- a written cap that waits for the end of the window (R437) -/
  capNext : Option (BitVec 16)
  capExceed : BitVec 32
  /-- windows in a row above the cap by more than 2%, and whether CAP_EXCEEDED was raised in this run -/
  overWindows : Nat
  overRaised : Bool
  /-- limits of bits 1 and 5 of R433, in units of 0.01 Gsteps/s -/
  capLimit : Nat
  ageLimit : Nat
  /-- AGEING_LIMIT has been raised -/
  ageRaised : Bool
  undervolt : Bool
  /-- the severe-droop reduction holds (R440) -/
  severe : Bool
  droop : Bool
  /-- the next permit of a droop response is withheld -/
  droopSkip : Bool
  /-- a pace change deferred by droop (R440) -/
  deferred : Option Nat
  /-- a rise waits for the voltages (R436) -/
  slewTo : Option Nat
  /-- permit periods of the present 64 (R438) -/
  permitIdx : Nat
  hint : Option Hint
  /-- trim by band in units of 0.1 mV: field fuses, kept through every reset (R441) -/
  trims : Map Nat
  trimCount : BitVec 32
deriving DecidableEq, Repr

/-- A hot spot's pair of sensors (R445, R446). -/
structure HotSpot where
  diode : BitVec 16
  delay : BitVec 16
  suspect : Bool
  /-- samples in a row that differ by more than 5.0 °C, and that lie within 3.0 °C -/
  apart : Nat
  close : Nat
deriving DecidableEq, Repr

/-- A band's temperatures (R446 to R448). -/
structure BandTemp where
  control : BitVec 16
  estimate : BitVec 16
  layerSuspect : Bool
  /-- estimates in a row that exceed the control value by 8.0 °C or more, and that stay below 4.0 °C -/
  high : Nat
  low : Nat
  /-- samples in a row above 100.0 °C while the band has a sensor fault (R461) -/
  danger : Nat
deriving DecidableEq, Repr

/-- A stack's temperatures (R449). -/
structure StackTemp where
  diodes : List (BitVec 16)
  /-- the base die doubles the refresh rate -/
  doubled : Bool
  /-- samples in a row at 95.0 °C or above; STACK_OVERTEMP holds; samples in a row below 90.0 °C -/
  hot : Nat
  above : Bool
  cool : Nat
deriving DecidableEq, Repr

/-- Sensors, limits, coolant and rotation (R445 to R455). -/
structure Thermal where
  /-- band × 8 + hot spot -/
  spots : List HotSpot
  bands : List BandTemp
  loam1 : List (BitVec 16)
  loam2 : List (BitVec 16)
  cap : List (BitVec 16)
  memStacks : List StackTemp
  /-- by linear index; unlisted: 0x8000 -/
  cells : Map (BitVec 16)
  /-- coefficient K by band in units of 0.001 K/W: fuses (R447) -/
  kCoef : List Nat
  limit : BitVec 8
  throttleWindows : BitVec 32
  /-- the thermal law is lowering the limit (R449) -/
  throttling : Bool
  /-- the compute value has been at 100.0 °C for that many samples; THM_MAX holds; samples below 97.0 °C -/
  maxHot : Nat
  maxOn : Bool
  maxCool : Nat
  /-- samples in a row with the compute value above 105.0 °C (R449) -/
  danger : Nat
  flowA : BitVec 16
  flowB : BitVec 16
  pIn : BitVec 16
  pOut : BitVec 16
  tIn : BitVec 16
  tOut : BitVec 16
  /-- 0 NORMAL, 1 LOW, 2 FAULT, 3 LOST -/
  flowState : BitVec 8
  coolantLimit : BitVec 8
  /-- F of the samples of the present 100 ms -/
  flowSum : Nat
  flowN : Nat
  /-- samples in a row below 0.90 L/min -/
  flowLost : Nat
  /-- Δp of the last 500 samples, newest first -/
  dp : List Nat
  flowSuspect : Bool
  flowApart : Nat
  flowClose : Nat
  /-- samples in a row with the inlet outside 20–45 °C, and whether COOLANT_INLET was raised in this run -/
  inletOut : Nat
  inletRaised : Bool
  /-- the compute value at the last comparison after a coolant loss (R452) -/
  lossPrev : Option (BitVec 16)
  /-- when the compute control value was last 95.0 °C or above, in µs (R464) -/
  hotAt : Option Nat
  rotEnable : BitVec 8
  rotSpread : BitVec 8
  rotInterval : BitVec 16
  rotVariants : BitVec 8
  rotActive : BitVec 8
  rotCount : BitVec 32
  /-- when the last rotation was made, in µs -/
  rotLast : Option Nat
deriving DecidableEq, Repr

/-- A band whose headers are open. -/
def Band.reset : Band := ⟨false, false, false, 0#12, none, 0⟩

/-- Power after a full reset, with the trims that the fuses hold (R443). -/
def Power.reset (trims : Map Nat) : Power where
  railsOn := false
  railBad := 0#7
  bands := List.replicate 16 Band.reset
  railMv := List.replicate 7 0#16
  current := List.replicate 45 0#16
  inputMv := 0#16
  inputCa := 0#16
  inputW := 0#16
  energyJ := 0#64
  energyMj := 0
  paceLimit := 160#8
  paceAllow := 35#8
  paceNow := 0#8
  limitCause := 0#16
  rest := 0#8
  droopCount := 0#32
  paceDeferred := 0#32
  capW := 3000#16
  capNext := none
  capExceed := 0#32
  overWindows := 0
  overRaised := false
  capLimit := 160
  ageLimit := 160
  ageRaised := false
  undervolt := false
  severe := false
  droop := false
  droopSkip := false
  deferred := none
  slewTo := none
  permitIdx := 0
  hint := none
  trims := trims
  trimCount := 0#32

/-- A sensor with no reading (R455). -/
def noTemp : BitVec 16 := 0x8000#16

/-- Temperatures and coolant after a full reset (R446, R455); readings start empty (log entry 18). -/
def Thermal.reset : Thermal where
  spots := List.replicate 128 ⟨noTemp, noTemp, false, 0, 0⟩
  bands := List.replicate 16 ⟨noTemp, noTemp, false, 0, 0, 0⟩
  loam1 := List.replicate 64 noTemp
  loam2 := List.replicate 64 noTemp
  cap := List.replicate 16 noTemp
  memStacks := List.replicate 12 ⟨List.replicate 4 noTemp, false, 0, false, 0⟩
  cells := []
  kCoef := List.replicate 16 48
  limit := 160#8
  throttleWindows := 0#32
  throttling := false
  maxHot := 0
  maxOn := false
  maxCool := 0
  danger := 0
  flowA := 0#16
  flowB := 0#16
  pIn := 0#16
  pOut := 0#16
  tIn := noTemp
  tOut := noTemp
  flowState := 0#8
  coolantLimit := 160#8
  flowSum := 0
  flowN := 0
  flowLost := 0
  dp := []
  flowSuspect := false
  flowApart := 0
  flowClose := 0
  inletOut := 0
  inletRaised := false
  lossPrev := none
  hotAt := none
  rotEnable := 1#8
  rotSpread := 60#8
  rotInterval := 1#16
  rotVariants := 1#8
  rotActive := 0#8
  rotCount := 0#32
  rotLast := none

end Sys2Proof.Machine
end

