-- ==== Sys2Proof/Machine/StateRick.lean ====
section
/-!
DEFINITION. The caches' part of State: rick slices with their miss registers, stream detectors, fallow filters and
command registers, and the control-core L1s (R239 to R264).
-/
namespace Sys2Proof.Machine

/-- A frame of a rick slice (R243). -/
structure Frame where
  way : Nat
  /-- device physical address ÷ 1,024 -/
  region : Nat
  swath : Bool
  valid : BitVec 32
  dirty : BitVec 32
  /-- 1,024 bytes -/
  data : Bytes
  poison : BitVec 32
  pinned : Bool
  cls : Nat
  presence : BitVec 16
deriving DecidableEq, Repr

/-- An access that waits for a fill (R247). -/
structure Waiter where
  addr : Nat
  write : Bool
  sheaf : Bool
  cls : Nat
  requester : BitVec 32
  /-- a write's bytes with their marks; a read's length -/
  pieces : List (Bytes × Bool)
  len : Nat
deriving DecidableEq, Repr

/-- A miss register (R247). -/
structure MissReg where
  region : Nat
  sheaf : Bool
  mask : BitVec 32
  cls : Nat
  waiters : List Waiter
deriving DecidableEq, Repr

/-- A stream detector (R249, R250). -/
structure Detector where
  /-- address of the class's previous swath miss, and sequential misses in a row -/
  prev : Option Nat
  run : Nat
  bypass : Bool
  last : Nat
  /-- accesses of the class without a miss of the stream, and when that miss was, in µs -/
  quiet : Nat
deriving DecidableEq, Repr

/-- What a slice counts for a class in an interval of R256. -/
structure Interval where
  hits : Nat
  misses : Nat
  /-- misses in sets with 8 pinned ways or more -/
  crowded : Nat
  /-- qualifying intervals in a row -/
  run : Nat
deriving DecidableEq, Repr

/-- A command that waits for outstanding fills (R254, R257). -/
structure RickCmd where
  op : BitVec 3
  tag : BitVec 8
  base : Nat
  len : Nat
  requester : BitVec 32
deriving DecidableEq, Repr

/-- One rick slice. -/
structure Slice where
  /-- by set -/
  sets : Map (List Frame)
  plru : Map (BitVec 15)
  miss : List MissReg
  /-- accesses stalled under R247 -/
  stalled : List Waiter
  detectors : List Detector
  intervals : List Interval
  /-- by ln[11:0]: the full line address (÷ 1,024) plus 1 (R258) -/
  filter : Map Nat
  base : BitVec 52
  len : BitVec 25
  busy : Option RickCmd
  status : BitVec 8
  tag : BitVec 8
  lines : BitVec 24
  /-- in FAULT (R259) -/
  fault : Bool
  /-- last second, plus 1, in which READ_AFTER_FALLOW was raised -/
  rafRaised : Nat
deriving DecidableEq, Repr

/-- A sheaf line of a control-core L1 (R239, R242). -/
structure SheafLine where
  /-- device physical address ÷ 128 -/
  line : Nat
  valid : BitVec 4
  data : Bytes
  poison : BitVec 4
deriving DecidableEq, Repr

/-- Counters of a class (R262). -/
structure ClassCounts where
  hits : BitVec 64
  misses : BitVec 64
  bypassed : BitVec 64
  writebacks : BitVec 64
  fallow : BitVec 64
deriving DecidableEq, Repr

/-- The caches. -/
structure Rick where
  slices : List Slice
  /-- by core × 64 + set, most recently used first -/
  l1 : Map (List SheafLine)
  missregFull : BitVec 64
  waiterFull : BitVec 64
  rejected : BitVec 32
  pinFails : BitVec 32
  thrash : BitVec 32
  raf : BitVec 64
  rafFirst : BitVec 64
  tagCe : BitVec 32
  policy : List (BitVec 8)
  counts : List ClassCounts
  /-- what the last read delivered: the model's own output -/
  answer : List (Bytes × Bool)
deriving DecidableEq, Repr

/-- A detector that has seen nothing. -/
def Detector.reset : Detector := ⟨none, 0, false, 0, 0⟩

/-- An empty slice (R253, R261). -/
def Slice.reset : Slice where
  sets := []
  plru := []
  miss := []
  stalled := []
  detectors := List.replicate 8 Detector.reset
  intervals := List.replicate 8 ⟨0, 0, 0, 0⟩
  filter := []
  base := 0#52
  len := 0#25
  busy := none
  status := 0#8
  tag := 0#8
  lines := 0#24
  fault := false
  rafRaised := 0

/-- The caches after a full reset (R261, R262). -/
def Rick.reset : Rick where
  slices := List.replicate 12 Slice.reset
  l1 := []
  missregFull := 0#64
  waiterFull := 0#64
  rejected := 0#32
  pinFails := 0#32
  thrash := 0#32
  raf := 0#64
  rafFirst := 0#64
  tagCe := 0#32
  policy := List.replicate 8 0#8
  counts := List.replicate 8 ⟨0#64, 0#64, 0#64, 0#64, 0#64⟩
  answer := []

end Sys2Proof.Machine
end

