-- ==== Sys2Proof/Machine/StateStacks.lean ====
section
/-!
DEFINITION. The memory stacks' part of State: the DRAM code words, the valid-bit caches, the merge buffers, the
placement group, the scrubbers, checker test mode and their counters (R183 to R211).
-/
namespace Sys2Proof.Machine

/-- A line of a valid-bit cache: 512 bits of one stack (R200). -/
structure ValidLine where
  /-- bit index ÷ 512 -/
  line : Nat
  bits : BitVec 512
  dirty : Bool
deriving DecidableEq, Repr

/-- An entry of a controller's merge buffer (R197). -/
structure MergeEntry where
  /-- the physical word number -/
  word : Nat
  /-- the device physical address of the word -/
  addr : Nat
  /-- 32 bytes; those outside the mask are 0 -/
  bytes : Bytes
  mask : BitVec 32
  /-- a narrow write carried the poison or invalid tag -/
  marked : Bool
  /-- requester ID of the write that allocated the entry -/
  writer : BitVec 32
deriving DecidableEq, Repr

/-- A stack's scrubber (R205, R206). -/
structure Scrub where
  /-- the next word of the stack to read, 0 to 2^32 − 1 -/
  pos : Nat
  /-- when the pass began, in µs -/
  began : Nat
  /-- passes this stack has completed -/
  passes : Nat
  /-- seconds the last completed pass took -/
  lastS : Nat
  /-- SCRUB_OVERDUE has been raised for this pass -/
  overdue : Bool
deriving DecidableEq, Repr

/-- What one controller keeps beside the DRAM. -/
structure Controller where
  /-- valid-bit cache: set (0 to 127) to its lines, most recently used first -/
  cache : Map (List ValidLine)
  /-- merge buffer, oldest entry first: at most 64 -/
  merge : List MergeEntry
  scrub : Scrub
  /-- in self-refresh (R206, R449) -/
  selfRefresh : Bool
  /-- in FAULT for an uncorrectable metadata word, until the next full reset (R203) -/
  fault : Bool
  /-- the slot map in force: 80 class codes (R189) -/
  slots : List (BitVec 2)
  /-- STACK_CE and STACK_UE (R208) -/
  ce : BitVec 32
  ue : BitVec 32
  /-- last second, plus 1, in which MEM_CORRECTED and MEM_POISON_READ were raised -/
  ceRaised : Nat
  prRaised : Nat
deriving DecidableEq, Repr

/-- An armed injection of mode 4 or 5: errors on the bridge of one channel (R477). -/
structure BridgeInject where
  stack : Nat
  channel : Nat
  write : Bool
  /-- 36 bytes to XOR: data bytes, then check symbols -/
  mask : Bytes
  left : Nat
deriving DecidableEq, Repr

/-- The stacks, their controllers and objects. -/
structure Stacks where
  /-- physical word number × 36 + k: data bytes at k 0–31, check symbols c0–c3 at k 32–35 -/
  dram : Mem
  /-- by stack -/
  ctl : List Controller
  /-- refreshes postponed in a row, by (stack × 32 + channel) × 32 + bank (R192) -/
  postponed : Map Nat
  inject : Option BridgeInject
  /-- write-locked regions: first and last byte address (R106, R420) -/
  locks : List (Nat × Nat)
  placeMode : BitVec 128
  placeResult : BitVec 8
  placeActive : BitVec 128
  mapUnassigned : BitVec 32
  regUnassigned : BitVec 32
  authDiscards : BitVec 32
  firstUnassigned : BitVec 64
  scrubPeriod : BitVec 8
  scrubCe : BitVec 32
  scrubUe : BitVec 32
  testEnable : BitVec 8
  testAddr : BitVec 64
  testData : Bytes
  testCheck : Bytes
  testResult : BitVec 8
  testSyndrome : Bytes
  testClass : BitVec 8
  ceTotal : BitVec 64
  ueTotal : BitVec 64
  poisonReads : BitVec 64
  poisonWrites : BitVec 64
  rmwCount : BitVec 64
  mergeComplete : BitVec 64
  zeroFills : BitVec 64
  unsownReads : BitVec 64
  metaMisses : BitVec 64
  firstUe : BitVec 64
deriving DecidableEq, Repr

/-- The slot map while no image runs: OPEN, but META at slots 0 and 40 of S11 (R189). -/
def idleSlots (stack : Nat) : List (BitVec 2) :=
  (List.range 80).map (fun i => if stack = 11 ∧ (i = 0 ∨ i = 40) then 3#2 else 0#2)

/-- A scrubber at the start of a pass. -/
def Scrub.reset (now : Nat) : Scrub := ⟨0, now, 0, 0, false⟩

/-- A controller after a full reset. -/
def Controller.reset (now stack : Nat) : Controller :=
  ⟨[], [], Scrub.reset now, false, false, idleSlots stack, 0#32, 0#32, 0, 0⟩

/-- Only bit 127 set: field 127 in bank-local mode (R185). -/
def place127 : BitVec 128 := BitVec.ofNat 128 (2 ^ 127)

/-- The stacks after a full reset: every block unsown (R201), every object at its default. -/
def Stacks.reset (now : Nat) : Stacks where
  dram := []
  ctl := (List.range 12).map (Controller.reset now)
  postponed := []
  inject := none
  locks := []
  placeMode := place127
  placeResult := 0#8
  placeActive := place127
  mapUnassigned := 0#32
  regUnassigned := 0#32
  authDiscards := 0#32
  firstUnassigned := 0#64
  scrubPeriod := 24#8
  scrubCe := 0#32
  scrubUe := 0#32
  testEnable := 0#8
  testAddr := 0#64
  testData := List.replicate 32 0#8
  testCheck := List.replicate 4 0#8
  testResult := 0#8
  testSyndrome := List.replicate 4 0#8
  testClass := 0#8
  ceTotal := 0#64
  ueTotal := 0#64
  poisonReads := 0#64
  poisonWrites := 0#64
  rmwCount := 0#64
  mergeComplete := 0#64
  zeroFills := 0#64
  unsownReads := 0#64
  metaMisses := 0#64
  firstUe := 0#64

end Sys2Proof.Machine
end

