-- ==== Sys2Proof/Machine/StateMod.lean ====
section
/-!
DEFINITION. The module: everything in State but the queue of commands.
-/
namespace Sys2Proof.Machine

/-- The module's whole state. -/
structure Mod where
  clock : Clock
  log : Log
  units : Units
  can : Can
  cairn : Cairn
  safe : Safe
  fpr : Fingerprint
  inject : Inject
  fuses : Fuses
  plan : Plan
  planting : Planting
  memStacks : Stacks
  gln : Gleaners
  rick : Rick
  dma : Dma
  attn : Attn
  /-- by linear index -/
  cells : Map CellState
  chip : OnChip
  tl : TileLoam
  stream : Stream
  train : Train
  lea : Lea
  hdg : Hedgerow
  jnl : Jaeno
  power : Power
  thermal : Thermal
  boot : Bring
  sec : Sec
deriving DecidableEq, Repr

/-- The fuses of a module with no defect: every value at 0 but the serial number (log entry 10). -/
def Fuses.healthy : Fuses where
  rows := []
  retired := []
  phases := []
  serial := strBytes "TRNY000000000000"
  mfgWeek := 1#16
  bootRom := 0#32
  fwKeys := List.replicate 4 (List.replicate 32 0#8)
  revoked := 0#8
  svcKey := List.replicate 32 0#8
  idPub := List.replicate 64 0#8
  devCert := []
  mcSvn := 0#8
  ccSvn := 0#8

/-- Every value that the fuses hold, the trims of the bands among them, in a fixed order: what the fuse map spells. -/
def Fuses.reading (f : Fuses) (trims : Map Nat) : List Nat :=
  [f.rows.length, f.retired.length, f.phases.length, trims.length, leNat f.serial, f.mfgWeek.toNat, f.bootRom.toNat,
    f.revoked.toNat, leNat f.svcKey, leNat f.idPub, f.mcSvn.toNat, f.ccSvn.toNat]
  ++ f.fwKeys.map leNat ++ f.rows.flatMap (fun e => [e.1, e.2.toNat]) ++ f.retired.flatMap (fun e => [e.1, e.2])
  ++ f.phases.flatMap (fun e => [e.1, e.2.toNat]) ++ trims.flatMap (fun e => [e.1, e.2])

/-- The node-ID a strap and an override give (R391). -/
def chooseNode (strap : BitVec 7) (override : BitVec 8) : Nat :=
  if override ≠ 0#8 then override.toNat else if strap ≠ 0#7 then strap.toNat else 127

/-- The module right after a full reset of a module with the given fuses; `old` gives what no reset clears (R422). -/
def Mod.afterReset (fuses : Fuses) (now : Nat) (can : Can) (cairn : Cairn) (sec : Sec) (trims : Map Nat)
    (mismatches : Map Nat) (bootMs : BitVec 32) (clock : Clock) : Mod where
  clock := { clock with resetUs := now }
  log := Log.reset
  units := Units.reset
  can := can
  cairn := cairn
  safe := { Safe.reset with mcSignal := now }
  fpr := Fingerprint.reset
  inject := Inject.reset
  fuses := fuses
  plan := formPlan fuses
  planting := Planting.reset
  memStacks := Stacks.reset now
  gln := Gleaners.reset
  rick := Rick.reset
  dma := Dma.reset
  attn := Attn.reset
  cells := []
  chip := OnChip.reset
  tl := TileLoam.reset
  stream := Stream.reset
  train := Train.reset
  lea := Lea.reset
  hdg := Hedgerow.reset
  jnl := Jaeno.reset
  power := Power.reset trims
  thermal := Thermal.reset
  boot := { Bring.reset bootMs mismatches with fuseSnap := fuses.reading trims }
  sec := sec

/-- The node-ID straps with every land open: each reads 1 (R512). -/
def strapsOpen : BitVec 7 := 127#7

/-- The module right after the full reset that follows power-up and boot (R14, R411, R422). -/
def Mod.reset : Mod :=
  Mod.afterReset Fuses.healthy 0 (Can.reset strapsOpen 0#8 127) Cairn.reset Sec.reset [] [] 0#32 Clock.reset

end Sys2Proof.Machine
end

