-- ==== Sys2Proof/Machine/Flits.lean ====
section
/-!
DEFINITION. Flits as bytes: how they are formed, stamped with the acknowledgements of their end, replayed, and
touched by an armed injection; packets put on the Jaeno link (R340 to R344, R368, R369, R476, R477).
-/
namespace Sys2Proof.Machine

/-! ### Injection on links (R476, R477) -/

/-- Count one injection made; after COUNT of them the injection ends disarmed (R476). -/
def Mod.injected (m : Mod) : Mod :=
  let d := satAdd m.inject.done 1
  { m with inject := { m.inject with done := d, armed := m.inject.armed && decide (d.toNat < m.inject.armCount.toNat) } }

/-- XOR a mask into a flit at a bit offset. -/
def flipBits (f : Bytes) (mask off : Nat) : Bytes := leBytes f.length (leNat f ^^^ mask * 2 ^ off)

/-- What an armed injection makes of a flit of a port (0 to 35) or of the Jaeno link (36) as it is sent: the flits to
send now (R477). `data` says that it is a DATA flit, of which lane. -/
def Mod.passFlit (m : Mod) (target : Nat) (data : Bool) (lane : Nat) (f : Bytes) : List Bytes × Mod :=
  let i := m.inject
  let par := i.armParam.toNat
  let mine := data && decide (target = 36 ∨ par % 2 = lane)
  if ¬ (i.armed = true ∧ i.armTarget.toNat = target) then ([f], m)
  else if i.armMode = 1#8 ∧ mine = true then ([], m.injected)
  else if i.armMode = 2#8 then ([flipBits f (field par 0 32) (field par 32 13)], m.injected)
  else if i.armMode = 3#8 ∧ mine = true then
    match i.swapHeld with
    | none => ([], { m with inject := { i with swapHeld := some (target, f) } })
    | some h => ([f, h.2], ({ m with inject := { i with swapHeld := none } }).injected)
  else ([f], m)

/-! ### Hedgerow flits (R340) -/

/-- A hedgerow flit without SEQ, ACK, NAK and CRC: 508 bytes. -/
def hdgFlit (type : Nat) (last tok : Bool) (mark : Nat) (body : Bytes) : Bytes :=
  leBytes 4 (type + b2n last * 16 + b2n tok * 32) ++ leBytes 8 (mark % 2 ^ 62) ++ padTo 496 body

/-- The ACK a lane carries: 0xFF for none since its reset. -/
def Lane.ackCode (l : Lane) : Nat := l.acked.getD 0xFF

/-- Put SEQ, the current acknowledgements and the CRC into a flit (R340, R343). -/
def hdgStamp (p : Port) (seq : Nat) (f : Bytes) : Bytes :=
  let v := (listGet 0#8 f 0).toNat + b2n p.lea.nak * 64 + b2n p.be.nak * 128 + seq * 2 ^ 8
    + p.lea.ackCode * 2 ^ 16 + p.be.ackCode * 2 ^ 24
  let g := leBytes 4 v ++ f.drop 4
  g ++ leBytes 4 (crc32 g)

/-- A received flit passes its CRC and has no reserved TYPE or bit (R341). -/
def hdgIntact (f : Bytes) : Bool :=
  decide (f.length = 512 ∧ leNat (f.drop 508) = crc32 (f.take 508)
    ∧ field (listGet 0#8 f 0).toNat 0 4 ≤ 3 ∧ field (listGet 0#8 f 11).toNat 6 2 = 0)

/-- TYPE of a flit. -/
def hdgType (f : Bytes) : Nat := field (listGet 0#8 f 0).toNat 0 4
/-- LAST. -/
def hdgLast (f : Bytes) : Bool := bitOf (listGet 0#8 f 0).toNat 4
/-- TOK. -/
def hdgTok (f : Bytes) : Bool := bitOf (listGet 0#8 f 0).toNat 5
/-- SEQ. -/
def hdgSeq (f : Bytes) : Nat := (listGet 0#8 f 1).toNat
/-- MARK. -/
def hdgMark (f : Bytes) : Nat := field (leNat ((f.drop 4).take 8)) 0 62
/-- The token region, all zero without TOK. -/
def hdgTokenRegion (f : Bytes) : Bytes := if hdgTok f then (f.drop 12).take 64 else List.replicate 64 0#8
/-- The payload: 496 B, or 432 B after a token region. -/
def hdgPayload (f : Bytes) : Bytes := if hdgTok f then (f.drop 76).take 432 else (f.drop 12).take 496

/-- The link header of R342. -/
def linkHeader (subtype : Nat) (echo : Bool) (serial : Nat) : Bytes :=
  leBytes 8 (subtype + b2n echo * 256 + serial * 65536)

/-! ### Jaeno flits and packets (R368, R369) -/

/-- A Jaeno flit without SEQ, ACK, NAK and CRC: 252 bytes. -/
def jnlFlit (type first : Nat) (body : Bytes) : Bytes :=
  leBytes 4 type ++ leBytes 1 first ++ List.replicate 7 0#8 ++ padTo 240 body

/-- Put SEQ, ACK, NAK and the CRC into a flit; before the first DATA flit ACK is the number before 0 (log entry 19). -/
def jnlStamp (l : Lane) (seq : Nat) (f : Bytes) : Bytes :=
  let v := (listGet 0#8 f 0).toNat + seq * 2 ^ 4 + l.acked.getD 1023 * 2 ^ 14 + b2n l.nak * 2 ^ 24
  let g := leBytes 4 v ++ f.drop 4
  g ++ leBytes 4 (crc32 g)

/-- A received Jaeno flit passes its CRC and has no reserved TYPE or bit. -/
def jnlIntact (f : Bytes) : Bool :=
  let first := (listGet 0#8 f 4).toNat
  decide (f.length = 256 ∧ leNat (f.drop 252) = crc32 (f.take 252) ∧ field (listGet 0#8 f 0).toNat 0 4 ≤ 2
    ∧ field (listGet 0#8 f 3).toNat 1 7 = 0 ∧ leNat ((f.drop 5).take 7) = 0 ∧ (first ≤ 14 ∨ first = 255))

/-- Send one Jaeno flit. -/
def Mod.jnlEmit (m : Mod) (data : Bool) (seq : Nat) (f : Bytes) : Mod :=
  let r := m.passFlit 36 data 0 (jnlStamp m.jnl.lane seq f)
  { r.2 with jnl := { r.2.jnl with flits := r.2.jnl.flits ++ r.1 } }

/-- Send the DATA flits that wait, while the replay buffer of 512 has room. -/
def Mod.jnlPump (fuel : Nat) (m : Mod) : Mod :=
  match fuel with
  | 0 => m
  | fuel + 1 =>
    let l := m.jnl.lane
    match l.queue with
    | [] => m
    | f :: rest =>
      if m.jnl.train.st = .up ∧ l.replay.length < 512 then
        let l1 := { l with queue := rest, replay := l.replay ++ [(l.next, f)], next := (l.next + 1) % 1024 }
        jnlPump fuel (({ m with jnl := { m.jnl with lane := l1 } }).jnlEmit true l.next f)
      else m

/-- The bytes of a packet, padded to 16 B. -/
def Packet.bytes (p : Packet) : Bytes :=
  leBytes 16 p.header.toNat ++ p.data ++ List.replicate ((16 - p.data.length % 16) % 16) 0#8

/-- The DATA flits of a packet: it begins a flit of its own (log entry 20). -/
def Packet.flits (p : Packet) : List Bytes :=
  ((chunks (p.data.length / 240 + 2) 240 p.bytes).zipIdx).map (fun e => jnlFlit 1 (if e.2 = 0 then 0 else 0xFF) e.1)

/-- The header of a packet (R368). -/
def packetHeader (kind : Nat) (origin ep : Bool) (tag len cst addr : Nat) : BitVec 128 :=
  BitVec.ofNat 128 (kind % 16 + b2n origin * 16 + b2n ep * 32 + tag % 1024 * 64 + len % 8192 * 65536
    + cst % 8 * 2 ^ 29 + addr % 2 ^ 64 * 2 ^ 32)

/-- Put a packet on the link, or let it wait while the link is not UP (R372). -/
def Mod.sendPacket (m : Mod) (p : Packet) : Mod :=
  if m.jnl.train.st = .up then
    let l := m.jnl.lane
    let m1 := { m with jnl := { m.jnl with out := m.jnl.out ++ [p], lane := { l with queue := l.queue ++ p.flits } } }
    m1.jnlPump 512
  else { m with jnl := { m.jnl with pendingOut := m.jnl.pendingOut ++ [p] } }

/-- A memory write of up to 4 KiB that starts at a host address, as packets that cross no 4 KiB boundary (R379). -/
def splitHost (fuel : Nat) (addr : Nat) (bs : Bytes) : List (Nat × Bytes) :=
  match fuel with
  | 0 => []
  | fuel + 1 =>
    if bs = [] then []
    else
      let n := 4096 - addr % 4096
      (addr, bs.take n) :: splitHost fuel (addr + n) (bs.drop n)

/-- A module memory write into host memory (R379), under a TAG of 256 and above, where no read request's lies (log entry
44). -/
def Mod.hostWriteAs (m : Mod) (tag addr : Nat) (bs : Bytes) (ep : Bool) : Mod :=
  (splitHost (bs.length / 4096 + 2) addr bs).foldl (fun m e =>
    m.sendPacket ⟨packetHeader 1 true ep tag e.2.length 0 e.1, e.2⟩) m

/-- The TAG of the writes of a transfer: 256 and its channel. -/
def writeTag (id : Nat) : Nat := 256 + id % 32

/-- A module memory write that belongs to no transfer. -/
def Mod.hostWrite (m : Mod) (addr : Nat) (bs : Bytes) (ep : Bool) : Mod := m.hostWriteAs 512 addr bs ep

/-- Send the interrupt of a vector (R381). -/
def Mod.sendInterrupt (m : Mod) (v : Nat) : Mod := m.sendPacket ⟨packetHeader 4 true false v 0 0 0, []⟩

/-- A source sets its pending bit; an unmasked vector that was not pending sends one packet (R381). -/
def Mod.interrupt (m : Mod) (v : Nat) : Mod :=
  if bitOf m.jnl.intPend.toNat v then m
  else
    let m1 := { m with jnl := { m.jnl with intPend := m.jnl.intPend ||| BitVec.ofNat 82 (2 ^ v) } }
    if bitOf m1.jnl.intMask.toNat v then m1 else m1.sendInterrupt v

end Sys2Proof.Machine
end

