-- ==== Sys2Proof/Machine/Stacks.lean ====
section
/-!
DEFINITION. The memory-stack controllers: the address decode, valid bits, the read and write of a word through
the RS(36,32) code, narrow writes, unsown blocks, unsow requests and the scrubber (R183 to R207). Each operation
maps an `MS`, the stacks with what it causes outside them.
-/
namespace Sys2Proof.Machine

/-- What a controller's operation causes outside the stacks. -/
inductive MemFx where
  /-- a single-symbol error was corrected: MEM_CORRECTED (R209) -/
  | corrected (stack addr : Nat)
  /-- MEM_UNCORRECTABLE: address and requester (R196, R204) -/
  | uncorrectable (addr : Nat) (requester : BitVec 32)
  /-- a read found stored poison: MEM_POISON_READ (R204) -/
  | poisonRead (stack : Nat)
  /-- MERGE_ON_POISON: address and writer (R197) -/
  | mergeOnPoison (addr : Nat) (writer : BitVec 32)
  /-- SCRUB_UNCORRECTABLE (R205) -/
  | scrubUe (addr : Nat)
  /-- META_UNCORRECTABLE: the stack, and the first of the 256 blocks (R203) -/
  | metaUe (stack block : Nat)
  /-- bytes of a write were discarded under a write lock: the first address (R106) -/
  | locked (addr : Nat)
  /-- a write to a stack in FAULT was discarded with MEM_POISON (R203) -/
  | faulted (addr : Nat)
  /-- a write was discarded at a metadata chunk (R186, R188) -/
  | unassigned (addr : Nat)
deriving DecidableEq, Repr

/-- The stacks during an operation. -/
structure MS where
  s : Stacks
  fx : List MemFx
deriving DecidableEq, Repr

/-- Add to what the operation causes. -/
def MS.emit (m : MS) (f : MemFx) : MS := { m with fx := m.fx ++ [f] }

/-! ### Addresses (R183, R184, R186) -/

/-- Bytes of a placement field. -/
def fieldBytes : Nat := 0x300000000

/-- The field is in bank-local mode; field 127 always is (R185, R186). -/
def bankLocal (place : BitVec 128) (f : Nat) : Bool := f == 127 || bitOf place.toNat f

/-- The physical word number of stack, channel, bank, row and word. -/
def physWord (stack ch bank row word : Nat) : Nat := (((stack * 32 + ch) * 32 + bank) * 32768 + row) * 128 + word

/-- The physical word and the byte within it that an address of the stack region names (R184). -/
def decodeAddr (place : BitVec 128) (a : Nat) : Nat × Nat :=
  let f := a / fieldBytes
  let o := a % fieldBytes
  if bankLocal place f then
    let q := o / 2 ^ 22
    (physWord (q % 12) (o / 2 ^ 17 % 32) (o / 2 ^ 12 % 32) (f * 256 + q / 12) (o % 4096 / 32), o % 32)
  else
    let p := o / 2 ^ 11
    let r := p / 12
    let byte := r / 1024 % 2 * 2048 + o % 2048
    (physWord (p % 12) (r % 32) (r / 32 % 32) (f * 256 + r / 2048 % 256) (byte / 32), o % 32)

/-- An address lies in the stack region (R187). -/
def inStacks (a : Nat) : Bool := decide (a < 0x18000000000)

/-- Where metadata chunk 0 begins (R186). -/
def metaBase : Nat := 0x17FBAC00000

/-- An address lies in a metadata chunk (R186). -/
def inMeta (a : Nat) : Bool :=
  decide (metaBase ≤ a ∧ (a - metaBase) / 0x3000000 < 24 ∧ (a - metaBase) % 0x3000000 < 0x400000)

/-- A range of bytes touches a metadata chunk: chunks are 4 MiB long and 48 MiB apart. -/
def touchesMeta (a n : Nat) : Bool :=
  n != 0 && (List.range 24).any (fun k =>
    decide (a < metaBase + k * 0x3000000 + 0x400000 ∧ metaBase + k * 0x3000000 < a + n))

/-- A range lies wholly in the stack region and outside the metadata chunks (R186). -/
def stackRangeOk (a n : Nat) : Bool := decide (a + n ≤ 0x18000000000) && !touchesMeta a n

/-- Stack, channel and row of a physical word. -/
def stackOf (w : Nat) : Nat := w / 2 ^ 32
/-- The channel of a physical word. -/
def channelOf (w : Nat) : Nat := w / 2 ^ 27 % 32
/-- The bank of a physical word, 0 to 12,287: the gleaner beside it. -/
def bankOf (w : Nat) : Nat := w / 2 ^ 22
/-- The bank row of a physical word. -/
def bankRowOf (w : Nat) : Nat := w / 128 % 32768
/-- The block of a physical word: its valid bit's index (R200). -/
def blockOf (w : Nat) : Nat := w / 64

/-- The block is one of the metadata chunks' own (R186, R200). -/
def blockIsMeta (b : Nat) : Bool := decide (stackOf (64 * b) = 11 ∧ 32744 ≤ bankRowOf (64 * b))

/-- The first physical word of metadata line `l` (64 B), in bank-local field 127 (R186, R200). -/
def metaWord (l : Nat) : Nat :=
  (decodeAddr place127 (metaBase + l * 64 / 0x400000 * 0x3000000 + l * 64 % 0x400000)).1

/-! ### Code words on the bridge (R195, R477) -/

/-- The stored code word: 36 bytes. -/
def dramWord (s : Stacks) (w : Nat) : Bytes := memRead s.dram (36 * w) 36

/-- Store a code word as it stands. -/
def putDram (s : Stacks) (w : Nat) (cw : Bytes) : Stacks := { s with dram := memWrite s.dram (36 * w) cw }

/-- The injection that applies to a code word on the bridge, and the stacks after it (R477). -/
def bridgeMask (s : Stacks) (w : Nat) (write : Bool) : Bytes × Stacks :=
  match s.inject with
  | some i =>
    if i.stack = stackOf w ∧ i.channel = channelOf w ∧ i.write = write ∧ 0 < i.left then
      (i.mask, { s with inject := some { i with left := i.left - 1 } })
    else (List.replicate 36 0#8, s)
  | none => (List.replicate 36 0#8, s)

/-- A code word as it reaches the decoder; `err` is what the hardware adds on the bridge. -/
def busRead (m : MS) (w : Nat) (err : Bytes) : Bytes × MS :=
  let b := bridgeMask m.s w false
  (xorBytes (xorBytes (dramWord m.s w) b.1) (padTo 36 err), { m with s := b.2 })

/-- Send a code word to the DRAM. -/
def busWrite (m : MS) (w : Nat) (cw : Bytes) : MS :=
  let b := bridgeMask m.s w true
  { m with s := putDram b.2 w (xorBytes cw b.1) }

/-- The controller of a stack. -/
def ctlOf (s : Stacks) (stack : Nat) : Controller := listGet (Controller.reset 0 stack) s.ctl stack

/-- Replace a controller. -/
def setCtl (s : Stacks) (stack : Nat) (c : Controller) : Stacks := { s with ctl := listSet s.ctl stack c }

/-- Count a corrected word (R208). -/
def countCe (m : MS) (stack addr : Nat) : MS :=
  let c := ctlOf m.s stack
  let s := setCtl m.s stack { c with ce := satAdd c.ce 1 }
  ({ m with s := { s with ceTotal := satAdd s.ceTotal 1 } }).emit (.corrected stack addr)

/-- Count an uncorrectable word from a source (0 demand, 1 scrub, 2 read-modify-write, 3 gleaner), and latch
FIRST_UE (R208). -/
def countUe (m : MS) (stack addr src : Nat) : MS :=
  let c := ctlOf m.s stack
  let s := setCtl m.s stack { c with ue := satAdd c.ue 1 }
  { m with s := { s with
      firstUe := if s.ueTotal = 0#64 then BitVec.ofNat 64 (addr % 2 ^ 52 + src * 2 ^ 52) else s.firstUe
      ueTotal := satAdd s.ueTotal 1 } }

/-- Store 32 data bytes, as clean data or as poison (R194, R196). -/
def storeData (m : MS) (w : Nat) (d : Bytes) (poison : Bool) : MS :=
  let m1 := busWrite m w (if poison then rsPoison d else rsEncode d)
  if poison then { m1 with s := { m1.s with poisonWrites := satAdd m1.s.poisonWrites 1 } } else m1

/-! ### Valid bits (R199 to R201, R203) -/

/-- The set of a line (R200). -/
def lineSet (l : Nat) : Nat := l % 128

/-- Write a dirty line back through the META slots: two words of S11. -/
def writeBackLine (m : MS) (v : ValidLine) : MS :=
  if v.dirty then
    let b := leBytes 64 v.bits.toNat
    storeData (storeData m (metaWord v.line) (b.take 32) false) (metaWord v.line + 1) (b.drop 32) false
  else m

/-- Read one metadata word: its 256 bits; an uncorrectable one puts the stack concerned in FAULT (R203). -/
def readMetaWord (m : MS) (stack w block : Nat) : Nat × MS :=
  let r := busRead m w []
  let x := rsDecode r.1
  match x.1 with
  | .clean => (leNat (x.2.take 32), r.2)
  | .single => (leNat (x.2.take 32), countCe r.2 11 0)
  | _ =>
    let c := ctlOf r.2.s stack
    (0, ({ r.2 with s := setCtl r.2.s stack { c with fault := true } }).emit (.metaUe stack block))

/-- The line's bits through the stack's cache: a hit, or an eviction and a fill (R200). -/
def validLine (m : MS) (stack l : Nat) : ValidLine × MS :=
  let c := ctlOf m.s stack
  let set := Map.get [] c.cache (lineSet l)
  match set.find? (fun v => v.line = l) with
  | some v =>
    let c' := { c with cache := Map.set [] c.cache (lineSet l) (v :: set.filter (fun x => decide (x.line ≠ l))) }
    (v, { m with s := setCtl m.s stack c' })
  | none =>
    let m1 := if 8 ≤ set.length then
        (match set.getLast? with | some v => writeBackLine m v | none => m) else m
    let a := readMetaWord m1 stack (metaWord l) (512 * l)
    let b := readMetaWord a.2 stack (metaWord l + 1) (512 * l + 256)
    let v : ValidLine := ⟨l, BitVec.ofNat 512 (a.1 + b.1 * 2 ^ 256), false⟩
    let c1 := ctlOf b.2.s stack
    let s1 := setCtl b.2.s stack { c1 with cache := Map.set [] c1.cache (lineSet l) (v :: set.take 7) }
    (v, { b.2 with s := { s1 with metaMisses := satAdd s1.metaMisses 1 } })

/-- The block's valid bit; the metadata chunks' own blocks are always sown (R200). -/
def isSown (m : MS) (block : Nat) : Bool × MS :=
  if blockIsMeta block then (true, m)
  else
    let r := validLine m (stackOf (64 * block)) (block / 512)
    (bitOf r.1.bits.toNat (block % 512), r.2)

/-- Set or clear the block's valid bit in the cache. -/
def setSown (m : MS) (block : Nat) (v : Bool) : MS :=
  if blockIsMeta block then m
  else
    let stack := stackOf (64 * block)
    let l := block / 512
    let r := validLine m stack l
    let bit : BitVec 512 := BitVec.ofNat 512 (2 ^ (block % 512))
    let bits := if v then r.1.bits ||| bit else r.1.bits &&& ~~~bit
    let c := ctlOf r.2.s stack
    let set := (Map.get [] c.cache (lineSet l)).map (fun x => if x.line = l then ⟨l, bits, true⟩ else x)
    { r.2 with s := setCtl r.2.s stack { c with cache := Map.set [] c.cache (lineSet l) set } }

/-- Write zeros with correct check symbols into every word of a block and set its valid bit (R199). -/
def zeroFill (m : MS) (block : Nat) : MS :=
  let m1 := (List.range 64).foldl (fun m i => storeData m (64 * block + i) (List.replicate 32 0#8) false) m
  let m2 := setSown m1 block true
  { m2 with s := { m2.s with zeroFills := satAdd m2.s.zeroFills 1 } }

/-- Zero-fill the block of a word if it is unsown. -/
def ensureSown (m : MS) (w : Nat) : MS :=
  let r := isSown m (blockOf w)
  if r.1 then r.2 else zeroFill r.2 (blockOf w)

/-! ### The merge buffer (R197) -/

/-- Merge an entry's bytes over 32 bytes by its mask. -/
def mergeOver (e : MergeEntry) (d : Bytes) : Bytes :=
  d.zipIdx.map (fun x => if bitOf e.mask.toNat x.2 then listGet 0#8 e.bytes x.2 else x.1)

/-- Carry out a merge entry: a whole-word write, a poisoning, a zero fill or a read-modify-write (R197). -/
def flushEntry (m : MS) (e : MergeEntry) : MS :=
  let st := stackOf e.word
  if e.marked then storeData (ensureSown m e.word) e.word e.bytes true
  else if e.mask = 0xFFFFFFFF#32 then
    let m1 := storeData (ensureSown m e.word) e.word e.bytes false
    { m1 with s := { m1.s with mergeComplete := satAdd m1.s.mergeComplete 1 } }
  else
    let v := isSown m (blockOf e.word)
    if ¬ v.1 then storeData (zeroFill v.2 (blockOf e.word)) e.word (mergeOver e (List.replicate 32 0#8)) false
    else
      let m1 := { v.2 with s := { v.2.s with rmwCount := satAdd v.2.s.rmwCount 1 } }
      let r := busRead m1 e.word []
      let x := rsDecode r.1
      match x.1 with
      | .clean => storeData r.2 e.word (mergeOver e (x.2.take 32)) false
      | .single => storeData (countCe r.2 st e.addr) e.word (mergeOver e (x.2.take 32)) false
      | .poison =>
        let m2 := { r.2 with s := { r.2.s with poisonReads := satAdd r.2.s.poisonReads 1 } }
        (storeData m2 e.word (x.2.take 32) true).emit (.mergeOnPoison e.addr e.writer)
      | .uncorrectable =>
        let m2 := (countUe r.2 st e.addr 2).emit (.uncorrectable e.addr e.writer)
        (storeData m2 e.word (x.2.take 32) true).emit (.mergeOnPoison e.addr e.writer)

/-- Take the entry of a word out of its controller's merge buffer. -/
def takeEntry (m : MS) (w : Nat) : Option MergeEntry × MS :=
  let st := stackOf w
  let c := ctlOf m.s st
  (c.merge.find? (fun e => e.word = w),
   { m with s := setCtl m.s st { c with merge := c.merge.filter (fun e => decide (e.word ≠ w)) } })

/-- Flush the entry of a word, if it has one. -/
def flushWord (m : MS) (w : Nat) : MS :=
  let r := takeEntry m w
  match r.1 with
  | some e => flushEntry r.2 e
  | none => m

/-! ### Reads and writes of words -/

/-- A demand read of one word: its bytes and whether it is delivered as poison (R196, R199, R203, R204). `src` is
the source code of FIRST_UE, `err` what the hardware adds on the bridge. -/
def readWord (m : MS) (w addr : Nat) (requester : BitVec 32) (src : Nat) (err : Bytes) : (Bytes × Bool) × MS :=
  let st := stackOf w
  if (ctlOf m.s st).fault then ((List.replicate 32 0#8, true), m)
  else
    let m0 := flushWord m w
    let v := isSown m0 (blockOf w)
    if ¬ v.1 then
      ((List.replicate 32 0#8, false), { v.2 with s := { v.2.s with unsownReads := satAdd v.2.s.unsownReads 1 } })
    else
      let r := busRead v.2 w err
      let x := rsDecode r.1
      let d := x.2.take 32
      match x.1 with
      | .clean => ((d, false), r.2)
      | .single => ((d, false), countCe r.2 st addr)
      | .poison =>
        ((d, true), ({ r.2 with s := { r.2.s with poisonReads := satAdd r.2.s.poisonReads 1 } }).emit (.poisonRead st))
      | .uncorrectable =>
        let m2 := (countUe r.2 st addr src).emit (.uncorrectable addr requester)
        ((d, true), storeData m2 w d true)

/-- A whole-word write: any merge entry is discarded (R197, R198). -/
def writeWhole (m : MS) (w : Nat) (d : Bytes) (poison : Bool) : MS :=
  let r := takeEntry m w
  storeData (ensureSown r.2 w) w d poison

/-- Put a writer's bytes into an entry, by a mask. -/
def fillEntry (e : MergeEntry) (d : Bytes) (mask : BitVec 32) (poison : Bool) (writer : BitVec 32) : MergeEntry :=
  { e with
    writer := writer
    bytes := e.bytes.zipIdx.map (fun x => if bitOf mask.toNat x.2 then listGet 0#8 d x.2 else x.1)
    mask := e.mask ||| mask
    marked := e.marked || poison }

/-- A write narrower than a word: `d` has 32 bytes, of which `mask` names those written (R197). -/
def writeNarrow (m : MS) (w addr : Nat) (d : Bytes) (mask : BitVec 32) (poison : Bool) (writer : BitVec 32) : MS :=
  let st := stackOf w
  let c := ctlOf m.s st
  match c.merge.find? (fun e => e.word = w) with
  | some e =>
    let e' := fillEntry e d mask poison writer
    if e'.mask = 0xFFFFFFFF#32 then flushEntry (takeEntry m w).2 e'
    else { m with s := setCtl m.s st { c with merge := c.merge.map (fun x => if x.word = w then e' else x) } }
  | none =>
    let e := fillEntry ⟨w, addr, List.replicate 32 0#8, 0#32, false, writer⟩ d mask poison writer
    let m1 := if 64 ≤ c.merge.length then
        (match c.merge with
         | old :: rest => flushEntry { m with s := setCtl m.s st { c with merge := rest } } old
         | [] => m)
      else m
    let c1 := ctlOf m1.s st
    { m1 with s := setCtl m1.s st { c1 with merge := c1.merge ++ [e] } }

/-- An address is write-locked (R106, R420). -/
def isLocked (s : Stacks) (a : Nat) : Bool := s.locks.any (fun r => decide (r.1 ≤ a ∧ a ≤ r.2))

/-- Write the bytes a request has within one aligned 32 B word; locked bytes are discarded (R106). `lockSeen`
says that the request has already reported a discard. -/
def writeInWord (m : MS) (a : Nat) (bs : Bytes) (poison : Bool) (writer : BitVec 32) : MS :=
  let base := a - a % 32
  let w := (decodeAddr m.s.placeActive base).1
  let lockedAt := (List.range bs.length).find? (fun i => isLocked m.s (a + i))
  let m0 := match lockedAt with
    | some i => if m.fx.any (fun f => match f with | .locked _ => true | _ => false) then m else m.emit (.locked (a + i))
    | none => m
  let mask : Nat := (List.range bs.length).foldl (fun v i => if isLocked m.s (a + i) then v else v + 2 ^ (a % 32 + i)) 0
  if bs = [] ∨ mask = 0 then m0
  else if (ctlOf m.s (stackOf w)).fault then m0.emit (.faulted a)
  else
    let d := padTo 32 (List.replicate (a % 32) 0#8 ++ bs)
    if mask = 0xFFFFFFFF then writeWhole m0 w d poison
    else writeNarrow m0 w base d (BitVec.ofNat 32 mask) poison writer

/-- A write request over bytes of the stack region, word by word; bytes at metadata chunks are discarded
(R186, R188). `fuel` bounds the number of words. -/
def writeRange (fuel : Nat) (m : MS) (a : Nat) (bs : Bytes) (poison : Bool) (writer : BitVec 32) : MS :=
  match fuel with
  | 0 => m
  | f + 1 =>
    match bs with
    | [] => m
    | _ =>
      let k := 32 - a % 32
      let m1 := if inMeta a ∨ ¬ inStacks a then m.emit (.unassigned a) else writeInWord m a (bs.take k) poison writer
      writeRange f m1 (a + k) (bs.drop k) poison writer

/-- A write request (R197). -/
def writeMem (m : MS) (a : Nat) (bs : Bytes) (poison : Bool) (writer : BitVec 32) : MS :=
  writeRange (bs.length + 1) m a bs poison writer

/-- A read request: pieces of at most 32 B with their poison marks; a metadata chunk reads as zeros (R10, R186).
`fuel` bounds the number of words. -/
def readRange (fuel : Nat) (m : MS) (a n : Nat) (requester : BitVec 32) (src : Nat) : List (Bytes × Bool) × MS :=
  match fuel with
  | 0 => ([], m)
  | f + 1 =>
    if n = 0 then ([], m)
    else
      let k := min n (32 - a % 32)
      let base := a - a % 32
      let x := if inMeta a ∨ ¬ inStacks a then ((List.replicate 32 0#8, false), m)
        else readWord m (decodeAddr m.s.placeActive base).1 base requester src []
      let r := readRange f x.2 (a + k) (n - k) requester src
      (((x.1.1.drop (a % 32)).take k, x.1.2) :: r.1, r.2)

/-- A read request: the bytes, and the poison mark of each 32 B piece (R196). -/
def readMem (m : MS) (a n : Nat) (requester : BitVec 32) (src : Nat) : List (Bytes × Bool) × MS :=
  readRange (n + 1) m a n requester src

/-- The bytes of a read. -/
def pieceBytes (p : List (Bytes × Bool)) : Bytes := (p.map (fun x => x.1)).flatten
/-- Some piece of a read carried poison. -/
def piecePoison (p : List (Bytes × Bool)) : Bool := p.any (fun x => x.2)

/-- Write read pieces to another place, each with its mark: a tagged word is stored as poison (R96). -/
def writePieces (m : MS) (a : Nat) (ps : List (Bytes × Bool)) (writer : BitVec 32) : MS :=
  match ps with
  | [] => m
  | p :: t => writePieces (writeMem m a p.1 p.2 writer) (a + p.1.length) t writer

/-! ### Unsow requests (R202) -/

/-- Store words `lo` to `lo + n − 1` of a block as zeros or as poison. -/
def stampWords (m : MS) (block lo n : Nat) (poison : Bool) : MS :=
  (List.range n).foldl (fun m i =>
    let w := 64 * block + lo + i
    storeData (takeEntry m w).2 w (List.replicate 32 0#8) poison) m

/-- Carry out an unsow request: a whole block, or one 1 KiB half of it, under the policy (R202). -/
def unsow (m : MS) (block : Nat) (whole : Bool) (half : Nat) (strict : Bool) : MS :=
  let v := isSown m block
  let lo := if whole then 0 else 32 * half
  let n := if whole then 64 else 32
  if strict then stampWords (if v.1 then v.2 else zeroFill v.2 block) block lo n true
  else if ¬ v.1 then v.2
  else if whole then
    let m1 := (List.range 64).foldl (fun m i => (takeEntry m (64 * block + i)).2) v.2
    setSown m1 block false
  else stampWords v.2 block lo n false

/-! ### The scrubber (R205) -/

/-- Read one word for the scrubber: correct and rewrite it, or store it as poison (R205). -/
def scrubWord (m : MS) (w addr : Nat) (err : Bytes) : MS :=
  let st := stackOf w
  let r := busRead m w err
  let x := rsDecode r.1
  match x.1 with
  | .clean => r.2
  | .poison => { r.2 with s := { r.2.s with poisonReads := satAdd r.2.s.poisonReads 1 } }
  | .single =>
    let m1 := storeData (countCe r.2 st addr) w (x.2.take 32) false
    { m1 with s := { m1.s with scrubCe := satAdd m1.s.scrubCe 1 } }
  | .uncorrectable =>
    let m1 := storeData (countUe r.2 st addr 1) w (x.2.take 32) true
    ({ m1 with s := { m1.s with scrubUe := satAdd m1.s.scrubUe 1 } }).emit (.scrubUe addr)

/-- The device physical address of a physical word, by its field's mode: the inverse of `decodeAddr` (R184). -/
def encodeAddr (place : BitVec 128) (w : Nat) : Nat :=
  let row := bankRowOf w
  let f := row / 256
  let word := w % 128
  let ch := channelOf w
  let bank := bankOf w % 32
  let stack := stackOf w
  if bankLocal place f then
    f * fieldBytes + (row % 256 * 12 + stack) * 2 ^ 22 + ch * 2 ^ 17 + bank * 2 ^ 12 + word * 32
  else
    let r := ch + 32 * bank + 1024 * (word / 64) + 2048 * (row % 256)
    f * fieldBytes + (r * 12 + stack) * 2048 + word % 64 * 32

end Sys2Proof.Machine
end

