-- ==== Sys2Proof/Machine/Rick.lean ====
section
/-!
DEFINITION. The rick slices: access policy, miss registers, stream detectors, pinning, fallow lines, commands and
the control-core L1s (R239 to R262). Each operation maps an `RM`: the caches, the stacks behind them, and what the
operation causes outside both.
-/
namespace Sys2Proof.Machine

/-- What a cache operation causes outside caches and stacks. -/
inductive RickFx where
  /-- RICK_THRASH: slice, class, hit rate × 10,000 (R256) -/
  | thrash (slice cls rate : Nat)
  /-- READ_AFTER_FALLOW (R258) -/
  | readAfterFallow
  /-- RICK_DATA_UE (R259) -/
  | dataUe (addr : Nat)
  /-- RICK_TAG_FAULT (R259) -/
  | tagFault (slice set : Nat)
  /-- every cell L1 drops the lines of this range (R257) -/
  | dropCellL1 (base len : Nat)
deriving DecidableEq, Repr

/-- Caches and stacks during an operation. -/
structure RM where
  r : Rick
  ms : MS
  fx : List RickFx
  /-- now, in µs -/
  now : Nat
deriving DecidableEq, Repr

/-- Add to what the operation causes. -/
def RM.emit (x : RM) (f : RickFx) : RM := { x with fx := x.fx ++ [f] }

/-- A slice. -/
def sliceOf (x : RM) (n : Nat) : Slice := listGet Slice.reset x.r.slices n

/-- Replace a slice. -/
def setSlice (x : RM) (n : Nat) (s : Slice) : RM := { x with r := { x.r with slices := listSet x.r.slices n s } }

/-- The requester ID of a slice, for its fills and write-backs (R522). -/
def rickRequester (n : Nat) : BitVec 32 := BitVec.ofNat 32 (0x70000 + n)

/-- The slice of an address: its stack (R240). -/
def sliceAt (x : RM) (a : Nat) : Nat := stackOf (decodeAddr x.ms.s.placeActive a).1

/-- The line number ln of an address (R241). -/
def lineNumber (place : BitVec 128) (a : Nat) : Nat :=
  let w := (decodeAddr place a).1
  w % 2 ^ 32 / 128 * 4 + w % 128 / 32

/-- The set of a line number (R241). -/
def rickSet (ln : Nat) : Nat := (ln % 2048) ^^^ (ln / 2048 % 2048)

/-- The set of a region. -/
def setOfRegion (x : RM) (region : Nat) : Nat := rickSet (lineNumber x.ms.s.placeActive (region * 1024))

/-- The frames of a set. -/
def framesOf (s : Slice) (set : Nat) : List Frame := Map.get [] s.sets set

/-- The frame that holds a region. -/
def frameOf (s : Slice) (set region : Nat) : Option Frame := (framesOf s set).find? (fun f => f.region = region)

/-- Put a frame into its way. -/
def putFrame (s : Slice) (set : Nat) (f : Frame) : Slice :=
  { s with sets := Map.set [] s.sets set (f :: (framesOf s set).filter (fun g => decide (g.way ≠ f.way))) }

/-- Empty a way. -/
def dropFrame (s : Slice) (set way : Nat) : Slice :=
  { s with sets := Map.set [] s.sets set ((framesOf s set).filter (fun g => decide (g.way ≠ way))) }

/-! ### The pseudo-LRU tree (R244) -/

/-- The bit of a way at a level of the tree, the root first. -/
def wayBit (way level : Nat) : Bool := bitOf way (3 - level)

/-- The node of a way's path at a level: the root is 0, the children of n are 2n + 1 and 2n + 2. -/
def wayNode (way level : Nat) : Nat := 2 ^ level - 1 + way / 2 ^ (4 - level)

/-- Set every node on the way's path to point away from it. -/
def touchTree (t : BitVec 15) (way : Nat) : BitVec 15 :=
  (List.range 4).foldl (fun t l =>
    let bit : BitVec 15 := BitVec.ofNat 15 (2 ^ wayNode way l)
    if wayBit way l then t &&& ~~~bit else t ||| bit) t

/-- Follow the tree from a node, avoiding subtrees whose every way is pinned. -/
def victimFrom (levels : Nat) (t : BitVec 15) (pinned : Nat → Bool) (node first : Nat) : Nat :=
  match levels with
  | 0 => first
  | n + 1 =>
    let half := 2 ^ n
    let want := bitOf t.toNat node
    let base := if want then first + half else first
    let full := (List.range half).all (fun i => pinned (base + i))
    let right := want != full
    victimFrom n t pinned (2 * node + (if right then 2 else 1)) (if right then first + half else first)

/-- Record an access to a way. -/
def touchWay (s : Slice) (set way : Nat) : Slice :=
  { s with plru := Map.set 0#15 s.plru set (touchTree (Map.get 0#15 s.plru set) way) }

/-! ### Control-core L1s (R245) -/

/-- The L1 set of a sheaf line: 64 sets a core. -/
def l1Set (core line : Nat) : Nat := core * 64 + line % 64

/-- Drop the sheaf lines of a region from one core's L1. -/
def dropL1Region (r : Rick) (core region : Nat) : Rick :=
  { r with l1 := (List.range 8).foldl (fun m i =>
      let line := region * 8 + i
      Map.modify [] m (l1Set core line) (fun ls => ls.filter (fun l => decide (l.line ≠ line)))) r.l1 }

/-- Drop a region from the L1 of every core whose presence bit is set, other than `except`. -/
def dropPresent (x : RM) (f : Frame) (except : Option Nat) : RM :=
  { x with r := (List.range 16).foldl (fun r c =>
      if bitOf f.presence.toNat c ∧ some c ≠ except then dropL1Region r c f.region else r) x.r }

/-- The presence vector that is left. -/
def presenceLeft (f : Frame) (except : Option Nat) : BitVec 16 :=
  match except with
  | some c => f.presence &&& BitVec.ofNat 16 (2 ^ c)
  | none => 0#16

/-- The control core of a requester ID (R522). -/
def coreOf (requester : BitVec 32) : Option Nat :=
  if requester.toNat / 65536 = 2 then some (requester.toNat % 65536) else none

/-! ### Write-back, fetch and allocation -/

/-- Change the counters of a class. -/
def countClass (x : RM) (cls : Nat) (f : ClassCounts → ClassCounts) : RM :=
  { x with r := { x.r with counts := listSet x.r.counts cls (f (listGet ⟨0#64, 0#64, 0#64, 0#64, 0#64⟩ x.r.counts cls)) } }

/-- Sectors of a mask, lowest first. -/
def sectorsOf (m : BitVec 32) : List Nat := (List.range 32).filter (fun i => bitOf m.toNat i)

/-- The 32 bytes of a sector. -/
def sectorBytes (d : Bytes) (i : Nat) : Bytes := (d.drop (32 * i)).take 32

/-- Put 32 bytes into a sector. -/
def putSector (d : Bytes) (i : Nat) (b : Bytes) : Bytes := d.take (32 * i) ++ padTo 32 b ++ d.drop (32 * i + 32)

/-- Write back one sector through the controller, as a whole word (R243, R260). -/
def writeBackSector (x : RM) (f : Frame) (i : Nat) : RM :=
  let w := (decodeAddr x.ms.s.placeActive (f.region * 1024 + 32 * i)).1
  if (ctlOf x.ms.s (stackOf w)).fault then { x with ms := x.ms.emit (.faulted (f.region * 1024 + 32 * i)) }
  else { x with ms := writeWhole x.ms w (sectorBytes f.data i) (bitOf f.poison.toNat i) }

/-- Write back the dirty sectors of a frame; the frame with them clean. -/
def writeBackFrame (x : RM) (f : Frame) : Frame × RM :=
  let x1 := (sectorsOf f.dirty).foldl (fun x i => writeBackSector x f i) x
  ({ f with dirty := 0#32 },
   countClass x1 f.cls (fun c => { c with writebacks := satAdd c.writebacks (sectorsOf f.dirty).length }))

/-- Read the sectors of a mask from the controller into a frame. -/
def fetchSectors (x : RM) (n : Nat) (f : Frame) (mask : BitVec 32) : Frame × RM :=
  (sectorsOf mask).foldl (fun p i =>
    let a := p.1.region * 1024 + 32 * i
    let r := readWord p.2.ms (decodeAddr p.2.ms.s.placeActive a).1 a (rickRequester n) 0 []
    let bit : BitVec 32 := BitVec.ofNat 32 (2 ^ i)
    ({ p.1 with
        data := putSector p.1.data i r.1.1
        valid := p.1.valid ||| bit
        poison := if r.1.2 then p.1.poison ||| bit else p.1.poison &&& ~~~bit },
     { p.2 with ms := r.2 })) (f, x)

/-- A free way for a region: an invalid one, or an eviction (R244). -/
def freeWay (x : RM) (n set : Nat) : Nat × RM :=
  let s := sliceOf x n
  let fs := framesOf s set
  match (List.range 16).find? (fun w => ¬ fs.any (fun f => f.way = w)) with
  | some w => (w, x)
  | none =>
    let pinned : Nat → Bool := fun w => fs.any (fun f => f.way = w && f.pinned)
    let v := victimFrom 4 (Map.get 0#15 s.plru set) pinned 0 0
    match fs.find? (fun f => f.way = v) with
    | some f =>
      let wb := writeBackFrame x f
      let x1 := dropPresent wb.2 f none
      (v, setSlice x1 n (dropFrame (sliceOf x1 n) set v))
    | none => (v, x)

/-- An empty frame for a region. -/
def newFrame (way region cls : Nat) (swath : Bool) : Frame :=
  ⟨way, region, swath, 0#32, 0#32, List.replicate 1024 0#8, 0#32, false, cls, 0#16⟩

/-- Store a frame and record the access to its way. -/
def storeFrame (x : RM) (n set : Nat) (f : Frame) : RM :=
  setSlice x n (touchWay (putFrame (sliceOf x n) set f) set f.way)

/-! ### Stream detectors and intervals (R249, R250, R256) -/

/-- The successor of a line, if it lies in the same field (R249). -/
def successor (place : BitVec 128) (a : Nat) : Option Nat :=
  let f := a / fieldBytes
  let s := if bankLocal place f then
      (if a / 1024 % 4096 = 4095 then a + 44 * 2 ^ 20 + 1024 else a + 1024)
    else if a % 2048 < 1024 then a + 1024 else a + 23 * 1024
  if s / fieldBytes = f then some s else none

/-- The detector of a class. -/
def detectorOf (s : Slice) (cls : Nat) : Detector := listGet Detector.reset s.detectors cls

/-- Replace a detector. -/
def setDetector (s : Slice) (cls : Nat) (d : Detector) : Slice := { s with detectors := listSet s.detectors cls d }

/-- An access of the class: after 64 without a miss of the stream, bypass ends (R250). -/
def noteAccess (x : RM) (n cls : Nat) : RM :=
  let s := sliceOf x n
  let d := detectorOf s cls
  let d' := if d.bypass then
      (if 64 ≤ d.quiet + 1 then Detector.reset else { d with quiet := d.quiet + 1 }) else d
  setSlice x n (setDetector s cls d')

/-- A swath miss of the class, or a whole-line write like it, at a line: is it served without allocation (R250)? -/
def noteMiss (x : RM) (n cls line : Nat) : Bool × RM :=
  let s := sliceOf x n
  let d := detectorOf s cls
  let succ : Nat → Bool := fun p => successor x.ms.s.placeActive p = some line
  if listGet 0#8 x.r.policy cls ≠ 0#8 then (false, x)
  else if d.bypass then
    if succ d.last then (true, setSlice x n (setDetector s cls { d with last := line, prev := some line, quiet := 0 }))
    else (false, setSlice x n (setDetector s cls { d with prev := some line }))
  else
    let run := if (match d.prev with | some p => succ p | none => false) then d.run + 1 else 0
    let d' : Detector := ⟨some line, if 4 ≤ run then 0 else run, decide (4 ≤ run), line, 0⟩
    (false, setSlice x n (setDetector s cls d'))

/-- Change the interval counts of a class. -/
def noteInterval (x : RM) (n cls : Nat) (f : Interval → Interval) : RM :=
  let s := sliceOf x n
  setSlice x n { s with intervals := listSet s.intervals cls (f (listGet ⟨0, 0, 0, 0⟩ s.intervals cls)) }

/-- Count a hit. -/
def countHit (x : RM) (n cls : Nat) : RM :=
  noteInterval (countClass x cls (fun c => { c with hits := satAdd c.hits 1 })) n cls
    (fun i => { i with hits := i.hits + 1 })

/-- Pinned ways of a set. -/
def pinnedWays (s : Slice) (set : Nat) : Nat := ((framesOf s set).filter (fun f => f.pinned)).length

/-- Count a miss in a set. -/
def countMiss (x : RM) (n cls set : Nat) : RM :=
  let crowded := decide (8 ≤ pinnedWays (sliceOf x n) set)
  noteInterval (countClass x cls (fun c => { c with misses := satAdd c.misses 1 })) n cls
    (fun i => { i with misses := i.misses + 1, crowded := if crowded then i.crowded + 1 else i.crowded })

/-- Count an access served without allocation: a miss in MISSES, "allocating or not" (R262), and no miss of the interval
(R256). -/
def countBypass (x : RM) (cls : Nat) : RM :=
  countClass x cls (fun c => { c with misses := satAdd c.misses 1, bypassed := satAdd c.bypassed 1 })

/-! ### The fallow filter (R258) -/

/-- A read of a line passes the filter. -/
def filterRead (x : RM) (n region : Nat) : RM :=
  let s := sliceOf x n
  let ln := lineNumber x.ms.s.placeActive (region * 1024)
  if Map.get 0 s.filter (ln % 4096) = region + 1 then
    let x1 := { x with r := { x.r with
        rafFirst := if x.r.raf = 0#64 then BitVec.ofNat 64 (region * 1024 + n * 2 ^ 52) else x.r.rafFirst
        raf := satAdd x.r.raf 1 } }
    if s.rafRaised = x.now / 1000000 + 1 then x1
    else (setSlice x1 n { s with rafRaised := x.now / 1000000 + 1 }).emit .readAfterFallow
  else x

/-- A write to a line removes its entry. -/
def filterWrite (x : RM) (n region : Nat) : RM :=
  let s := sliceOf x n
  let k := lineNumber x.ms.s.placeActive (region * 1024) % 4096
  if Map.get 0 s.filter k = region + 1 then setSlice x n { s with filter := Map.erase s.filter k } else x

/-! ### Reads -/

/-- The sectors that `len` bytes from an offset of a line touch. -/
def sectorMask (off len : Nat) : BitVec 32 :=
  BitVec.ofNat 32 ((List.range 32).foldl (fun v i => if off < 32 * i + 32 ∧ 32 * i < off + len then v + 2 ^ i else v) 0)

/-- The pieces of a frame that a read delivers, one a sector. -/
def framePieces (f : Frame) (off len : Nat) : List (Bytes × Bool) :=
  (sectorsOf (sectorMask off len)).map (fun i =>
    let lo := if off < 32 * i then 32 * i else off
    let hi := min (off + len) (32 * i + 32)
    ((f.data.drop lo).take (hi - lo), bitOf f.poison.toNat i))

/-- Record that a control core now holds lines of the frame. -/
def markPresence (f : Frame) (requester : BitVec 32) (sheaf : Bool) : Frame :=
  match coreOf requester with
  | some c => if sheaf then { f with presence := f.presence ||| BitVec.ofNat 16 (2 ^ c) } else f
  | none => f

/-- What the hardware's error does to one word of a frame as it is read (R259): a correction, a refetch of a clean
sector, or poison of a dirty one. -/
def frameError (x : RM) (n : Nat) (f : Frame) (i : Nat) (err : Bytes) : Frame × RM :=
  if err = [] ∨ bitOf f.poison.toNat i then (f, x)
  else
    let d := rsDecode (xorBytes (rsEncode (sectorBytes f.data i)) (padTo 36 err))
    match d.1 with
    | .clean => (f, x)
    | .single => (f, { x with ms := { x.ms with s := { x.ms.s with ceTotal := satAdd x.ms.s.ceTotal 1 } } })
    | _ =>
      let bit : BitVec 32 := BitVec.ofNat 32 (2 ^ i)
      if bitOf f.dirty.toNat i then
        ({ f with poison := f.poison ||| bit },
         ({ x with ms := { x.ms with s := { x.ms.s with ueTotal := satAdd x.ms.s.ueTotal 1 } } }).emit
           (.dataUe (f.region * 1024 + 32 * i)))
      else fetchSectors x n f bit

/-- Read from the controller without allocating, word by word (R244). -/
def readAround (x : RM) (a len : Nat) (requester : BitVec 32) : List (Bytes × Bool) × RM :=
  let r := readMem x.ms a len requester 0
  (r.1, { x with ms := r.2 })

/-- Does a read of a region allocate? Sheaf reads always do; swath reads by policy and detector (R244, R250, R252). -/
def allocates (x : RM) (n cls region : Nat) (sheaf : Bool) : Bool × RM :=
  if sheaf then (true, x)
  else if listGet 0#8 x.r.policy cls = 2#8 then (false, x)
  else
    let b := noteMiss x n cls (region * 1024)
    (!b.1, b.2)

/-- A frame for a region that the slice does not hold, with the sectors of a mask fetched (all, for a swath). -/
def allocate (x : RM) (n set region cls : Nat) (sheaf : Bool) (mask : BitVec 32) : Frame × RM :=
  let w := freeWay x n set
  fetchSectors w.2 n (newFrame w.1 region cls (!sheaf)) (if sheaf then mask else 0xFFFFFFFF#32)

/-- One line's part of a read, served at once (R244): hit, fetch, allocation or bypass. `err` is what the hardware
adds to the first word. -/
def readLine (x : RM) (n : Nat) (a len cls : Nat) (sheaf : Bool) (requester : BitVec 32) (err : Bytes) :
    List (Bytes × Bool) × RM :=
  let region := a / 1024
  let off := a % 1024
  let set := setOfRegion x region
  let x0 := noteAccess (filterRead x n region) n cls
  let need := sectorMask off len
  match frameOf (sliceOf x0 n) set region with
  | some f =>
    let missing := (if sheaf then need else 0xFFFFFFFF#32) &&& ~~~f.valid
    let x1 := if missing = 0#32 then countHit x0 n cls else countMiss x0 n cls set
    let g := fetchSectors x1 n { f with swath := f.swath || !sheaf } missing
    let e := frameError g.2 n g.1 (off / 32) err
    let h := markPresence e.1 requester sheaf
    (framePieces h off len, storeFrame e.2 n set h)
  | none =>
    let al := allocates x0 n cls region sheaf
    if al.1 then
      let x1 := countMiss al.2 n cls set
      let g := allocate x1 n set region cls sheaf need
      let h := markPresence g.1 requester sheaf
      (framePieces h off len, storeFrame g.2 n set h)
    else readAround (countBypass al.2 cls) a len requester

/-! ### Writes -/

/-- Bytes for a line with their write mask and marks: lists of 1,024. -/
structure LineWrite where
  data : Bytes
  mask : List Bool
  mark : List Bool
deriving DecidableEq, Repr

/-- The line write of bytes at an offset; write-locked bytes are left out (R106). -/
def lineWrite (s : Stacks) (a : Nat) (bs : Bytes) (marks : List Bool) : LineWrite :=
  let off := a % 1024
  ⟨padTo 1024 (List.replicate off 0#8 ++ bs),
   (List.range 1024).map (fun i => decide (off ≤ i ∧ i < off + bs.length) && !isLocked s (a - off + i)),
   (List.range 1024).map (fun i => decide (off ≤ i) && listGet false marks (i - off))⟩

/-- Write one sector of a frame by its mask (R244, R260): a whole word replaces it; a narrower write is merged, or
not applied to a poisoned word. -/
def writeSector (x : RM) (f : Frame) (i : Nat) (lw : LineWrite) (writer : BitVec 32) : Frame × RM :=
  let m := (lw.mask.drop (32 * i)).take 32
  let k := (lw.mark.drop (32 * i)).take 32
  let bit : BitVec 32 := BitVec.ofNat 32 (2 ^ i)
  let marked := (List.zipWith (fun a b => a && b) m k).any id
  if m.all (fun b => !b) then (f, x)
  else if bitOf f.poison.toNat i ∧ ¬ m.all id then
    (f, { x with ms := x.ms.emit (.mergeOnPoison (f.region * 1024 + 32 * i) writer) })
  else
    let old := sectorBytes f.data i
    let new := (sectorBytes lw.data i).zipIdx.map (fun p => if listGet false m p.2 then p.1 else listGet 0#8 old p.2)
    ({ f with
        data := putSector f.data i new
        dirty := f.dirty ||| bit
        poison := if marked then f.poison ||| bit else if m.all id then f.poison &&& ~~~bit else f.poison }, x)

/-- Write one sector around to the controller (R244, R197). -/
def writeAround (x : RM) (region i : Nat) (lw : LineWrite) (writer : BitVec 32) : RM :=
  let m := (lw.mask.drop (32 * i)).take 32
  let k := (lw.mark.drop (32 * i)).take 32
  let a := region * 1024 + 32 * i
  let w := (decodeAddr x.ms.s.placeActive a).1
  let marked := (List.zipWith (fun a b => a && b) m k).any id
  if m.all (fun b => !b) then x
  else if (ctlOf x.ms.s (stackOf w)).fault then { x with ms := x.ms.emit (.faulted a) }
  else if m.all id then { x with ms := writeWhole x.ms w (sectorBytes lw.data i) marked }
  else
    let mask := m.zipIdx.foldl (fun v p => if p.1 then v + 2 ^ p.2 else v) 0
    { x with ms := writeNarrow x.ms w a (sectorBytes lw.data i) (BitVec.ofNat 32 mask) marked writer }

/-- Update the writer's own copy in its L1 (R245). -/
def updateOwnL1 (r : Rick) (core region : Nat) (lw : LineWrite) : Rick :=
  { r with l1 := (List.range 8).foldl (fun m i =>
      let line := region * 8 + i
      Map.modify [] m (l1Set core line) (fun ls => ls.map (fun l =>
        if l.line = line then
          { l with
            data := l.data.zipIdx.map (fun p =>
              if listGet false lw.mask (128 * i + p.2) then listGet 0#8 lw.data (128 * i + p.2) else p.1)
            poison := BitVec.ofNat 4 ((List.range 4).foldl (fun v j =>
              let wm := (lw.mask.drop (128 * i + 32 * j)).take 32
              let mk := (List.zipWith (fun a b => a && b) wm ((lw.mark.drop (128 * i + 32 * j)).take 32)).any id
              if mk || (bitOf l.poison.toNat j && !wm.all id) then v + 2 ^ j else v) 0) }
        else l))) r.l1 }

/-- Report a write with locked bytes once a request (R106). -/
def noteLocked (x : RM) (a : Nat) (bs : Bytes) : RM :=
  match (List.range bs.length).find? (fun i => isLocked x.ms.s (a + i)) with
  | some i =>
    if x.ms.fx.any (fun f => match f with | .locked _ => true | _ => false) then x
    else { x with ms := x.ms.emit (.locked (a + i)) }
  | none => x

/-- One line's part of a write (R244, R245, R258, R260). -/
def writeLine (x : RM) (n : Nat) (a : Nat) (bs : Bytes) (marks : List Bool) (cls : Nat) (sheaf : Bool)
    (writer : BitVec 32) : RM :=
  let region := a / 1024
  let set := setOfRegion x region
  let x0 := noteAccess (filterWrite (noteLocked x a bs) n region) n cls
  let lw := lineWrite x0.ms.s a bs marks
  let whole := lw.mask.all id
  let own := coreOf writer
  match frameOf (sliceOf x0 n) set region with
  | some f =>
    let x1 := dropPresent (countHit x0 n cls) f own
    let x2 := match own with | some c => { x1 with r := updateOwnL1 x1.r c region lw } | none => x1
    let f0 := { f with
      presence := presenceLeft f own
      valid := if whole then 0xFFFFFFFF#32 else f.valid
      swath := f.swath || (whole && !sheaf) }
    let p := (List.range 32).foldl (fun p i =>
      if bitOf f0.valid.toNat i then writeSector p.2 p.1 i lw writer
      else (p.1, writeAround p.2 region i lw writer)) (f0, x2)
    storeFrame p.2 n set p.1
  | none =>
    let al := if whole then allocates x0 n cls region false else (false, x0)
    if al.1 then
      let x1 := countMiss al.2 n cls set
      let w := freeWay x1 n set
      let f0 := { newFrame w.1 region cls (!sheaf) with valid := 0xFFFFFFFF#32 }
      let p := (List.range 32).foldl (fun p i => writeSector p.2 p.1 i lw writer) (f0, w.2)
      storeFrame p.2 n set p.1
    else
      let x1 := if whole then countBypass al.2 cls else countMiss al.2 n cls set
      (List.range 32).foldl (fun x i => writeAround x region i lw writer) x1

/-! ### Miss registers (R247) -/

/-- The miss register of a region. -/
def missOf (s : Slice) (region : Nat) : Option MissReg := s.miss.find? (fun m => m.region = region)

/-- Serve a waiter: after its fill, in arrival order. -/
def serveWaiter (x : RM) (n : Nat) (w : Waiter) : RM :=
  if w.write then
    writeLine x n w.addr (w.pieces.map (fun p => p.1)).flatten
      (w.pieces.map (fun p => List.replicate p.1.length p.2)).flatten w.cls w.sheaf w.requester
  else
    let region := w.addr / 1024
    let set := setOfRegion x region
    match frameOf (sliceOf x n) set region with
    | some f =>
      let h := markPresence f w.requester w.sheaf
      let missing := sectorMask (w.addr % 1024) w.len &&& ~~~h.valid
      let g := fetchSectors x n h missing
      let x1 := storeFrame g.2 n set g.1
      { x1 with r := { x1.r with answer := framePieces g.1 (w.addr % 1024) w.len } }
    | none =>
      let r := readAround x w.addr w.len w.requester
      { r.2 with r := { r.2.r with answer := r.1 } }

/-- The fill of a miss register arrives: the sectors are fetched and every waiter is served (R247). -/
def fillMiss (x : RM) (n region : Nat) : RM :=
  let s := sliceOf x n
  match missOf s region with
  | none => x
  | some m =>
    let x0 := setSlice x n { s with miss := s.miss.filter (fun k => decide (k.region ≠ region)) }
    let set := setOfRegion x0 region
    let g := match frameOf (sliceOf x0 n) set region with
      | some f => fetchSectors x0 n { f with swath := f.swath || !m.sheaf }
          ((if m.sheaf then m.mask else 0xFFFFFFFF#32) &&& ~~~f.valid)
      | none => allocate x0 n set region m.cls m.sheaf m.mask
    m.waiters.foldl (fun x w => serveWaiter x n w) (storeFrame g.2 n set g.1)

/-- Let every outstanding fill of a region arrive before an access that completes at once. -/
def settleMiss (x : RM) (a len : Nat) : RM :=
  (List.range (((a % 1024) + len + 1023) / 1024)).foldl (fun x i =>
    fillMiss x (sliceAt x ((a / 1024 + i) * 1024)) (a / 1024 + i)) x

/-- A read through the slices, served at once: line by line. `fuel` bounds the number of lines. -/
def readLines (fuel : Nat) (x : RM) (a len cls : Nat) (sheaf : Bool) (requester : BitVec 32) :
    List (Bytes × Bool) × RM :=
  match fuel with
  | 0 => ([], x)
  | f + 1 =>
    if len = 0 then ([], x)
    else
      let k := min len (1024 - a % 1024)
      let p := if inMeta a ∨ ¬ inStacks a then
          ((chunks k 32 (List.replicate k 0#8)).map (fun b => (b, false)), { x with ms := x.ms.emit (.unassigned a) })
        else readLine x (sliceAt x a) a k cls sheaf requester []
      let r := readLines f p.2 (a + k) (len - k) cls sheaf requester
      (p.1 ++ r.1, r.2)

/-- A read of a range of the stack region through the slices (R240, R244). -/
def rickRead (x : RM) (a len cls : Nat) (sheaf : Bool) (requester : BitVec 32) : List (Bytes × Bool) × RM :=
  readLines (len / 1024 + 2) (settleMiss x a len) a len cls sheaf requester

/-- A write through the slices, line by line. `fuel` bounds the number of lines. -/
def writeLines (fuel : Nat) (x : RM) (a : Nat) (bs : Bytes) (marks : List Bool) (cls : Nat) (sheaf : Bool)
    (writer : BitVec 32) : RM :=
  match fuel with
  | 0 => x
  | f + 1 =>
    match bs with
    | [] => x
    | _ =>
      let k := 1024 - a % 1024
      let x1 := if inMeta a ∨ ¬ inStacks a then { x with ms := x.ms.emit (.unassigned a) }
        else writeLine x (sliceAt x a) a (bs.take k) (marks.take k) cls sheaf writer
      writeLines f x1 (a + k) (bs.drop k) (marks.drop k) cls sheaf writer

/-- A write of pieces with their marks through the slices (R244, R260). -/
def rickWrite (x : RM) (a : Nat) (ps : List (Bytes × Bool)) (cls : Nat) (sheaf : Bool) (writer : BitVec 32) : RM :=
  let bs := (ps.map (fun p => p.1)).flatten
  let marks := (ps.map (fun p => List.replicate p.1.length p.2)).flatten
  writeLines (bs.length / 1024 + 2) (settleMiss x a bs.length) a bs marks cls sheaf writer

/-- Would the access be a hit, so that it needs no miss register? -/
def isHit (x : RM) (n a len : Nat) (sheaf : Bool) : Bool :=
  match frameOf (sliceOf x n) (setOfRegion x (a / 1024)) (a / 1024) with
  | some f => decide (((if sheaf then sectorMask (a % 1024) len else 0xFFFFFFFF#32) &&& ~~~f.valid) = 0#32)
  | none => false

/-- Queue a waiter at the register of its region (R247). -/
def joinMiss (x : RM) (n : Nat) (m : MissReg) (w : Waiter) : RM :=
  let s := sliceOf x n
  if 32 ≤ m.waiters.length then
    let x1 := setSlice x n { s with stalled := s.stalled ++ [w] }
    { x1 with r := { x1.r with waiterFull := satAdd x1.r.waiterFull 1 } }
  else
    let m' := { m with
      mask := m.mask ||| sectorMask (w.addr % 1024) w.len
      sheaf := m.sheaf && w.sheaf
      waiters := m.waiters ++ [w] }
    setSlice x n { s with miss := s.miss.map (fun k => if k.region = m.region then m' else k) }

/-- A read that arrives at a slice on its own (RICK_READ): a hit or a bypass answers at once; a miss takes a
register and waits for its fill (R247). It lies within one line. -/
def readAccess (x : RM) (n a len cls : Nat) (sheaf : Bool) (requester : BitVec 32) (err : Bytes) : RM :=
  let region := a / 1024
  let w : Waiter := ⟨a, false, sheaf, cls, requester, [], len⟩
  let s := sliceOf x n
  match missOf s region with
  | some m => joinMiss (noteAccess (filterRead x n region) n cls) n m w
  | none =>
    if isHit x n a len sheaf then
      let r := readLine x n a len cls sheaf requester err
      { r.2 with r := { r.2.r with answer := r.1 } }
    else
      let set := setOfRegion x region
      let x0 := noteAccess (filterRead x n region) n cls
      let al := match frameOf s set region with
        | some _ => (true, x0)
        | none => allocates x0 n cls region sheaf
      if ¬ al.1 then
        let r := readAround (countBypass al.2 cls) a len requester
        { r.2 with r := { r.2.r with answer := r.1 } }
      else
        let x1 := countMiss al.2 n cls set
        let s1 := sliceOf x1 n
        if 64 ≤ s1.miss.length then
          let x2 := setSlice x1 n { s1 with stalled := s1.stalled ++ [w] }
          { x2 with r := { x2.r with missregFull := satAdd x2.r.missregFull 1 } }
        else
          setSlice x1 n { s1 with miss := s1.miss ++ [⟨region, sheaf, sectorMask (a % 1024) len, cls, [w]⟩] }

/-- A write that arrives at a slice on its own (RICK_WRITE); behind an outstanding miss it waits (R244). -/
def writeAccess (x : RM) (n a : Nat) (ps : List (Bytes × Bool)) (cls : Nat) (sheaf : Bool) (writer : BitVec 32) : RM :=
  let bs := (ps.map (fun p => p.1)).flatten
  match missOf (sliceOf x n) (a / 1024) with
  | some m => joinMiss x n m ⟨a, true, sheaf, cls, writer, ps, bs.length⟩
  | none => writeLine x n a bs (ps.map (fun p => List.replicate p.1.length p.2)).flatten cls sheaf writer

/-! ### Commands (R253 to R257) -/

/-- The regions of a command's range that a slice holds responsible for. -/
def regionsOf (x : RM) (n base len : Nat) : List Nat :=
  ((List.range len).map (fun i => base / 1024 + i)).filter (fun r => sliceAt x (r * 1024) = n)

/-- Drop one line without write-back, releasing its pin (R257). -/
def dropLine (x : RM) (n region : Nat) : RM :=
  let set := setOfRegion x region
  match frameOf (sliceOf x n) set region with
  | some f =>
    let x1 := dropPresent x f none
    setSlice x1 n (dropFrame (sliceOf x1 n) set f.way)
  | none => x

/-- FALLOW of one line: drop it and enter it in the filter (R257). -/
def fallowLine (x : RM) (n region : Nat) : RM :=
  let set := setOfRegion x region
  let x1 := match frameOf (sliceOf x n) set region with
    | some f => countClass (dropLine x n region) f.cls (fun c => { c with fallow := satAdd c.fallow 1 })
    | none => x
  let s := sliceOf x1 n
  let ln := lineNumber x1.ms.s.placeActive (region * 1024)
  setSlice x1 n { s with filter := Map.set 0 s.filter (ln % 4096) (region + 1) }

/-- The unsow requests of a range: whole 2 KiB blocks, and 1 KiB halves at its edges (R257). -/
def unsowRange (x : RM) (base len : Nat) (regions : List Nat) (strict : Bool) : RM :=
  regions.foldl (fun x r =>
    let blk := blockOf (decodeAddr x.ms.s.placeActive (r * 1024)).1
    let lo := base / 1024
    let both := decide (lo ≤ r - r % 2 ∧ r - r % 2 + 1 < lo + len)
    if both then (if r % 2 = 0 then { x with ms := unsow x.ms blk true 0 strict } else x)
    else { x with ms := unsow x.ms blk false (r % 2) strict }) x

/-- FALLOW of a range at one slice, once no fill is outstanding (R257). -/
def fallowRange (x : RM) (n base len : Nat) (strict : Bool) : RM :=
  let rs := regionsOf x n base len
  let x1 := rs.foldl (fun x r => fallowLine x n r) x
  unsowRange (x1.emit (.dropCellL1 base (len * 1024))) base len rs strict

/-- PIN: would any set exceed 12 pinned ways (R255)? -/
def pinFits (x : RM) (n : Nat) (regions : List Nat) : Bool :=
  let s := sliceOf x n
  let new := regions.filter (fun r => ¬ (framesOf s (setOfRegion x r)).any (fun f => f.region = r && f.pinned))
  new.all (fun r =>
    let set := setOfRegion x r
    decide (pinnedWays s set + (new.filter (fun q => setOfRegion x q = set)).length ≤ 12))

/-- PIN of one line: a swath frame, fetched if absent (R255). -/
def pinLine (x : RM) (n region cls : Nat) : RM :=
  let set := setOfRegion x region
  match frameOf (sliceOf x n) set region with
  | some f =>
    let g := fetchSectors x n { f with swath := true } (0xFFFFFFFF#32 &&& ~~~f.valid)
    storeFrame g.2 n set { g.1 with pinned := true }
  | none =>
    let g := allocate x n set region cls false 0#32
    storeFrame g.2 n set { g.1 with pinned := true }

/-- Change the frame of a line, if the slice holds it. -/
def onFrame (x : RM) (n region : Nat) (f : RM → Frame → Frame × RM) : RM :=
  let set := setOfRegion x region
  match frameOf (sliceOf x n) set region with
  | some fr =>
    let r := f x fr
    setSlice r.2 n (putFrame (sliceOf r.2 n) set r.1)
  | none => x

/-- Statuses of rick commands (R264). -/
def stPinFull : BitVec 8 := 0x60#8
/-- RICK_ALIGN. -/
def stRickAlign : BitVec 8 := 0x61#8
/-- RICK_RANGE. -/
def stRickRange : BitVec 8 := 0x62#8
/-- RICK_OP_INVALID. -/
def stRickOp : BitVec 8 := 0x63#8
/-- RICK_RESET. -/
def stRickReset : BitVec 8 := 0x64#8
/-- RICK_FAULTED. -/
def stRickFaulted : BitVec 8 := 0x65#8

/-- End a command with a status and the lines it acted on (R253). -/
def endCmd (x : RM) (n : Nat) (tag : BitVec 8) (status : BitVec 8) (lines : Nat) : RM :=
  setSlice x n { sliceOf x n with busy := none, status := status, tag := tag, lines := BitVec.ofNat 24 lines }

/-- The checks of R254 on a command, in their order there; 0 for none broken. -/
def cmdStatus (s : Slice) (c : RickCmd) : BitVec 8 :=
  if s.fault then stRickFaulted
  else if c.op = 0#3 ∨ c.op = 6#3 ∨ c.op = 7#3 then stRickOp
  else if c.base % 1024 ≠ 0 then stRickAlign
  else if 16777216 < c.len ∨ ¬ stackRangeOk c.base (c.len * 1024) then stRickRange
  else 0#8

/-- A line of the command's range that this slice serves has an outstanding miss register. -/
def cmdWaits (x : RM) (n : Nat) (c : RickCmd) : Bool :=
  (sliceOf x n).miss.any (fun m => decide (c.base / 1024 ≤ m.region ∧ m.region < c.base / 1024 + c.len))

/-- Carry out a checked command (R253 to R257). -/
def runCmd (x : RM) (n : Nat) (c : RickCmd) (strict : Bool) : RM :=
  let rs := regionsOf x n c.base c.len
  let held := rs.filter (fun r => (frameOf (sliceOf x n) (setOfRegion x r) r).isSome)
  if c.op = 1#3 then
    if pinFits x n rs then
      let cls := if (coreOf c.requester).isSome then 3 else 7
      endCmd (rs.foldl (fun x r => pinLine x n r cls) x) n c.tag 0#8 rs.length
    else
      let x1 := { x with r := { x.r with pinFails := satAdd x.r.pinFails 1 } }
      endCmd x1 n c.tag stPinFull 0
  else if c.op = 2#3 then
    let x1 := held.foldl (fun x r => onFrame x n r (fun x f => ({ f with pinned := false }, x))) x
    endCmd x1 n c.tag 0#8 held.length
  else if c.op = 3#3 then endCmd (fallowRange x n c.base c.len strict) n c.tag 0#8 rs.length
  else
    let x1 := held.foldl (fun x r => onFrame x n r (fun x f => writeBackFrame x f)) x
    let x2 := if c.op = 5#3 then held.foldl (fun x r => dropLine x n r) x1 else x1
    endCmd x2 n c.tag 0#8 held.length

/-- A write of RICK_CMD.OP at one slice (R254). -/
def rickCommand (x : RM) (n : Nat) (op : BitVec 3) (tag : BitVec 8) (requester : BitVec 32) (strict : Bool) : RM :=
  let s := sliceOf x n
  match s.busy with
  | some _ => { x with r := { x.r with rejected := satAdd x.r.rejected 1 } }
  | none =>
    let c : RickCmd := ⟨op, tag, s.base.toNat, s.len.toNat, requester⟩
    if op ≠ 0#3 ∧ op.toNat < 6 ∧ s.len = 0#25 ∧ ¬ s.fault then endCmd x n tag 0#8 0
    else
      let st := cmdStatus s c
      if st ≠ 0#8 then endCmd x n tag st 0
      else if (op = 1#3 ∨ op = 3#3) ∧ cmdWaits x n c then setSlice x n { s with busy := some c }
      else runCmd x n c strict

/-- After a fill: stalled accesses go on, and a waiting command runs when nothing of its range is outstanding. -/
def afterFill (x : RM) (n : Nat) (strict : Bool) : RM :=
  let s := sliceOf x n
  let x1 := s.stalled.foldl (fun x w =>
      if w.write then writeAccess x n w.addr w.pieces w.cls w.sheaf w.requester
      else readAccess x n w.addr w.len w.cls w.sheaf w.requester [])
    (setSlice x n { s with stalled := [] })
  match (sliceOf x1 n).busy with
  | some c => if cmdWaits x1 n c then x1 else runCmd x1 n c strict
  | none => x1

/-! ### Control-core reads through their L1 (R239, R242, R245) -/

/-- The part of a sheaf line that a core reads, through its L1. -/
def coreReadLine (x : RM) (core a len cls : Nat) : List (Bytes × Bool) × RM :=
  let line := a / 128
  let set := l1Set core line
  let requester : BitVec 32 := BitVec.ofNat 32 (0x20000 + core)
  let ls := Map.get [] x.r.l1 set
  let old : SheafLine := (ls.find? (fun l => l.line = line)).getD ⟨line, 0#4, List.replicate 128 0#8, 0#4⟩
  let secs := (List.range 4).filter (fun j => a % 128 < 32 * j + 32 ∧ 32 * j < a % 128 + len)
  let p := secs.foldl (fun (p : SheafLine × RM) j =>
    if bitOf p.1.valid.toNat j then p
    else
      let r := rickRead p.2 (line * 128 + 32 * j) 32 cls true requester
      let bit : BitVec 4 := BitVec.ofNat 4 (2 ^ j)
      ({ p.1 with
          valid := p.1.valid ||| bit
          data := putSector p.1.data j (pieceBytes r.1)
          poison := if piecePoison r.1 then p.1.poison ||| bit else p.1.poison &&& ~~~bit }, r.2)) (old, x)
  let ls1 := Map.get [] p.2.r.l1 set
  let x1 := { p.2 with r := { p.2.r with
    l1 := Map.set [] p.2.r.l1 set ((p.1 :: ls1.filter (fun l => decide (l.line ≠ line))).take 8) } }
  (secs.map (fun j =>
    let lo := if a % 128 < 32 * j then 32 * j else a % 128
    let hi := min (a % 128 + len) (32 * j + 32)
    ((p.1.data.drop lo).take (hi - lo), bitOf p.1.poison.toNat j)), x1)

/-- A control core's read, sheaf line by sheaf line. `fuel` bounds the number of lines. -/
def coreReadLines (fuel : Nat) (x : RM) (core a len cls : Nat) : List (Bytes × Bool) × RM :=
  match fuel with
  | 0 => ([], x)
  | f + 1 =>
    if len = 0 then ([], x)
    else
      let k := min len (128 - a % 128)
      let p := coreReadLine x core a k cls
      let r := coreReadLines f p.2 core (a + k) (len - k) cls
      (p.1 ++ r.1, r.2)

/-- A control core's read of a range. -/
def coreRead (x : RM) (core a len cls : Nat) : List (Bytes × Bool) × RM :=
  coreReadLines (len / 128 + 2) x core a len cls

/-- A control core's write (R245): through to the rick, as a sheaf access. -/
def coreWrite (x : RM) (core a : Nat) (bs : Bytes) (cls : Nat) : RM :=
  rickWrite x a [(bs, false)] cls true (BitVec.ofNat 32 (0x20000 + core))

/-! ### Intervals, resets and gleaner preparation -/

/-- The end of a 1 ms interval for one class at one slice (R256). -/
def endInterval (x : RM) (n cls : Nat) : RM :=
  let i := listGet ⟨0, 0, 0, 0⟩ (sliceOf x n).intervals cls
  let total := i.hits + i.misses
  let q := decide (256 ≤ total ∧ i.hits * 10 < total ∧ i.misses ≤ 2 * i.crowded)
  let run := if q then i.run + 1 else 0
  let x1 := noteInterval x n cls (fun _ => ⟨0, 0, 0, run⟩)
  if run = 100 then
    ({ x1 with r := { x1.r with thrash := satAdd x1.r.thrash 1 } }).emit (.thrash n cls (i.hits * 10000 / total))
  else x1

/-- Write back every dirty sector of a slice. -/
def cleanSlice (x : RM) (n : Nat) : RM :=
  (sliceOf x n).sets.foldl (fun x e => e.2.foldl (fun x f =>
    onFrame x n f.region (fun x f => writeBackFrame x f)) x) x

/-- Empty a slice; a command that runs ends with RICK_RESET (R261). -/
def emptySlice (s : Slice) : Slice :=
  let t := { s with
    sets := [], plru := [], miss := [], stalled := [], filter := [], busy := none
    detectors := List.replicate 8 Detector.reset }
  match s.busy with
  | some c => { t with status := stRickReset, tag := c.tag }
  | none => t

/-- Drop every sheaf line of some cores. -/
def dropCoreL1s (r : Rick) (p : Nat → Bool) : Rick := { r with l1 := Map.keep r.l1 (fun k => !p (k / 64)) }

/-- Before a gleaner launch: write back the dirty lines with words of a range of physical words, and drop them if the
range may be written (R218). `p` tells which words lie in a window, `q` which lie in the write window. -/
def glnPrepareSlice (x : RM) (n : Nat) (p q : Nat → Bool) : RM :=
  (sliceOf x n).sets.foldl (fun x e => e.2.foldl (fun x f =>
    let w := (decodeAddr x.ms.s.placeActive (f.region * 1024)).1
    let x1 := if p w then onFrame x n f.region (fun x f => writeBackFrame x f) else x
    if q w then dropLine x1 n f.region else x1) x) x

/-- Drop every line of the fields whose mode changes (R185). -/
def dropFields (x : RM) (p : Nat → Bool) : RM :=
  (List.range 12).foldl (fun x n => (sliceOf x n).sets.foldl (fun x e => e.2.foldl (fun x f =>
    if p (f.region * 1024 / fieldBytes) then dropLine x n f.region else x) x) x) x

/-- Pinned ways: sets with 12, and the most in any set (R253). -/
def pinFigures (s : Slice) : Nat × Nat :=
  s.sets.foldl (fun p e =>
    let k := (e.2.filter (fun f => f.pinned)).length
    (if k = 12 then p.1 + 1 else p.1, max p.2 k)) (0, 0)

/-- Pinned lines of a class (R262). -/
def pinnedLines (r : Rick) (cls : Nat) : Nat :=
  r.slices.foldl (fun v s => s.sets.foldl (fun v e =>
    v + (e.2.filter (fun f => f.pinned && f.cls == cls)).length) v) 0

end Sys2Proof.Machine
end

