-- ==== Sys2Proof/Machine/Ops.lean ====
section
/-!
DEFINITION. The shared operations of the module: cells, unit states, event records, the log, EMCY frames, the
cairn's queue, interrupts and packets to the host (R16 to R18, R381, R403 to R408, R465 to R469).
-/
namespace Sys2Proof.Machine

/-! ### Parts -/

/-- A cell. -/
def Mod.cell (m : Mod) (i : Nat) : CellState := Map.get CellState.reset m.cells i

/-- Replace a cell. -/
def Mod.setCell (m : Mod) (i : Nat) (c : CellState) : Mod := { m with cells := Map.set CellState.reset m.cells i c }

/-- Change every enabled cell that a test selects. -/
def Mod.mapCells (m : Mod) (p : Nat → Bool) (f : CellState → CellState) : Mod :=
  let cs := m.cells.map (fun e => if p e.1 then (e.1, f e.2) else e)
  { m with cells := cs.filter (fun e => decide (e.2 ≠ CellState.reset)) }

/-- A stack controller's unit ID and every other one (R403): class in [31:16], instance in [15:0]. -/
def unitId (cls inst : Nat) : BitVec 32 := BitVec.ofNat 32 (cls * 65536 + inst)

/-- The unit ID for none (R465). -/
def noUnit : BitVec 32 := 0xFFFFFFFF#32

/-- Instances of a class (R403). -/
def classSize (cls : Nat) : Nat := listGet 0 [1, 16, 4704, 16, 12, 12, 12, 36, 1, 1] cls

/-- A unit ID names a unit of R403. -/
def unitExists (u : BitVec 32) : Bool :=
  decide (u.toNat / 65536 < 10 ∧ u.toNat % 65536 < classSize (u.toNat / 65536))

/-- What is recorded about a unit. -/
def Mod.unit (m : Mod) (u : BitVec 32) : UnitRec := Map.get UnitRec.none m.units.recs u.toNat

/-- Change what is recorded about a unit. -/
def Mod.setUnit (m : Mod) (u : BitVec 32) (f : UnitRec → UnitRec) : Mod :=
  { m with units := { m.units with recs := Map.modify UnitRec.none m.units.recs u.toNat f } }

/-- The band. -/
def Mod.band (m : Mod) (b : Nat) : Band := listGet Band.reset m.power.bands b

/-- Replace a band. -/
def Mod.setBand (m : Mod) (b : Nat) (x : Band) : Mod :=
  { m with power := { m.power with bands := listSet m.power.bands b x } }

/-- A hedgerow port. -/
def Mod.port (m : Mod) (p : Nat) : Port := listGet Port.reset m.hdg.ports p

/-- Replace a hedgerow port. -/
def Mod.setPort (m : Mod) (p : Nat) (x : Port) : Mod :=
  { m with hdg := { m.hdg with ports := listSet m.hdg.ports p x } }

/-- A stream runs. -/
def Mod.running (m : Mod) : Bool := m.stream.running

/-- The ports of the loaded part's PORT_MASK. -/
def Mod.portUsed (m : Mod) (p : Nat) : Bool :=
  match m.boot.image with
  | some i => bitOf i.portMask.toNat p
  | none => false

/-! ### Unit states (R403, R404, R524) -/

/-- Is a unit's supply on? A band, its cells and its control core need the band's headers; stacks, gleaners and
links need the rails of step 1. -/
def Mod.supplied (m : Mod) (cls inst : Nat) : Bool :=
  match cls with
  | 0 => m.boot.powered
  | 1 => (m.band inst).closed
  | 2 => (m.band (bandOf inst)).closed && isEnabled m.plan inst
  | 3 => (m.band inst).closed
  | 9 => m.boot.powered
  | _ => m.power.railsOn

/-- The management plane fences the unit: by its own record, the module until an image is loaded, a control core
held in reset. -/
def Mod.isFenced (m : Mod) (cls inst : Nat) : Bool :=
  (m.unit (unitId cls inst)).fenced
  || (cls == 0 && m.boot.work == .fenced)
  || (cls == 3 && bitOf m.boot.coresHeld.toNat inst)

/-- The management view of a unit (R404). -/
def Mod.mgmtView (m : Mod) (cls inst : Nat) : UState :=
  let r := m.unit (unitId cls inst)
  if r.mgmtFault || (cls == 0 && m.safe.active) then .fault
  else if ¬ m.supplied cls inst then .off
  else if m.isFenced cls inst then .fenced
  else if r.degraded then .degraded
  else .run

/-- The state of a hedgerow port or the Jaeno link as a unit (R524). -/
def linkView (railsOn : Bool) (st : LinkSt) (upView : UState) : UState :=
  if ¬ railsOn then .off
  else match st with
    | .up => upView
    | .retrain => .degraded
    | .failed => .fault
    | _ => .fenced

/-- The state in which a unit's work stands, while it agrees with the management view (R404). -/
def Mod.workView (m : Mod) (cls inst : Nat) : UState :=
  let work : UState := if m.running then .run else .ready
  match cls with
  | 0 => m.boot.work
  | 1 => m.mgmtView 1 inst
  | 7 => linkView m.power.railsOn (m.port inst).train.st
      (if m.portUsed inst && decide (m.lea.st = .running) then .run else .ready)
  | 8 => linkView m.power.railsOn m.jnl.train.st work
  | _ => work

/-- The more conservative of two states that are not FAULT (R16). -/
def UState.lower (a b : UState) : UState := if a.code ≤ b.code then a else b

/-- The data view of a unit (R404). -/
def Mod.dataView (m : Mod) (cls inst : Nat) : UState :=
  let r := m.unit (unitId cls inst)
  if cls = 1 then m.mgmtView 1 inst
  else if r.dataFault then .fault
  else match r.lag with
    | some s => s
    | none =>
      let w := m.workView cls inst
      let g := m.mgmtView cls inst
      if w = .fault ∨ g = .fault then .fault else w.lower g

/-- The effective state of a unit (R404). -/
def Mod.effective (m : Mod) (cls inst : Nat) : UState :=
  let g := m.mgmtView cls inst
  let d := m.dataView cls inst
  if g = .fault ∨ d = .fault then .fault else g.lower d

/-- A unit is in FAULT. -/
def Mod.inFault (m : Mod) (cls inst : Nat) : Bool := decide (m.effective cls inst = .fault)

/-- The module is in FAULT. -/
def Mod.moduleFault (m : Mod) : Bool := m.inFault 0 0

/-- The module is READY: an image may be started (R420). -/
def Mod.isReady (m : Mod) : Bool := decide (m.effective 0 0 = .ready)

/-- A unit enters FAULT of the kind its data plane reports. -/
def Mod.dataFault (m : Mod) (cls inst : Nat) : Mod := m.setUnit (unitId cls inst) (fun r => { r with dataFault := true })

/-- A unit enters FAULT of the kind the management plane owns. -/
def Mod.mgmtFault (m : Mod) (cls inst : Nat) : Mod := m.setUnit (unitId cls inst) (fun r => { r with mgmtFault := true })

/-- A unit leaves every FAULT of its own. -/
def Mod.clearFault (m : Mod) (cls inst : Nat) : Mod :=
  m.setUnit (unitId cls inst) (fun r => { r with dataFault := false, mgmtFault := false, lag := none })

/-- Every unit of R403, in class order then instance order. -/
def allUnits : List (Nat × Nat) :=
  (List.range 10).flatMap (fun c => (List.range (classSize c)).map (fun i => (c, i)))

/-! ### Payloads (R465, R522) -/

/-- An item of a payload: its size in bytes and its value. -/
structure Item where
  size : Nat
  value : Nat
deriving DecidableEq, Repr

/-- The next offset aligned for an item. -/
def alignFor (off size : Nat) : Nat :=
  let a := if size = 1 ∨ size = 2 ∨ size = 4 then size else 8
  (off + a - 1) / a * a

/-- Lay items out, each at its aligned offset (R465). -/
def layItems (acc : Bytes) (items : List Item) : Bytes :=
  match items with
  | [] => acc
  | i :: t =>
    let off := alignFor acc.length i.size
    layItems (acc ++ List.replicate (off - acc.length) 0#8 ++ leBytes i.size i.value) t

/-- A payload. -/
def payload (items : List Item) : Bytes := layItems [] items

/-- A 1, 2, 4 and 8 B item. -/
def i1 (v : Nat) : Item := ⟨1, v⟩
/-- A 2 B item. -/
def i2 (v : Nat) : Item := ⟨2, v⟩
/-- A 4 B item. -/
def i4 (v : Nat) : Item := ⟨4, v⟩
/-- An 8 B item. -/
def i8 (v : Nat) : Item := ⟨8, v⟩
/-- An item of bytes. -/
def iBytes (bs : Bytes) : Item := ⟨bs.length, leNat bs⟩

/-! ### Frames on the CAN FD bus -/

/-- The class of frame that an injection of mode 6 can drop: 1 heartbeat, 2 SDO and USDO, 3 PDO and EMCY. -/
def Mod.dropsFrame (m : Mod) (transmitted : Bool) (kind : Nat) : Bool :=
  m.inject.armed && m.inject.armMode == 6#8 && m.inject.armTarget == 60#8
  && bitOf m.inject.armParam.toNat 0 == transmitted
  && (field m.inject.armParam.toNat 1 2 == 0 || field m.inject.armParam.toNat 1 2 == kind)

/-- Send a frame, unless an injection drops it (R477); bus-off, or while the controller restarts, the node sends nothing
(R388, R460). -/
def Mod.sendFrame (m : Mod) (kind : Nat) (f : CanFrame) : Mod :=
  if m.can.busOff || m.boot.mcDown then m
  else if m.dropsFrame true kind then m.injected
  else { m with can := { m.can with out := m.can.out ++ [f] } }

/-! ### Event records and the log (R407, R408, R465) -/

/-- TEST is set: a session with the TEST right is open, or an injection is armed (R465, R476). -/
def Mod.testing (m : Mod) : Bool :=
  m.inject.armed || (match m.sec.session with | some s => bitOf s.rights.toNat 2 | none => false)

/-- The record of an event raised now (R465). -/
def Mod.record (m : Mod) (e : Event) (unit : BitVec 32) (p : Bytes) : EventRec where
  event := e
  test := m.testing
  cairn := decide (2 ≤ e.severity.code)
  unit := unit
  index := m.log.next
  timeUs := m.clock.timeUs
  step := m.stream.stepCount.setWidth 48
  barSeq := m.lea.barSeq.setWidth 48
  modState := m.effective 0 0
  payload := p

/-- The 128 bytes of a record (R465). -/
def EventRec.bytes (r : EventRec) : Bytes :=
  leBytes 2 r.event.code
  ++ leBytes 2 (r.event.severity.code + 4 * b2n r.test + 8 * b2n r.cairn + 256 * r.payload.length)
  ++ leBytes 4 r.unit.toNat ++ leBytes 8 r.index.toNat ++ leBytes 8 r.timeUs
  ++ leBytes 6 r.step.toNat ++ leBytes 6 r.barSeq.toNat ++ leBytes 28 r.modState.code ++ padTo 64 r.payload

/-- Append a record to the ring; the overwritten one is counted if it was unread (R407). -/
def Log.push (l : Log) (r : EventRec) : Log :=
  if l.ring.length < 1024 then { l with ring := l.ring ++ [r], next := l.next + 1 }
  else
    match l.ring with
    | old :: rest => { l with
        ring := rest ++ [r]
        next := l.next + 1
        unreadLost := if l.read.toNat ≤ old.index.toNat then satAdd l.unreadLost 1 else l.unreadLost }
    | [] => { l with ring := [r], next := l.next + 1 }

/-- The EMCY frame of a record (R408). -/
def Mod.emcy (m : Mod) (r : EventRec) : Mod :=
  if m.log.emcySeverity.toNat ≤ r.event.severity.code ∧ m.can.nmt ≠ .stopped then
    m.sendFrame 3 ⟨0x80 + m.can.activeNodeId.toNat,
      [0x00#8, 0xFF#8, m.can.errorRegister] ++ leBytes 2 r.event.code ++ leBytes 1 r.event.severity.code
        ++ leBytes 8 r.index.toNat⟩
  else m

/-- Append a record, send its EMCY frame and set interrupt vector 80. -/
def Mod.logOne (m : Mod) (e : Event) (unit : BitVec 32) (p : Bytes) : Mod :=
  let r := m.record e unit p
  let m1 := ({ m with log := m.log.push r }).emcy r
  m1.interrupt 80

/-- Record an event in the log; a lost unread record raises LOG_UNREAD_LOST at most once per second (R407). -/
def Mod.logEvent (m : Mod) (e : Event) (unit : BitVec 32) (p : Bytes) : Mod :=
  let m1 := m.logOne e unit p
  if m.log.unreadLost ≠ m1.log.unreadLost ∧ m1.log.lostRaised ≠ m.clock.timeUs / 1000000 + 1 then
    ({ m1 with log := { m1.log with lostRaised := m.clock.timeUs / 1000000 + 1 } }).logOne .logUnreadLost noUnit []
  else m1

/-! ### The cairn's queue (R469) -/

/-- Dangerous events, snapshots and seals may use the reserved entries and are never dropped. -/
def CairnPending.special (p : CairnPending) : Bool :=
  match p.kind with
  | .snapshot => true
  | .seal => true
  | .event => match p.event with
    | some r => decide (r.event.severity = .dangerous)
    | none => false
  | _ => false

/-- Queue a record: true if it was dropped (R469). -/
def Cairn.enqueue (c : Cairn) (p : CairnPending) : Cairn × Bool :=
  let special := (c.queue.filter CairnPending.special).length
  if p.special then
    if c.queue.length < 32 ∧ c.waiting = [] then ({ c with queue := c.queue ++ [p] }, false)
    else ({ c with waiting := c.waiting ++ [p] }, false)
  else if c.queue.length - min special 8 < 24 ∧ c.waiting = [] then ({ c with queue := c.queue ++ [p] }, false)
  else ({ c with dropped := satAdd c.dropped 1 }, true)

/-- Queue a record; a dropped one raises CAIRN_DROPPED in the log only (R469). -/
def Mod.cairnPut (m : Mod) (p : CairnPending) : Mod :=
  let r := m.cairn.enqueue p
  let m1 := { m with cairn := r.1 }
  if r.2 then m1.logEvent .cairnDropped noUnit [] else m1

/-! ### Raising an event (R17, R18) -/

/-- Raise an event: its log record, its EMCY frame, and its cairn record if it is of severity fault or dangerous.
What the event does to units and to the module is the raiser's effect. -/
def Mod.raise (m : Mod) (e : Event) (unit : BitVec 32) (p : Bytes) : Mod :=
  let r := m.record e unit p
  let m1 := m.logEvent e unit p
  if r.cairn then
    m1.cairnPut ⟨.event, r.test, some r, [], m.clock.timeUs, false⟩
  else m1

/-- The current second, plus 1: what the once-per-second marks hold. -/
def Mod.second (m : Mod) : Nat := m.clock.timeUs / 1000000 + 1

end Sys2Proof.Machine
end

