-- ==== Sys2Proof/Machine/MemOps.lean ====
section
/-!
DEFINITION. Memory accesses of the whole module: what the controllers and the rick slices cause outside
themselves, and reads and writes over the device physical address map (R10, R106, R186 to R188, R204, R209).
-/
namespace Sys2Proof.Machine

/-! ### What a memory operation causes -/

/-- Raise MEM_CORRECTED or MEM_POISON_READ at most once per stack per second (R204, R209). -/
def Mod.raisePerStack (m : Mod) (poison : Bool) (stack addr : Nat) : Mod :=
  let c := ctlOf m.memStacks stack
  if poison then
    if c.prRaised = m.second then m
    else ({ m with memStacks := setCtl m.memStacks stack { c with prRaised := m.second } }).raise .memPoisonRead
      (unitId 4 stack) []
  else if c.ceRaised = m.second then m
  else ({ m with memStacks := setCtl m.memStacks stack { c with ceRaised := m.second } }).raise .memCorrected
    (unitId 4 stack) (payload [i1 stack, i8 addr])

/-- Count a discarded write: subindex 1 MAP, 2 REG, 3 AUTH of 0x3020 (R188). -/
def Mod.countDiscard (m : Mod) (sub addr : Nat) : Mod :=
  let s := m.memStacks
  let any := decide (s.mapUnassigned ≠ 0#32 ∨ s.regUnassigned ≠ 0#32 ∨ s.authDiscards ≠ 0#32)
  let s1 := { s with firstUnassigned :=
    if any then s.firstUnassigned else BitVec.ofNat 64 (addr % 2 ^ 52 + sub * 2 ^ 52) }
  let s2 := if sub = 1 then { s1 with mapUnassigned := satAdd s1.mapUnassigned 1 }
    else if sub = 2 then { s1 with regUnassigned := satAdd s1.regUnassigned 1 }
    else { s1 with authDiscards := satAdd s1.authDiscards 1 }
  { m with memStacks := s2 }

/-- One effect of a controller's operation made for `writer`. -/
def Mod.applyMem (writer : BitVec 32) (m : Mod) (f : MemFx) : Mod :=
  match f with
  | .corrected st a => m.raisePerStack false st a
  | .uncorrectable a r => m.raise .memUncorrectable noUnit (payload [i8 a, i4 r.toNat])
  | .poisonRead st => m.raisePerStack true st 0
  | .mergeOnPoison a w => m.raise .mergeOnPoison noUnit (payload [i8 a, i4 w.toNat])
  | .scrubUe a => m.raise .scrubUncorrectable noUnit (payload [i8 a])
  | .metaUe st b => (m.dataFault 4 st).raise .metaUncorrectable (unitId 4 st) (payload [i1 st, i8 b, i8 (b + 255)])
  | .locked a => m.raise .imageWrite noUnit (payload [i4 writer.toNat, i8 a])
  | .faulted _ => m
  | .unassigned a => m.countDiscard 1 a

/-- One effect of a cache operation. -/
def Mod.applyRick (m : Mod) (f : RickFx) : Mod :=
  match f with
  | .thrash n c rate => m.raise .rickThrash (unitId 5 n) (payload [i1 n, i1 c, i2 rate])
  | .readAfterFallow => m.raise .readAfterFallow noUnit (payload [i8 m.rick.rafFirst.toNat])
  | .dataUe a => m.raise .rickDataUe noUnit (payload [i8 a])
  | .tagFault n set => (m.dataFault 5 n).raise .rickTagFault (unitId 5 n) (payload [i1 n, i2 set])
  | .dropCellL1 base len =>
    m.mapCells (fun _ => true) (fun c => { c with
      l1 := c.l1.filter (fun l => decide (l.line * 1024 + 1024 ≤ base ∨ base + len ≤ l.line * 1024)) })

/-- The count of an armed injection on a bridge: after COUNT code words it ends disarmed (R476, R477). -/
def Mod.settleInject (m : Mod) : Mod :=
  match m.memStacks.inject with
  | none => m
  | some i =>
    let ended := decide (i.left = 0)
    { m with
      memStacks := { m.memStacks with inject := if ended then none else some i }
      inject := { m.inject with
        done := BitVec.ofNat 16 (m.inject.armCount.toNat - i.left), armed := m.inject.armed && !ended } }

/-- Run an operation of the controllers and apply what it causes. -/
def Mod.withStacks {α : Type} (m : Mod) (writer : BitVec 32) (f : MS → α × MS) : α × Mod :=
  let r := f ⟨m.memStacks, []⟩
  (r.1, (r.2.fx.foldl (Mod.applyMem writer) { m with memStacks := r.2.s }).settleInject)

/-- Run an operation of the controllers that answers nothing. -/
def Mod.onStacks (m : Mod) (writer : BitVec 32) (f : MS → MS) : Mod := (m.withStacks writer (fun s => ((), f s))).2

/-- Run an operation of the caches; also tells what it caused in the controllers. -/
def Mod.withRick {α : Type} (m : Mod) (writer : BitVec 32) (f : RM → α × RM) : α × List MemFx × Mod :=
  let r := f ⟨m.rick, ⟨m.memStacks, []⟩, [], m.clock.timeUs⟩
  let m1 := { m with rick := r.2.r, memStacks := r.2.ms.s }
  (r.1, r.2.ms.fx, (r.2.fx.foldl Mod.applyRick (r.2.ms.fx.foldl (Mod.applyMem writer) m1)).settleInject)

/-- Run an operation of the caches that answers nothing. -/
def Mod.onRick (m : Mod) (writer : BitVec 32) (f : RM → RM) : Mod := (m.withRick writer (fun x => ((), f x))).2.2

/-! ### Requesters (R522) -/

/-- The requester ID of a cell, a control core, a DMA channel, a port channel, the host. -/
def reqCell (i : Nat) : BitVec 32 := BitVec.ofNat 32 (0x10000 + i)
/-- A control core. -/
def reqCore (i : Nat) : BitVec 32 := BitVec.ofNat 32 (0x20000 + i)
/-- A DMA channel. -/
def reqDma (i : Nat) : BitVec 32 := BitVec.ofNat 32 (0x30000 + i % 32)
/-- A hedgerow port's channel. -/
def reqPort (i : Nat) : BitVec 32 := BitVec.ofNat 32 (0x40000 + i)
/-- The host through the Jaeno link. -/
def reqHost : BitVec 32 := 0x50000#32
/-- A gleaner. -/
def reqGln (g : Nat) : BitVec 32 := BitVec.ofNat 32 (0x60000 + g)
/-- The fetch unit. -/
def reqFetch : BitVec 32 := 0x90000#32
/-- The management controller. -/
def reqMgmt : BitVec 32 := 0xA0000#32

/-! ### The device physical address map (R187) -/

/-- A region of the map. -/
inductive Region where
  | stack
  | tile (cell off : Nat)
  | core (n off : Nat)
  | register (off : Nat)
  | unassigned
deriving DecidableEq, Repr

/-- Which region an address lies in (R186, R187). -/
def regionAt (a : Nat) : Region :=
  if a < 0x18000000000 then (if inMeta a then .unassigned else .stack)
  else if 0x8000100000000 ≤ a ∧ a < 0x8000112600000 then
    (if (a - 0x8000100000000) % 0x100000 < 0x80000 then
      .tile ((a - 0x8000100000000) / 0x100000) ((a - 0x8000100000000) % 0x100000) else .unassigned)
  else if 0x8000200000000 ≤ a ∧ a < 0x8000201000000 then
    .core ((a - 0x8000200000000) / 0x100000) ((a - 0x8000200000000) % 0x100000)
  else if 0x8000300000000 ≤ a ∧ a < 0x8000310000000 then .register (a - 0x8000300000000)
  else .unassigned

/-- Read tile memory through its aperture: 8 B words with their tags, as 32 B pieces (R96). -/
def Mod.readTilePieces (m : Mod) (cell off len : Nat) : List (Bytes × Bool) :=
  (chunks len 32 ((List.range len).map (fun i => off + i))).map (fun ks =>
    match ks with
    | [] => ([], false)
    | k :: _ => let r := readTile (m.cell cell).tile k ks.length; (r.1, r.2.1))

/-- Write tile memory through its aperture, each piece with its tag (R96). -/
def Mod.writeTilePieces (m : Mod) (cell off : Nat) (ps : List (Bytes × Bool)) : Mod :=
  let c := m.cell cell
  let r := ps.foldl (fun (p : Mem × Nat) x => (writeTile p.1 p.2 x.1 x.2, p.2 + x.1.length)) (c.tile, off)
  m.setCell cell { c with tile := r.1 }

/-- A mailbox. -/
def Mod.mailbox (m : Mod) (n : Nat) : Mailbox := listGet Mailbox.reset m.jnl.mailboxes n

/-- Replace a mailbox. -/
def Mod.setMailbox (m : Mod) (n : Nat) (b : Mailbox) : Mod :=
  { m with jnl := { m.jnl with mailboxes := listSet m.jnl.mailboxes n b } }

/-- CCMB_IN_HEAD: the doorbell of a mailbox (R378). -/
def Mod.mailboxHead (m : Mod) (core : Nat) (v : BitVec 16) : Mod :=
  let b := m.mailbox core
  if (v - b.inHead).toNat < 0x8000 ∧ (v - b.inTail).toNat ≤ 256 then m.setMailbox core { b with inHead := v }
  else m.setMailbox core { b with overruns := satAdd b.overruns 1 }

/-! ### Register accesses (R374) -/

/-- An access of `n` bytes at an offset is one that a register takes: 4 B or 8 B, aligned. -/
def regAligned (off n : Nat) : Bool := decide ((n = 4 ∨ n = 8) ∧ off % n = 0)

/-- The bytes of a 64-bit register that an access names. -/
def regSlice (v off n : Nat) : Bytes := ((leBytes 8 v).drop (off % 8)).take n

/-- The value that a write of 4 or 8 bytes gives a 64-bit register: the other half keeps its value. -/
def regMerge (old off : Nat) (bs : Bytes) : Nat :=
  let o := leBytes 8 old
  leNat (o.take (off % 8) ++ bs ++ o.drop (off % 8 + bs.length))

/-- The value of a mailbox register; none at an unassigned offset (R377). -/
def Mod.readMailbox (m : Mod) (core off : Nat) : Option Nat :=
  let b := m.mailbox core
  match off / 8 * 8 with
  | 0x00 => some b.inHead.toNat
  | 0x08 => some b.inTail.toNat
  | 0x10 => some b.outBase.toNat
  | 0x18 => some b.outSize.toNat
  | 0x20 => some b.outHead.toNat
  | 0x28 => some b.outRead.toNat
  | 0x30 => some b.overruns.toNat
  | _ => none

/-- A write of a mailbox register; none at an unassigned offset. A write of the upper half of a register that has no field
there changes nothing. -/
def Mod.writeMailbox (m : Mod) (core off : Nat) (bs : Bytes) : Option Mod :=
  let b := m.mailbox core
  let low := decide (off % 8 = 0)
  match m.readMailbox core off with
  | none => none
  | some old =>
    let v := regMerge old off bs
    some (match off / 8 * 8 with
      | 0x00 => if low then m.mailboxHead core (BitVec.ofNat 16 v) else m
      | 0x10 => m.setMailbox core { b with outBase := BitVec.ofNat 64 (v - v % 16) }
      | 0x18 => if 4 ≤ field v 0 4 ∧ field v 0 4 ≤ 12 then m.setMailbox core { b with outSize := BitVec.ofNat 4 v } else m
      | 0x28 => m.setMailbox core { b with outRead := BitVec.ofNat 16 v }
      | _ => m)

/-! ### Accesses to memory -/

/-- The memory of a control core's aperture beyond its mailbox reads zeros and discards writes while the core is held in
reset (R384). -/
def Mod.apertureShut (m : Mod) (core off : Nat) : Bool := bitOf m.boot.coresHeld.toNat core && decide (0x10000 ≤ off)

/-- Read a control core's aperture: mailbox registers, then memory (R187, R377). -/
def Mod.readCore (m : Mod) (core off len : Nat) : Bytes :=
  if off < 0x1000 ∧ regAligned off len = true then regSlice ((m.readMailbox core off).getD 0) off len
  else (List.range len).map (fun i =>
    if off + i < 0x1000 ∨ m.apertureShut core (off + i) = true then 0#8
    else memGet m.jnl.ccMem (core * 0x100000 + off + i))

/-- Write a control core's aperture. -/
def Mod.writeCore (m : Mod) (core off : Nat) (bs : Bytes) : Mod :=
  let store (m : Mod) (off : Nat) (bs : Bytes) : Mod :=
    let open' := if bitOf m.boot.coresHeld.toNat core then bs.take (0x10000 - off) else bs
    { m with jnl := { m.jnl with ccMem := memWrite m.jnl.ccMem (core * 0x100000 + off) open' } }
  if 0x1000 ≤ off then store m off bs
  else if regAligned off bs.length then
    (m.writeMailbox core off bs).getD (m.countDiscard 2 (0x8000200000000 + core * 0x100000 + off))
  else store (m.countDiscard 2 (0x8000200000000 + core * 0x100000 + off)) 0x1000 (bs.drop (0x1000 - off))

/-- Read the stack region through the slices. -/
def Mod.readStack (m : Mod) (a len cls : Nat) (sheaf : Bool) (req : BitVec 32) : List (Bytes × Bool) × Mod :=
  let r := m.withRick req (fun x => rickRead x a len cls sheaf req)
  (r.1, r.2.2)

/-- Write the stack region through the slices; the effects tell what was discarded or not merged. -/
def Mod.writeStack (m : Mod) (a : Nat) (ps : List (Bytes × Bool)) (cls : Nat) (sheaf : Bool) (req : BitVec 32) :
    List MemFx × Mod :=
  (m.withRick req (fun x => ((), rickWrite x a ps cls sheaf req))).2

/-- A control core reads the stack region through its L1 (R239). -/
def Mod.coreReadStack (m : Mod) (core a len cls : Nat) : List (Bytes × Bool) × Mod :=
  let r := m.withRick (reqCore core) (fun x => coreRead x core a len cls)
  (r.1, r.2.2)

/-- The host register mirror: every sheaf line of its page that a control core has just written is copied whole to the
host's page (R380). -/
def Mod.hrmCopy (m : Mod) (core a len : Nat) : Mod :=
  let src := m.jnl.hrmSrc.toNat
  if m.jnl.hrmEnable = false then m
  else
    ((List.range 32).filter (fun i => decide (a < src + 128 * i + 128 ∧ src + 128 * i < a + len))).foldl
      (fun (m : Mod) i =>
        let line := (m.coreReadStack core (src + 128 * i) 128 3).1
        m.hostWrite (m.jnl.hrmDst.toNat + 128 * i) (pieceBytes line) (piecePoison line)) m

/-- A control core writes the stack region. -/
def Mod.coreWriteStack (m : Mod) (core a : Nat) (bs : Bytes) (cls : Nat) : Mod :=
  (m.onRick (reqCore core) (fun x => coreWrite x core a bs cls)).hrmCopy core a bs.length

/-- A read of device memory by a DMA channel or a port channel (R270, R354). -/
def Mod.deviceRead (m : Mod) (a len cls : Nat) (req : BitVec 32) : List (Bytes × Bool) × Mod :=
  match regionAt a with
  | .stack => m.readStack a len cls false req
  | .tile c o => (m.readTilePieces c o len, m)
  | .core n o => ([(m.readCore n o len, false)], m)
  | _ => ([(List.replicate len 0#8, false)], m)

/-- A write of device memory by a DMA channel or a port channel. -/
def Mod.deviceWrite (m : Mod) (a : Nat) (ps : List (Bytes × Bool)) (cls : Nat) (req : BitVec 32) : List MemFx × Mod :=
  match regionAt a with
  | .stack => m.writeStack a ps cls false req
  | .tile c o => ([], m.writeTilePieces c o ps)
  | .core n o => ([], m.writeCore n o (pieceBytes ps))
  | _ => ([], m.countDiscard 1 a)

/-- Some effect is a discard under a write lock. -/
def fxLocked (fx : List MemFx) : Bool := fx.any (fun f => match f with | .locked _ => true | _ => false)

/-- The first address discarded under a write lock. -/
def fxLockedAt (fx : List MemFx) : Option Nat := fx.findSome? (fun f => match f with | .locked a => some a | _ => none)

/-- A narrow write of this writer was not applied to a poisoned word (R197). -/
def fxMerge (fx : List MemFx) (writer : BitVec 32) : Bool :=
  fx.any (fun f => match f with | .mergeOnPoison _ w => w == writer | _ => false)

/-- The first word of such a write. -/
def fxMergeAt (fx : List MemFx) (writer : BitVec 32) : Option Nat :=
  fx.findSome? (fun f => match f with | .mergeOnPoison a w => if w = writer then some a else none | _ => none)

/-- Carry out every merge entry of a writer, so that its completion can report the outcome (R197). -/
def Mod.settleMerges (m : Mod) (writer : BitVec 32) : List MemFx × Mod :=
  let words := (m.memStacks.ctl.map (fun c => (c.merge.filter (fun e => e.writer == writer)).map (fun e => e.word))).flatten
  let r := words.foldl flushWord (⟨m.memStacks, []⟩ : MS)
  (r.fx, (r.fx.foldl (Mod.applyMem writer) { m with memStacks := r.s }).settleInject)

/-- A word met a stack in FAULT: the write reports MEM_POISON (R203). -/
def fxFaulted (fx : List MemFx) : Bool := fx.any (fun f => match f with | .faulted _ => true | _ => false)

end Sys2Proof.Machine
end

