-- ==== Sys2Proof/Machine/Links.lean ====
section
/-!
DEFINITION. The hedgerow ports: lanes with replay, LINK flits, training, lea transfers and best-effort messages
(R335 to R366).
-/
namespace Sys2Proof.Machine

/-! ### Sending on a port -/

/-- A lane of a port: false the LEA lane, true the BE lane. -/
def Port.lane (p : Port) (be : Bool) : Lane := if be then p.be else p.lea

/-- Replace a lane. -/
def Port.setLane (p : Port) (be : Bool) (l : Lane) : Port := if be then { p with be := l } else { p with lea := l }

/-- The port is UP. -/
def Mod.portUp (m : Mod) (p : Nat) : Bool := decide ((m.port p).train.st = .up)

/-- Put a flit on the wire, past an armed injection; `lane` names the lane of a DATA flit. -/
def Mod.hdgEmit (m : Mod) (p : Nat) (lane : Option Nat) (seq : Nat) (f : Bytes) : Mod :=
  let r := m.passFlit p lane.isSome (lane.getD 0) (hdgStamp (m.port p) seq f)
  { r.2 with hdg := { r.2.hdg with out := r.2.hdg.out ++ r.1.map (fun x => (p, x)) } }

/-- Send the flits that wait on a lane, while fewer than 64 are unacknowledged (R343). -/
def Mod.pumpLane (fuel : Nat) (m : Mod) (p : Nat) (be : Bool) : Mod :=
  match fuel with
  | 0 => m
  | fuel + 1 =>
    let x := m.port p
    let l := x.lane be
    match l.queue with
    | [] => m
    | f :: rest =>
      if x.train.st = .up ∧ l.replay.length < 64 ∧ l.resetting = false then
        let l1 := { l with queue := rest, replay := l.replay ++ [(l.next, f)], next := (l.next + 1) % 256 }
        pumpLane fuel ((m.setPort p (x.setLane be l1)).hdgEmit p (some (b2n be)) l.next f) p be
      else m

/-- Queue flits on a lane and send what fits. -/
def Mod.queueLane (m : Mod) (p : Nat) (be : Bool) (fs : List Bytes) : Mod :=
  let x := m.port p
  let l := x.lane be
  (m.setPort p (x.setLane be { l with queue := l.queue ++ fs })).pumpLane 64 p be

/-- Resend every unacknowledged flit of a lane, in SEQ order (R344). -/
def Mod.resendLane (m : Mod) (p : Nat) (be : Bool) : Mod :=
  ((m.port p).lane be).replay.foldl (fun m e => m.hdgEmit p (some (b2n be)) e.1 e.2) m

/-- A replay, by NAK or by timeout (R344). -/
def Mod.replayLane (m : Mod) (p : Nat) (be : Bool) : Mod :=
  ({ m with hdg := { m.hdg with replays := satAdd m.hdg.replays 1 } }).resendLane p be

/-- The unacknowledged flits after an ACK. -/
def dropThrough (seq : Nat) (l : List (Nat × Bytes)) : List (Nat × Bytes) :=
  match l with
  | [] => []
  | e :: t => if e.1 = seq then t else dropThrough seq t

/-- Act on the ACK and NAK of a lane in a received flit (R344); a gap is answered by one replay (log entry 22). -/
def Mod.ackLane (m : Mod) (p : Nat) (be : Bool) (ack : Nat) (nak : Bool) : Mod :=
  let x := m.port p
  let l := x.lane be
  let hit := l.replay.any (fun e => e.1 == ack)
  let l1 := if hit then { l with replay := dropThrough ack l.replay, timeouts := 0, replayed := false } else l
  let again := nak && !l1.replayed && decide (l1.replay ≠ [])
  let m1 := m.setPort p (x.setLane be { l1 with replayed := nak && (l1.replayed || again) })
  (if again then m1.replayLane p be else m1).pumpLane 64 p be

/-! ### LINK flits and identification (R342, R352) -/

/-- The gate of a port, its index in the gate, and the opposite gate (R335). -/
def gateOf (p : Nat) : Nat := p / 6
/-- The index in the gate. -/
def idxOf (p : Nat) : Nat := p % 6
/-- The opposite gate. -/
def oppositeGate (g : Nat) : Nat := if g % 2 = 0 then g + 1 else g - 1

/-- The 16 B identification of a port (R352). -/
def Mod.identBody (m : Mod) (p : Nat) : Bytes :=
  let c := m.lea.active
  let member := if c.size = 0#16 then 0xFFFF else c.index.toNat
  leBytes 8 (m.hdg.fleetId.toNat + gateOf p * 2 ^ 12 + idxOf p * 2 ^ 16 + member * 2 ^ 32)
    ++ leBytes 8 (if c.size = 0#16 then 0 else c.id.toNat)

/-- LINK flits can be sent: the port is UP, in IDENT, or in the last part of RETRAIN. -/
def LinkTrain.linkOpen (t : LinkTrain) : Bool := t.st == .up || t.st == .ident || (t.st == .retrain && t.sub == 2)

/-- Send a LINK flit as it stands. -/
def Mod.emitLink (m : Mod) (p : Nat) (subtype : Nat) (echo : Bool) (serial : Nat) (body : Bytes) : Mod :=
  if (m.port p).train.linkOpen then
    m.hdgEmit p none 0 (hdgFlit 3 false false 0 (linkHeader subtype echo serial ++ body))
  else m

/-- Send a new LINK flit, to be repeated until it is echoed. -/
def Mod.sendLink (m : Mod) (p : Nat) (subtype : Nat) (body : Bytes) : Mod :=
  let x := m.port p
  let t := x.train
  let t1 := { t with serial := (t.serial + 1) % 65536, waits := t.waits ++ [⟨subtype, t.serial, body⟩] }
  (m.setPort p { x with train := t1 }).emitLink p subtype false t.serial body

/-- Send IDENT. -/
def Mod.sendIdent (m : Mod) (p : Nat) : Mod := m.sendLink p 1 (m.identBody p)

/-- The values that IDENT carries have changed: every UP port sends it (R352). -/
def Mod.identAll (m : Mod) : Mod := (List.range 36).foldl (fun m p => if m.portUp p then m.sendIdent p else m) m

/-- The active lea configuration changes; the ports say so where the change shows in IDENT (R352). -/
def Mod.setLeaActive (m : Mod) (c : LeaCfg) : Mod :=
  let m1 : Mod := { m with lea := { m.lea with active := c } }
  if m1.identBody 0 = m.identBody 0 then m1 else m1.identAll

/-- The swap of an accepted COMMIT: every field becomes active together, and the staged copy is unlocked (R138, R400). -/
def Mod.leaSwap (m : Mod) : Mod :=
  if m.lea.locked then ({ m with lea := { m.lea with locked := false } } : Mod).setLeaActive m.lea.staged else m

/-- Repeat every unechoed LINK flit of a port (R342). -/
def Mod.repeatLinks (m : Mod) (p : Nat) : Mod :=
  (m.port p).train.waits.foldl (fun m w => m.emitLink p w.subtype false w.serial w.body) m

/-- Clear one lane's sending and receiving state, as sender of a LANE_RESET (`mine`) or as its receiver (R342). -/
def Lane.cleared (l : Lane) (mine : Bool) : Lane := { Lane.reset with queue := l.queue, resetting := mine }

/-- Reset a lane with a LANE_RESET exchange (R342, R356). -/
def Mod.resetLane (m : Mod) (p : Nat) (be : Bool) : Mod :=
  let x := m.port p
  let l := x.lane be
  (m.setPort p (x.setLane be (l.cleared true))).sendLink p 2 [BitVec.ofNat 8 (b2n be)]

/-! ### Training (R349 to R351) -/

/-- A link that waits for signal again: its counts of attempts and retrains stay. -/
def LinkTrain.down (t : LinkTrain) : LinkTrain :=
  { t with st := .down, sub := 0, ueRun := 0, ueTimes := [], identIn := false, identEchoed := false, waits := [], acted := [] }

/-- Return a port to DOWN. -/
def Mod.portDown (m : Mod) (p trigger : Nat) : Mod :=
  let x := m.port p
  let m1 := m.setPort p { x with train := x.train.down }
  if x.train.st = .up then m1.raise .hdgPortDown (unitId 7 p) (payload [i1 p, i1 trigger]) else m1

/-- A port enters FAILED (R351): its unit enters FAULT. -/
def Mod.portFailed (m : Mod) (p : Nat) : Mod :=
  let x := m.port p
  let m1 := m.setPort p { x with train := { x.train.down with st := .failed } }
  let m2 := if x.train.st = .up then m1.raise .hdgPortDown (unitId 7 p) (payload [i1 p, i1 7]) else m1
  m2.raise .hdgPortFailed (unitId 7 p) []

/-- A failed attempt: back to DOWN, or FAILED after three in a row (R349, R351). -/
def Mod.portAttemptFailed (m : Mod) (p : Nat) : Mod :=
  let x := m.port p
  let n := x.train.attempts + 1
  let m1 := m.setPort p { x with train := { x.train with attempts := n } }
  if 3 ≤ n then m1.portFailed p else m1.portDown p 6

/-- The retrains of the last 60 s. -/
def LinkTrain.recent (t : LinkTrain) (now : Nat) : List Nat := t.retrains.filter (fun r => decide (now < r + 60000000))

/-- An UP port retrains; a counted 16th retrain within 60 s is not made, and the port fails (R350, R351). -/
def Mod.portRetrain (m : Mod) (p trigger : Nat) (counted : Bool) : Mod :=
  let x := m.port p
  let rs := x.train.recent m.clock.timeUs
  if x.train.st ≠ .up then m
  else if counted = true ∧ 15 ≤ rs.length then m.portFailed p
  else
    let t := x.train
    let keep := t.waits.filter (fun w => w.subtype != 1)
    let t1 := { t with
      st := .retrain, sub := 0, ueRun := 0, ueTimes := [], identIn := false, identEchoed := false, waits := keep
      retrains := if counted then rs ++ [m.clock.timeUs] else rs }
    let m1 := m.setPort p { x with train := t1, lea := { x.lea with timeouts := 0 }, be := { x.be with timeouts := 0 } }
    ({ m1 with hdg := { m1.hdg with retrains := satAdd m1.hdg.retrains 1 } }).raise .hdgPortDown (unitId 7 p)
      (payload [i1 p, i1 trigger])

/-- The port enters UP: HDG_PORT_UP, and its lanes go on (R344, R349). -/
def Mod.portEnterUp (m : Mod) (p : Nat) : Mod :=
  let x := m.port p
  let m1 := m.setPort p { x with train := { x.train with st := .up, sub := 0, attempts := 0 } }
  let m2 := m1.raise .hdgPortUp (unitId 7 p) (payload [i1 p, i8 x.peer.toNat])
  let m3 := (m2.resendLane p false).resendLane p true
  let m4 := (m3.pumpLane 64 p false).pumpLane 64 p true
  (m4.port p).train.waits.foldl (fun m w => m.emitLink p w.subtype false w.serial w.body) m4

/-- Bring a FAILED port back to DOWN: a reset of the port unit (R351). A lea that runs stops at its next barrier if
its image uses the port. -/
def Mod.portRevive (m : Mod) (p : Nat) : Mod :=
  let x := m.port p
  if x.train.st = .failed then
    (m.setPort p { x with train := { x.train.down with attempts := 0, retrains := [] }, fault := false }).clearFault 7 p
  else m

/-- The REFCLK and the rails that a PHY needs are there. -/
def Mod.phyReady (m : Mod) : Bool := m.power.railsOn && m.boot.refclk

/-! ### Receiving (R341, R344) -/

/-- A flit arrives on a port: discarded and counted, or of the named TYPE and handed on after its ACK fields have
been acted on. Every TYPE is taken while the port is UP, a LINK flit also during IDENT. -/
def Mod.takeFlit (m : Mod) (p type : Nat) (f : Bytes) (fecBad : Bool) (next : Mod → Mod) : Mod :=
  let t := (m.port p).train
  if ¬ (t.st = .up ∨ (type = 3 ∧ t.linkOpen = true)) then m
  else if fecBad = true ∨ hdgIntact f = false then { m with hdg := { m.hdg with crcFail := satAdd m.hdg.crcFail 1 } }
  else if hdgType f ≠ type then m
  else
    let x := m.port p
    let m1 := m.setPort p { x with train := { x.train with ueRun := 0 } }
    let b0 := (listGet 0#8 f 0).toNat
    let m2 := m1.ackLane p false (listGet 0#8 f 2).toNat (bitOf b0 6)
    next (m2.ackLane p true (listGet 0#8 f 3).toNat (bitOf b0 7))

/-- A lane takes a flit by its SEQ: true if it is the one expected (R344). While a reset of this end awaits its echo
the flit is discarded without being counted (R342). -/
def Mod.laneTakes (m : Mod) (p : Nat) (be : Bool) (seq : Nat) : Bool × Mod :=
  let x := m.port p
  let l := x.lane be
  if l.resetting then (false, m)
  else if seq = l.expect then
    (true, m.setPort p (x.setLane be { l with expect := (l.expect + 1) % 256, acked := some seq, nak := false }))
  else
    let m1 := m.setPort p (x.setLane be { l with nak := true })
    (false, { m1 with hdg := { m1.hdg with crcFail := satAdd m1.hdg.crcFail 1 } })

/-! ### Words with marks (R345) -/

/-- Read pieces as 8 B words, each with its mark. -/
def toMarked (ps : List (Bytes × Bool)) : List (Bytes × Bool) :=
  let flat := (ps.map (fun x => x.1.map (fun b => (b, x.2)))).flatten
  (chunks (flat.length / 8 + 1) 8 flat).map (fun w => (w.map (fun e => e.1), w.any (fun e => e.2)))

/-- MARK of up to 62 words. -/
def markBits (ws : List (Bytes × Bool)) : Nat := ws.zipIdx.foldl (fun v e => if e.1.2 then v + 2 ^ e.2 else v) 0

/-- The flits of 496 B that carry words, LAST on the final one (R340, R354). -/
def dataFlits (type : Nat) (ws : List (Bytes × Bool)) : List Bytes :=
  let cs := chunks (ws.length + 1) 62 ws
  cs.zipIdx.map (fun e => hdgFlit type (decide (e.2 + 1 = cs.length)) false (markBits e.1) ((e.1.map (fun w => w.1)).flatten))

/-- The words of a received payload, with their marks. -/
def payloadWords (pl : Bytes) (mark : Nat) : List (Bytes × Bool) :=
  (chunks (pl.length / 8 + 1) 8 pl).zipIdx.map (fun e => (e.1, bitOf mark e.2))

/-- Count marked words; the first of a lea transfer is latched with its local address (R345). -/
def Mod.noteMarks (m : Mod) (p : Nat) (lea : Bool) (addr : Nat) (ws : List (Bytes × Bool)) : Mod :=
  let n := (ws.filter (fun w => w.2)).length
  match findIdxFrom (fun w => w.2) 0 ws with
  | none => m
  | some i =>
    let v := if lea = true ∧ m.hdg.firstMark = 0#64 then BitVec.ofNat 64 ((addr + 8 * i) % 2 ^ 52 + p * 2 ^ 52)
      else m.hdg.firstMark
    { m with hdg := { m.hdg with markedWords := satAdd m.hdg.markedWords n, firstMark := v } }

/-- In the safe state every word sent carries the invalid mark (R462). -/
def Mod.sentMarks (m : Mod) (ws : List (Bytes × Bool)) : List (Bytes × Bool) :=
  if m.safe.active then ws.map (fun w => (w.1, true)) else ws

/-! ### Row tags (R121, R354) -/

/-- A tag of a row is free. -/
def Mod.tagFree (m : Mod) (row tag : Nat) : Bool := m.dma.tags.all (fun h => !(h.row == row && h.tag == tag))

/-- A tag becomes held. -/
def Mod.holdTag (m : Mod) (row tag : Nat) (xb : Bool) : Mod := { m with dma := { m.dma with tags := m.dma.tags ++ [⟨row, tag, xb⟩] } }

/-- A tag is released. -/
def Mod.freeTag (m : Mod) (row tag : Nat) : Mod :=
  { m with dma := { m.dma with tags := m.dma.tags.filter (fun h => !(h.row == row && h.tag == tag)) } }

/-! ### Lea transfers (R353 to R356) -/

/-- Fields of a transfer entry (R353). -/
structure EntryF where
  dir : Bool
  cls : Nat
  tag : Nat
  row : Nat
  len : Nat
  addr : Nat
  start : Nat
  rep : Nat
  period : Nat
  stride : Nat
deriving DecidableEq, Repr

/-- Decode an entry (R353). -/
def entryF (e : XferEntry) : EntryF :=
  let v := e.toNat
  ⟨bitOf v 0, field v 4 3, field v 8 8, field v 16 7, field v 32 32, field v 64 52, field v 128 48, field v 176 16,
    field v 192 32, field v 224 32⟩

/-- The local address of repeat k. -/
def EntryF.addrAt (e : EntryF) (k : Nat) : Nat :=
  (((e.addr : Int) + signed e.stride 32 * k).emod (2 ^ 52)).toNat

/-- Pass over the entries that are no-operations (R353, R15). -/
def XferList.skip (fuel : Nat) (l : XferList) : XferList :=
  match fuel with
  | 0 => l
  | fuel + 1 =>
    if l.entry < l.entries.length then
      let e := entryF (listGet 0#256 l.entries l.entry)
      if e.len = 0 ∨ e.rep ≤ l.rep then skip fuel { l with entry := l.entry + 1, rep := 0 } else l
    else l

/-- The repeat of a list that comes next, if its list has one. -/
def XferList.current (l : XferList) : Option EntryF :=
  if l.entry < l.entries.length then some (entryF (listGet 0#256 l.entries l.entry)) else none

/-- The present repeat has ended: its tag is free, and the next one comes. -/
def XferList.next (l : XferList) : XferList :=
  { l with rep := l.rep + 1, busy := false, done := 0 }

/-- Every flit of the present send repeat has been acknowledged: its tag is released (R354). -/
def Mod.sendSettled (m : Mod) (p : Nat) : Mod :=
  let x := m.port p
  if x.send.busy = true ∧ x.lea.replay = [] ∧ x.lea.queue = [] then
    match x.send.current with
    | some e => (m.setPort p { x with send := x.send.next }).freeTag e.row e.tag
    | none => m
  else m

/-- A receive repeat failed (R355): its channel and its port enter FAULT. -/
def Mod.xferMismatch (m : Mod) (p : Nat) : Mod :=
  let x := m.port p
  let m1 := (m.setPort p { x with fault := true, leaIn := [] }).dataFault 7 p
  m1.raise .hdgXferMismatch (unitId 7 p) (payload [i1 p, i2 x.recv.entry])

/-- A receive repeat takes one flit (R354, R355). -/
def Mod.takeRecv (m : Mod) (p : Nat) (pl : Bytes) (mark : Nat) (last : Bool) : Mod :=
  let x := m.port p
  match x.recv.current with
  | none => m
  | some e =>
    let n := min pl.length (e.len - x.recv.done)
    let at' := e.addrAt x.recv.rep + x.recv.done
    let ws := payloadWords (pl.take n) mark
    let m1 := (m.deviceWrite at' ws e.cls (reqPort p)).2.noteMarks p true at' ws
    let y := m1.port p
    let done := x.recv.done + n
    let m2 := m1.setPort p { y with recv := { y.recv with done := done } }
    if last = decide (done = e.len) then
      if last then (m2.setPort p { y with recv := y.recv.next }).freeTag e.row e.tag else m2
    else m2.xferMismatch p

/-- Hand the accepted flits to the receive repeat that runs. -/
def Mod.drainRecv (fuel : Nat) (m : Mod) (p : Nat) : Mod :=
  match fuel with
  | 0 => m
  | fuel + 1 =>
    let x := m.port p
    match x.leaIn with
    | [] => m
    | f :: rest =>
      if x.fault then m.setPort p { x with leaIn := [] }
      else if x.recv.busy then
        drainRecv fuel ((m.setPort p { x with leaIn := rest }).takeRecv p f.1 f.2.1.toNat f.2.2) p
      else m

/-- A repeat falls due: it takes its tag if the tag is free, and a send repeat sends its bytes (R354). -/
def Mod.transferDue (m : Mod) (p : Nat) (recv : Bool) : Mod :=
  let x := m.port p
  let l := (if recv then x.recv else x.send).skip 4096
  match l.current with
  | none => m
  | some e =>
    let due := decide (e.start + l.rep * e.period ≤ m.stream.stepCount.toNat)
    if m.running = true ∧ l.busy = false ∧ due = true ∧ m.tagFree e.row e.tag = true ∧ ¬ (recv = true ∧ x.fault = true) then
      let l1 := { l with busy := true, done := 0 }
      let m1 := (m.setPort p (if recv then { x with recv := l1 } else { x with send := l1 })).holdTag e.row e.tag false
      if recv then m1.drainRecv (x.leaIn.length + 1) p
      else
        let a := e.addrAt l.rep
        let r := m1.deviceRead a e.len e.cls (reqPort p)
        let ws := r.2.sentMarks (toMarked r.1)
        ((r.2.noteMarks p true a ws).queueLane p false (dataFlits 1 ws)).sendSettled p
    else m

/-- A halt of the member discards the remaining repeats, releases their tags and resets the LEA lanes (R356). -/
def Mod.dropTransfers (m : Mod) : Mod :=
  (List.range 36).foldl (fun m p =>
    let x := m.port p
    if x.send.entries = [] ∧ x.recv.entries = [] then m
    else
      let tags := (if x.send.busy then x.send.current.toList else []) ++ (if x.recv.busy then x.recv.current.toList else [])
      let m1 := tags.foldl (fun m e => m.freeTag e.row e.tag) m
      let y := { x with send := XferList.reset, recv := XferList.reset, leaIn := [], lea := { x.lea with queue := [] } }
      (m1.setPort p y).resetLane p false) m

/-- Load the lists of an image part that starts (R353). -/
def Mod.loadTransfers (m : Mod) : Mod :=
  match m.boot.image with
  | none => m
  | some i =>
    (List.range 36).foldl (fun m p =>
      let es := listGet [] i.hdgLists p
      let x := m.port p
      m.setPort p { x with
        send := { XferList.reset with entries := es.filter (fun e => !bitOf e.toNat 0) }
        recv := { XferList.reset with entries := es.filter (fun e => bitOf e.toNat 0) } }) m

/-! ### Best-effort messages (R359 to R363) -/

/-- Fields of a message header (R359). -/
structure BeHdr where
  dest : Nat
  src : Nat
  cls : Nat
  len : Nat
  addr : Nat
  hops : Nat
  op : Nat
  status : Nat
  id : Nat
deriving DecidableEq, Repr

/-- The 32 B of a header. -/
def BeHdr.bytes (h : BeHdr) : Bytes :=
  leBytes 32 (h.dest + h.src * 2 ^ 12 + h.cls * 2 ^ 24 + h.len * 2 ^ 32 + h.addr * 2 ^ 64 + h.hops * 2 ^ 116
    + h.op * 2 ^ 124 + h.status * 2 ^ 128 + h.id * 2 ^ 136)

/-- Decode a header. -/
def beHdr (bs : Bytes) : BeHdr :=
  let v := leNat (bs.take 32)
  ⟨field v 0 12, field v 12 12, field v 24 3, field v 32 32, field v 64 52, field v 116 8, field v 124 4,
    field v 128 8, field v 136 56⟩

/-- The route table's entry for a FLEET_ID (R359). -/
def Mod.routeOf (m : Mod) (dest : Nat) : Nat := field (listGet 0xFF#8 m.hdg.route (dest / 2)).toNat (4 * (dest % 2)) 4

/-- The UP ports of a gate. -/
def Mod.upPorts (m : Mod) (gate : Nat) : List Nat :=
  ((List.range 6).map (fun k => 6 * gate + k)).filter (fun p => m.portUp p)

/-- Drop a message: counted, and reported at most once per second (R359). -/
def Mod.beDrop (m : Mod) : Mod :=
  let m1 := { m with hdg := { m.hdg with beDropped := satAdd m.hdg.beDropped 1 } }
  if m1.hdg.dropRaised = m.second then m1
  else ({ m1 with hdg := { m1.hdg with dropRaised := m.second } }).raise .hdgBeDropped noUnit []

/-- Send a message on toward its destination, or drop it (R359). -/
def Mod.beForward (m : Mod) (h : BeHdr) (ws : List (Bytes × Bool)) : Mod :=
  let ups := m.upPorts (m.routeOf h.dest)
  if h.hops = 0 ∨ 5 < m.routeOf h.dest ∨ ups = [] then m.beDrop
  else
    let p := listGet 0 ups (h.id % ups.length)
    let ws := m.sentMarks ws
    let hd := payloadWords ({ h with hops := h.hops - 1 } : BeHdr).bytes 0
    (m.noteMarks p false 0 ws).queueLane p true (dataFlits 2 (hd ++ ws))

/-- A best-effort queue. -/
def Mod.beq (m : Mod) (q : Nat) : BeQueue := listGet BeQueue.reset m.hdg.queues q

/-- Replace a best-effort queue. -/
def Mod.setBeq (m : Mod) (q : Nat) (x : BeQueue) : Mod :=
  { m with hdg := { m.hdg with queues := listSet m.hdg.queues q x } }

/-- Write the completion records of a queue that are due, in ring order (R363). -/
def Mod.beFlush (fuel : Nat) (m : Mod) (q : Nat) : Mod :=
  match fuel with
  | 0 => m
  | fuel + 1 =>
    match m.hdg.msgs.find? (fun e => e.queue == q) with
    | none => m
    | some e => match e.status with
      | none => m
      | some st =>
        let x := m.beq q
        let rec16 := leBytes 16 (e.index + st.toNat * 2 ^ 16 + e.user.toNat * 2 ^ 32)
        let a := x.cqBase.toNat + x.cqHead.toNat % 2 ^ x.ringSize.toNat * 16
        let m1 := (m.deviceWrite a [(rec16, false)] 3 (reqPort 0)).2
        let m2 := m1.setBeq q { x with cqHead := x.cqHead + 1, last := st }
        beFlush fuel { m2 with hdg := { m2.hdg with msgs := m2.hdg.msgs.erase e } } q

/-- A record breaks R362. -/
def Mod.beBad (m : Mod) (v : Nat) : Bool :=
  let dest := field v 0 12
  let len := field v 32 32
  let addr := field v 64 52
  let ok := match regionAt addr with
    | .stack => len = 0 || (match regionAt (addr + len - 1) with | .stack => stackRangeOk addr len | _ => false)
    | .tile _ off => decide (off + len ≤ 0x80000)
    | _ => false
  len % 8 != 0 || decide (1048576 < len) || !ok || dest == m.hdg.fleetId.toNat
    || field v 18 14 != 0 || field v 116 12 != 0 || field v 180 12 != 0 || field v 224 288 != 0

/-- Send the records of an enabled queue while fewer than 16 messages are outstanding (R361 to R363). -/
def Mod.beqPump (fuel : Nat) (m : Mod) (q : Nat) : Mod :=
  match fuel with
  | 0 => m
  | fuel + 1 =>
    let x := m.beq q
    let outstanding := (m.hdg.msgs.filter (fun e => e.queue == q && e.status.isNone)).length
    if x.enable = false ∨ x.head = x.tail ∨ 16 ≤ outstanding then m
    else
      let r := m.deviceRead (x.ringBase.toNat + x.tail.toNat % 2 ^ x.ringSize.toNat * 64) 64 3 (reqPort 0)
      let v := leNat (pieceBytes r.1)
      let m1 := r.2.setBeq q { x with tail := x.tail + 1 }
      let user := BitVec.ofNat 32 (field v 192 32)
      let note (m : Mod) (id : Nat) (marked : Bool) (st : Option (BitVec 8)) : Mod :=
        { m with hdg := { m.hdg with msgs := m.hdg.msgs ++ [⟨q, x.tail.toNat, user, id, m.clock.timeUs, marked, st⟩] } }
      let m2 :=
        if field v 32 32 = 0 ∧ m.beBad v = false then (note m1 0 false (some 0#8)).beFlush 65536 q
        else if m.beBad v then (note m1 0 false (some 0xA2#8)).beFlush 65536 q
        else
          let s := m1.deviceRead (field v 64 52) (field v 32 32) (field v 15 3) (reqPort 0)
          let ws := toMarked s.1
          let id := m1.hdg.nextMsg
          let m3 := note { s.2 with hdg := { s.2.hdg with nextMsg := (id + 1) % 2 ^ 56 } } id (ws.any (fun w => w.2)) none
          m3.beForward ⟨field v 0 12, m.hdg.fleetId.toNat, field v 12 3, field v 32 32, field v 128 52, 64, 1, 0, id⟩ ws
      beqPump fuel m2 q

/-- Settle a message: its completion is written when its turn comes, and the queue goes on. -/
def Mod.beSettle (m : Mod) (id : Nat) (st : BitVec 8) : Mod :=
  match m.hdg.msgs.find? (fun e => e.msgId == id && e.status.isNone) with
  | none => m
  | some e =>
    let st1 := if e.marked = true ∧ st = 0#8 then 0x40#8 else st
    let ms := m.hdg.msgs.map (fun x => if x = e then { x with status := some st1 } else x)
    (({ m with hdg := { m.hdg with msgs := ms } }).beFlush 65536 e.queue).beqPump 65536 e.queue

/-- Every byte of a range lies in some open receive window (R360). -/
def Mod.inWindows (m : Mod) (a len : Nat) : Bool :=
  let ws := (List.range 16).map (fun i =>
    ((listGet 0#64 m.hdg.winBase i).toNat, (listGet 0#32 m.hdg.winLen i).toNat * 1024))
  let inside (x : Nat) : Bool := ws.any (fun w => decide (w.1 ≤ x ∧ x < w.1 + w.2))
  -- the windows are aligned to 4 KiB and their lengths are multiples of 1 KiB
  (List.range (len / 1024 + 2)).all (fun i => let x := min (a + 1024 * i) (a + len - 1); len = 0 || inside x)

/-- A WRITE message has reached its destination: it is written through the rick and answered (R360). -/
def Mod.beDeliver (m : Mod) (h : BeHdr) (ws : List (Bytes × Bool)) : Mod :=
  let data := ws.take (h.len / 8)
  let ok := m.inWindows h.addr h.len
  let m1 := if ok && h.len != 0 then (m.writeStack h.addr data h.cls false (reqPort 0)).2 else m
  let st := if ok then (if data.any (fun w => w.2) then 0x40 else 0) else 0xA1
  m1.beForward ⟨h.src, h.dest, h.cls, 0, 0, 64, 2, st, h.id⟩ []

/-- The oldest whole message of a port arrives, if its OP is the one named: forwarded, dropped, written, or its ACK
taken (R359, R360, R363). A message of a reserved OP is discarded. -/
def Mod.beArrive (m : Mod) (p op : Nat) : Mod :=
  let x := m.port p
  match x.inbox with
  | [] => m
  | b :: rest =>
    let h := beHdr b.data
    let ws := payloadWords (b.data.drop 32) (b.marks.zipIdx.foldl (fun v e => if e.1 = true ∧ 4 ≤ e.2 then v + 2 ^ (e.2 - 4) else v) 0)
    let m1 := m.setPort p { x with inbox := rest }
    if h.op ≠ 1 ∧ h.op ≠ 2 then m1
    else if h.op ≠ op then m
    else if h.hops = 0 then m1.beDrop
    else if h.dest ≠ m.hdg.fleetId.toNat then m1.beForward h (ws.take (h.len / 8))
    else if h.op = 1 then (m1.noteMarks p false 0 ws).beDeliver h ws
    else m1.beSettle h.id (BitVec.ofNat 8 h.status)

/-- A BE flit has been accepted: its payload joins the message, which is whole with LAST. -/
def Mod.takeBe (m : Mod) (p : Nat) (f : Bytes) : Mod :=
  let x := m.port p
  let b := x.rx.getD ⟨[], []⟩
  let pl := hdgPayload f
  let b1 : MsgBuf := ⟨b.data ++ pl, b.marks ++ (List.range (pl.length / 8)).map (fun i => bitOf (hdgMark f) i)⟩
  if hdgLast f then m.setPort p { x with rx := none, inbox := x.inbox ++ [b1] } else m.setPort p { x with rx := some b1 }

end Sys2Proof.Machine
end

