-- ==== Sys2Proof/Machine/Seqt.lean ====
section
/-!
DEFINITION. The sequence table: reads, writes, the publish word and the walk-complete fence (R290 to R295).
-/
namespace Sys2Proof.Machine

/-- Where the sequence table lies (R290). -/
def seqtBase : Nat := 0x8000303000000

/-- A field of an entry, bits [lo+w-1:lo] (R291). -/
def Mod.seqField (m : Mod) (e lo w : Nat) : Nat := field (leNat (memRead m.attn.seqt (256 * e) 256)) lo w

/-- Replace a field of an entry. -/
def Mod.setSeqField (m : Mod) (e lo w v : Nat) : Mod :=
  let old := leNat (memRead m.attn.seqt (256 * e) 256)
  let new := old - field old lo w * 2 ^ lo + v % 2 ^ w * 2 ^ lo
  { m with attn := { m.attn with seqt := memWrite m.attn.seqt (256 * e) (leBytes 256 new) } }

/-- GEN of an entry. -/
def Mod.seqGen (m : Mod) (e : Nat) : Nat := m.seqField e 0 16
/-- LENGTH of an entry. -/
def Mod.seqLen (m : Mod) (e : Nat) : Nat := m.seqField e 128 32
/-- LIVE. -/
def Mod.seqLive (m : Mod) (e : Nat) : Bool := m.seqField e 160 1 == 1

/-- The bytes of the table. -/
def Mod.seqRead (m : Mod) (off len : Nat) : Bytes := memRead m.attn.seqt off len

/-- A publish word is acceptable: GEN advances by 1 and its reserved bits are 0 (R292). -/
def Mod.publishOk (m : Mod) (e : Nat) (w : Nat) : Bool :=
  decide (field w 0 16 = (m.seqGen e + 1) % 65536 ∧ field w 62 2 = 0 ∧ field w 112 16 = 0)

/-- Refuse a publish write (R292). -/
def Mod.publishRefuse (m : Mod) (e : Nat) (writer : BitVec 32) : Mod :=
  ({ m with attn := { m.attn with publishRefused := satAdd m.attn.publishRefused 1 } }).raise .publishRefused noUnit
    (payload [i2 e, i4 writer.toNat])

/-- Is the entry one that the host may not write while the lea runs (R292)? -/
def Mod.seqShared (m : Mod) (e : Nat) : Bool :=
  let c := m.lea.active
  decide (m.lea.st = .running ∧ c.seqFirst.toNat ≤ e ∧ e < c.seqFirst.toNat + c.seqCount.toNat)

/-- A write within one entry (R292). -/
def Mod.seqWriteIn (m : Mod) (off : Nat) (bs : Bytes) (writer : BitVec 32) : Mod :=
  let e := off / 256
  if bs = [] then m
  else if writer = reqHost ∧ m.seqShared e = true then
    { m with attn := { m.attn with seqtDiscards := satAdd m.attn.seqtDiscards 1 } }
  else if off % 256 < 16 ∧ ¬ (off % 256 = 0 ∧ bs.length = 16 ∧ m.publishOk e (leNat bs) = true) then m.publishRefuse e writer
  else { m with attn := { m.attn with seqt := memWrite m.attn.seqt off bs } }

/-- A write that may cross into the next entry is taken entry by entry. -/
def Mod.seqWrite (m : Mod) (off : Nat) (bs : Bytes) (writer : BitVec 32) : Mod :=
  let n := 256 - off % 256
  (m.seqWriteIn off (bs.take n) writer).seqWriteIn (off + n) (bs.drop n) writer

/-- The fence clears when no walk of its entry under another GEN remains (R295). -/
def Mod.fenceClear (m : Mod) : Mod :=
  let a := m.attn
  if a.fencePending ∧ a.walks.all (fun w => !(w.entry == a.fenceEntry && w.gen != a.fenceGen)) then
    { m with attn := { a with fencePending := false } }
  else m

/-- A write of SEQT_FENCE (R295): ENTRY is 12 bits wide, so every value of it names an entry. -/
def Mod.fenceWrite (m : Mod) (v : Nat) : Mod :=
  let a := m.attn
  if a.fencePending then m
  else { m with attn := { a with
    fencePending := true, fenceEntry := field v 0 12, fenceGen := field v 16 16, fenceStatus := 0#8 } }

/-- A read of device memory by a DMA channel: also the sequence table (R290). -/
def Mod.dmaRead (m : Mod) (a len cls : Nat) (req : BitVec 32) : List (Bytes × Bool) × Mod :=
  if seqtBase ≤ a ∧ a + len ≤ seqtBase + 0x100000 then ([(m.seqRead (a - seqtBase) len, false)], m)
  else m.deviceRead a len cls req

/-- A write of device memory by a DMA channel: also the sequence table (R290). -/
def Mod.dmaWrite (m : Mod) (a : Nat) (bs : Bytes) (bad : Bool) (cls : Nat) (req : BitVec 32) : List MemFx × Mod :=
  if seqtBase ≤ a ∧ a + bs.length ≤ seqtBase + 0x100000 then ([], m.seqWrite (a - seqtBase) bs req)
  else m.deviceWrite a [(bs, bad)] cls req

end Sys2Proof.Machine
end

