-- ==== Sys2Proof/Machine/Dma.lean ====
section
/-!
DEFINITION. The DMA engines: queues and their rings, the checks of a descriptor, transfers, completions
(R265 to R285), with module read requests and their completions (R379).
-/
namespace Sys2Proof.Machine

/-! ### Descriptors (R270) -/

/-- Fields of a DMA descriptor (R270). -/
structure DmaF where
  kind : Nat
  seq : Nat
  op : Nat
  cls : Nat
  ssp : Nat
  dsp : Nat
  esz : Nat
  fence : Bool
  comp : Bool
  len : Nat
  cols : Nat
  src : Nat
  dst : Nat
  sstride : Nat
  dstride : Nat
  scale : Nat
  blk : Nat
  user : Nat
  /-- the reserved bits, and GEN, taken together -/
  rsv : Nat
deriving DecidableEq, Repr

/-- Decode a descriptor (R129, R270). -/
def dmaF (d : BitVec 512) : DmaF :=
  let v := d.toNat
  ⟨field v 0 8, field v 16 16, field v 64 4, field v 68 3, field v 72 2, field v 74 2, field v 76 2, bitOf v 78,
    bitOf v 79, field v 80 32, field v 112 16, field v 128 64, field v 192 64, field v 256 32, field v 288 32,
    field v 320 64, field v 384 2, field v 416 32,
    field v 9 7 + field v 32 32 + field v 71 1 + field v 386 30 + field v 448 64⟩

/-- Element bytes of TRANSPOSE. -/
def DmaF.es (f : DmaF) : Nat := 2 ^ f.esz
/-- Element bytes per block of SCATTER. -/
def DmaF.blkBytes (f : DmaF) : Nat := if f.blk = 0 then 16 else if f.blk = 1 then 24 else 32

/-- LEN 0, or COLS 0 where COLS counts: a no-operation (R271, R15). -/
def DmaF.empty (f : DmaF) : Bool := f.len == 0 || ((f.op == 2 || f.op == 3) && f.cols == 0)

/-- Check 1 of R271. Bits [63:52] of a device address, and the bits of an injector's DST above its row, must be 0. -/
def DmaF.badForm (f : DmaF) : Bool :=
  f.op == 0 || decide (4 < f.op) || decide (1 < f.ssp) || f.dsp == 3 || f.esz == 3 || f.blk == 3 || f.rsv != 0
  || (f.op != 2 && (f.esz != 0 || f.sstride != 0 || f.dstride != 0))
  || ((f.op == 1 || f.op == 4) && f.cols != 0) || (f.op == 3 && decide (64 < f.cols))
  || (f.op != 3 && (f.scale != 0 || f.blk != 0))
  || (f.op == 4 && (f.src != 0 || f.ssp != 0)) || (f.op == 3 && f.dsp != 0)
  || (f.ssp == 0 && decide (2 ^ 52 ≤ f.src ∨ 2 ^ 52 ≤ f.scale)) || (f.dsp == 0 && decide (2 ^ 52 ≤ f.dst))
  || (f.dsp == 2 && decide (128 ≤ f.dst))

/-- The ranges a descriptor names: space, address, bytes. -/
def DmaF.ranges (f : DmaF) : List (Nat × Nat × Nat) :=
  if f.op = 1 then [(f.ssp, f.src, f.len), (f.dsp, f.dst, f.len)]
  else if f.op = 2 then
    [(f.ssp, f.src, (f.len - 1) * f.sstride + f.cols * f.es),
     (f.dsp, f.dst, if f.dsp = 2 then f.len * f.cols * f.es else (f.cols - 1) * f.dstride + f.len * f.es)]
  else if f.op = 3 then
    [(f.ssp, f.src, f.len * f.cols * f.blkBytes), (f.dsp, f.dst, 16 * f.len)]
      ++ (if f.scale = 0 then [] else [(0, f.scale, f.len * f.cols)])
  else [(f.dsp, f.dst, f.len)]

/-- A device range passes check 3 of R271. -/
def Mod.dmaRangeOk (m : Mod) (a n : Nat) : Bool :=
  if n = 0 then true
  else if seqtBase ≤ a then decide (a + n ≤ seqtBase + 0x100000)
  else match regionAt a with
  | .stack => stackRangeOk a n
  | .tile c off => decide (off + n ≤ 0x80000) && isUsable m.plan c
  | .core _ _ => decide (a + n ≤ 0x8000201000000)
  | _ => false

/-- An address in a tile memory aperture. -/
def inTileAperture (a : Nat) : Bool := match regionAt a with | .tile _ _ => true | _ => false

/-- The checks of R271, in order; 0 where none fails. `index` is the ring index of a queue's descriptor. -/
def Mod.dmaCheck (m : Mod) (f : DmaF) (index : Option Nat) : BitVec 8 :=
  if f.badForm then 0x74#8
  else if index.any (fun i => f.seq != i % 65536) then 0x75#8
  else if index.isSome ∧ f.kind ≠ 0x20 then 0x76#8
  else if f.empty then 0#8
  else if f.ranges.any (fun r =>
      (r.1 == 0 && !m.dmaRangeOk r.2.1 r.2.2)
      || (r.1 == 2 && (decide (96 ≤ r.2.1) || isDark m.plan (bandOfRow r.2.1)))) then 0x71#8
  else if f.ranges.any (fun r => (r.1 == 0 && inTileAperture r.2.1 && r.2.1 % 32 != 0) || (r.1 == 2 && r.2.2 % 128 != 0))
    || (f.op == 2 && (f.src % f.es != 0 || f.sstride % f.es != 0 || f.dstride % f.es != 0
      || (f.dsp != 2 && f.dst % f.es != 0))) then 0x72#8
  else if f.op = 1 ∧ f.ssp = f.dsp ∧ f.src < f.dst + f.len ∧ f.dst < f.src + f.len then 0x73#8
  else if (f.op == 2 && !(f.dsp == 2 || (f.dsp == 0 && inTileAperture f.dst)))
    || (f.op == 3 && (f.ssp != 0 || !inTileAperture f.src || (f.scale != 0 && !inTileAperture f.scale)))
    || (f.op == 4 && f.dsp != 0) then 0x74#8
  else 0#8

/-! ### Queues (R267 to R269) -/

/-- A queue. -/
def Mod.dmaq (m : Mod) (q : Nat) : DmaQueue := listGet DmaQueue.reset m.dma.queues q

/-- Replace a queue. -/
def Mod.setDmaq (m : Mod) (q : Nat) (x : DmaQueue) : Mod := { m with dma := { m.dma with queues := listSet m.dma.queues q x } }

/-- Transfers of a queue that run. -/
def Mod.queueXfers (m : Mod) (q : Nat) : List Xfer :=
  m.dma.xfers.filter (fun x => match x.owner with
    | .queue q' _ => q' == q
    | .stream _ _ _ dq i => dq == q && i.isSome)

/-- Bring DMAQ_STATUS.STATE into agreement (R269): DISABLED once a disabled queue's transfers have ended, else IDLE or
ACTIVE as it holds descriptors; HALTED stays. -/
def Mod.settleQueue (m : Mod) (q : Nat) : Mod :=
  let x := m.dmaq q
  if ¬ x.enable then (if m.queueXfers q = [] then m.setDmaq q { x with state := 0#2 } else m)
  else if x.state = 3#2 then m
  else m.setDmaq q { x with state := if x.head = x.tail then 1#2 else 2#2 }

/-- The completion records of a queue that are due are written, in ring order (R278, R280). -/
def Mod.flushQueue (fuel : Nat) (m : Mod) (q : Nat) : Mod :=
  match fuel with
  | 0 => m
  | fuel + 1 =>
    let x := m.dmaq q
    match x.order with
    | [] => m
    | p :: rest => match p.record with
      | none => m
      | some bs =>
        if p.comp = false then flushQueue fuel (m.setDmaq q { x with order := rest }) q
        else if p.held.isSome then m
        else
          let a := x.cqBase.toNat + x.cqHead.toNat % 2 ^ x.cqSize.toNat * 16
          let m1 := m.setDmaq q { x with order := rest, cqHead := x.cqHead + 1 }
          let m2 := if x.cqHost then m1.hostWrite a bs false else (m1.dmaWrite (a % 2 ^ 52) bs false 3 (reqDma 0)).2
          flushQueue fuel (m2.interrupt q) q

/-- The descriptor at a ring index, as a ring in device memory holds it. -/
def Mod.ringDesc (m : Mod) (q i : Nat) : BitVec 512 × Mod :=
  let x := m.dmaq q
  let r := m.dmaRead ((x.ringBase.toNat + i % 2 ^ x.ringSize.toNat * 64) % 2 ^ 52) 64 3 (reqDma 0)
  (BitVec.ofNat 512 (leNat (pieceBytes r.1)), r.2)

/-- Records that wait to be written or to be read by software, and those that descriptors up to `head` will add. -/
def Mod.cqNeed (m : Mod) (q head hostComps : Nat) : Nat :=
  let x := m.dmaq q
  let n := (head + 65536 - x.tail.toNat) % 65536
  let posted := if x.ringHost then hostComps
    else ((List.range n).filter (fun i => (dmaF (m.ringDesc q (x.tail.toNat + i)).1).comp)).length
  (x.cqHead - x.cqRead).toNat + (x.order.filter (fun p => p.comp)).length + posted

/-- A write of DMAQ_HEAD (R268). -/
def Mod.dmaqHead (m : Mod) (q v hostComps : Nat) : Mod :=
  let x := m.dmaq q
  let head := v % 65536
  let n := (head + 65536 - x.tail.toNat) % 65536
  let back := decide (n < (x.head - x.tail).toNat)
  if 2 ^ x.ringSize.toNat < n ∨ back = true ∨ 2 ^ x.cqSize.toNat < m.cqNeed q head hostComps then
    { m with dma := { m.dma with headOverruns := satAdd m.dma.headOverruns 1 } }
  else (m.setDmaq q { x with head := BitVec.ofNat 16 head }).settleQueue q

/-- A write of DMAQ_CTRL (R267, R269). -/
def Mod.dmaqCtrl (m : Mod) (q v : Nat) : Mod :=
  let x := m.dmaq q
  let x1 := { x with
    mode := if x.state = 0#2 then bitOf v 1 else x.mode
    ringHost := bitOf v 2, cqHost := bitOf v 3, enable := bitOf v 0 }
  let x2 := if bitOf v 0 ∧ x.state = 0#2 then
      { x1 with tail := x.head, cqHead := x.head, cqRead := x.head, state := 1#2, done := 0#48, order := [] }
    else if bitOf v 0 ∧ x.state = 3#2 then { x1 with tail := x.errIndex + 1, state := 1#2 }
    else x1
  (m.setDmaq q x2).settleQueue q

/-- A queue descriptor may be taken: enabled, not halted, not empty, engines not quiescing (R265, R284). -/
def Mod.queueReady (m : Mod) (q : Nat) (free : Bool) : Bool :=
  let x := m.dmaq q
  x.enable && x.state != 3#2 && x.head != x.tail && x.mode == free && !m.dma.quiesce

/-- Take the next descriptor of a queue: its ring index and its words. -/
def Mod.takeDesc (m : Mod) (q : Nat) (hostDesc : BitVec 512) : Nat × BitVec 512 × Mod :=
  let x := m.dmaq q
  let i := x.tail.toNat
  let r := if x.ringHost then (hostDesc, m) else m.ringDesc q i
  let f := dmaF r.1
  let y := { r.2.dmaq q with tail := x.tail + 1, order := x.order ++ [⟨i, f.comp, none, none⟩] }
  (i, r.1, (r.2.setDmaq q y).settleQueue q)

/-! ### Moving bytes -/

/-- Mark what a transfer has met in one write at byte offset `off`. -/
def Xfer.meet (x : Xfer) (off n : Nat) (bad : Bool) (fx : List MemFx) : Xfer :=
  let hit := bad || fxLocked fx
  { x with
    poison := x.poison || bad || fxFaulted fx
    merge := x.merge || fxMerge fx (reqDma x.id)
    locked := x.locked || fxLocked fx
    done := x.done + n
    firstBad := if x.firstBad.isSome ∨ hit = false then x.firstBad else some off }

/-- The lower of two offsets, where there are any. -/
def firstOf (a b : Option Nat) : Option Nat :=
  match a, b with
  | some x, some y => some (min x y)
  | some x, none => some x
  | none, y => y

/-- Make one run of contiguous writes, whose first byte lies at offset `off` of the transfer. -/
def Mod.writeRun (m : Mod) (x : Xfer) (off : Nat) (ws : List XferWrite) : Xfer × Mod :=
  match ws with
  | [] => (x, m)
  | w :: _ =>
    let f := dmaF x.desc
    let n := (ws.map (fun w => w.bytes.length)).foldl (· + ·) 0
    let r : List MemFx × Mod :=
      if seqtBase ≤ w.dst then
        ([], ws.foldl (fun m w => (m.dmaWrite w.dst w.bytes w.bad f.cls (reqDma x.id)).2) m)
      else m.deviceWrite w.dst (ws.map (fun w => (w.bytes, w.bad))) f.cls (reqDma x.id)
    let badAt := (ws.foldl (fun (p : Nat × Option Nat) w =>
      (p.1 + w.bytes.length, if p.2.isSome ∨ w.bad = false then p.2 else some p.1)) (off, none)).2
    let first := firstOf badAt (firstOf ((fxLockedAt r.1).map (fun a => off + (a - w.dst)))
      ((fxMergeAt r.1 (reqDma x.id)).map (fun a => off + (a - w.dst))))
    let x1 := x.meet off n (ws.any (fun w => w.bad)) r.1
    ({ x1 with firstBad := if x.firstBad.isSome then x.firstBad else first }, r.2)

/-- Make writes in order, contiguous ones together. -/
def Mod.makeWrites (fuel : Nat) (m : Mod) (x : Xfer) (off : Nat) (ws : List XferWrite) : Xfer × Mod :=
  match fuel with
  | 0 => (x, m)
  | fuel + 1 =>
    match ws with
    | [] => (x, m)
    | w :: _ =>
      let k := (ws.foldl (fun (p : Nat × Nat × Bool) v =>
        if p.2.2 ∧ v.dst = p.2.1 then (p.1 + 1, v.dst + v.bytes.length, true) else (p.1, p.2.1, false)) (0, w.dst, true)).1
      let run := ws.take k
      let r := m.writeRun x off run
      makeWrites fuel r.2 r.1 (off + (run.map (fun w => w.bytes.length)).foldl (· + ·) 0) (ws.drop k)

/-- The writes that copy read pieces from `src` to `dst`. -/
def planPieces (src : Option Nat) (dst : Nat) (ps : List (Bytes × Bool)) : List XferWrite :=
  (ps.foldl (fun (p : Nat × List XferWrite) q =>
    (p.1 + q.1.length, p.2 ++ [⟨src.map (fun a => a + p.1), dst + p.1, q.1, q.2⟩])) (0, [])).2

/-- A piece of `len` bytes at a source address. -/
def Mod.srcPiece (m : Mod) (a len cls : Nat) (req : BitVec 32) : (Bytes × Bool) × Mod :=
  let r := m.dmaRead a len cls req
  ((pieceBytes r.1, piecePoison r.1), r.2)

/-- One element of a TRANSPOSE: offset in the source, offset among the source rows' bytes, offset in the
destination. -/
structure Element where
  src : Nat
  packed : Nat
  dst : Nat
deriving DecidableEq, Repr

/-- The elements of a TRANSPOSE, destination row by destination row (R276). -/
def DmaF.elements (f : DmaF) : List Element :=
  ((List.range f.cols).map (fun c => (List.range f.len).map (fun r =>
    (⟨r * f.sstride + c * f.es, (r * f.cols + c) * f.es,
      if f.dsp = 2 then (c * f.len + r) * f.es else f.dst + c * f.dstride + r * f.es⟩ : Element)))).flatten

/-- Read the source of a TRANSPOSE from device memory. -/
def Mod.planTranspose (m : Mod) (f : DmaF) (req : BitVec 32) : List XferWrite × Mod :=
  f.elements.foldl (fun (p : List XferWrite × Mod) e =>
    let r := p.2.srcPiece (f.src + e.src) f.es f.cls req
    (p.1 ++ [⟨some (f.src + e.src), e.dst, r.1.1, r.1.2⟩], r.2)) ([], m)

/-- The entries of a SCATTER: the writes of those that may be made, the writes of each entry marked by its number,
and whether an entry ended the transfer (R277). -/
def Mod.planScatter (m : Mod) (f : DmaF) (req : BitVec 32) : List XferWrite × Bool × Nat × Mod :=
  (List.range f.len).foldl (fun (p : List XferWrite × Bool × Nat × Mod) e =>
    if p.2.1 then p
    else
      let l := p.2.2.2.dmaRead (f.dst + 16 * e) 16 f.cls req
      let v := leNat (pieceBytes l.1)
      let n := f.cols * f.blkBytes
      let elem := field v 0 52
      let scale := field v 64 52
      let bad := field v 52 12 != 0 || field v 116 12 != 0 || !m.dmaRangeOk elem n
        || (f.scale != 0 && !m.dmaRangeOk scale f.cols)
      if bad then (p.1, true, p.2.2.1, l.2)
      else
        let r := l.2.dmaRead (f.src + e * n) n f.cls req
        let s := if f.scale = 0 then ([], r.2) else r.2.dmaRead (f.scale + e * f.cols) f.cols f.cls req
        (p.1 ++ planPieces (some (f.src + e * n)) elem r.1
          ++ planPieces (some (f.scale + e * f.cols)) scale s.1, false, p.2.2.1 + 1, s.2)) ([], false, 0, m)

/-- A new transfer. -/
def Xfer.new (id : Nat) (desc : BitVec 512) (owner : XferOwner) : Xfer :=
  ⟨id, desc, owner, [], 0, [], [], 0, 0, [], false, false, false, false, false, 0#8, 0, none⟩

/-- Total bytes that a transfer reads from its source. -/
def DmaF.total (f : DmaF) : Nat := if f.op = 1 then f.len else f.len * f.cols * f.es

/-- Move pieces that are ready to their destination, outside device memory (DSP 1 and 2). -/
def Mod.moveOut (m : Mod) (x : Xfer) (off : Nat) (ps : List (Bytes × Bool)) : Xfer × Mod :=
  let f := dmaF x.desc
  let n := (pieceBytes ps).length
  if f.dsp = 2 then ({ x with lane := x.lane ++ toMarked ps }, m)
  else
    let x1 := (ps.foldl (fun (p : Nat × Xfer) q => (p.1 + q.1.length, p.2.meet p.1 q.1.length q.2 [])) (off, x)).2
    if n = 0 then (x1, m)
    else (x1, m.hostWriteAs (writeTag x.id) (f.dst + off) (pieceBytes ps) (piecePoison ps || m.safe.active))

/-- A FALLOW: the command of R257 at every slice its range touches, and the first status of R272. -/
def Mod.dmaFallow (m : Mod) (f : DmaF) (req : BitVec 32) : BitVec 8 × Mod :=
  if f.dst % 1024 ≠ 0 ∨ f.len % 1024 ≠ 0 then (stRickAlign, m)
  else if ¬ stackRangeOk f.dst f.len then (stRickRange, m)
  else
    let n := f.len / 1024
    let strict := m.safe.fallowStrict
    let r := m.withRick req (fun x =>
      let touched := (List.range 12).filter (fun s => (regionsOf x s f.dst n) != [])
      let faulted := touched.any (fun s => (sliceOf x s).fault)
      let y := touched.foldl (fun x s => if (sliceOf x s).fault then x else fallowRange (settleMiss x f.dst f.len) s f.dst n strict) x
      ((if faulted then stRickFaulted else 0#8), y))
    (r.1, r.2.2)

/-! ### Module read requests (R379) -/

/-- The source segments of a host-side transfer: host address and length, in source order. -/
def DmaF.hostSegments (f : DmaF) : List (Nat × Nat) :=
  if f.op = 1 then [(f.src, f.len)] else (List.range f.len).map (fun r => (f.src + r * f.sstride, f.cols * f.es))

/-- Every byte of the source has come. -/
def Xfer.whole (x : Xfer) : Bool :=
  let f := dmaF x.desc
  f.empty || f.ssp != 1 || decide (f.total ≤ x.hostGot)

/-- How many words a row's injector buffer, or a broadcast tree's, has room for, of `n`: a row's holds 4 KiB. -/
def laneRoom (row held n : Nat) : Nat := if row < 96 then min n (512 - held) else n

/-- Transfers into an injector go on, in the order in which they started, while its buffer has room (R278, R279). -/
def Mod.pumpInjector (m : Mod) (row : Nat) : Mod :=
  ((m.dma.xfers.filter (fun x => (dmaF x.desc).dsp == 2 && (dmaF x.desc).dst == row)).foldl
    (fun (p : Bool × Mod) x =>
      if p.1 then p
      else
        let q := Map.get [] p.2.chip.injector row
        let k := laneRoom row q.length x.lane.length
        let ws := x.lane.take k
        let x1 := ws.foldl (fun (x : Xfer) w => x.meet x.done w.1.length w.2 []) x
        let x2 := { x1 with lane := x.lane.drop k }
        let words := ws.map (fun w => (⟨BitVec.ofNat 64 (leNat w.1), w.2⟩ : TWord))
        let m1 : Mod := { p.2 with
          chip := { p.2.chip with injector := Map.set [] p.2.chip.injector row (q ++ words) }
          dma := { p.2.dma with xfers := p.2.dma.xfers.map (fun y => if y.id = x.id then x2 else y) } }
        (x2.lane != [] || !x.whole, m1)) (false, m)).2

/-- Split a segment at 4 KiB boundaries and at MAX_READ. -/
def splitReads (fuel maxRead : Nat) (a n : Nat) : List (Nat × Nat) :=
  match fuel with
  | 0 => []
  | fuel + 1 =>
    if n = 0 then []
    else
      let k := min n (min maxRead (4096 - a % 4096))
      (a, k) :: splitReads fuel maxRead (a + k) (n - k)

/-- All read requests of a transfer: host address, length, and offset in its source. -/
def Mod.readPlan (m : Mod) (f : DmaF) : List (Nat × Nat × Nat) :=
  let ks := (f.hostSegments.map (fun s => splitReads (s.2 / 64 + 2) m.jnl.maxRead s.1 s.2)).flatten
  (ks.foldl (fun (p : Nat × List (Nat × Nat × Nat)) k => (p.1 + k.2, p.2 ++ [(k.1, k.2, p.1)])) (0, [])).2

/-- A tag that no outstanding read request uses. -/
def Mod.freeReadTag (m : Mod) : Option Nat :=
  (List.range 256).find? (fun t => m.jnl.reads.all (fun r => r.tag != t))

/-- Send a module read request, if a tag is free. -/
def Mod.askHost (m : Mod) (a n : Nat) (xfer : Option (Nat × Nat)) (record : Option (Nat × Nat)) : Option Mod :=
  match m.freeReadTag with
  | none => none
  | some t =>
    let r : HostRead := ⟨t, a, n, xfer, record⟩
    let p : Packet := ⟨packetHeader 2 true false t n 0 a, []⟩
    some (({ m with jnl := { m.jnl with reads := m.jnl.reads ++ [r] } } : Mod).sendPacket p)

/-- Send the read requests of the running transfers while fewer than 256 are outstanding. -/
def Mod.pumpReads (m : Mod) : Mod :=
  m.dma.xfers.foldl (fun m x =>
    let f := dmaF x.desc
    if f.ssp ≠ 1 ∨ x.hostErr ∨ f.empty then m
    else ((m.readPlan f).drop x.hostAsked).foldl (fun m k =>
      match m.askHost k.1 k.2.1 (some (x.id, k.2.2)) none with
      | none => m
      | some m1 => { m1 with dma := { m1.dma with
          xfers := m1.dma.xfers.map (fun y => if y.id = x.id then { y with hostAsked := y.hostAsked + 1 } else y) } }) m) m

/-! ### Starting and ending (R265, R273 to R275, R280 to R284) -/

/-- Replace a transfer. -/
def Mod.setXfer (m : Mod) (x : Xfer) : Mod :=
  { m with dma := { m.dma with xfers := m.dma.xfers.map (fun y => if y.id = x.id then x else y) } }

/-- The status a transfer reports (R281, R462). -/
def Mod.xferStatus (m : Mod) (x : Xfer) : BitVec 8 :=
  let f := dmaF x.desc
  let st : BitVec 8 :=
    if x.early ≠ 0#8 then x.early
    else if x.hostErr then 0x78#8
    else if x.range then 0x71#8
    else if x.locked then 0x77#8
    else if x.merge then 0x41#8
    else if x.poison then 0x40#8 else 0#8
  if m.safe.active ∧ f.dsp = 1 ∧ (st = 0#8 ∨ st = 0x40#8 ∨ st = 0x41#8) then 0xD0#8 else st

/-- A status that halts a queue (R281). -/
def haltsQueue (st : BitVec 8) : Bool := (0x70#8 ≤ st && st ≤ 0x7F#8) || st == 0x61#8 || st == 0x62#8 || st == 0x64#8 || st == 0x65#8

/-- The completion record (R280). -/
def dmaRecord (index : Nat) (st : BitVec 8) (f : DmaF) (done : Nat) (firstBad : Option Nat) : Bytes :=
  leBytes 2 index ++ leBytes 2 st.toNat ++ leBytes 4 f.user ++ leBytes 4 done ++ leBytes 4 (firstBad.getD 0xFFFFFFFF)

/-- Note a queue descriptor's completion: counters, halt, and its record in its place. -/
def Mod.queueDone (m : Mod) (q index : Nat) (f : DmaF) (st : BitVec 8) (done : Nat) (firstBad : Option Nat) : Mod :=
  let x := m.dmaq q
  let halt := haltsQueue st && x.enable && x.state != 3#2
  let held := if f.dsp = 1 ∧ m.lea.st = .running then
      some (m.lea.barSeq.toNat + (if m.lea.wait.isSome then 2 else 1)) else none
  let place (p : DmaPlace) : DmaPlace :=
    if p.index = index ∧ p.record.isNone then { p with record := some (dmaRecord index st f done firstBad), held := held } else p
  let m1 := m.setDmaq q { x with
    last := st, done := x.done + 1, order := x.order.map place
    state := if halt then 3#2 else x.state
    errIndex := if halt then BitVec.ofNat 16 index else x.errIndex }
  let m2 := if halt then
      ({ m1 with dma := { m1.dma with queueHalts := satAdd m1.dma.queueHalts 1 } }).raise .dmaQueueHalted noUnit
        (payload [i1 q, i2 index, i1 st.toNat])
    else m1
  (m2.flushQueue 65536 q).settleQueue q

/-- The bytes, rows or entries that DONE counts. -/
def Xfer.doneUnits (x : Xfer) : Nat :=
  let f := dmaF x.desc
  if f.op = 2 then (if f.cols * f.es = 0 then 0 else x.done / (f.cols * f.es))
  else if f.op = 3 then
    let n := f.cols * f.blkBytes + if f.scale = 0 then 0 else f.cols
    if n = 0 then 0 else x.done / n
  else x.done

/-- End a transfer with a status: its channel and its tag are free, its record is written (R280). -/
def Mod.endXfer (m : Mod) (x : Xfer) (st : BitVec 8) : Mod :=
  let f := dmaF x.desc
  let m1 := { m with dma := { m.dma with
    xfers := m.dma.xfers.filter (fun y => y.id != x.id)
    transfers := satAdd m.dma.transfers 1
    bytes := satAdd m.dma.bytes (if f.op = 4 then 0 else x.done) } }
  let m2 := { m1 with jnl := { m1.jnl with reads := m1.jnl.reads.filter (fun r => match r.xfer with
    | some k => k.1 != x.id | none => true) } }
  match x.owner with
  | .queue q i => (m2.queueDone q i f st x.doneUnits x.firstBad).pumpReads
  | .stream w _ _ dq i =>
    let m3 := m2.freeTag w.1 w.2
    (match i with
     | some k => m3.queueDone dq k f st x.doneUnits x.firstBad
     | none => m3).pumpReads

/-- A stream issue failed a check: nothing moves, the tag is released, the row's cells enter FAULT (R274). -/
def Mod.issueFault (m : Mod) (row tag dq : Nat) (st : BitVec 8) : Mod :=
  let cells := (List.range 49).map (fun c => cellAt row c)
  let m1 := (cells.filter (fun c => isUsable m.plan c)).foldl (fun m c => m.dataFault 2 c) (m.freeTag row tag)
  m1.raise .dmaDescFault noUnit (payload [i1 row, i1 dq, i1 st.toNat])

/-- The number of the next transfer: its remainder by 32 is a channel that no running transfer holds (R265). -/
def Dma.freshId (d : Dma) : Nat :=
  d.nextId + ((List.range 32).find? (fun k => d.xfers.all (fun x => x.id % 32 != (d.nextId + k) % 32))).getD 0

/-- Start a transfer whose descriptor has passed its checks, making the first `early` of its writes at once. -/
def Mod.beginXfer (m : Mod) (desc : BitVec 512) (owner : XferOwner) (early : Nat) : Mod :=
  let f := dmaF desc
  let id := m.dma.freshId
  let req := reqDma id
  let x0 := Xfer.new id desc owner
  let m0 := { m with dma := { m.dma with nextId := id + 1 } }
  let r : Xfer × Mod :=
    if f.empty then (x0, m0)
    else if f.op = 4 then
      let r := m0.dmaFallow f req
      ({ x0 with early := r.1, done := if r.1 = 0#8 then f.len else 0 }, r.2)
    else if f.ssp = 1 then (x0, m0)
    else if f.op = 1 then
      let r := m0.dmaRead f.src f.len f.cls req
      if f.dsp = 0 then ({ x0 with plan := planPieces (some f.src) f.dst r.1 }, r.2) else r.2.moveOut x0 0 r.1
    else if f.op = 2 then
      let r := m0.planTranspose f req
      if f.dsp = 0 then ({ x0 with plan := r.1 }, r.2) else r.2.moveOut x0 0 (r.1.map (fun w => (w.bytes, w.bad)))
    else
      let r := m0.planScatter f req
      ({ x0 with plan := r.1, range := r.2.1 }, r.2.2.2)
  let w := r.2.makeWrites (early + 1) r.1 0 (r.1.plan.take early)
  let x1 := { w.1 with made := min early r.1.plan.length }
  let m1 := { w.2 with dma := { w.2.dma with xfers := w.2.dma.xfers ++ [x1] } }
  (if f.dsp = 2 then m1.pumpInjector f.dst else m1).pumpReads

/-- A COPY, TRANSPOSE, SCATTER or FALLOW row may start this descriptor: it carries that OP, or, for COPY, none of the
four. -/
def opMatches (op : Nat) (f : DmaF) : Bool := f.op == op || (op == 1 && (f.op == 0 || decide (4 < f.op)))

/-- A queue whose descriptor may take the last free channel: the first ready one from the turn on (R265). -/
def Mod.queueTurn (m : Mod) (q : Nat) : Bool :=
  decide (m.dma.xfers.length < 31)
  || (((List.range 64).map (fun i => (m.dma.turn + i) % 64)).find? (fun i => m.queueReady i true) == some q)

/-- Start the next descriptor that a source names, with OP `op` (R265, R271). -/
def Mod.dmaStart (m : Mod) (op : Nat) (s : DmaSource) (early : Nat) : Mod :=
  if 32 ≤ m.dma.xfers.length ∨ m.dma.quiesce = true then m
  else match s with
  | .queue q hostDesc =>
    let room := decide (m.dma.xfers.length + m.dma.waiting.length < 32)
    let t := m.takeDesc q.val hostDesc
    let f := dmaF t.2.1
    let held := f.fence && !(m.queueXfers q.val).isEmpty
    if ¬ (m.queueReady q.val true = true ∧ room = true ∧ m.queueTurn q.val = true ∧ held = false
        ∧ opMatches op f = true) then m
    else
      let st := m.dmaCheck f (some t.1)
      let m1 := { t.2.2 with dma := { t.2.2.dma with turn := (q.val + 1) % 64 } }
      if st ≠ 0#8 then
        m1.endXfer { Xfer.new m1.dma.nextId t.2.1 (.queue q.val t.1) with early := st } st
      else m1.beginXfer t.2.1 (.queue q.val t.1) early
  | .stream row =>
    match m.dma.waiting.find? (fun w => w.row == row.val) with
    | none => m
    | some w =>
      let f := dmaF w.desc
      let held := f.fence && w.index.isSome && !(m.queueXfers w.dq).isEmpty
      if opMatches op f = false ∨ held = true then m
      else
        let st := m.dmaCheck f w.index
        let m1 := { m with dma := { m.dma with waiting := m.dma.waiting.erase w } }
        let own : XferOwner := .stream (w.row, w.tag) w.xb w.due w.dq w.index
        if st ≠ 0#8 then
          let m2 := m1.issueFault w.row w.tag w.dq st
          match w.index with
          | some k => m2.queueDone w.dq k f st 0 none
          | none => m2
        else m1.beginXfer w.desc own early

/-- Every byte has been moved, or the transfer cannot go on. -/
def Xfer.ready (x : Xfer) : Bool :=
  let f := dmaF x.desc
  x.hostErr || f.op == 4 || (x.whole && x.lane == [])

/-- The bytes a write stores in the end: undefined ones where its source was written while the transfer ran (R278). -/
def Mod.settledWrite (m : Mod) (cls : Nat) (w : XferWrite) : XferWrite × Nat :=
  match w.src with
  | none => (w, 0)
  | some a =>
    let now := pieceBytes (m.dmaRead a w.bytes.length cls (reqDma 0)).1
    if now = w.bytes then (w, 0)
    else ({ w with bytes := (List.range w.bytes.length).map (fun i => Config.freeByte (m.clock.freeCtr + i)) }, w.bytes.length)

/-- Where a transfer writes in device memory, in order: address and length. -/
def Xfer.spans (x : Xfer) : List (Nat × Nat) :=
  let f := dmaF x.desc
  if x.plan ≠ [] then x.plan.map (fun w => (w.dst, w.bytes.length))
  else if f.op = 1 then [(f.dst, f.len)] else f.elements.map (fun e => (e.dst, f.es))

/-- The offset within the transfer of its first byte in the 32 B word at an address. -/
def Xfer.offsetOf (x : Xfer) (a : Nat) : Option Nat :=
  (x.spans.foldl (fun (p : Nat × Option Nat) s =>
    (p.1 + s.2, if p.2.isNone ∧ s.1 < a + 32 ∧ a < s.1 + s.2 then some (p.1 + (a - s.1)) else p.2)) (0, none)).2

/-- A transfer completes (R280): the rest of its writes are made, what changed under it is undefined, and its narrow writes
have left the merge buffer. -/
def Mod.completeXfer (m : Mod) (x : Xfer) : Mod :=
  let f := dmaF x.desc
  let r := x.plan.zipIdx.foldl (fun (p : List XferWrite × List XferWrite × Mod) e =>
    let s := p.2.2.settledWrite f.cls e.1
    let m1 := { p.2.2 with clock := { p.2.2.clock with freeCtr := p.2.2.clock.freeCtr + s.2 } }
    if e.2 < x.made then (p.1, if s.2 = 0 then p.2.1 else p.2.1 ++ [s.1], m1) else (p.1 ++ [s.1], p.2.1, m1))
    ([], [], m)
  let off := ((x.plan.take x.made).map (fun w => w.bytes.length)).foldl (· + ·) 0
  let a := r.2.2.makeWrites (r.1.length + 1) x off r.1
  let again := a.2.makeWrites (r.2.1.length + 1) a.1 0 r.2.1
  let merged := again.2.settleMerges (reqDma x.id)
  let x1 := { again.1 with
    made := x.plan.length, done := a.1.done, merge := again.1.merge || fxMerge merged.1 (reqDma x.id)
    firstBad := firstOf again.1.firstBad ((fxMergeAt merged.1 (reqDma x.id)).bind x.offsetOf) }
  let m1 := merged.2.endXfer x1 (merged.2.xferStatus x1)
  if f.dsp = 2 then m1.pumpInjector f.dst else m1

/-- TRANSFER_COMPLETION of a transfer whose bytes have all come, unless a gleaner holds one of its words (R225). -/
def Mod.transferCompletion (m : Mod) (id : Nat) (held : Mod → Xfer → Bool) : Mod :=
  match m.dma.xfers.find? (fun x => x.id == id) with
  | none => m
  | some x => if x.ready = true ∧ held m x = false then m.completeXfer x else m

/-- The number that names a transfer's owner in DMA_HOST_ERROR: its queue or its row. -/
def Xfer.who (x : Xfer) : Nat := match x.owner with | .queue q _ => q | .stream w _ _ _ _ => w.1

/-- A completion packet answers a read request of a transfer (R368, R379): its bytes go to their destination, or the
transfer ends with HOST_ERROR (R283). -/
def Mod.hostData (m : Mod) (r : HostRead) (id off : Nat) (data : Bytes) (ep : Bool) (cst : Nat) : Mod :=
  let m0 := { m with jnl := { m.jnl with reads := m.jnl.reads.filter (fun y => y.tag != r.tag) } }
  match m0.dma.xfers.find? (fun x => x.id == id) with
  | none => m0
  | some x =>
    let f := dmaF x.desc
    if cst ≠ 0 then
      if x.hostErr then m0
      else (m0.setXfer { x with hostErr := true }).raise .dmaHostError noUnit (payload [i1 x.who, i8 r.hostAddr])
    else
      let bs := padTo r.len data
      let x1 := { x with hostGot := x.hostGot + r.len }
      if f.op = 1 ∧ f.dsp ≠ 2 then
        let w := if f.dsp = 0 then m0.makeWrites 2 x1 off [⟨none, f.dst + off, bs, ep⟩] else m0.moveOut x1 off [(bs, ep)]
        (w.2.setXfer w.1).pumpReads
      else
        let x2 := { x1 with
          host := memWrite x1.host off bs
          hostBad := if ep then x1.hostBad ++ [(off, r.len)] else x1.hostBad }
        if x2.hostGot < f.total then (m0.setXfer x2).pumpReads
        else
          let bad (o : Nat) : Bool := x2.hostBad.any (fun b => decide (b.1 ≤ o ∧ o < b.1 + b.2))
          let ws : List XferWrite :=
            if f.op = 1 then (List.range (f.total / 8)).map (fun i => ⟨none, 0, memRead x2.host (8 * i) 8, bad (8 * i)⟩)
            else f.elements.map (fun e => ⟨none, e.dst, memRead x2.host e.packed f.es, bad e.packed⟩)
          let w := if f.dsp = 0 then m0.makeWrites (ws.length + 1) x2 0 ws
            else m0.moveOut x2 0 (ws.map (fun w => (w.bytes, w.bad)))
          let m1 := w.2.setXfer w.1
          (if f.dsp = 2 then m1.pumpInjector f.dst else m1).pumpReads

/-- The JA-2 answers a write of a transfer with an error: the transfer ends with HOST_ERROR (R283, R379). -/
def Mod.hostWriteError (m : Mod) (tag cst : Nat) : Mod :=
  match m.dma.xfers.find? (fun x => writeTag x.id == tag && (dmaF x.desc).dsp == 1) with
  | none => m
  | some x =>
    if cst = 0 ∨ x.hostErr = true then m
    else (m.setXfer { x with hostErr := true }).raise .dmaHostError noUnit (payload [i1 x.who, i8 (dmaF x.desc).dst])

/-- The Jaeno link is lost: transfers with a host side that still run end with HOST_ERROR (R283, R372). -/
def Mod.hostLost (m : Mod) : Mod :=
  m.dma.xfers.foldl (fun m x =>
    let f := dmaF x.desc
    if (f.ssp = 1 ∨ f.dsp = 1) ∧ x.hostErr = false ∧ f.op ≠ 4 then
      (m.setXfer { x with hostErr := true }).raise .dmaHostError noUnit
        (payload [i1 x.who, i8 (if f.ssp = 1 then f.src else f.dst)])
    else m) { m with jnl := { m.jnl with reads := [] } }

/-- A running transfer of this row and tag whose due step has come, and its miss not counted. -/
def Xfer.late (x : Xfer) (w : Nat × Nat) (now : Nat) : Bool :=
  match x.owner with
  | .stream w' _ (some d) _ _ => w' == w && decide (d ≤ now)
  | _ => false

/-- Its miss has been counted. -/
def Xfer.counted (x : Xfer) : Xfer :=
  match x.owner with
  | .stream w xb _ dq i => { x with owner := .stream w xb none dq i }
  | .queue _ _ => x

/-- A waiting issue of this row and tag whose due step has come, and its miss not counted. -/
def WaitIssue.late (x : WaitIssue) (w : Nat × Nat) (now : Nat) : Bool :=
  (x.row, x.tag) == w && x.due.any (fun d => decide (d ≤ now))

/-- A scheduled transfer that has not completed when its due step begins (R275). -/
def Mod.deadlineMiss (m : Mod) (row tag : Nat) : Mod :=
  let d := m.dma
  let now := m.stream.stepCount.toNat
  if (d.xfers.any (fun x => x.late (row, tag) now) || d.waiting.any (fun x => x.late (row, tag) now)) = false then m
  else
    let v := BitVec.ofNat 64 (now % 2 ^ 48 + row * 2 ^ 48 + tag * 2 ^ 55)
    let m1 := { m with dma := { d with
      xfers := d.xfers.map (fun x => if x.late (row, tag) now then x.counted else x)
      waiting := d.waiting.map (fun x => if x.late (row, tag) now then { x with due := none } else x)
      deadlineMisses := satAdd d.deadlineMisses 1
      firstMiss := if d.deadlineMisses = 0#64 then v else d.firstMiss
      deadlineRaised := true } }
    if d.deadlineRaised then m1 else m1.raise .dmaDeadline noUnit (payload [i8 m1.dma.firstMiss.toNat])

/-- Every transfer still running is aborted (R284). -/
def Mod.abortXfers (m : Mod) : Mod :=
  let n := m.dma.xfers.length
  let m1 := m.dma.xfers.foldl (fun m x => m.endXfer x 0x70#8) m
  let m2 := { m1 with dma := { m1.dma with
    resetAborts := satAdd m1.dma.resetAborts n
    notices := List.replicate 8 (BitVec.ofNat 32 n) } }
  if n = 0 then m2 else m2.raise .dmaResetAbort noUnit (payload [i8 n])

/-! ### Completions held for a barrier (R148) -/

/-- Deliver the held completions of DMA queues whose barrier is `upTo` or earlier, with a status in place of theirs if
one is given. -/
def Mod.deliverHeldDma (m : Mod) (upTo : Nat) (status : Option (BitVec 8)) : Mod :=
  (List.range 64).foldl (fun m q =>
    let x := m.dmaq q
    if x.order.all (fun p => p.held.isNone) then m
    else
      let fix (p : DmaPlace) : DmaPlace :=
        match p.held with
        | none => p
        | some k => if k ≤ upTo then { p with
            held := none
            record := match status with
              | none => p.record
              | some st => p.record.map (fun bs => listSet bs 2 st) } else p
      (m.setDmaq q { x with order := x.order.map fix }).flushQueue 65536 q) m

end Sys2Proof.Machine
end

