-- ==== Sys2Proof/Machine/Attn.lean ====
section
/-!
DEFINITION. Attention: the walk of a work entry, the commit of a decode step, and the host's submissions
(R287 to R314, R377, R378).
-/
namespace Sys2Proof.Machine

/-! ### Commands and pages (R287 to R289, R296 to R298) -/

/-- An attention command's fields (R296). -/
structure AttnCmd where
  layer : Nat
  kvh : Nat
  fmt : Nat
  dim : Nat
  qh : Nat
  win : Bool
  window : Nat
  mode : Nat
  nmax : Nat
  q : Nat
  count : Nat
  addr : Nat
deriving DecidableEq, Repr

/-- Read a command. -/
def attnF (w : BitVec 1024) : AttnCmd :=
  let v := w.toNat
  ⟨field v 16 8, field v 24 8, field v 32 4, field v 48 10, field v 58 5, bitOf v 63, field v 64 32, field v 128 2,
    field v 130 12, field v 142 2, field v 144 16, field v 160 52⟩

/-- Bytes of a slot's elements, times 2: eb is half a byte for MXFP4 (R287). -/
def slotHalf (fmt dim : Nat) : Nat := if fmt = 8 then dim else 2 * dim

/-- tokens_per_page (R288): both terms of its divisor doubled. -/
def tokensPerPage (fmt dim : Nat) : Nat :=
  if dim = 0 then 0 else 32 * (2 * 16320 / (32 * (slotHalf fmt dim + 2 * (dim / 32))))

/-- RING_PAGES of a windowed command: ceil(W ÷ T) + 1; 0 without a window (R300). -/
def AttnCmd.ring (c : AttnCmd) : Nat :=
  let t := tokensPerPage c.fmt c.dim
  if c.win = true ∧ t ≠ 0 then (c.window + t - 1) / t + 1 else 0

/-- A work-list entry's fields (R298). -/
structure WorkEntry where
  entry : Nat
  split : Nat
  splits : Nat
  role : Nat
  pcount : Nat
deriving DecidableEq, Repr

/-- Read a work-list entry. -/
def workF (v : Nat) : WorkEntry := ⟨field v 0 12, field v 12 4, field v 16 4, field v 20 13, field v 33 12⟩

/-- WALK_FAULT. -/
def stWalkFault : BitVec 8 := 0x80#8
/-- PAGE_MISSING. -/
def stPageMissing : BitVec 8 := 0x81#8
/-- PAGE_HEADER_BAD. -/
def stPageHeaderBad : BitVec 8 := 0x82#8
/-- ZERO_INVALID (R161). -/
def stZeroInvalid : BitVec 8 := 0x30#8

/-- A page header's verdict (R289, R299): none for a header that fits the command, entry and index. -/
def headerBad (c : AttnCmd) (entry idx : Nat) (poison : Bool) (h : Bytes) : Option (BitVec 8) :=
  let v := leNat h
  let t := tokensPerPage c.fmt c.dim
  let good := decide (poison = false ∧ field v 0 32 = 0x4B565031 ∧ field v 32 8 = c.layer ∧ field v 40 8 = c.kvh
    ∧ field v 48 4 = c.fmt ∧ field v 52 4 = 0 ∧ field v 56 8 = 32 ∧ field v 64 10 = c.dim ∧ field v 74 10 = t
    ∧ field v 84 12 = entry ∧ field v 96 16 = idx ∧ field v 112 16 = 0 ∧ field v 128 32 = crc32 (h.take 16)
    ∧ field v 160 352 = 0)
  if good then none
  else if field v 56 8 = 0 ∨ field v 74 10 = 0 then some stZeroInvalid else some stPageHeaderBad

/-- A control core's read of data that a walk follows; an address outside the stack region reads zeros (R10). -/
def Mod.walkRead (m : Mod) (core a len cls : Nat) : (Bytes × Bool) × Mod :=
  if stackRangeOk a len then
    let r := m.coreReadStack core a len cls
    ((pieceBytes r.1, piecePoison r.1), r.2)
  else ((List.replicate len 0#8, false), m)

/-! ### The walk (R299, R300) -/

/-- One selected page: its logical page, and for a page that the ring wraps around, the first slot of the older lap. -/
structure PageSel where
  lp : Nat
  slotFirst : Nat
  slotCount : Nat
  wrap : Nat
deriving DecidableEq, Repr

/-- The pages that a walk selects, in ascending order of the lowest position each serves (R299). -/
def selectPages (c : AttnCmd) (len nc : Nat) : List PageSel :=
  let t := tokensPerPage c.fmt c.dim
  if nc = 0 ∨ t = 0 ∨ len + nc = 0 then []
  else
    let lo := if c.win then len + 1 - c.window else 0
    let hi := len + nc - 1
    let first := lo / t
    let last := hi / t
    let one (lp : Nat) : PageSel :=
      let a := if lp = first then lo % t else 0
      let b := if lp = last then hi % t else t - 1
      ⟨lp, a, b + 1 - a, t⟩
    let ps := (List.range (last + 1 - first)).map (fun i => one (first + i))
    if c.win = true ∧ first < last ∧ first % c.ring = last % c.ring then
      ⟨last, 0, t, hi % t + 1⟩ :: (ps.drop 1).dropLast
    else ps

/-- The pages of split j of S (R298). -/
def splitPages (w : WorkEntry) (ps : List PageSel) : List PageSel :=
  let p := ps.length
  let s := w.splits + 1
  let a := w.split * p / s
  (ps.drop a).take ((w.split + 1) * p / s - a)

/-- What a walk knows when it forms descriptors. -/
structure WalkCtx where
  cmd : AttnCmd
  cmdId : Nat
  work : WorkEntry
  /-- bytes 0 to 31 of the entry -/
  snap : Nat
  nc : Nat
deriving DecidableEq, Repr

/-- A page descriptor (R300); SEQ is put in when it is queued. -/
def pageDesc (x : WalkCtx) (addr : Nat) (empty last bad : Bool) (p : PageSel) : Nat :=
  let t := tokensPerPage x.cmd.fmt x.cmd.dim
  0x10 + b2n last * 2 ^ 8 + field x.snap 0 16 * 2 ^ 32 + addr % 2 ^ 52 * 2 ^ 64 + b2n empty * 2 ^ 120
    + b2n bad * 2 ^ 121 + field x.snap 161 1 * 2 ^ 122 + p.slotFirst % 1024 * 2 ^ 128 + p.slotCount % 1024 * 2 ^ 138
    + (p.lp * t) % 2 ^ 32 * 2 ^ 152 + p.wrap % 1024 * 2 ^ 184 + x.work.entry * 2 ^ 200 + x.cmdId % 65536 * 2 ^ 212
    + field x.snap 128 32 * 2 ^ 228 + x.nc % 4096 * 2 ^ 260 + x.work.split * 2 ^ 272 + x.work.splits * 2 ^ 276
    + field x.snap 192 64 * 2 ^ 280 + (if x.cmd.win then x.cmd.window else 0) * 2 ^ 344 + t % 1024 * 2 ^ 384
    + x.cmd.nmax % 4096 * 2 ^ 394 + x.cmd.ring % 65536 * 2 ^ 406

/-- A control core forms the next descriptor for a cell's queue: it carries the next SEQ of that queue (R130) and waits
for the queue's credits (R128). -/
def Mod.queueDesc (m : Mod) (cell q : Nat) (d : Nat) : Mod :=
  let k := cell * 4 + q
  let seq := Map.get 0 m.chip.sendSeq k
  { m with chip := { m.chip with
      outbox := Map.modify [] m.chip.outbox k (fun l => l ++ [BitVec.ofNat 512 (d + seq * 65536)])
      sendSeq := Map.set 0 m.chip.sendSeq k ((seq + 1) % 65536) } }

/-- DESCRIPTOR_ARRIVAL: a 64 B flit arrives at a cell's queue while the queue has room (R128): the given descriptor,
formed by the core's firmware, or the oldest one that a walk has formed. -/
def Mod.descArrive (m : Mod) (cell q : Nat) (desc : Option (BitVec 512)) : Mod :=
  let k := cell * 4 + q
  let c := m.cell cell
  let qs := listGet [] c.queues q
  if isUsable m.plan cell = false ∨ bitOf m.boot.coresHeld.toNat (bandOf cell) = true ∨ 8 ≤ qs.length then m
  else match desc with
    | some d =>
      let m1 := m.setCell cell { c with queues := listSet c.queues q (qs ++ [d]) }
      { m1 with chip := { m1.chip with sendSeq := Map.set 0 m1.chip.sendSeq k ((field d.toNat 16 16 + 1) % 65536) } }
    | none =>
      match Map.get [] m.chip.outbox k with
      | [] => m
      | d :: rest =>
        let m1 := m.setCell cell { c with queues := listSet c.queues q (qs ++ [d]) }
        { m1 with chip := { m1.chip with outbox := Map.set [] m1.chip.outbox k rest } }

/-- A walk in progress: the descriptors formed so far, the first failure (R299), its page. -/
structure WalkAcc where
  descs : List (Nat × PageSel)
  bad : Option (BitVec 8)
  badIdx : Nat
deriving DecidableEq, Repr

/-- One selected page: its table entry and its header. The number of an entry beyond the table is undefined. -/
def Mod.walkPage (m : Mod) (core : Nat) (x : WalkCtx) (table : List Nat) (a : WalkAcc) (p : PageSel) : WalkAcc × Mod :=
  let idx := if x.cmd.win then p.lp % x.cmd.ring else p.lp
  let note (st : BitVec 8) (n : Nat) : WalkAcc :=
    { descs := a.descs ++ [(n * 32768, p)], bad := a.bad.orElse (fun _ => some st)
      badIdx := if a.bad.isNone then idx else a.badIdx }
  if table.length ≤ idx then
    let n := leNat ((List.range 4).map (fun i => Config.freeByte (m.clock.freeCtr + i)))
    (note stPageMissing n, { m with clock := { m.clock with freeCtr := m.clock.freeCtr + 4 } })
  else
    let n := listGet 0 table idx
    if n = 0xFFFFFFFF then (note stPageMissing n, m)
    else
      let r := m.walkRead core (n * 32768 + 0x7FC0) 64 2
      match headerBad x.cmd x.work.entry idx r.1.2 r.1.1 with
      | some st => (note st n, r.2)
      | none => ({ a with descs := a.descs ++ [(n * 32768, p)] }, r.2)

/-- The walk's outcome is recorded: counters, events, the entry's first failing status in this step. -/
def Mod.walkFailed (m : Mod) (x : WalkCtx) (crcBad : Bool) (a : WalkAcc) : Mod :=
  let m1 : Mod := if crcBad then
      ({ m with attn := { m.attn with walkFaults := satAdd m.attn.walkFaults 1 } } : Mod).raise .walkFault noUnit
        (payload [i2 x.work.entry, i2 (field x.snap 0 16), i2 x.cmdId])
    else m
  let m2 : Mod := match a.bad with
    | none => m1
    | some st => ({ m1 with attn := { m1.attn with pageFaults := satAdd m1.attn.pageFaults 1 } } : Mod).raise .pageFault
        noUnit (payload [i2 x.work.entry, i2 a.badIdx, i1 st.toNat])
  let st : BitVec 8 := match a.bad with | some s => s | none => if crcBad then stWalkFault else 0#8
  if st = 0#8 ∨ Map.get 0#8 m2.attn.bad x.work.entry ≠ 0#8 then m2
  else { m2 with attn := { m2.attn with bad := Map.set 0#8 m2.attn.bad x.work.entry st } }

/-- The cell of a role, if it is bound to one (R124). -/
def Mod.roleCell (m : Mod) (role : Nat) : Option Nat :=
  match m.planting.active.roles.find? (fun r => r.number == role) with
  | some r => match r.bound with
    | some b => cellOfLogical m.plan b.1 b.2
    | none => none
  | none => none

/-- Walk one work entry for the cell of its role (R294, R299). -/
def Mod.walkEntry (m : Mod) (cmdId : Nat) (c : AttnCmd) (w : WorkEntry) (cell : Nat) : Mod :=
  let core := bandOf cell
  let snap := leNat (m.seqRead (256 * w.entry) 32)
  let live := bitOf snap 160
  let nc := if c.mode = 2 then w.pcount else field snap 162 5
  let x : WalkCtx := ⟨c, cmdId, w, snap, nc⟩
  let count (m : Mod) (n : Nat) : Mod := { m with attn := { m.attn with
    nWalks := satAdd m.attn.nWalks 1, pageDescs := satAdd m.attn.pageDescs n
    walks := m.attn.walks ++ [⟨w.entry, field snap 0 16, cell, cmdId⟩] } }
  let empty (bad : Bool) : Nat := pageDesc x 0 true true bad ⟨0, 0, 0, tokensPerPage c.fmt c.dim⟩
  if live = false then count (m.queueDesc cell c.q (empty false)) 1
  else
    let pages := field snap 96 16
    let r := m.walkRead core (field snap 16 46 * 64) (4 * pages) 2
    let crcBad := r.1.2 || decide (crc32 r.1.1 ≠ field snap 64 32)
    let table := (chunks (pages + 1) 4 r.1.1).map leNat
    let sel := splitPages w (selectPages c (field snap 128 32) nc)
    let z := sel.foldl (fun (s : WalkAcc × Mod) p => s.2.walkPage core x table s.1 p) (⟨[], none, 0⟩, r.2)
    let bad := crcBad || z.1.bad.isSome
    let m1 := z.2.walkFailed x crcBad z.1
    let n := z.1.descs.length
    if n = 0 then count (m1.queueDesc cell c.q (empty bad)) 1
    else
      let m2 := z.1.descs.zipIdx.foldl (fun (m : Mod) e =>
        let last := decide (e.2 + 1 = n)
        m.queueDesc cell c.q (pageDesc x e.1.1 false last (last && bad) e.1.2)) m1
      count m2 n

/-- WALK: the control core takes work entry `k` of command `cmdId` of the running image. -/
def Mod.walk (m : Mod) (cmdId k : Nat) : Mod :=
  match m.boot.image with
  | none => m
  | some i =>
    match i.attn[cmdId]? with
    | none => m
    | some cw =>
      let c := attnF cw
      if m.running = false ∨ c.qh = 0 ∨ c.count ≤ k ∨ stackRangeOk (c.addr + 8 * k) 8 = false then m
      else
        let v := leNat (pieceBytes (m.readStack (c.addr + 8 * k) 8 2 true (reqCore 0)).1)
        let w := workF v
        match m.roleCell w.role with
        | none => m
        | some cell =>
          if isUsable m.plan cell = false ∨ bitOf m.boot.coresHeld.toNat (bandOf cell) = true then m
          else (m.walkRead (bandOf cell) (c.addr + 8 * k) 8 2).2.walkEntry cmdId c w cell

/-- FENCE_CLEAR: the listed commands have posted their final completions, so their walks are complete (R295). -/
def Mod.walksDone (m : Mod) (done : List Nat) : Mod :=
  ({ m with attn := { m.attn with walks := m.attn.walks.filter (fun w => !(done.contains w.cmdId)) } } : Mod).fenceClear

/-! ### Commit (R306, R307) -/

/-- The first failing status of a sequence in the step, if a walk failed. -/
def Mod.seqBad (m : Mod) (e : Nat) (other : Option (BitVec 8)) : Option (BitVec 8) :=
  let own := Map.get 0#8 m.attn.bad e
  if own ≠ 0#8 then some own else other

/-- The step of a sequence is discarded. -/
def Mod.discardStep (m : Mod) (e : Nat) (st : BitVec 8) : Mod :=
  let m1 := (m.setSeqField e 864 5 0).setSeqField e 872 8 st.toNat
  if m1.attn.firstFault ≠ 0#64 then m1
  else { m1 with attn := { m1.attn with
      firstFault := BitVec.ofNat 64 (e + st.toNat * 2 ^ 16 + m1.lea.barSeq.toNat % 2 ^ 40 * 2 ^ 24) } }

/-- The page geometries in which the image's decode commands hold a sequence. -/
def Mod.geometries (m : Mod) : List AttnCmd :=
  match m.boot.image with
  | none => []
  | some i =>
    ((i.attn.map attnF).filter (fun c => decide (c.mode < 2 ∧ c.qh ≠ 0 ∧ c.count ≠ 0))).map
      (fun c => { c with layer := 0, kvh := 0, qh := 0, nmax := 0, q := 0, count := 0, addr := 0, mode := 0 })
    |>.eraseDups

/-- The four ranges of a position: device address and length of key elements, key scales, value elements and value
scales; none where the page is missing (R306). -/
def Mod.slotRanges (m : Mod) (e : Nat) (c : AttnCmd) (p : Nat) : List (Nat × Nat) × Mod :=
  let t := tokensPerPage c.fmt c.dim
  if t = 0 then ([], m)
  else
    let lp := p / t
    let idx := if c.win then lp % c.ring else lp
    if m.seqField e 96 16 ≤ idx then ([], m)
    else
      let r := m.walkRead 0 (m.seqField e 16 46 * 64 + 4 * idx) 4 3
      let n := leNat r.1.1
      if n = 0xFFFFFFFF then ([], r.2)
      else
        let base := n * 32768
        let slot := p % t
        let half := slotHalf c.fmt c.dim
        let sc := c.dim / 32
        ([(base + slot * half / 2, half / 2), (base + t * half / 2 + slot * sc, sc),
          (base + 16384 + slot * half / 2, half / 2), (base + 16384 + t * half / 2 + slot * sc, sc)], r.2)

/-- The DMA copies that move the keys and values of one position to another, in one geometry (R307). -/
def Mod.copySlot (m : Mod) (e : Nat) (c : AttnCmd) (src dst : Nat) : Mod :=
  let a := m.slotRanges e c src
  let b := a.2.slotRanges e c dst
  (List.zip a.1 b.1).foldl (fun (m : Mod) (r : (Nat × Nat) × (Nat × Nat)) =>
    let req := reqDma m.dma.nextId
    let x := m.deviceRead r.1.1 r.1.2 3 req
    let y := (x.2.deviceWrite r.2.1 x.1 3 req).2
    { y with dma := { y.dma with
        nextId := y.dma.nextId + 1, transfers := satAdd y.dma.transfers 1, bytes := satAdd y.dma.bytes r.1.2 } }) b.2

/-- Commit one live sequence with candidates (R307). -/
def Mod.commitSeq (m : Mod) (e : Nat) (v : Verdict) : Mod :=
  match m.seqBad e v.walkBad with
  | some st => m.discardStep e st
  | none =>
    let nc := m.seqField e 162 5
    let path := v.path.take nc
    let a := path.length
    let len := m.seqLen e
    let moves := (path.zipIdx.map (fun x => (x.1.val, x.2))).filter (fun x => decide (x.1 ≠ x.2))
    let m1 := if m.seqField e 161 1 = 0 then m
      else moves.foldl (fun (m : Mod) x => m.geometries.foldl (fun m c => m.copySlot e c (len + x.1) (len + x.2)) m) m
    let m2 := ((((m1.setSeqField e 128 32 (len + a)).setSeqField e 162 5 0).setSeqField e 864 5 a).setSeqField e 872 8 0)
    let m3 := (m2.setSeqField e 832 32 v.token.toNat).setSeqField e 880 48 m2.lea.barSeq.toNat
    { m3 with attn := { m3.attn with
        commits := if a = 0 then m3.attn.commits else satAdd m3.attn.commits 1
        accepted := satAdd m3.attn.accepted a } }

/-- A prefill slice is committed: its positions join the committed ones (R307). -/
def Mod.commitPrefill (m : Mod) (e n : Nat) : Mod :=
  match m.seqBad e none with
  | some st => m.discardStep e st
  | none =>
    let left := m.seqField e 928 32 - n
    let m1 := ((m.setSeqField e 128 32 (m.seqLen e + n)).setSeqField e 928 32 left).setSeqField e 872 8 0
    let m2 := m1.setSeqField e 880 48 m1.lea.barSeq.toNat
    { m2 with attn := { m2.attn with
        prefill := if left = 0 then m2.attn.prefill.filter (fun p => p.entry != e) else m2.attn.prefill } }

/-- The entries that hold a live sequence, in ascending order: LIVE stands in bit 0 of byte 20 (R291). -/
def Mod.liveEntries (m : Mod) : List Nat :=
  m.attn.seqt.filterMap (fun x => if x.1 % 256 = 20 ∧ x.2.toNat % 2 = 1 then some (x.1 / 256) else none)

/-- The commits at a phase barrier (R307): every live sequence with candidates, and the prefill slices. A sequence that
has no verdict has no candidate accepted. -/
def Mod.commitStep (m : Mod) (s : StepClose) : Mod :=
  let m1 := match s.decode with
    | none => m
    | some vs =>
      (m.liveEntries.filter (fun e => decide (m.seqField e 162 5 ≠ 0))).foldl (fun (m : Mod) e =>
        match vs.find? (fun v => v.entry.val == e) with
        | some v => m.commitSeq e v
        | none => m.commitSeq e ⟨BitVec.toFin (BitVec.ofNat 12 e), [], BitVec.ofNat 32 (m.seqField e 832 32), none⟩) m
  let m2 := s.prefill.foldl (fun (m : Mod) p => if m.seqLive p.1.val then m.commitPrefill p.1.val p.2.val else m) m1
  if s.decode.isSome ∨ s.prefill ≠ [] then { m2 with attn := { m2.attn with bad := [] } } else m2

/-! ### Submissions (R147, R310) -/

/-- OP of a submission. -/
def Submission.op (s : Submission) : Nat := field s.word.toNat 0 8
/-- ENTRY. -/
def Submission.entry (s : Submission) : Nat := field s.word.toNat 8 12
/-- ADMIT. -/
def Submission.admitBarrier (s : Submission) : Nat := field s.word.toNat 24 48
/-- Token bytes a PROMPT fetches. -/
def Submission.total (s : Submission) : Nat := if s.op = 2 then 4 * field s.word.toNat 192 32 else 0

/-- LEA_LATE (R161). -/
def stLeaLate : BitVec 8 := 0x39#8
/-- CAND_INVALID. -/
def stCandInvalid : BitVec 8 := 0x84#8
/-- SEQ_NOT_LIVE. -/
def stSeqNotLive : BitVec 8 := 0x86#8
/-- PUBLISH_GEN. -/
def stPublishGen : BitVec 8 := 0x87#8
/-- SUBMIT_OP_INVALID. -/
def stSubmitOpInvalid : BitVec 8 := 0x88#8
/-- SUBMIT_DUPLICATE. -/
def stSubmitDuplicate : BitVec 8 := 0x89#8

/-- The record's OP is none of the five, or a reserved bit is set: of the record, or of the arguments of its OP. -/
def submitBad (v : Nat) : Bool :=
  let arg0 := field v 128 128
  let op := field v 0 8
  let extra : Nat := match op with
    | 1 => field arg0 64 64
    | 2 => field arg0 96 32 + field v 256 576
    | 3 => field v 256 576
    | 4 => field arg0 6 58 + field v 768 64
    | 5 => arg0 + field v 256 576
    | _ => 1
  decide (field v 20 4 ≠ 0 ∨ field v 72 56 ≠ 0 ∨ field v 832 192 ≠ 0 ∨ extra ≠ 0)

/-- The candidates of a submission obey the chain or tree rule (R310). -/
def candidatesOk (arg0 : Nat) : Bool :=
  let n := field arg0 0 5
  let tree := bitOf arg0 5
  let parent (i : Nat) : Nat := field arg0 (64 + 4 * i) 4
  decide (n ≤ (if tree then 16 else 8)) && parent 0 == 0xF
    && (List.range (n - 1)).all (fun j =>
      if tree then decide (parent (j + 1) ≤ j) else parent (j + 1) == j)

/-- Replace a submission. -/
def Mod.setSub (m : Mod) (s : Submission) : Mod :=
  { m with attn := { m.attn with
      subs := m.attn.subs.map (fun x => if x.core = s.core ∧ x.index = s.index then s else x) } }

/-- A fence over (entry, GEN) has cleared: no walk of the entry under another GEN remains (R295). -/
def Mod.fenced (m : Mod) (f : Nat × Nat) : Bool := m.attn.walks.any (fun w => w.entry == f.1 && w.gen != f.2)

/-- Ask the host for token IDs that have not been asked for (R310, R379). -/
def Mod.pumpTokens (m : Mod) (s : Submission) : Mod :=
  let base := field s.word.toNat 128 64
  (((splitReads (s.total / 64 + 2) m.jnl.maxRead base s.total).filter
      (fun k => decide (base + s.asked ≤ k.1)))).foldl (fun (m : Mod) k =>
    match m.attn.subs.find? (fun x => x.core == s.core && x.index == s.index) with
    | none => m
    | some x =>
      if k.1 ≠ base + x.asked then m
      else match m.askHost k.1 k.2 none (some (s.core, s.index)) with
        | none => m
        | some m1 => m1.setSub { x with asked := x.asked + k.2 }) m

/-- The effect of a submission (R310). -/
def Mod.applySub (m : Mod) (s : Submission) : Mod :=
  let v := s.word.toNat
  let e := s.entry
  let arg0 := field v 128 128
  let live := m.seqLive e
  let finish (m : Mod) (st : BitVec 8) (f : Option (Nat × Nat)) : Mod :=
    m.setSub { s with applied := true, status := st, fence := f }
  match s.op with
  | 1 =>
    if live then finish m stSeqNotLive none
    else
      let m1 := ((m.setSeqField e 160 1 1).setSeqField e 128 32 0).setSeqField e 162 5 0
      let m2 := (m1.setSeqField e 768 64 (field v 128 64)).setSeqField e 960 576 (field v 256 576)
      finish m2 0#8 none
  | 2 =>
    if field v 192 32 = 0 then finish m 0#8 none
    else if live = false ∨ m.seqLen e ≠ 0 then finish m stSeqNotLive none
    else
      let m1 := m.setSeqField e 928 32 (field v 192 32)
      let m2 := { m1 with attn := { m1.attn with prefill := m1.attn.prefill ++ [⟨e, field v 192 32, []⟩] } }
      (finish m2 0#8 none).pumpTokens s
  | 3 =>
    if m.publishOk e arg0 then
      finish (m.seqWrite (256 * e) (leBytes 16 arg0) (reqCore s.core)) 0#8 (some (e, field arg0 0 16))
    else finish (m.publishRefuse e (reqCore s.core)) stPublishGen none
  | 4 =>
    if field arg0 0 5 = 0 then finish m 0#8 none
    else if live = false then finish m stSeqNotLive none
    else if candidatesOk arg0 = false then finish m stCandInvalid none
    else
      let m1 := (m.setSeqField e 162 5 (field arg0 0 5)).setSeqField e 161 1 (field arg0 5 1)
      finish ((m1.setSeqField e 192 64 (field arg0 64 64)).setSeqField e 256 512 (field v 256 512)) 0#8 none
  | _ =>
    let m1 := m.setSeqField e 160 1 0
    let m2 := { m1 with attn := { m1.attn with prefill := m1.attn.prefill.filter (fun p => p.entry != e) } }
    finish m2 0#8 (some (e, m2.seqGen e))

/-- A submission whose work is done: applied, its fence clear, its token IDs arrived. -/
def Mod.subDone (m : Mod) (s : Submission) : Bool :=
  s.applied && (match s.fence with | some f => !(m.fenced f) | none => true)
    && (decide (s.status ≠ 0#8) || decide (s.total ≤ s.got))

/-- The completion of a submission (R378). -/
def Submission.record (s : Submission) : Bytes :=
  leBytes 16 (s.index % 65536 + s.status.toNat * 2 ^ 16 + s.op * 2 ^ 24 + s.entry * 2 ^ 32)

/-- Post the completions of one core's submissions, in index order, as far as they are done; while the lea is RUNNING
each is held for the barrier that closes its interval (R148, R378). -/
def Mod.postSubs (fuel : Nat) (m : Mod) (core : Nat) : Mod :=
  match fuel with
  | 0 => m
  | fuel + 1 =>
    match m.attn.subs.find? (fun s => s.core == core) with
    | none => m
    | some s =>
      if m.subDone s = false then m
      else
        let b := m.mailbox core
        let held := if m.lea.st = .running then some (m.lea.barSeq.toNat + 1) else none
        let m1 := m.setMailbox core { b with waiting := b.waiting ++ [(s.record, held)] }
        postSubs fuel { m1 with attn := { m1.attn with subs := m1.attn.subs.erase s } } core

/-- Post every completion that is due. -/
def Mod.settleSubs (m : Mod) : Mod :=
  (List.range 16).foldl (fun (m : Mod) c => m.postSubs 256 c) m

/-- The commands and fences whose walks have ended let submissions complete. -/
def Mod.settleFences (m : Mod) : Mod := m.fenceClear.settleSubs

/-- An input names a barrier that has passed (R147). -/
def Mod.refuseLate (m : Mod) (s : Submission) : Mod :=
  (m.setSub { s with applied := true, status := stLeaLate }).raise .leaInputLate noUnit []

/-- Submissions due at a barrier: in a lea those that name it, outside every one taken, in the order of ENTRY and then OP
(R310). Those that name a barrier already past are refused. -/
def Mod.dueSubs (m : Mod) : Mod :=
  let waiting := m.attn.subs.filter (fun s => !s.applied)
  let inLea := decide (m.lea.st = .running)
  let now := m.lea.barSeq.toNat
  let late := waiting.filter (fun s => inLea && decide (s.admitBarrier < now))
  let due := waiting.filter (fun s => !inLea || decide (s.admitBarrier = now))
  let sorted := due.mergeSort (fun a b => decide (a.entry < b.entry ∨ (a.entry = b.entry ∧ a.op ≤ b.op)))
  let m1 := late.foldl (fun (m : Mod) s => m.refuseLate s) m
  (sorted.foldl (fun (m : Mod) s => m.applySub s) m1).settleSubs

/-- Some completion of a mailbox would overwrite a slot that the host has not read (R378). -/
def Mailbox.blocked (b : Mailbox) : Bool :=
  decide (2 ^ b.outSize.toNat < (b.outHead - b.outRead).toNat + b.waiting.length)

/-- MAILBOX_RECORD: a control core takes the next submission of its mailbox and checks it (R147, R310, R378). -/
def Mod.mailboxRecord (m : Mod) (core : Nat) : Mod :=
  let b := m.mailbox core
  if b.inHead = b.inTail ∨ b.blocked = true ∨ bitOf m.boot.coresHeld.toNat core = true ∨ m.supplied 3 core = false then m
  else
    let i := b.inTail.toNat
    let word := BitVec.ofNat 1024 (leNat (m.readCore core (0x1000 + i % 256 * 128) 128))
    let s : Submission := ⟨core, i, word, [], 0, 0, none, false, 0#8⟩
    let dup := m.attn.subs.any (fun x => decide (x.applied = false ∧ x.op = s.op ∧ x.entry = s.entry ∧ x.admitBarrier = s.admitBarrier))
    let m1 := m.setMailbox core { b with inTail := b.inTail + 1 }
    let add (s : Submission) : Mod := { m1 with attn := { m1.attn with subs := m1.attn.subs ++ [s] } }
    if submitBad word.toNat then (add { s with applied := true, status := stSubmitOpInvalid }).postSubs 256 core
    else if dup then (add { s with applied := true, status := stSubmitDuplicate }).postSubs 256 core
    else if m.lea.st = .running ∧ s.admitBarrier ≤ m.lea.barSeq.toNat then ((add s).refuseLate s).postSubs 256 core
    else add s

/-- OPEN, PROMPT, PUBLISH, CANDIDATES, CLOSE: a core applies the oldest submission of that OP that it has taken, while
no stream runs; while one runs, a barrier applies it (R310). -/
def Mod.subRow (m : Mod) (core op : Nat) : Mod :=
  if m.running = true ∨ m.lea.st = .running then m
  else match m.attn.subs.find? (fun s => s.core == core && !s.applied) with
    | none => m
    | some s => if s.op = op then (m.applySub s).postSubs 256 core else m

/-- The next completion slot of a mailbox is free: the host has read past its last lap (R378). -/
def Mailbox.room (b : Mailbox) : Bool := decide ((b.outHead - b.outRead).toNat < 2 ^ b.outSize.toNat)

/-- MAILBOX_COMPLETION: the oldest completion of a mailbox is written to its ring once it is not held, a slot is free
and the link is UP; its interrupt follows (R148, R372, R378, R381). -/
def Mod.mailboxCompletion (m : Mod) (core : Nat) : Mod :=
  let b := m.mailbox core
  match b.waiting with
  | [] => m
  | (rec, held) :: rest =>
    if held.isSome = true ∨ b.room = false ∨ m.jnl.train.st ≠ .up then m
    else
      let slot := b.outHead.toNat % 2 ^ b.outSize.toNat
      let m1 := m.setMailbox core { b with waiting := rest, outHead := b.outHead + 1 }
      (m1.hostWrite (b.outBase.toNat + 16 * slot) rec false).interrupt (64 + core)

/-- The tokens of a prompt have arrived: they stand in the prefill queue. -/
def Mod.tokensIn (m : Mod) (s : Submission) : Mod :=
  let fill (p : Prompt) : Prompt := if p.entry = s.entry ∧ p.tokens = [] then { p with tokens := memRead s.tokens 0 s.total } else p
  ({ m with attn := { m.attn with prefill := m.attn.prefill.map fill } } : Mod).postSubs 256 s.core

/-- A completion packet brings token IDs (R310); those of a failed or marked request are undefined. -/
def Mod.tokenData (m : Mod) (r : HostRead) (core index : Nat) (data : Bytes) (bad : Bool) : Mod :=
  let m0 := { m with jnl := { m.jnl with reads := m.jnl.reads.filter (fun y => y.tag != r.tag) } }
  match m0.attn.subs.find? (fun s => s.core == core && s.index == index) with
  | none => m0
  | some s =>
    let off := r.hostAddr - field s.word.toNat 128 64
    let bs := if bad then (List.range r.len).map (fun i => Config.freeByte (m0.clock.freeCtr + i)) else padTo r.len data
    let m1 : Mod := if bad then { m0 with clock := { m0.clock with freeCtr := m0.clock.freeCtr + r.len } } else m0
    let s1 := { s with tokens := memWrite s.tokens off bs, got := s.got + r.len }
    let m2 := m1.setSub s1
    if s1.got < s1.total then m2.pumpTokens s1 else m2.tokensIn s1

end Sys2Proof.Machine
end

