-- ==== Sys2Proof/Machine/Pace.lean ====
section
/-!
DEFINITION. The pacer: the limits and the allowance, when a pace takes effect, bands that go dark, the headers
(R52, R429, R431, R433 to R437, R440, R441).
-/
namespace Sys2Proof.Machine

/-! ### Operating points (R435) -/

/-- The operating points: pace, V_set in mV, typical input power in W. -/
def opPoints : List (Nat × Nat × Nat) :=
  [(35, 450, 820), (70, 510, 1350), (100, 570, 1950), (120, 610, 2420), (140, 650, 3000), (160, 700, 3640)]

/-- The points on either side of a pace. -/
def opSpan (p : Nat) (l : List (Nat × Nat × Nat)) : (Nat × Nat × Nat) × (Nat × Nat × Nat) :=
  match l with
  | a :: b :: t => if p ≤ b.1 ∨ t = [] then (a, b) else opSpan p (b :: t)
  | _ => ((35, 450, 820), (70, 510, 1350))

/-- V_set of a pace, rounded up to the next mV. -/
def vSet (p : Nat) : Nat :=
  let s := opSpan p opPoints
  s.1.2.1 + ((s.2.2.1 - s.1.2.1) * (p - s.1.1) + (s.2.1 - s.1.1) - 1) / (s.2.1 - s.1.1)

/-- The model power of a pace in units of 1/420 W: 420 is a multiple of every span. -/
def modelPower (p : Nat) : Nat :=
  let s := opSpan p opPoints
  420 * s.1.2.2 + (s.2.2.2 - s.1.2.2) * (p - s.1.1) * (420 / (s.2.1 - s.1.1))

/-- Every pace the module can run at, highest first. -/
def allPaces : List Nat := (List.range 126).map (fun i => 160 - i)

/-- The cap limit: the highest pace p with k × P_m(p) ≤ CAP_W, where k = P ÷ P_m of the pace in force, or 1 when no
stream runs (R437). -/
def capLimitOf (capW watts now : Nat) : Nat :=
  let fits (p : Nat) : Bool :=
    if now = 0 then decide (modelPower p ≤ capW * 420)
    else decide (watts * modelPower p ≤ capW * modelPower now)
  (allPaces.find? fits).getD 35

/-- The rest fraction after a window: r + round(32 × (P − CAP_W) ÷ CAP_W), halves away from zero, within 0–48 (R437). -/
def restAfter (r capW watts : Nat) : Nat :=
  if capW ≤ watts then min 48 (r + (64 * (watts - capW) + capW) / (2 * capW))
  else r - (64 * (capW - watts) + capW) / (2 * capW)

/-! ### The allowance (R433) -/

/-- The limit of a band's failed phases; none below 5 (R429). -/
def phaseLimit (f : Nat) : Option Nat :=
  if f ≤ 4 then none else if f ≤ 8 then some (160 * (24 - f) / 20) else some 35

/-- The limit of bit 2: the lowest over the bands that are not dark. -/
def Mod.phaseBit (m : Mod) : Option Nat :=
  (List.range 16).foldl (fun acc b =>
    if isDark m.plan b then acc
    else match phaseLimit (failedPhases m.fuses b), acc with
      | some l, some a => some (min l a)
      | some l, none => some l
      | none, a => a) none

/-- The limits in force, each with its bit. -/
def Mod.limits (m : Mod) : List (Nat × Nat) :=
  let opt (bit : Nat) (o : Option Nat) : List (Nat × Nat) := match o with | some l => [(bit, l)] | none => []
  [(0, m.power.paceLimit.toNat), (1, m.power.capLimit)] ++ opt 2 m.phaseBit
    ++ [(3, m.thermal.limit.toNat), (4, m.thermal.coolantLimit.toNat), (5, m.power.ageLimit)]
    ++ opt 6 (if m.power.undervolt then some 35 else none) ++ opt 7 (if m.safe.active then some 35 else none)

/-- The lowest of some limits. -/
def lowestLimit (ls : List (Nat × Nat)) : Nat := ls.foldl (fun a e => min a e.2) 160

/-- The pace allowance. -/
def Mod.allowance (m : Mod) : Nat := max 35 (lowestLimit m.limits - (if m.power.severe then 5 else 0))

/-- LIMIT_CAUSE. -/
def Mod.limitCause (m : Mod) : Nat :=
  let low := lowestLimit m.limits
  (m.limits.foldl (fun v e => if e.2 = low then v + 2 ^ e.1 else v) 0) + (if m.power.severe then 256 else 0)

/-- The lowest of the limits that take effect at once. -/
def Mod.atOnce (m : Mod) : Nat :=
  max 35 (lowestLimit (m.limits.filter (fun e => e.1 == 2 || e.1 == 3 || e.1 == 4 || e.1 == 6 || e.1 == 7)))

/-! ### When a pace takes effect (R434, R436, R440) -/

/-- Put a pace in force: a change sets the rest fraction to 0 at the same step boundary (R437). -/
def Mod.setPace (m : Mod) (p : Nat) : Mod :=
  if m.power.paceNow.toNat = p then m
  else { m with power := { m.power with paceNow := BitVec.ofNat 8 p, rest := 0#8 } }

/-- Defer a pace change while droop is active, and count it (R440). -/
def Mod.deferPace (m : Mod) (p : Nat) : Mod :=
  if m.power.deferred = some p then m
  else { m with power := { m.power with deferred := some p, paceDeferred := satAdd m.power.paceDeferred 1, slewTo := none } }

/-- Move to a pace: a fall applies at this step boundary, a rise once the voltages have been raised, and either waits
while droop is active. -/
def Mod.movePace (m : Mod) (p : Nat) : Mod :=
  let now := m.power.paceNow.toNat
  if p = now then { m with power := { m.power with slewTo := none, deferred := none } }
  else if m.power.droop then m.deferPace p
  else if p < now then
    let m1 := m.setPace p
    { m1 with power := { m1.power with slewTo := none } }
  else { m with power := { m.power with slewTo := some p } }

/-- Form the allowance again and let it act: outside a lea it is the pace, inside one only the limits marked "at once"
act before the next release (R433, R434). -/
def Mod.repace (m : Mod) : Mod :=
  let m1 := { m with power := { m.power with
    paceAllow := BitVec.ofNat 8 m.allowance, limitCause := BitVec.ofNat 16 m.limitCause } }
  if m1.running = false then { m1 with power := { m1.power with slewTo := none, deferred := none } }
  else
    let m2 := if m1.atOnce < m1.power.paceNow.toNat then m1.setPace m1.atOnce else m1
    if m.lea.st = .running then
      -- a rise of the lea's pace under way goes no higher than an "at once" limit allows
      { m2 with power := { m2.power with
        slewTo := m2.power.slewTo.map (fun p => min p m2.atOnce)
        deferred := m2.power.deferred.map (fun p => min p m2.atOnce) } }
    else m2.movePace m2.allowance

/-- The pace that a lea's RELEASE gives; what takes effect at once on this member holds (R149, R150, R440). -/
def Mod.releasePace (m : Mod) (p : Nat) : Mod :=
  m.movePace (min p (if m.power.severe then min m.atOnce m.allowance else m.atOnce))

/-- SLEW_COMPLETE: every band has reached its new target, and the raised pace applies (R436). -/
def Mod.slewDone (m : Mod) : Mod :=
  match m.power.slewTo with
  | some p => if m.power.droop then m.deferPace p
    else
      let m1 := m.setPace p
      { m1 with power := { m1.power with slewTo := none } }
  | none => m

/-! ### Headers and dark bands (R52, R429, R431) -/

/-- Open a band's headers: it stays OFF until the next full reset, and its cells lose what they hold. -/
def Mod.openHeaders (m : Mod) (b : Nat) : Mod :=
  let x := m.band b
  let m1 := m.setBand b { x with closed := false, held := true, droop := false, dyingAt := none }
  { m1 with cells := m1.cells.filter (fun e => bandOf e.1 != b) }

/-- A band goes dark: its headers open, DARK_BANDS, USABLE_CELLS and FP_DIGEST change together, BAND_DARK is raised
(R49, R52). -/
def Mod.bandDark (m : Mod) (b : Nat) : Mod :=
  if isDark m.plan b then m
  else
    let m1 := m.openHeaders b
    let m2 := { m1 with plan := m1.plan.withDark (m1.plan.darkBands ||| BitVec.ofNat 16 (2 ^ b)) }
    (m2.raise .bandDark (unitId 1 b) (payload [i1 b])).repace

/-- Bands with 9 to 16 failed phases that wait for their barrier. -/
def Mod.dyingBands (m : Mod) : List Nat := (List.range 16).filter (fun b => (m.band b).dyingAt.isSome)

/-- The bands that wait go dark: at their barrier, or when the stream stops before it (R429). -/
def Mod.darkenDying (m : Mod) : Mod := m.dyingBands.foldl Mod.bandDark m

/-- The trim of a band as applied: the fused trim less what waits for a barrier, in units of 0.1 mV (R441). -/
def Mod.appliedTrim (m : Mod) (b : Nat) : Nat := Map.get 0 m.power.trims b - (m.band b).trimPending

/-- The ageing limit: the highest pace whose V_set and trim fit within 0.72 V; a boost is held below 0.72 V by R439. -/
def Mod.ageLimitOf (m : Mod) : Nat :=
  let t := (List.range 16).foldl (fun a b => if (m.band b).closed then max a (m.appliedTrim b) else a) 0
  (allPaces.find? (fun p => decide (10 * vSet p + t ≤ 7200))).getD 35

/-- Trim steps are applied at a barrier of any kind, and the ageing limit is formed from them (R441). -/
def Mod.applyTrims (m : Mod) : Mod :=
  if m.power.bands.all (fun b => b.trimPending == 0) then m
  else
    let steps := m.power.bands.foldl (fun n b => n + b.trimPending / 25) 0
    let m1 := { m with power := { m.power with
      bands := m.power.bands.map (fun (b : Band) => { b with trimPending := 0 })
      trimCount := satAdd m.power.trimCount steps } }
    let lim := m1.ageLimitOf
    let m2 := { m1 with power := { m1.power with ageLimit := lim, ageRaised := m1.power.ageRaised || decide (lim < 160) } }
    (if lim < 160 ∧ m1.power.ageRaised = false then m2.raise .ageingLimit noUnit [] else m2).repace

end Sys2Proof.Machine
end

