-- ==== Sys2Proof/Machine/Calib.lean ====
section
/-!
DEFINITION. The calibration of crossings, at bring-up and at barriers (R175 to R178).
-/
namespace Sys2Proof.Machine

/-- The crossings of a position (R522): partner link from die L or die U, the two directions of the vertical channel,
the mesh crossings at the row's ends, the instruction lane of die U. -/
def crossingAt (cell k : Nat) : Bool :=
  match k with
  | 0 => dieOfRow (rowOf cell) == 0
  | 1 => dieOfRow (rowOf cell) == 1
  | 2 => true
  | 3 => true
  | 4 => colOf cell == 0
  | 5 => colOf cell == 48
  | 6 => dieOfRow (rowOf cell) == 1
  | _ => false

/-- The bands at the ends of a position's crossing: the vertical channel has one, every other crossing joins the bands
that lie above each other. -/
def crossingBands (cell k : Nat) : List Nat :=
  let b := bandOf cell
  if k = 2 ∨ k = 3 then [b] else [b, (b + 8) % 16]

/-- The trim of a band when a crossing was last calibrated. -/
def Mod.crossTrim (m : Mod) (x : Crossing) (own : Bool) (b : Nat) : Nat :=
  match x.trims with
  | some t => if own then t.1 else t.2
  | none => listGet 0 m.tl.calTrim b

/-- The crossing asks for recalibration: its monitor has raised CROSS_MARGIN, or a trim at one of its ends has moved by
more than 5 mV (R176). -/
def Mod.wantsRecal (m : Mod) (cell k : Nat) : Bool :=
  let x := Map.get Crossing.reset m.tl.crossings (cell * 8 + k)
  x.recal || (crossingBands cell k).any (fun b =>
    (m.band b).closed && decide (m.crossTrim x (b == bandOf cell) b + 50 < m.appliedTrim b))

/-- Some crossing asks for recalibration. -/
def Mod.recalDue (m : Mod) : Bool :=
  (List.range 16).any (fun b => (m.band b).closed && decide (listGet 0 m.tl.calTrim b + 50 < m.appliedTrim b))
  || m.tl.crossings.any (fun e => m.wantsRecal (e.1 / 8) (e.1 % 8))

/-- A calibration that found this window: the tap is set at its centre, or, below 12 taps, the position enters FAULT
(R175). -/
def Mod.applyWindow (m : Mod) (w : CrossWindow) : Mod :=
  let k := w.cell.val * 8 + w.crossing.val
  if isEnabled m.plan w.cell.val = false ∨ crossingAt w.cell.val w.crossing.val = false then m
  else if w.hi.val + 1 < w.lo.val + 12 then
    (m.dataFault 2 w.cell.val).raise .crossCalFail (unitId 2 w.cell.val) (payload [i2 w.cell.val, i1 w.crossing.val])
  else
    let x := Map.get Crossing.reset m.tl.crossings k
    let tap := BitVec.ofNat 6 ((w.lo.val + w.hi.val) / 2)
    { m with tl := { m.tl with crossings := Map.set Crossing.reset m.tl.crossings k { x with tap := tap } } }

/-- Every crossing calibrates: at bring-up and in a full reset of the Lower die. A crossing that is not listed passes. -/
def Mod.calibrateAll (m : Mod) (ws : List CrossWindow) : Mod :=
  let fresh := m.tl.crossings.map (fun e => (e.1, ({ e.2 with recal := false, trims := none } : Crossing)))
  let m1 : Mod := { m with tl := { m.tl with
    crossings := fresh.filter (fun e => decide (e.2 ≠ Crossing.reset))
    calTrim := (List.range 16).map m.appliedTrim, recalWait := false } }
  ws.foldl Mod.applyWindow m1

/-- The crossings that ask for it recalibrate (R176). -/
def Mod.recalNow (m : Mod) (ws : List CrossWindow) : Mod :=
  let moved := (List.range 16).filter (fun b =>
    (m.band b).closed && decide (listGet 0 m.tl.calTrim b + 50 < m.appliedTrim b))
  let wanted := ws.filter (fun w => m.wantsRecal w.cell.val w.crossing.val)
  let own (e : Nat × Crossing) : Nat × Crossing :=
    let b := bandOf (e.1 / 8)
    if m.wantsRecal (e.1 / 8) (e.1 % 8) then
      (e.1, { e.2 with recal := false, trims := some (m.appliedTrim b, m.appliedTrim ((b + 8) % 16)) })
    else e
  let m1 : Mod := { m with tl := { m.tl with
    recalCount := satAdd m.tl.recalCount 1, recalWait := false
    crossings := (m.tl.crossings.map own).filter (fun e => decide (e.2 ≠ Crossing.reset))
    calTrim := (List.range 16).map (fun b => if moved.contains b then m.appliedTrim b else listGet 0 m.tl.calTrim b) } }
  wanted.foldl Mod.applyWindow m1

/-- Recalibration at a barrier: it waits while a band stalls its crossings (R176, R178). -/
def Mod.recalibrate (m : Mod) (ws : List CrossWindow) : Mod :=
  if m.recalDue = false then m
  else if m.tl.stalled ≠ 0#16 then { m with tl := { m.tl with recalWait := true } }
  else m.recalNow ws

end Sys2Proof.Machine
end

