-- ==== Sys2Proof/Machine/Mx.lean ====
section
/-!
DEFINITION. The MX slot: ADV and its advances, SWAP with drain, preload and status word, the context moves and
the debug read (R62 to R80, R85 to R98, R117, R118, R179, R180, R302).
-/
namespace Sys2Proof.Machine

/-- Logical rows of a mode (R65). -/
def modeRows (m : BitVec 2) : Nat := if m = 0#2 then 16 else if m = 1#2 then 4 else 1
/-- Logical columns of a mode (R65). -/
def modeCols (m : BitVec 2) : Nat := if m = 0#2 then 32 else if m = 1#2 then 128 else 512

/-- Physical position pr × 32 + pc of logical (i, j) (R65). -/
def physPos (m : BitVec 2) (i j : Nat) : Nat :=
  (if m = 0#2 then i else if m = 1#2 then i + 4 * (j / 32) else j / 32) * 32 + j % 32

/-- Products per advance of an operand pairing, if it is one (R67). -/
def pairP (a w : Nat) : Option Nat :=
  if a = 1 ∧ w = 1 then some 1
  else if 2 ≤ a ∧ a ≤ 7 ∧ 2 ≤ w ∧ w ≤ 8 then some 2
  else if a = 8 ∧ 2 ≤ w ∧ w ≤ 7 then some 2
  else if a = 8 ∧ w = 8 then some 4
  else none

/-- The arrays a mask names, ascending. -/
def maskArrays (mask : Nat) : List Nat := (List.range 4).filter (fun a => bitOf mask a)

/-- Fields of an ADV word (R117). -/
structure AdvF where
  mask : Nat
  asrc : Nat
  afmt : Nat
  wfmt : Nat
  feed : Nat
  count : Nat
  aag : Nat
  wag : Nat
deriving DecidableEq, Repr

/-- Read the fields of an ADV word (R117). -/
def advF (w : BitVec 64) : AdvF :=
  let v := w.toNat
  ⟨field v 4 4, field v 8 3, field v 11 4, field v 15 4, 128 * (field v 19 2 + 1), field v 21 12,
   field v 33 5, field v 38 5⟩

/-- Weight bytes per advance, in units of 1/32 B (R69). -/
def advNeed (cols p wfmt : Nat) : Nat :=
  cols * p * fmtBits wfmt * 4 + if fmtMx wfmt then cols * p else 0

/-- Issue an ADV: check it and form its addresses once (R66, R67, R117, R118). A COUNT of 0 is a no-operation. -/
def advIssue (env : CellEnv) (c : CellState) (w : BitVec 64) : CellState × List Fx :=
  let f := advF w
  if 4 < f.asrc ∨ 8 < f.afmt ∨ 8 < f.wfmt ∨ field w.toNat 43 21 ≠ 0 then (c, [.slotIllegal 0])
  else if (pairP f.afmt f.wfmt).isNone then (c, [.mxIllegal 67])
  else if f.count = 0 ∨ f.mask = 0 then (c, [])
  else
    match formTile env c f.wag (some f.wfmt) with
    | .error e => (c, [e])
    | .ok wa =>
      match (if f.asrc = 1 then formTile env c f.aag (some f.afmt) else .ok ⟨0, 0, 0⟩) with
      | .error e => (c, [e])
      | .ok aa => ({ c with
          adv := some ⟨w, aa, wa, 0, 0, [], 0⟩
          arrays := c.arrays ||| BitVec.ofNat 4 f.mask }, [])

/-- The 32-element groups of an operand laid out as R118 gives: the elements t to t + p − 1 of lane `i` of `n`
in group `j`, and the lane's scale byte; with whether a word read was invalid and what was counted. -/
def readGroup (m : Mem) (o : OpAddr) (fmt n i j t p : Nat) : List Num × Nat × Bool × List Fx :=
  let bits := fmtBits fmt
  let bb := 4 * bits
  let e := readTile m (o.addr + j * n * bb + i * bb) bb
  let s := if fmtMx fmt then readTile m (o.scale + j * n + i) 1 else ([0x7F#8], false, [])
  ((List.range p).map (fun k => (fmtOf fmt).decode (elemBits e.1 bits (t + k))),
    leNat s.1, e.2.1 || s.2.1, e.2.2 ++ s.2.2)

/-- The last byte an operand's group needs lies in tile memory. -/
def groupInTile (o : OpAddr) (fmt n j : Nat) : Bool :=
  inTile (o.addr + j * n * 4 * fmtBits fmt) (n * 4 * fmtBits fmt) &&
    (!fmtMx fmt || inTile (o.scale + j * n) n)

/-- Where group `j` starts in a lane or link's activation stream: the elements of a group before its scales
(R118). -/
def streamGroup (fmt rows j : Nat) : Nat :=
  j * (rows * 4 * fmtBits fmt + if fmtMx fmt then rows else 0)

/-- The activation elements and scale of row `i` in group `j` from bytes taken off a lane or link. -/
def streamElems (bs : Bytes) (fmt rows i j t p : Nat) : List Num × Nat :=
  let bits := fmtBits fmt
  let g := bs.drop (streamGroup fmt rows j)
  let e := (g.drop (i * 4 * bits)).take (4 * bits)
  let s := if fmtMx fmt then leNat ((g.drop (rows * 4 * bits + i)).take 1) else 0x7F
  ((List.range p).map (fun k => (fmtOf fmt).decode (elemBits e bits (t + k))), s)

/-- Put a group of 32 elements, or one bf16 product, into the accumulators of one array (R86, R87). -/
def accumulate (mode : BitVec 2) (ks : KState) (acc : Map (BitVec 44)) (arr : Nat)
    (as ws : List (List Num)) (sa sw : List Nat) (p : Nat) : KState × Map (BitVec 44) :=
  let rows := modeRows mode
  let cols := modeCols mode
  let upd (m : Map (BitVec 44)) (f : Nat → Nat → BitVec 44 → BitVec 44) : Map (BitVec 44) :=
    (List.range rows).foldl (fun m i => (List.range cols).foldl (fun m j =>
      let key := arr * 512 + physPos mode i j
      Map.set 0#44 m key (f i j (Map.get 0#44 m key))) m) m
  if p = 1 then
    ({ ks with taken := ks.taken + 1 },
     upd acc (fun i j v => acAdd v
       ((listGet Num.nan (listGet [] as i) 0).mul (listGet Num.nan (listGet [] ws j) 0)) (ks.taken / 32)))
  else
    let a' := if ks.a = [] then as else List.zipWith (· ++ ·) ks.a as
    let w' := if ks.w = [] then ws else List.zipWith (· ++ ·) ks.w ws
    if (listGet [] a' 0).length < 32 then ({ ks with taken := ks.taken + p, a := a', w := w' }, acc)
    else
      ({ ks with taken := ks.taken + p, a := [], w := [] },
       upd acc (fun i j v => acAddBlock v
         (List.zipWith KPair.mk (listGet [] a' i) (listGet [] w' j))
         (listGet 0x7F sa i) (listGet 0x7F sw j) (ks.taken / 32)))

/-- The status word fields known before the drain ends (R93): marks, mode, mask and format. -/
def statusBase (poison residue illegal stats : Bool) (mode : BitVec 2) (mask drain : Nat) : Nat :=
  b2n (poison || residue || illegal) + 2 * b2n poison + 4 * b2n residue + 32 * b2n stats +
  drain * 2 ^ 25 + mode.toNat * 2 ^ 28 + mask * 2 ^ 60

/-- Mark the tile of the masked arrays poisoned; POISON_CONSUMED is raised once for the tile (R95). -/
def markPoison (c : CellState) (mask : Nat) (bad : Bool) : CellState × List Fx :=
  if bad then
    let was := c.k.any (fun k => k.poison)
    ({ c with k := c.k.zipIdx.map (fun e => if bitOf mask e.2 then { e.1 with poison := true } else e.1) },
     if was then [] else [.poisonConsumed (BitVec.ofNat 64 (statusBase true (c.k.any (fun k => k.residue)) false false c.mode mask 0))])
  else (c, [])

/-- Make one advance of the running ADV if its bytes are staged (R69): weight bytes by the feed's share, and the
activation elements from tile memory or as taken from the lane or link. `old` is tile memory at the start of
the step. -/
def advance (old : Mem) (c : CellState) (r : Adv) : CellState × List Fx :=
  let f := advF r.word
  let p := (pairP f.afmt f.wfmt).getD 1
  let rows := modeRows c.mode
  let arrs := maskArrays f.mask
  let cols := arrs.length * modeCols c.mode
  let j := r.made * p / 32
  let t := r.made * p % 32
  let staged := decide (advNeed cols p f.wfmt * (r.made + 1) ≤ 32 * f.feed * r.steps)
  let haveAct := f.asrc = 1 ∨
    streamGroup f.afmt rows (j + 1) ≤ r.actUsed + r.act.length
  if ¬ staged ∨ ¬ haveAct then ({ c with adv := some r }, [])
  else if ¬ groupInTile r.w f.wfmt cols j then ({ c with adv := none }, [.agRange f.wag (r.w.addr + j * cols * 4 * fmtBits f.wfmt)])
  else if f.asrc = 1 ∧ ¬ groupInTile r.a f.afmt rows j then
    ({ c with adv := none }, [.agRange f.aag (r.a.addr + j * rows * 4 * fmtBits f.afmt)])
  else
    let acts := (List.range rows).map (fun i =>
      if f.asrc = 1 then readGroup old r.a f.afmt rows i j t p
      else
        let e := streamElems r.act f.afmt rows i j t p
        (e.1, e.2, false, []))
    let wts := (List.range cols).map (fun i => readGroup old r.w f.wfmt cols i j t p)
    let bad := acts.any (fun x => x.2.2.1) || wts.any (fun x => x.2.2.1)
    let fx := (acts.map (fun x => x.2.2.2)).flatten ++ (wts.map (fun x => x.2.2.2)).flatten
    let mk := markPoison c f.mask bad
    let c := mk.1
    let step (st : CellState) (e : Nat × Nat) : CellState :=
      let ws := (wts.drop (e.2 * modeCols c.mode)).take (modeCols c.mode)
      let x := accumulate c.mode (listGet KState.reset st.k e.1) st.acc e.1
        (acts.map (fun x => x.1)) (ws.map (fun x => x.1)) (acts.map (fun x => x.2.1)) (ws.map (fun x => x.2.1)) p
      { st with k := listSet st.k e.1 x.1, acc := x.2 }
    let c := arrs.zipIdx.foldl step c
    let made := r.made + 1
    ({ c with adv := if made < f.count then some { r with made := made } else none }, fx ++ mk.2)

/-- One step of the running ADV: the feed reads its share, then at most one advance is made (R69). `lane` and
`link` are the words that reach the cell in this step from the sources of R64. -/
def advStep (old : Mem) (c : CellState) (src : List TWord) : CellState × List Fx :=
  match c.adv with
  | none => (c, [])
  | some r =>
    let f := advF r.word
    let mk := markPoison c f.mask (f.asrc ≠ 1 && anyBad src)
    let r' := { r with steps := r.steps + 1, act := if f.asrc = 1 then [] else r.act ++ wordBytes src }
    let x := advance old mk.1 r'
    (x.1, mk.2 ++ x.2)

/-! ### SWAP -/

/-- Fields of a SWAP word (R117). -/
structure SwapF where
  mask : Nat
  mode : BitVec 2
  drain : Nat
  preload : Nat
  stats : Bool
  maskEn : Bool
  dag : Nat
  pag : Nat
  sag : Nat
  alpha : BitVec 32
deriving DecidableEq, Repr

/-- Read the fields of a SWAP word (R117). -/
def swapF (w : BitVec 64) : SwapF :=
  let v := w.toNat
  ⟨field v 4 4, BitVec.ofNat 2 (field v 8 2), field v 10 3, field v 13 2, bitOf v 15, bitOf v 16,
   field v 17 5, field v 22 5, field v 27 5, BitVec.ofNat 32 (field v 32 32)⟩

/-- Bytes of a drained value (R88). -/
def drainBytes (code : Nat) : Nat := if code = 0 then 4 else if code ≤ 2 then 2 else 1

/-- Logical outputs of a tile in drain order: row, array, column (R94). -/
def drainOrder (mode : BitVec 2) (mask : Nat) : List (Nat × Nat × Nat) :=
  ((List.range (modeRows mode)).map (fun i => ((maskArrays mask).map (fun a =>
    (List.range (modeCols mode)).map (fun j => (i, a, j)))).flatten)).flatten

/-- The accumulator of an output. -/
def outAcc (acc : Map (BitVec 44)) (mode : BitVec 2) (o : Nat × Nat × Nat) : BitVec 44 :=
  Map.get 0#44 acc (o.2.1 * 512 + physPos mode o.1 o.2.2)

/-- Preload values are bf16 where the drain format is, and fp32 otherwise (log entry 13). -/
def preloadFmt (drain : Nat) : FpFmt := if drain = 1 ∨ drain = 2 then fmtBf16 else fmtF32

/-- The preloaded accumulators of the new tile, with whether a word read was invalid (R73). -/
def preload (old : Mem) (f : SwapF) (p : OpAddr) (acc : Map (BitVec 44)) : Map (BitVec 44) × Bool × List Fx :=
  let fmt := preloadFmt f.drain
  let eb := fmt.width / 8
  let order := drainOrder f.mode f.mask
  let rowLen := (maskArrays f.mask).length * modeCols f.mode
  let n := if f.preload = 0 then 0 else if f.preload = 1 then rowLen else order.length
  let r := readTile old p.addr (n * eb)
  let val (k : Nat) : BitVec 44 :=
    if f.preload = 0 then 0#44
    else
      let i := if f.preload = 1 then k % rowLen else k
      acPreload (fmt.decode (leNat ((r.1.drop (i * eb)).take eb)))
  (order.zipIdx.foldl (fun m e =>
    Map.set 0#44 m (e.1.2.1 * 512 + physPos f.mode e.1.1 e.1.2.2) (val e.2)) acc, r.2.1, r.2.2)

/-- The first word of the reserved Loam area (R179). -/
def ctxBase : Nat := 6054 * 16

/-- The 11,520 bytes of a context image (R98). -/
def ctxImage (c : CellState) : Bytes :=
  let v := (List.range 2048).foldr (fun n acc => (Map.get 0#44 c.acc n).toNat + 2 ^ 44 * acc) 0
  let row88 := c.mode.toNat + c.arrays.toNat * 2 ^ 8 +
    ((c.k.map (fun k => k.taken / 32)).foldl max 0 % 2 ^ 16) * 2 ^ 16 + c.lfsr.toNat * 2 ^ 32 +
    b2n (c.k.any (fun k => k.poison)) * 2 ^ 64 + b2n (c.k.any (fun k => k.residue)) * 2 ^ 65
  leBytes 11264 v ++ leBytes 128 row88 ++ List.replicate 128 0#8

/-- The eight-byte words of a byte string, untagged. -/
def toWords (bs : Bytes) : List TWord :=
  (chunks (bs.length / 8 + 1) 8 bs).map (fun w => ⟨BitVec.ofNat 64 (leNat w), false⟩)

/-- A K block is partly summed (R97, R98). -/
def blockOpen (c : CellState) : Bool := c.k.any (fun k => decide (k.a ≠ []))

/-- Copy the accumulators to the reserved Loam area (R98, R179). -/
def ctxSave (c : CellState) : CellState × List Fx :=
  if blockOpen c then (c, [.status 0x22#8])
  else ({ c with
      loam := storeWords c.loam ctxBase (toWords (ctxImage c))
      mxBusy := 90
      upBusy := 90 }, [.status 0x00#8])

/-- MODE in row 88 of the image in Loam (R98). -/
def ctxMode (c : CellState) : Nat := field (loadWord c.loam (ctxBase + 88 * 16)).1.d.toNat 0 2

/-- Rebuild the accumulators and row 88 from the reserved Loam area (R98, R180). An uncorrectable or tagged word
sets POISON. -/
def ctxLoad (c : CellState) : CellState × List Fx :=
  let r := loadWords c.loam 1 ctxBase 1440
  let bs := wordBytes r.1
  let v := leNat (bs.take 11264)
  let row := leNat ((bs.drop 11264).take 16)
  let bad := anyBad r.1 || bitOf row 64
  let ks : KState := ⟨32 * field row 16 16, [], [], bad, bitOf row 65, false⟩
  ({ c with
      acc := (List.range 2048).foldl (fun m n => Map.set 0#44 m n (BitVec.ofNat 44 (v / 2 ^ (44 * n)))) []
      mode := BitVec.ofNat 2 (min (field row 0 2) 2)
      arrays := BitVec.ofNat 4 (field row 8 4)
      lfsr := BitVec.ofNat 32 (field row 32 32)
      k := List.replicate 4 ks }, r.2)

/-- CTX_RESTORE (R98, R179). -/
def ctxRestore (c : CellState) : CellState × List Fx :=
  let x := ctxLoad c
  ({ x.1 with mxBusy := 90, downBusy := 90 }, x.2)

/-- The first failing output of the arrays in the mask whose row of the residue list it is (R77, R78). -/
def residueFx (upsets : List (Nat × Nat × Nat)) (mask : Nat) : List Fx :=
  match upsets.find? (fun u => bitOf mask u.1) with
  | none => []
  | some u => [.residue u.1 u.2.1 u.2.2]

/-- SWAP (R66, R68, R70, R73, R77, R85, R117, R180). The accumulators are read into the drain buffer with their
residues compared (`upsets`: outputs (array, row, column) the hardware failed at, in drain order), the preload
is written, and the drain ends 16 steps later. -/
def swapIssue (env : CellEnv) (old : Mem) (c : CellState) (w : BitVec 64) (upsets : List (Nat × Nat × Nat)) :
    CellState × List Fx :=
  let f := swapF w
  if f.mode = 3#2 then (c, [.slotIllegal 0])
  else if (drainFmt f.drain).isNone then (c, [.mxIllegal 88])
  else if f.drain = 2 ∧ ¬ env.training then (c, [.mxIllegal 89])
  else if f.mode ≠ c.mode ∧ f.mask ≠ 0xF then (c, [.mxIllegal 66])
  else
    let nOut := (maskArrays f.mask).length * 512
    match formTile env c f.dag none, formTile env c f.sag none,
        (if f.preload = 1 ∨ f.preload = 2 then formTile env c f.pag none else .ok ⟨0, 0, 0⟩) with
    | .error e, _, _ => (c, [e])
    | _, .error e, _ => (c, [e])
    | _, _, .error e => (c, [e])
    | .ok d, .ok s, .ok p =>
      let sLen := if f.stats then 8 + 8 * modeRows c.mode else 8
      if ¬ inTile d.addr (nOut * drainBytes f.drain) then (c, [.agRange f.dag (d.addr + nOut * drainBytes f.drain)])
      else if ¬ inTile s.addr sLen then (c, [.agRange f.sag (s.addr + sLen)])
      else if ¬ inTile p.addr (nOut * 4) ∧ f.preload = 2 then (c, [.agRange f.pag (p.addr + nOut * 4)])
      else
        let arrs := maskArrays f.mask
        let opened := arrs.any (fun a => decide ((listGet KState.reset c.k a).a ≠ []))
        let rfx := residueFx upsets f.mask
        let poison := arrs.any (fun a => (listGet KState.reset c.k a).poison)
        let residue := arrs.any (fun a => (listGet KState.reset c.k a).residue) || decide (rfx ≠ [])
        let illegal := arrs.any (fun a => (listGet KState.reset c.k a).illegal) || opened
        let masked := f.stats && f.maskEn
        let dr : Drain := ⟨w, c.mode, d, s, c.acc.filter (fun e => bitOf f.mask (e.1 / 512)), poison, residue, illegal,
          if masked then c.maskDesc else none, c.tb, 16⟩
        let stall := max (modeRows c.mode) (modeRows f.mode)
        let c1 := { c with
          drain := some dr
          mxBusy := stall
          lfsr := if f.drain = 2 then lfsrSeed env.seed else c.lfsr
          tb := if masked then c.tb + arrs.length * modeCols c.mode else c.tb
          tbUsed := if masked then c.tb else c.tbUsed
          arrays := c.arrays &&& ~~~(BitVec.ofNat 4 f.mask)
          mode := f.mode
          k := c.k.zipIdx.map (fun e => if bitOf f.mask e.2 then KState.reset else e.1) }
        if f.preload = 3 then
          let x := ctxLoad c1
          let wrong := ctxMode c ≠ f.mode.toNat
          ({ x.1 with
              mode := f.mode
              mxBusy := 90
              downBusy := 90
              k := if wrong then x.1.k.map (fun k => { k with illegal := true }) else x.1.k },
            rfx ++ x.2 ++ (if opened then [.mxIllegal 68] else []) ++ (if wrong then [.mxIllegal 180] else []))
        else
          let x := preload old f p c1.acc
          let mk := markPoison { c1 with acc := x.1 } f.mask x.2.1
          (mk.1, rfx ++ x.2.2 ++ mk.2 ++ (if opened then [.mxIllegal 68] else []))

/-! ### The drain path -/

/-- Depth of node i: its number of ancestors, by the parents field of the descriptor (R302); `fuel` bounds the
climb. -/
def nodeDepth (parents : Nat) (fuel i : Nat) : Nat :=
  match fuel with
  | 0 => 0
  | f + 1 => if i = 0 then 0 else 1 + nodeDepth parents f (field parents (4 * i) 4)

/-- Node `a` is `i` or an ancestor of `i`. -/
def isAncestor (parents : Nat) (fuel a i : Nat) : Bool :=
  match fuel with
  | 0 => false
  | f + 1 => a == i || (decide (0 < i) && isAncestor parents f a (field parents (4 * i) 4))

/-- The parent field in force: the snapshot's tree, or a chain (R300, R302). -/
def maskVisible (desc : BitVec 512) (r s : Nat) : Bool :=
  let v := desc.toNat
  let tree := bitOf v 122
  let slotFirst := field v 128 10
  let slotCount := field v 138 10
  let posBase := field v 152 32
  let wrapSlot := field v 184 10
  let length := field v 228 32
  let ncand := field v 260 12
  let parents := field v 280 64
  let window := field v 344 32
  let tpp := field v 384 10
  let nmax := field v 394 12
  let ring := field v 406 16
  let i := if nmax = 0 then 0 else r % nmax
  let pk : Int := (posBase : Int) + s - (if wrapSlot ≤ s then (ring * tpp : Nat) else 0 : Nat)
  let depth := if tree then nodeDepth parents 16 i else i
  if ncand ≤ i then false
  else if slotFirst + slotCount ≤ s then false
  else if pk < 0 then false
  else if pk < length then window = 0 || decide (((length + depth : Nat) : Int) - pk < window)
  else if pk < (length + ncand : Nat) then
    let n := (pk - length).toNat
    if tree then isAncestor parents 17 n i else decide (n ≤ i)
  else false

/-- One position's step of the fused row statistics (R92). -/
def statStep (alpha : BitVec 32) (acc : BitVec 44) (masked : Bool) (ms : BitVec 32 × BitVec 32) :
    BitVec 32 × BitVec 32 :=
  let x := if masked then f32NegInf else f32Mul (toF32 (ac44 acc)) alpha
  if f32IsNaN x || f32IsNaN ms.1 then (f32NaN, f32NaN)
  else if x = f32NegInf then ms
  else if (f32 ms.1).lt (f32 x) then
    let s := f32Mul ms.2 (f32Exp (f32Sub ms.1 x))
    (x, f32Add s (f32Exp (f32Sub x x)))
  else (ms.1, f32Add ms.2 (f32Exp (f32Sub x ms.1)))

/-- The (m, s) pair of a logical row (R92). -/
def rowStats (dr : Drain) (f : SwapF) (i : Nat) : BitVec 32 × BitVec 32 :=
  let cols := ((maskArrays f.mask).map (fun a => (List.range (modeCols dr.mode)).map (fun j => (i, a, j)))).flatten
  cols.zipIdx.foldl (fun ms e =>
    let masked := match dr.maskDesc with
      | none => false
      | some d => !maskVisible d i (field d.toNat 128 10 + dr.tb + e.2)
    statStep f.alpha (outAcc dr.acc dr.mode e.1) masked ms) (f32NegInf, f32Zero)

/-- The encodings a drain writes, and the LFSR after them (R88, R89). -/
def drainValues (dr : Drain) (f : SwapF) (lfsr : BitVec 32) : List Nat × BitVec 32 :=
  let x := (drainOrder dr.mode f.mask).foldl (fun (st : List Nat × BitVec 32) o =>
    let a := ac44 (outAcc dr.acc dr.mode o)
    if f.drain = 2 then
      let r := lfsr16 st.2
      (drainConvert 2 a r.1 :: st.1, r.2)
    else (drainConvert f.drain a 0 :: st.1, st.2)) ([], lfsr)
  (x.1.reverse, x.2)

/-- TILE_DRAIN: convert and write the tile, its row statistics and its status word (R70, R88 to R96). The values of
a poisoned tile are undefined (R95). -/
def tileDrain (env : CellEnv) (c : CellState) : CellState × List Fx :=
  match c.drain with
  | none => (c, [])
  | some dr =>
    let f := swapF dr.word
    let fmt := (drainFmt f.drain).getD fmtF32
    let eb := drainBytes f.drain
    let order := drainOrder dr.mode f.mask
    let dv := drainValues dr f c.lfsr
    let nb := order.length * eb
    let st := ((List.range (modeRows dr.mode)).map (fun i =>
      let ms := rowStats dr f i
      leBytes 4 ms.1.toNat ++ leBytes 4 ms.2.toNat)).flatten
    let freeN := if dr.poison then nb + st.length else 0
    let vals := if dr.poison then (List.range nb).map (fun i => Config.freeByte (env.free + i))
      else (dv.1.map (leBytes eb)).flatten
    let encs := if dr.poison then
        (List.range order.length).map (fun i => leNat ((vals.drop (i * eb)).take eb))
      else dv.1
    let stats := if dr.poison then (List.range st.length).map (fun i => Config.freeByte (env.free + nb + i)) else st
    let bad := dr.poison || dr.residue || dr.illegal
    let nf := (order.zip encs).filter (fun e => (fmt.decode e.2).nonfinite)
    let word : Nat := statusBase dr.poison dr.residue dr.illegal f.stats dr.mode f.mask f.drain +
      match nf.head? with
      | none => 0
      | some e =>
        let a := outAcc dr.acc dr.mode e.1
        let conv := !acNonfinite a
        8 + 16 * b2n conv + e.1.1 * 2 ^ 8 + e.1.2.1 * 2 ^ 12 + e.1.2.2 * 2 ^ 16 +
          (if conv then 0 else acPayload a) * 2 ^ 32 + nf.length * 2 ^ 48
    let t1 := writeTile c.tile dr.d.addr vals bad
    let t2 := writeTile t1 dr.s.addr (leBytes 8 word) bad
    let t3 := if f.stats then writeTile t2 (dr.s.addr + 8) stats bad else t2
    ({ c with
        tile := t3
        drain := none
        lfsr := dv.2
        gradNf := c.gradNf || (env.training && (bad || decide (nf ≠ []))) },
      (if nf = [] then [] else [.nonfinite (BitVec.ofNat 64 word)]) ++
      (if freeN = 0 then [] else [.freeUsed freeN]))

/-- The regions an unfinished drain writes meet the byte range (R71). -/
def drainCovers (c : CellState) (a n : Nat) : Bool :=
  match c.drain with
  | none => false
  | some dr =>
    let f := swapF dr.word
    let nb := (maskArrays f.mask).length * 512 * drainBytes f.drain
    let sl := if f.stats then 8 + 8 * modeRows dr.mode else 8
    decide (a < dr.d.addr + nb ∧ dr.d.addr < a + n) || decide (a < dr.s.addr + sl ∧ dr.s.addr < a + n)

/-- The 64-bit word of a debug read (R97). -/
def debugWord (c : CellState) (array pr pc : Nat) : BitVec 64 :=
  let a := Map.get 0#44 c.acc (array * 512 + pr * 32 + pc)
  BitVec.ofNat 64 (a.toNat + acResidue a * 2 ^ 44 + b2n (decide ((listGet KState.reset c.k array).a ≠ [])) * 2 ^ 47)

end Sys2Proof.Machine
end

