-- ==== Sys2Proof/Machine/Vx.lean ====
section
/-!
DEFINITION. The VX slot: the vector unit, MX quantise, and the windrow engine with its side memory
(R89 to R91, R119, R303, R320 to R323, R329, R330).
-/
namespace Sys2Proof.Machine

/-- Fields of a VX word (R119, R321). -/
structure VxF where
  vop : Nat
  sfmt : Nat
  dfmt : Nat
  sr : Bool
  count : Nat
  srcA : Nat
  srcB : Nat
  dst : Nat
  srcC : Nat
  imm : Nat
  sideBase : Nat
  mode1 : Bool
  mask : Bool
deriving DecidableEq, Repr

/-- Read the fields of a VX word; bit numbers are those of the row word less 64 (R119). -/
def vxF (w : BitVec 64) : VxF :=
  let v := w.toNat
  ⟨field v 0 6, field v 6 4, field v 10 4, bitOf v 14, field v 15 11, field v 26 5, field v 31 5, field v 36 5,
   field v 41 5, field v 46 16, field v 41 3, bitOf v 44, bitOf v 45⟩

/-- The operation reads SRC_B as a generator or IMM (R119, R321). -/
def usesB (vop : Nat) : Bool := vop ∈ [1, 2, 3, 4, 5, 11, 13, 14, 15]

/-- A windrow row operation (R321). -/
def isRowOp (vop : Nat) : Bool := decide (11 ≤ vop ∧ vop ≤ 17)

/-- The operation reads or writes the side memory (R321). -/
def usesSide (vop : Nat) (mode1 mask : Bool) : Bool :=
  vop = 11 || vop = 12 || (vop = 13 && !mask) || vop = 14 || vop = 15 || (vop = 16 && mode1)

/-- The word breaks a rule that raises SLOT_ILLEGAL (R119, R123, R321). -/
def vxIllegal (c : CellState) (training : Bool) (w : BitVec 64) : Bool :=
  let f := vxF w
  let rows := if f.imm = 0 then 0 else f.count * 64 / f.imm
  let row := isRowOp f.vop
  decide (17 < f.vop ∨ 8 < f.sfmt ∨ 8 < f.dfmt ∨ field w.toNat 62 2 ≠ 0) ||
  (f.sr && !training) ||
  (decide (f.vop = 7) && !fmtMx f.dfmt) ||
  (row && decide (f.imm ≠ 0 ∧ f.count ≠ 0) &&
    (decide (f.count * 64 % f.imm ≠ 0) ||
     (usesSide f.vop f.mode1 f.mask && decide (2047 < f.sideBase * 256 + (rows - 1))) ||
     (f.mode1 && decide (f.vop = 14) && decide (3 < f.sideBase)) ||
     (f.mask && decide (f.vop ≠ 13 ∧ f.vop ≠ 14)) ||
     (f.mask && c.maskDesc.isNone) ||
     (usesB f.vop && decide (f.srcB = 31)) ||
     (decide (f.vop = 17) && f.mode1 && decide (f.count * 64 ≠ f.imm))))

/-- Form the operand addresses of a VX operation, each only where the operation uses it. -/
def vxAddrs (env : CellEnv) (c : CellState) (f : VxF) : Except Fx (OpAddr × OpAddr × OpAddr × OpAddr) :=
  let none' : OpAddr := ⟨0, 0, 0⟩
  let row := isRowOp f.vop
  let flag := f.vop = 17 ∧ f.mode1
  match (if flag then .ok none' else formTile env c f.srcA (some f.sfmt)),
      (if usesB f.vop ∧ ¬ (f.srcB = 31 ∧ ¬ row) then
        formTile env c f.srcB (some (if f.vop = 11 ∨ f.vop = 13 then 0 else f.sfmt)) else .ok none'),
      (if f.vop = 3 then formTile env c f.srcC (some f.sfmt) else .ok none'),
      (if f.vop = 11 then .ok none'
        else formTile env c f.dst (some (if f.vop = 16 ∨ f.vop = 17 then 0 else f.dfmt))) with
  | .error e, _, _, _ => .error e
  | _, .error e, _, _ => .error e
  | _, _, .error e, _ => .error e
  | _, _, _, .error e => .error e
  | .ok a, .ok b, .ok cc, .ok d => .ok (a, b, cc, d)

/-- Issue a VX operation: check it and form its addresses (R118, R119). A COUNT of 0, and an IMM of 0 of a row
operation, is a no-operation (R15, R321). -/
def vxIssue (env : CellEnv) (c : CellState) (w : BitVec 64) : CellState × List Fx :=
  let f := vxF w
  if f.vop = 0 then (c, [])
  else if vxIllegal c env.training w then (c, [.slotIllegal 1])
  else if f.count = 0 ∨ (isRowOp f.vop ∧ f.imm = 0) then (c, [])
  else
    match vxAddrs env c f with
    | .error e => (c, [e])
    | .ok (a, b, cc, d) => ({ c with vx := some ⟨w, a, b, cc, d, 0, lfsrSeed env.seed, false⟩ }, [])

/-- Elements `i` to `i + n − 1` of an operand, as fp32; whether a word read was invalid; what was counted. -/
def readElems (m : Mem) (o : OpAddr) (fmt i n : Nat) : List (BitVec 32) × Bool × List Fx :=
  let bits := fmtBits fmt
  let lo := i * bits / 8
  let hi := ((i + n) * bits + 7) / 8
  let r := readTile m (o.addr + lo) (hi - lo)
  let v := leNat r.1
  let s := if fmtMx fmt then readTile m (o.scale + i / 32) ((i + n + 31) / 32 - i / 32) else ([], false, [])
  ((List.range n).map (fun k =>
      let x := (fmtOf fmt).decode (field v ((i + k) * bits - 8 * lo) bits)
      toF32 (if fmtMx fmt then scaled x (listGet 0#8 s.1 ((i + k) / 32 - i / 32)).toNat else x)),
    r.2.1 || s.2.1, r.2.2 ++ s.2.2)

/-- Convert one fp32 value to a plain format: the fp8 formats saturate, bf16 may round stochastically
(R88 to R90). -/
def cvtOut (fmt : Nat) (sr : Bool) (x : BitVec 32) (lfsr : BitVec 32) : Nat × BitVec 32 :=
  match fmt with
  | 0 => (fmtF32.encode false (f32 x), lfsr)
  | 1 => if sr then
      let r := lfsr16 lfsr
      (bf16Stochastic (f32 x) r.1, r.2)
    else (fmtBf16.encode false (f32 x), lfsr)
  | 2 => (fmtE4M3.encode true (f32 x), lfsr)
  | _ => (fmtE5M2.encode true (f32 x), lfsr)

/-- The bytes of a run of values in the destination format, with scale bytes for an MX format (log entry 14), and
whether any is a NaN or an infinity (R88 to R91, R329). -/
def outElems (fmt : Nat) (sr : Bool) (lfsr : BitVec 32) (xs : List (BitVec 32)) : Bytes × Bytes × Bool × BitVec 32 :=
  if fmtMx fmt then
    let q := (chunks (xs.length / 32 + 1) 32 xs).map (mxQuant (fmtOf fmt))
    (packElems (fmtBits fmt) (q.map (fun e => e.2)).flatten, q.map (fun e => BitVec.ofNat 8 e.1),
      q.any (fun e => e.1 = 0xFF), lfsr)
  else
    let r := xs.foldl (fun (st : List Nat × BitVec 32) x =>
      let e := cvtOut fmt sr x st.2
      (e.1 :: st.1, e.2)) ([], lfsr)
    (packElems (fmtBits fmt) r.1.reverse, [],
      r.1.any (fun e => ((fmtOf fmt).decode e).nonfinite), r.2)

/-- Write a run of values at element `i` of the destination; the run carries the tag once a tagged word was
read (R96). GRAD_NF follows R329. -/
def putElems (env : CellEnv) (c : CellState) (o : OpAddr) (fmt : Nat) (sr bad : Bool) (lfsr : BitVec 32)
    (i : Nat) (xs : List (BitVec 32)) : CellState × BitVec 32 :=
  let e := outElems fmt sr lfsr xs
  let t := writeTile c.tile (o.addr + i * fmtBits fmt / 8) e.1 bad
  let t' := if fmtMx fmt then writeTile t (o.scale + i / 32) e.2.1 bad else t
  ({ c with tile := t', gradNf := c.gradNf || (env.training && (bad || e.2.2.1)) }, e.2.2.2)

/-! ### Side memory (R320) -/

/-- Read entry `e`: W0, W1 and kind, whether invalid, what is counted. -/
def readSide (c : CellState) (e : Nat) : (BitVec 32 × BitVec 32 × Nat) × Bool × List Fx :=
  let s := Map.get SideEntry.reset c.side e
  let x := hsiaoDecode s.w s.check
  ((BitVec.ofNat 32 x.2.toNat, BitVec.ofNat 32 (x.2.toNat / 2 ^ 32), s.kind.toNat), x.1.invalid, classFx 0 e x.1)

/-- Write entry `e`. -/
def writeSide (c : CellState) (e : Nat) (w0 w1 : BitVec 32) (kind : Nat) (bad : Bool) : CellState :=
  let d := BitVec.ofNat 64 (w0.toNat + w1.toNat * 2 ^ 32)
  let k := hsiaoCheck d
  { c with side := Map.set SideEntry.reset c.side e ⟨d, if bad then k ^^^ tagMask else k, BitVec.ofNat 3 kind⟩ }

/-! ### Row arithmetic (R322): ascending order, one rounding per operation -/

/-- Sum of a row. -/
def rowSum (xs : List (BitVec 32)) : BitVec 32 := xs.foldl f32Add f32Zero

/-- rowstat(x, eps, rms): mean and reciprocal standard deviation, or RMS (R322). -/
def rowStat (xs : List (BitVec 32)) (eps : BitVec 32) (rms : Bool) : BitVec 32 × BitVec 32 :=
  let rn := f32Rcp (f32OfNat xs.length)
  let mean := if rms then f32Zero else f32Mul (rowSum xs) rn
  let q := xs.foldl (fun q x => let d := f32Sub x mean; f32Fma d d q) f32Zero
  (mean, f32Rsqrt (f32Add (f32Mul q rn) eps))

/-- norm_bwd (R322). -/
def normBwd (xs dys : List (BitVec 32)) (mean rstd : BitVec 32) (rms : Bool) : List (BitVec 32) :=
  let rn := f32Rcp (f32OfNat xs.length)
  let xh := xs.map (fun x => f32Mul (f32Sub x mean) rstd)
  let a := if rms then f32Zero else f32Mul (rowSum dys) rn
  let b := f32Mul ((dys.zip xh).foldl (fun b e => f32Fma e.1 e.2 b) f32Zero) rn
  (dys.zip xh).map (fun e => f32Mul (f32Fma (f32Neg e.2) b (f32Sub e.1 a)) rstd)

/-- softmax_bwd; `masked j` says which positions are masked (R322). -/
def softmaxBwd (xs dps : List (BitVec 32)) (m s : BitVec 32) (d : Option (BitVec 32)) (masked : Nat → Bool) :
    List (BitVec 32) :=
  if m = f32NegInf then xs.map (fun _ => f32Zero)
  else
    let r := f32Rcp s
    let p := xs.zipIdx.map (fun e => if masked e.2 then f32Zero else f32Mul (f32Exp (f32Sub e.1 m)) r)
    let t := match d with
      | some d => d
      | none => (p.zip dps).foldl (fun t e => f32Fma e.1 e.2 t) f32Zero
    (p.zip dps).map (fun e => if e.1 = f32Zero then f32Zero else f32Mul e.1 (f32Sub e.2 t))

/-- combine(m, s, o, mt, st, ot): fold one tile's partial result into a row's state (R304). -/
def attnCombine (m s : BitVec 32) (o : List (BitVec 32)) (mt st : BitVec 32) (ot : List (BitVec 32)) :
    BitVec 32 × BitVec 32 × List (BitVec 32) :=
  if mt = f32NegInf then (m, s, o)
  else if m = f32NegInf then (mt, st, ot)
  else
    let mn := f32Max m mt
    let a := f32Exp (f32Sub m mn)
    let b := f32Exp (f32Sub mt mn)
    (mn, f32Fma st b (f32Mul s a), List.zipWith (fun x y => f32Fma y b (f32Mul x a)) o ot)

/-- finish(m, s, o): the output row; an empty row is zeros (R304, R305). -/
def attnFinish (s : BitVec 32) (o : List (BitVec 32)) : List (BitVec 32) :=
  if f32 s = f32 f32Zero then o.map (fun _ => f32Zero) else o.map (fun x => f32Mul x (f32Rcp s))

/-- Element j of row k is masked by the mask descriptor in force (R302, R321). -/
def vxMasked (c : CellState) (mask : Bool) (row j : Nat) : Bool :=
  match c.maskDesc with
  | none => false
  | some d => mask && !maskVisible d row (field d.toNat 128 10 + c.tbUsed + j)

/-- What one row of a windrow row operation computes. -/
structure RowOut where
  /-- values for DST at the row's place, and their format code -/
  vals : List (BitVec 32)
  /-- W0, W1 and kind of a side entry to write -/
  side : Option (BitVec 32 × BitVec 32 × Nat)
  /-- the row read an entry of the wrong kind: its number -/
  wrong : Option Nat
  bad : Bool
  fx : List Fx

/-- Row `k` of a windrow row operation (R303, R321, R322, R330). -/
def vxRow (old : Mem) (c : CellState) (r : VxRun) (k : Nat) : RowOut :=
  let f := vxF r.word
  let n := f.imm
  let e := f.sideBase * 256 + k
  let flag := decide (f.vop = 17) && f.mode1
  let x := if flag then ([], false, []) else readElems old r.a f.sfmt (k * n) n
  match f.vop with
  | 11 =>
    let eps := readElems old r.b 0 0 1
    let st := rowStat x.1 (listGet 0#32 eps.1 0) f.mode1
    ⟨[], some (st.1, st.2, if f.mode1 then 3 else 2), none, x.2.1 || eps.2.1, x.2.2 ++ eps.2.2⟩
  | 12 =>
    let s := readSide c e
    if s.1.2.2 ≠ 2 ∧ s.1.2.2 ≠ 3 then ⟨[], none, some e, false, []⟩
    else ⟨x.1.map (fun v => f32Mul (f32Sub v s.1.1) s.1.2.1), none, none, x.2.1 || s.2.1, x.2.2 ++ s.2.2⟩
  | 13 =>
    let ms := readElems old r.b 0 (2 * k) 2
    let m := listGet 0#32 ms.1 0
    let s := listGet 0#32 ms.1 1
    let vals := x.1.zipIdx.map (fun v =>
      if m = f32NegInf || vxMasked c f.mask k v.2 then f32Zero
      else
        let p := f32Exp (f32Sub v.1 m)
        if f.mode1 then f32Mul p (f32Rcp s) else p)
    ⟨vals, if f.mask then none else some (m, s, 1), none, x.2.1 || ms.2.1, x.2.2 ++ ms.2.2⟩
  | 14 =>
    let s := readSide c e
    let d := readSide c (e + 1024)
    if s.1.2.2 ≠ 1 then ⟨[], none, some e, false, []⟩
    else if f.mode1 ∧ d.1.2.2 ≠ 4 then ⟨[], none, some (e + 1024), false, []⟩
    else
      let dp := readElems old r.b f.sfmt (k * n) n
      let vals := softmaxBwd x.1 dp.1 s.1.1 s.1.2.1 (if f.mode1 then some d.1.1 else none) (vxMasked c f.mask k)
      ⟨vals, none, none, x.2.1 || dp.2.1 || s.2.1 || (f.mode1 && d.2.1),
        x.2.2 ++ dp.2.2 ++ s.2.2 ++ if f.mode1 then d.2.2 else []⟩
  | 15 =>
    let s := readSide c e
    if s.1.2.2 ≠ 2 ∧ s.1.2.2 ≠ 3 then ⟨[], none, some e, false, []⟩
    else
      let dy := readElems old r.b f.sfmt (k * n) n
      ⟨normBwd x.1 dy.1 s.1.1 s.1.2.1 (s.1.2.2 = 3), none, none, x.2.1 || dy.2.1 || s.2.1, x.2.2 ++ dy.2.2 ++ s.2.2⟩
  | 16 =>
    let s := rowSum x.1
    ⟨[s], if f.mode1 then some (s, f32Zero, 4) else none, none, x.2.1, x.2.2⟩
  | _ =>
    if flag then ⟨List.replicate n (if c.gradNf then f32One else f32Zero), none, none, false, []⟩
    else ⟨[match x.1 with | [] => f32NegInf | v :: t => t.foldl f32Max v], none, none, x.2.1, x.2.2⟩

/-- Bytes from one element index to another of an operand in a format lie in tile memory. -/
def elemsInTile (o : OpAddr) (fmt i n : Nat) : Bool :=
  inTile (o.addr + i * fmtBits fmt / 8) ((n * fmtBits fmt + 7) / 8) &&
    (!fmtMx fmt || inTile (o.scale + i / 32) ((n + 31) / 32))

/-- Carry out row `k` and write what it gives. -/
def vxRowApply (env : CellEnv) (old : Mem) (c : CellState) (r : VxRun) (k : Nat) : CellState × List Fx × Bool :=
  let f := vxF r.word
  let flag := decide (f.vop = 17) && f.mode1
  let perRow := (f.vop = 16 ∨ f.vop = 17) ∧ ¬ flag
  let dfmt := if f.vop = 16 ∨ f.vop = 17 then 0 else f.dfmt
  let di := if perRow then k else k * f.imm
  let dn := if perRow then 1 else f.imm
  if ¬ flag ∧ ¬ elemsInTile r.a f.sfmt (k * f.imm) f.imm then (c, [.agRange f.srcA (r.a.addr + k * f.imm)], false)
  else if f.vop ≠ 11 ∧ ¬ elemsInTile r.d dfmt di dn then (c, [.agRange f.dst (r.d.addr + di)], false)
  else
    let o := vxRow old c r k
    match o.wrong with
    | some e => (c, [.sideKind f.vop e], false)
    | none =>
      let bad := r.bad || o.bad
      let c1 := if o.vals = [] then (c, r.lfsr) else putElems env c r.d dfmt f.sr bad r.lfsr di o.vals
      let c2 := match o.side with
        | none => c1.1
        | some (w0, w1, kind) => writeSide c1.1 (f.sideBase * 256 + k) w0 w1 kind bad
      let c3 := if flag then { c2 with gradNf := false, flagRead := c.gradNf } else c2
      ({ c3 with vx := some { r with lfsr := c1.2, bad := bad } }, o.fx, true)

/-- One 64-element unit of an element-wise operation (R90, R91, R119). -/
def vxElems (env : CellEnv) (old : Mem) (c : CellState) (r : VxRun) : CellState × List Fx × Bool :=
  let f := vxF r.word
  let i := 64 * r.unit
  if ¬ elemsInTile r.a f.sfmt i 64 then (c, [.agRange f.srcA (r.a.addr + i)], false)
  else if ¬ elemsInTile r.d f.dfmt i 64 then (c, [.agRange f.dst (r.d.addr + i)], false)
  else
    let imm := toF32 (fmtBf16.decode f.imm)
    let a := readElems old r.a f.sfmt i 64
    let b := if usesB f.vop then
        (if f.srcB = 31 then (List.replicate 64 imm, false, []) else readElems old r.b f.sfmt i 64)
      else (List.replicate 64 0#32, false, [])
    let cc := if f.vop = 3 then readElems old r.c f.sfmt i 64 else (List.replicate 64 0#32, false, [])
    let op (x y z : BitVec 32) : BitVec 32 :=
      match f.vop with
      | 1 => f32Add x y
      | 2 => f32Mul x y
      | 3 => f32Fma x y z
      | 4 => f32Max x y
      | 5 => f32Min x y
      | 8 => f32Exp x
      | 9 => f32Rcp x
      | 10 => f32Rsqrt x
      | _ => x
    let vals := List.zipWith (fun xy z => op xy.1 xy.2 z) (a.1.zip b.1) cc.1
    let bad := r.bad || a.2.1 || b.2.1 || cc.2.1
    let c1 := putElems env c r.d f.dfmt f.sr bad r.lfsr i vals
    ({ c1.1 with vx := some { r with lfsr := c1.2, bad := bad } }, a.2.2 ++ b.2.2 ++ cc.2.2, true)

/-- The rows whose last element falls in 64-element unit `u` (log entry 15). -/
def rowsOfUnit (imm u : Nat) : List Nat :=
  (List.range ((u + 1) * 64 / imm)).drop (u * 64 / imm)

/-- One step of the running VX operation: 64 elements (R119). `old` is tile memory at the start of the step. -/
def vxStep (env : CellEnv) (old : Mem) (c : CellState) : CellState × List Fx :=
  match c.vx with
  | none => (c, [])
  | some r =>
    let f := vxF r.word
    let x := if isRowOp f.vop then
        (rowsOfUnit f.imm r.unit).foldl (fun (st : CellState × List Fx × Bool) k =>
          if st.2.2 then
            let y := vxRowApply env old st.1 (st.1.vx.getD r) k
            (y.1, st.2.1 ++ y.2.1, y.2.2)
          else st) (c, [], true)
      else vxElems env old c r
    let r' := x.1.vx.getD r
    if x.2.2 ∧ r.unit + 1 < f.count then ({ x.1 with vx := some { r' with unit := r.unit + 1 } }, x.2.1)
    else ({ x.1 with vx := none }, x.2.1)

end Sys2Proof.Machine
end

