-- ==== Sys2Proof/Machine/Mv.lean ====
section
/-!
DEFINITION. The MV slot: copies, Loam moves, links, mesh and data lane (R54, R115, R120, R166 to R173).
GATHER, which reads the memory stacks, stands in Machine/Attn.lean.
-/
namespace Sys2Proof.Machine

/-- Fields of an MV word (R120). -/
structure MvF where
  op : Nat
  txl : Nat
  rxl : Nat
  count : Nat
  src : Nat
  dst : Nat
  route : Nat
  q : Nat
deriving DecidableEq, Repr

/-- Read the fields of an MV word; bit numbers are those of the row word less 128 (R120). -/
def mvF (w : BitVec 64) : MvF :=
  let v := w.toNat
  ⟨field v 0 4, field v 4 3, field v 7 3, field v 10 12, field v 22 5, field v 27 5, field v 32 6, field v 38 2⟩

/-- What reaches a cell's move unit in a step: the oldest unit on its receiving link, room on its sending link,
the oldest mesh flit that has arrived, and the bytes on its row's data lane. -/
structure MvIn where
  linkIn : Option (List TWord)
  linkRoom : Bool
  /-- the sending and the receiving link name a neighbour (R120) -/
  txPeer : Bool
  rxPeer : Bool
  meshIn : Option (List TWord)
  laneIn : Option (List TWord)
  /-- bit errors the crossing or link adds to the words of this unit (72 bits each: data, then check) -/
  flips : List (BitVec 72)
deriving DecidableEq, Repr

/-- A word after a crossing or link that adds an error: checked on arrival, corrected or marked (R173). -/
def crossWord (t : TWord) (mask : BitVec 72) : TWord × List Fx :=
  if mask = 0#72 then (t, [])
  else
    let c := if t.bad then hsiaoCheck t.d ^^^ tagMask else hsiaoCheck t.d
    let x := hsiaoDecode (t.d ^^^ BitVec.ofNat 64 mask.toNat) (c ^^^ BitVec.ofNat 8 (mask.toNat / 2 ^ 64))
    (⟨x.2, x.1.invalid⟩, classFx 2 0 x.1)

/-- The words of a unit after the crossing. -/
def crossWords (ts : List TWord) (masks : List (BitVec 72)) : List TWord × List Fx :=
  let r := ts.zipIdx.map (fun e => crossWord e.1 (listGet 0#72 masks e.2))
  (r.map (fun e => e.1), (r.map (fun e => e.2)).flatten)

/-- Form the addresses an MV operation uses: source and destination (R120, R167; the exchange's two sides in
log entry 16). -/
def mvAddrs (env : CellEnv) (c : CellState) (f : MvF) : Except Fx (OpAddr × OpAddr) :=
  let no : Except Fx OpAddr := .ok ⟨0, 0, 0⟩
  let sp (g : Nat) : Nat := field (Map.get 0#256 env.gens g).toNat 0 4
  let s := match f.op with
    | 1 => formTile env c f.src none
    | 2 => formLoam env c f.src
    | 3 => formTile env c f.src none
    | 4 => if sp f.src = 1 then formLoam env c f.src else formTile env c f.src none
    | 5 => if f.txl = 0 then no else formTile env c f.src none
    | 6 => formTile env c f.src none
    | 8 => formTile env c f.src none
    | _ => no
  let d := match f.op with
    | 3 => formLoam env c f.dst
    | 4 => if sp f.src = 1 then formTile env c f.dst none else formLoam env c f.dst
    | 5 => if f.rxl = 0 then no else formTile env c f.dst none
    | 6 => no
    | 8 => no
    | _ => formTile env c f.dst none
  match s, d with
  | .error e, _ => .error e
  | _, .error e => .error e
  | .ok s, .ok d => .ok (s, d)

/-- Issue an MV operation (R120, R123); a COUNT of 0 is a no-operation (R15). -/
def mvIssue (env : CellEnv) (c : CellState) (w : BitVec 64) : CellState × List Fx :=
  let f := mvF w
  if f.op = 0 then (c, [])
  else if 10 < f.op ∨ 5 < f.txl ∨ 5 < f.rxl ∨ field w.toNat 40 24 ≠ 0 then (c, [.slotIllegal 2])
  else if f.count = 0 then (c, [])
  else
    match mvAddrs env c f with
    | .error e => (c, [e])
    | .ok (s, d) => ({ c with mv := some ⟨w, s, d, 0, 0⟩ }, [])

/-- Finish the unit, or the operation with its last one. -/
def mvNext (c : CellState) (r : MvRun) : CellState :=
  let f := mvF r.word
  let txDone := f.op = 5 ∧ f.txl = 0 ∨ f.count ≤ r.tx
  let rxDone := (f.op = 5 ∧ f.rxl = 0) ∨ f.op ≠ 5 ∨ f.count ≤ r.rx
  { c with mv := if txDone ∧ rxDone then none else some r }

/-- Move tile bytes of one unit: `n` words from word `s` to word `d`, tags with them (R171). -/
def copyWords (old c : Mem) (s d n : Nat) : Mem × List Fx :=
  let r := loadWords old 0 s n
  (storeWords c d r.1, r.2)

/-- A unit leaves tile memory: range error of a generator. -/
def mvRange (c : CellState) (gen addr : Nat) : CellState × List Fx := ({ c with mv := none }, [.agRange gen addr])

/-- One Loam row toward tile memory: read in this step, readable two steps on (R168). -/
def loamDown (old : CellState) (c : CellState) (row tileAddr : Nat) (masks : List (BitVec 72)) : CellState × List Fx :=
  let r := loadWords old.loam 1 (row * 16) 16
  let x := crossWords r.1 masks
  ({ c with landing := c.landing ++ [⟨2, tileAddr / 8, x.1⟩] }, r.2 ++ x.2)

/-- One row of tile memory toward Loam: readable in the next step (R168, R173). -/
def loamUp (old : CellState) (c : CellState) (row tileAddr : Nat) (masks : List (BitVec 72)) : CellState × List Fx :=
  let r := loadWords old.tile 0 (tileAddr / 8) 16
  let x := crossWords r.1 masks
  ({ c with loam := storeWords c.loam (row * 16) x.1 }, r.2 ++ x.2)

/-- One step of the running MV operation. `old` is the cell at the start of the step (R115). -/
def mvStep (old c : CellState) (inp : MvIn) : CellState × List Fx :=
  match c.mv with
  | none => (c, [])
  | some r =>
    let f := mvF r.word
    let i := r.tx
    let done := { r with tx := r.tx + 1 }
    match f.op with
    | 1 =>
      let s := r.src.addr + 32 * i
      let d := r.dst.addr + 32 * i
      if ¬ inTile s 32 then mvRange c f.src s
      else if ¬ inTile d 32 then mvRange c f.dst d
      else
        let x := readTile old.tile s 32
        if s % 8 = 0 ∧ d % 8 = 0 then
          let y := copyWords old.tile c.tile (s / 8) (d / 8) 4
          (mvNext { c with tile := y.1 } done, y.2)
        else (mvNext { c with tile := writeTile c.tile d x.1 x.2.1 } done, x.2.2)
    | 2 =>
      let row := r.src.addr / 128 + i
      let d := r.dst.addr + 128 * i
      if ¬ loamRowOk row then mvRange c f.src (row * 128)
      else if ¬ inTile d 128 then mvRange c f.dst d
      else
        let x := loamDown old c row d inp.flips
        (mvNext x.1 done, x.2)
    | 3 =>
      let row := r.dst.addr / 128 + i
      let s := r.src.addr + 128 * i
      if ¬ loamRowOk row then mvRange c f.dst (row * 128)
      else if ¬ inTile s 128 then mvRange c f.src s
      else
        let x := loamUp old c row s inp.flips
        (mvNext x.1 done, x.2)
    | 4 =>
      let loamSide := if r.src.space = 1 then r.src else r.dst
      let tileSide := if r.src.space = 1 then r.dst else r.src
      let row := loamSide.addr / 128 + i
      let t := tileSide.addr + 128 * i
      if ¬ loamRowOk row then mvRange c (if r.src.space = 1 then f.src else f.dst) (row * 128)
      else if ¬ inTile t 128 then mvRange c (if r.src.space = 1 then f.dst else f.src) t
      else
        let x := loamDown old c row t inp.flips
        let y := loamUp old x.1 row t []
        (mvNext y.1 done, x.2 ++ y.2)
    | 5 =>
      let s := r.src.addr + 256 * r.tx
      let d := r.dst.addr + 256 * r.rx
      let wantTx := f.txl ≠ 0 ∧ r.tx < f.count
      let wantRx := f.rxl ≠ 0 ∧ r.rx < f.count
      if wantTx ∧ ¬ inTile s 256 then mvRange c f.src s
      else if wantRx ∧ ¬ inTile d 256 then mvRange c f.dst d
      else
        let tx := if wantTx ∧ (inp.linkRoom ∨ ¬ inp.txPeer) then
            let x := readTile old.tile s 256
            let ws := (toWords x.1).map (fun w => { w with bad := x.2.1 })
            let ts := if s % 8 = 0 then (loadWords old.tile 0 (s / 8) 32).1 else ws
            (1, (if inp.txPeer then [Fx.linkSend f.txl ts] else []) ++ x.2.2)
          else (0, [])
        let zero : List TWord := List.replicate 32 ⟨0#64, false⟩
        let rx := if wantRx then
            (if ¬ inp.rxPeer then (1, c.tile |> fun t => writeTile t d (wordBytes zero) false, [])
            else match inp.linkIn with
              | none => (0, c.tile, [])
              | some ts =>
                let x := crossWords ts inp.flips
                let t := if d % 8 = 0 then storeWords c.tile (d / 8) x.1
                  else writeTile c.tile d (wordBytes x.1) (anyBad x.1)
                (1, t, x.2 ++ [Fx.linkTake f.rxl]))
          else (0, c.tile, [])
        (mvNext { c with tile := rx.2.1 } { r with tx := r.tx + tx.1, rx := r.rx + rx.1 }, tx.2 ++ rx.2.2)
    | 6 =>
      let s := r.src.addr + 64 * i
      if ¬ inTile s 64 then mvRange c f.src s
      else
        let x := readTile old.tile s 64
        let ts := if s % 8 = 0 then (loadWords old.tile 0 (s / 8) 8).1
          else (toWords x.1).map (fun w => { w with bad := x.2.1 })
        (mvNext c done, x.2.2 ++ [.meshSend f.route ts])
    | 7 =>
      let d := r.dst.addr + 64 * i
      if ¬ inTile d 64 then mvRange c f.dst d
      else match inp.meshIn with
        | none => (c, [])
        | some ts =>
          let x := crossWords ts inp.flips
          let t := if d % 8 = 0 then storeWords c.tile (d / 8) x.1
            else writeTile c.tile d (wordBytes x.1) (anyBad x.1)
          (mvNext { c with tile := t } done, x.2 ++ [.meshTake])
    | 8 =>
      let s := r.src.addr + 128 * i
      if ¬ inTile s 128 then mvRange c f.src s
      else
        let x := readTile old.tile s 128
        let ts := if s % 8 = 0 then (loadWords old.tile 0 (s / 8) 16).1
          else (toWords x.1).map (fun w => { w with bad := x.2.1 })
        (mvNext c done, x.2.2 ++ [.laneDrive ts])
    | 9 =>
      let d := r.dst.addr + 128 * i
      if ¬ inTile d 128 then mvRange c f.dst d
      else match inp.laneIn with
        | none => (c, [])
        | some ts =>
          let x := crossWords ts inp.flips
          let t := if d % 8 = 0 then storeWords c.tile (d / 8) x.1
            else writeTile c.tile d (wordBytes x.1) (anyBad x.1)
          (mvNext { c with tile := t } done, x.2)
    | _ => ({ c with mv := none }, [])

/-- The end of a step: rows on their way land, and occupied times run down (R72, R168). -/
def cellTick (c : CellState) : CellState :=
  let ls := c.landing.map (fun l => { l with left := l.left - 1 })
  { c with
    tile := ls.foldl (fun t l => if l.left = 0 then storeWords t l.word l.data else t) c.tile
    landing := ls.filter (fun l => decide (l.left ≠ 0))
    mxBusy := c.mxBusy - 1
    upBusy := c.upBusy - 1
    downBusy := c.downBusy - 1
    drain := c.drain.map (fun d => { d with left := d.left - 1 }) }

/-- Everything on its way into tile memory lands at once: an operation sent alone ends before the next. -/
def landAll (c : CellState) : CellState :=
  { c with
    tile := c.landing.foldl (fun t l => storeWords t l.word l.data) c.tile
    landing := [] }

end Sys2Proof.Machine
end

