-- ==== Sys2Proof/Machine/CellRun.lean ====
section
/-!
DEFINITION. The cells as part of the module: what a cell's operation causes outside it, its links, lane and mesh, gathers
through its L1, and one step of its units (R44 to R57, R78, R79, R115 to R120, R168 to R182, R239, R301).
-/
namespace Sys2Proof.Machine

/-! ### What the planting map and the stream give a cell -/

/-- The role bound to a position (R124). -/
def Mod.roleAt (m : Mod) (cell : Nat) : Option Role :=
  let b := (rowOf cell, logicalOf m.plan cell)
  m.planting.active.roles.find? (fun r => r.bound == some b)

/-- The loaded image is a training image. -/
def Mod.training (m : Mod) : Bool := match m.boot.image with | some i => i.training | none => false

/-- The index of a loop counter: 0 when it is not on the stack (R112). -/
def Mod.loopIndex (m : Mod) (c : Nat) : Nat :=
  match m.stream.loops.find? (fun l => l.ctr == c) with
  | some l => l.index
  | none => 0

/-- What the stream and the planting map give a cell. -/
def Mod.cellEnv (m : Mod) (cell : Nat) : CellEnv :=
  let r := m.roleAt cell
  ⟨cell, (match r with | some x => x.gens | none => []), (match r with | some x => x.seed | none => 0#32),
    m.stream.rep, (List.range 8).map m.loopIndex, m.training, m.clock.freeCtr⟩

/-- BUNDLE_POS (R133). -/
def Mod.bundlePos (m : Mod) : BitVec 64 :=
  BitVec.ofNat 64 (m.stream.pos % 2 ^ 40 + m.stream.rep % 2 ^ 16 * 2 ^ 40 + m.stream.loops.length * 2 ^ 56)

/-! ### What an operation causes outside its cell -/

/-- Change one cell. -/
def Mod.onCell (m : Mod) (cell : Nat) (f : CellState → CellState) : Mod := m.setCell cell (f (m.cell cell))

/-- RESIDUE_MISMATCH, and RESIDUE_REPEAT for a second one in the array within 24 h (R78, R79). -/
def Mod.residueFound (m : Mod) (cell array row col : Nat) : Mod :=
  let k := cell * 4 + array
  let last := Map.get 0 m.boot.mismatches k
  let again := decide (last ≠ 0 ∧ m.clock.timeUs + 1 - last < 86400000000)
  let m1 := m.raise .residueMismatch (unitId 2 cell) (payload [i2 cell, i1 array, i2 row, i2 col])
  let m2 : Mod := { m1 with boot := { m1.boot with mismatches := Map.set 0 m1.boot.mismatches k (m.clock.timeUs + 1) } }
  if again then (m2.dataFault 2 cell).raise .residueRepeat (unitId 2 cell) (payload [i2 cell, i1 array]) else m2

/-- A corrected word is counted, and reported once per cell and barrier interval (R172, R182). -/
def Mod.wordCorrected (m : Mod) (cell store : Nat) : Mod :=
  let t := m.tl
  let m1 : Mod := { m with tl := match store with
    | 0 => { t with tmCe := satAdd t.tmCe 1 }
    | 1 => { t with loamCe := satAdd t.loamCe 1 }
    | _ => { t with crossCe := satAdd t.crossCe 1 } }
  if (m.cell cell).tlRaised then m1
  else (m1.onCell cell (fun c => { c with tlRaised := true })).raise .tlCorrected (unitId 2 cell)
    (payload [i2 cell, i1 store])

/-- An uncorrectable word is counted, and the first is latched (R172, R181). -/
def Mod.wordLost (m : Mod) (cell store word : Nat) : Mod :=
  let t := m.tl
  let v := BitVec.ofNat 64 (cell + store * 2 ^ 13 + word % 2 ^ 20 * 2 ^ 16)
  let first := decide (t.tmUe = 0#32 ∧ t.loamUe = 0#32 ∧ t.firstUe = 0#64)
  let t1 : TileLoam := match store with
    | 0 => { t with tmUe := satAdd t.tmUe 1 }
    | 1 => { t with loamUe := satAdd t.loamUe 1 }
    | _ => t
  let m1 : Mod := { m with tl := { t1 with firstUe := if first then v else t.firstUe } }
  m1.raise .tlUncorrectable (unitId 2 cell) (payload [i8 m1.tl.firstUe.toNat])

/-- CROSS_MARGIN: once per crossing and barrier interval; recalibration is requested (R177). -/
def Mod.crossMargin (m : Mod) (cell k : Nat) : Mod :=
  let x := Map.get Crossing.reset m.tl.crossings (cell * 8 + k)
  if x.margin then m
  else
    let m1 : Mod := { m with tl := { m.tl with
      marginCount := satAdd m.tl.marginCount 1
      crossings := Map.set Crossing.reset m.tl.crossings (cell * 8 + k) { x with margin := true, recal := true } } }
    m1.raise .crossMargin (unitId 2 cell) []

/-- A flit is sent on a route of the cell's role: it arrives after the hops of the route, or the route is a fault
(R54, R56). -/
def Mod.sendFlit (m : Mod) (cell route : Nat) (data : List TWord) : Mod :=
  let path := match m.roleAt cell with
    | some r => Map.get [] r.routes route
    | none => []
  match walkRoute m.plan 0 cell path with
  | .ok dst => { m with chip := { m.chip with mesh := m.chip.mesh ++ [⟨dst, 2 + path.length, data⟩] } }
  | .error e => (m.dataFault 2 cell).raise .routeFault (unitId 2 cell) (payload [i2 cell, i1 e.1, i2 e.2])

/-- Drop the first element that passes a test. -/
def dropFirst {α : Type} (p : α → Bool) (l : List α) : List α :=
  match l with
  | [] => []
  | a :: t => if p a then t else a :: dropFirst p t

/-- One effect of a cell's operation. -/
def Mod.applyFx (cell : Nat) (m : Mod) (f : Fx) : Mod :=
  let u := unitId 2 cell
  let step := m.stream.stepCount.toNat
  match f with
  | .mxIllegal rule => (m.dataFault 2 cell).raise .mxIllegal u (payload [i2 cell, i8 step, i2 rule])
  | .slotIllegal slot => (m.dataFault 2 cell).raise .slotIllegal u
      (payload [i1 slot, i1 (rowOf cell), i8 m.bundlePos.toNat])
  | .agRange gen addr => (m.dataFault 2 cell).raise .agRange u (payload [i2 cell, i1 gen, i8 addr])
  | .residue a r c => m.residueFound cell a r c
  | .nonfinite st =>
    if (m.cell cell).nfRaised then m
    else (m.onCell cell (fun c => { c with nfRaised := true })).raise .nonfiniteTile u (payload [i2 cell, i8 st.toNat])
  | .poisonConsumed st => m.raise .poisonConsumed u (payload [i2 cell, i8 step, i8 st.toNat])
  | .sideKind vop e => (m.dataFault 2 cell).raise .sideKind u (payload [i2 cell, i1 vop, i2 e])
  | .corrected s => m.wordCorrected cell s
  | .uncorrectable s w => m.wordLost cell s w
  | .margin k => m.crossMargin cell k
  | .linkSend l data =>
    match linkPeer m.plan cell l with
    | some p => { m with chip := { m.chip with
        links := Map.modify [] m.chip.links (p * 8 + linkBack l) (fun q => q ++ [data]) } }
    | none => m
  | .linkTake l => { m with chip := { m.chip with links := Map.modify [] m.chip.links (cell * 8 + l) (fun q => q.drop 1) } }
  | .meshSend r data => m.sendFlit cell r data
  | .meshTake => { m with chip := { m.chip with
      mesh := dropFirst (fun (x : MeshFlit) => x.dst == cell && x.left == 0) m.chip.mesh } }
  | .laneDrive data => { m with chip := { m.chip with lanes := m.chip.lanes ++ [⟨rowOf cell, 2, data⟩] } }
  | .status code => { m with chip := { m.chip with status := Map.set 0#8 m.chip.status cell code } }
  | .freeUsed n => { m with clock := { m.clock with freeCtr := m.clock.freeCtr + n } }

/-- A cell takes its new state and what it caused happens. -/
def Mod.putCell (m : Mod) (cell : Nat) (r : CellState × List Fx) : Mod :=
  r.2.foldl (Mod.applyFx cell) (m.setCell cell r.1)

/-- Run an operation of one cell. -/
def Mod.runCell (m : Mod) (cell : Nat) (f : CellEnv → CellState → CellState × List Fx) : Mod :=
  m.putCell cell (f (m.cellEnv cell) (m.cell cell))

/-! ### What reaches a cell in a step -/

/-- The oldest unit on a receiving link of a cell. -/
def Mod.linkHead (m : Mod) (cell l : Nat) : Option (List TWord) := (Map.get [] m.chip.links (cell * 8 + l)).head?

/-- The link that an ADV's activations come over (R117). -/
def advLink (asrc : Nat) : Nat := asrc - 1

/-- What the row's data lane carries to its cells in this step: the items whose last byte is usable now (R54). -/
def Mod.laneNow (m : Mod) (row : Nat) : Option (List TWord) :=
  (m.chip.lanes.find? (fun x => x.row == row && x.left == 0)).map (fun x => x.data)

/-- What reaches the move unit of a cell. -/
def Mod.mvInput (m : Mod) (cell : Nat) (w : BitVec 64) (ups : List Upset) : MvIn :=
  let f := mvF w
  let peer := linkPeer m.plan cell f.txl
  let room := match peer with
    | some p => decide ((Map.get [] m.chip.links (p * 8 + linkBack f.txl)).length < 2)
    | none => true
  { linkIn := m.linkHead cell f.rxl, linkRoom := room, txPeer := peer.isSome
    rxPeer := (linkPeer m.plan cell f.rxl).isSome
    meshIn := (m.chip.mesh.find? (fun x => x.dst == cell && x.left == 0)).map (fun x => x.data)
    laneIn := m.laneNow (rowOf cell)
    flips := (ups.findSome? (fun u => match u with
      | .cross c ms => if c.val = cell then some ms else none
      | _ => none)).getD [] }

/-- The activation bytes that an ADV takes from a lane or link in all (R118). -/
def advTotal (c : CellState) (f : AdvF) : Nat :=
  let groups := (f.count * (pairP f.afmt f.wfmt).getD 1 + 31) / 32
  modeRows c.mode * groups * (4 * fmtBits f.afmt + b2n (fmtMx f.afmt))

/-- The activations that reach a running ADV in this step (R117, R118), and the link they are taken from. -/
def Mod.advInput (m : Mod) (cell : Nat) (c : CellState) : List TWord × List Fx :=
  match c.adv with
  | none => ([], [])
  | some r =>
    if advTotal c (advF r.word) ≤ r.actUsed + r.act.length then ([], [])
    else match (advF r.word).asrc with
    | 0 => ((m.laneNow (rowOf cell)).getD [], [])
    | 1 => ([], [])
    | k =>
      let l := advLink k
      if (linkPeer m.plan cell l).isNone then (List.replicate 32 ⟨0#64, false⟩, [])
      else match m.linkHead cell l with
        | some d => (d, [.linkTake l])
        | none => ([], [])

/-! ### GATHER (R120, R239, R301) -/

/-- The 128 B items that cover a range of a page: their offsets in it. -/
def itemsOf (a n : Nat) : List Nat :=
  if n = 0 then [] else (List.range ((a + n - 1) / 128 - a / 128 + 1)).map (fun i => (a / 128 + i) * 128)

/-- What a GATHER moves: device address and offset from DST_AG of each 128 B item; none for a descriptor of another
kind. -/
def Mod.gatherItems (m : Mod) (d : BitVec 512) : Option (List (Nat × Nat)) :=
  let v := d.toNat
  let base := field v 64 52
  if field v 0 8 = 2 then
    let n := min (field v 120 8) 10
    some ((List.range n).map (fun i => (base + 128 * field v (128 + 32 * i) 32, 128 * i)))
  else if field v 0 8 = 0x10 then
    if bitOf v 120 then some []
    else
      let c := match m.boot.image with
        | some i => (i.attn[field v 212 16]?).map attnF
        | none => none
      match c with
      | none => some []
      | some c =>
        let t := field v 384 10
        let a := field v 128 10
        let n := field v 138 10
        let half := slotHalf c.fmt c.dim
        let sc := c.dim / 32
        let rs := [(a * half / 2, n * half / 2), (t * half / 2 + a * sc, n * sc),
          (16384 + a * half / 2, n * half / 2), (16384 + t * half / 2 + a * sc, n * sc)]
        some (((rs.map (fun r => itemsOf r.1 r.2)).flatten).eraseDups.map (fun o => (base + o, o)))
  else none

/-- A line of the cell's L1: a hit, or a fill through the rick under class 1; 16 lines, least recently used (R239). -/
def Mod.l1Line (m : Mod) (cell line : Nat) : L1Line × Mod :=
  let c := m.cell cell
  match c.l1.find? (fun l => l.line == line) with
  | some l => (l, m.setCell cell { c with l1 := l :: c.l1.erase l })
  | none =>
    let r := m.readStack (line * 1024) 1024 1 false (reqCell cell)
    let bad := (r.1.zipIdx).foldl (fun v e => if e.1.2 then v + 2 ^ e.2 else v) 0
    let l : L1Line := ⟨line, pieceBytes r.1, BitVec.ofNat 32 bad⟩
    (l, r.2.onCell cell (fun c => { c with l1 := (l :: c.l1).take 16 }))

/-- One item: its bytes through the L1, as four 32 B pieces; zeros outside the stack region (R10). -/
def Mod.gatherItem (m : Mod) (cell a : Nat) : List (Bytes × Bool) × Mod :=
  if stackRangeOk a 128 = false then ([(List.replicate 128 0#8, false)], m)
  else
    let r := m.l1Line cell (a / 1024)
    let off := a % 1024
    ((List.range 4).map (fun i =>
      ((r.1.data.drop (off + 32 * i)).take 32, bitOf r.1.bad.toNat (off / 32 + i))), r.2)

/-- The gather of a running MV operation: its items land, and the operation ends. -/
def Mod.gather (m : Mod) (cell : Nat) (r : MvRun) : Mod :=
  let f := mvF r.word
  let c := m.cell cell
  let desc := listGet 0#512 c.regs f.q
  let m0 := m.setCell cell { c with mv := none }
  match m.gatherItems desc with
  | none => (m0.dataFault 2 cell).raise .descKind (unitId 2 cell) []
  | some items =>
    match items.find? (fun x => !(inTile (r.dst.addr + x.2) 128)) with
    | some x => m0.applyFx cell (.agRange f.dst (r.dst.addr + x.2))
    | none => items.foldl (fun (m : Mod) x =>
        let g := m.gatherItem cell x.1
        g.2.writeTilePieces cell (r.dst.addr + x.2) g.1) m0

/-! ### One step of a cell -/

/-- Free bytes that effects used. -/
def freeOf (fx : List Fx) : Nat := fx.foldl (fun n f => match f with | .freeUsed k => n + k | _ => n) 0

/-- Run one operation after another in a cell, each with the free bytes that are left. -/
def andThen (env : CellEnv) (r : CellState × List Fx) (f : CellEnv → CellState → CellState × List Fx) :
    CellState × List Fx :=
  let x := f { env with free := env.free + freeOf r.2 } r.1
  (x.1, r.2 ++ x.2)

/-- Issue an MX operation (R117); the residues that fail at a SWAP are given. -/
def mxIssue (old : Mem) (res : List (Nat × Nat × Nat)) (w : BitVec 64) (env : CellEnv) (c : CellState) :
    CellState × List Fx :=
  match field w.toNat 0 4 with
  | 0 => (c, [])
  | 1 => advIssue env c w
  | 2 => swapIssue env old c w res
  | 3 => if field w.toNat 4 60 ≠ 0 then (c, [.slotIllegal 0]) else ctxSave c
  | 4 => if field w.toNat 4 60 ≠ 0 then (c, [.slotIllegal 0]) else ctxRestore c
  | _ => (c, [.slotIllegal 0])

/-- The MX unit of a cell cannot take an operation (R72, R123). -/
def mxHeld (c : CellState) : Bool := c.adv.isSome || decide (c.mxBusy ≠ 0)

/-- The move unit cannot take an operation: it is busy, or a context move occupies its direction of the channel. -/
def mvHeld (c : CellState) (w : BitVec 64) : Bool :=
  let op := (mvF w).op
  c.mv.isSome || ((op == 2 || op == 4) && decide (c.downBusy ≠ 0)) || ((op == 3 || op == 4) && decide (c.upBusy ≠ 0))

/-- The three cell slots of a row word; NOP where absent. -/
structure Slots where
  mx : BitVec 64
  vx : BitVec 64
  mv : BitVec 64
deriving DecidableEq, Repr

/-- All NOP. -/
def Slots.nop : Slots := ⟨0#64, 0#64, 0#64⟩

/-- Some slot names an operation. -/
def Slots.some? (s : Slots) : Bool :=
  decide (field s.mx.toNat 0 4 ≠ 0 ∨ field s.vx.toNat 0 6 ≠ 0 ∨ field s.mv.toNat 0 4 ≠ 0)

/-- The slots cannot be issued in the cell's present state. -/
def Slots.held (s : Slots) (c : CellState) : Bool :=
  (decide (field s.mx.toNat 0 4 ≠ 0) && mxHeld c) || (decide (field s.vx.toNat 0 6 ≠ 0) && c.vx.isSome)
  || (decide (field s.mv.toNat 0 4 ≠ 0) && mvHeld c s.mv)

/-- Some unit of the cell has work left. -/
def cellBusy (c : CellState) : Bool :=
  c.adv.isSome || c.drain.isSome || c.vx.isSome || c.mv.isSome || decide (c.landing ≠ []) || decide (c.mxBusy ≠ 0)
  || decide (c.upBusy ≠ 0) || decide (c.downBusy ≠ 0)

/-- The residues that fail at this cell. -/
def residuesAt (cell : Nat) (ups : List Upset) : List (Nat × Nat × Nat) :=
  ups.filterMap (fun u => match u with
    | .residue c a r k => if c.val = cell then some (a.val, r, k) else none
    | _ => none)

/-- One step of a cell (R115, R117 to R120): a drain that anything could meet is settled first (R71); the slots are
issued in order, then the units advance on tile memory as it stood at the start of the step. `inp` and `src` are what
reaches the cell. -/
def cellStep (s : Slots) (inp : MvIn) (src : List TWord × List Fx) (res : List (Nat × Nat × Nat)) (env : CellEnv)
    (c : CellState) : CellState × List Fx :=
  let r0 : CellState × List Fx := if c.drain.isSome = true ∧ (s.some? = true ∨ c.adv.isSome = true ∨ c.vx.isSome = true
      ∨ c.mv.isSome = true) then tileDrain env c else (c, [])
  let old := r0.1
  let r1 := andThen env r0 (mxIssue old.tile res s.mx)
  let r2 := andThen env r1 (fun e c => if field s.vx.toNat 0 6 = 0 then (c, []) else vxIssue e c s.vx)
  let r3 := andThen env r2 (fun e c => if field s.mv.toNat 0 4 = 0 then (c, []) else mvIssue e c s.mv)
  let r4 := andThen env r3 (fun _ c => (advStep old.tile c src.1))
  let r5 : CellState × List Fx := (r4.1, r4.2 ++ src.2)
  let r6 := andThen env r5 (fun e c => vxStep e old.tile c)
  let r7 := andThen env r6 (fun _ c => match c.mv with
    | some r => if (mvF r.word).op = 10 then (c, []) else mvStep old c inp
    | none => (c, []))
  let t := cellTick r7.1
  match t.drain with
  | some d => if d.left = 0 then andThen env (t, r7.2) tileDrain else (t, r7.2)
  | none => (t, r7.2)

/-- One step of a cell of the module, a gather included; what reaches the cell is what stood at the start of the step,
`m0`. -/
def Mod.stepCell (m0 m : Mod) (cell : Nat) (s : Slots) (ups : List Upset) : Mod :=
  let c := m.cell cell
  let w := match c.mv with | some r => r.word | none => s.mv
  let inp := m0.mvInput cell w ups
  let issued := if field s.mx.toNat 0 4 = 1 then (advIssue (m.cellEnv cell) c s.mx).1 else c
  let src := m0.advInput cell issued
  let m1 := m.runCell cell (cellStep s inp src (residuesAt cell ups))
  match (m1.cell cell).mv with
  | some r => if (mvF r.word).op = 10 then m1.gather cell r else m1
  | none => m1

/-- Storage upsets and early samplers act before a step. -/
def Mod.applyUpset (m : Mod) (u : Upset) : Mod :=
  match u with
  | .flip cell store word mask =>
    let d := BitVec.ofNat 64 mask.toNat
    let k := BitVec.ofNat 8 (mask.toNat / 2 ^ 64)
    let flip (t : Mem) : Mem := let r := rawWord t word; putRaw t word (r.1 ^^^ d) (r.2 ^^^ k)
    m.onCell cell.val (fun c => match store.val with
      | 0 => { c with tile := flip c.tile }
      | 1 => { c with loam := flip c.loam }
      | _ =>
        let e := Map.get SideEntry.reset c.side word
        { c with side := Map.set SideEntry.reset c.side word { e with w := e.w ^^^ d, check := e.check ^^^ k } })
  | .margin cell k => if crossingAt cell.val k.val then m.crossMargin cell.val k.val else m
  | _ => m

/-- The end of a step on the row lanes and the mesh: what was not taken in its step is gone from the lane, but on a row
whose lane is held; a flit that has arrived waits. -/
def Mod.pathsTick (m : Mod) (laneHeld : Nat → Bool) : Mod :=
  { m with chip := { m.chip with
      lanes := (m.chip.lanes.filter (fun x => decide (x.left ≠ 0) || laneHeld x.row)).map
        (fun x => if laneHeld x.row then x else { x with left := x.left - 1 })
      mesh := m.chip.mesh.map (fun x => { x with left := x.left - 1 }) } }

/-- A running operation of the cell drives or takes the row's data lane. -/
def usesLane (c : CellState) : Bool :=
  (match c.mv with | some r => (mvF r.word).op == 8 || (mvF r.word).op == 9 | none => false)
  || (match c.adv with
    | some r => (advF r.word).asrc == 0 && decide (r.actUsed + r.act.length < advTotal c (advF r.word))
    | none => false)

/-- A cell can execute: a usable position that no fault has stopped (the state table of R15, R16). -/
def Mod.cellRuns (m : Mod) (cell : Nat) : Bool := isUsable m.plan cell && !(m.inFault 2 cell)

/-- One round in which the units of every busy cell advance while the module is held (R123); the lane of a row goes on
only for an operation that uses it. -/
def Mod.round (m : Mod) : Mod :=
  let rows := (m.cells.filter (fun e => usesLane e.2)).map (fun e => rowOf e.1)
  ((m.cells.filter (fun e => cellBusy e.2 && !(m.inFault 2 e.1))).foldl (fun (n : Mod) e => m.stepCell n e.1 Slots.nop []) m).pathsTick
    (fun r => !(rows.contains r))

/-- Rounds until a condition holds or a round changes nothing, at most `fuel`: an operation that waits for something
outside stays as it is. -/
def Mod.rounds (fuel : Nat) (p : Mod → Bool) (m : Mod) : Mod :=
  match fuel with
  | 0 => m
  | fuel + 1 =>
    if p m then m
    else
      let n := m.round
      if n.cells = m.cells ∧ n.chip = m.chip then n else rounds fuel p n

/-- No cell has work left that it can do. -/
def Mod.cellsIdle (m : Mod) : Bool := m.cells.all (fun e => !(cellBusy e.2) || m.inFault 2 e.1)

end Sys2Proof.Machine
end

