-- ==== Sys2Proof/Machine/Check.lean ====
section
/-!
DEFINITION. What checker test commands and unsow requests do to the stacks, once nothing holds them (R202, R207).
-/
namespace Sys2Proof.Machine

/-! ### Checker test commands (R207) -/

/-- RAW_WRITE: 32 data bytes and 4 check symbols are stored unchanged; an unsown block is zero-filled first. Under a write
lock, and in a stack in FAULT, nothing is stored (R106, R203). -/
def rawWrite (m : MS) (w addr : Nat) (bs : Bytes) : MS :=
  if isLocked m.s addr then m.emit (.locked addr)
  else if (ctlOf m.s (stackOf w)).fault then m
  else
    let r := takeEntry m w
    busWrite (ensureSown r.2 w) w (padTo 36 bs)

/-- RAW_READ: data bytes and check symbols as they are stored. -/
def rawRead (m : MS) (w : Nat) : Bytes × MS :=
  let v := isSown (flushWord m w) (blockOf w)
  if v.1 then busRead v.2 w []
  else (List.replicate 36 0#8, { v.2 with s := { v.2.s with unsownReads := satAdd v.2.s.unsownReads 1 } })

/-- What DECODE_READ reports. -/
structure Decoded where
  data : Bytes
  syndrome : Bytes
  cls : RsClass
deriving DecidableEq, Repr

/-- DECODE_READ: a read through the decoder, counted as any demand read is, with no write-back. -/
def decodeRead (m : MS) (w addr : Nat) : Decoded × MS :=
  let st := stackOf w
  if (ctlOf m.s st).fault then (⟨List.replicate 32 0#8, List.replicate 4 0#8, .poison⟩, m)
  else
    let r := rawRead m w
    let x := rsDecode r.1
    let d : Decoded := ⟨x.2.take 32, (rsSyndromes r.1).map (BitVec.ofNat 8), x.1⟩
    match x.1 with
    | .clean => (d, r.2)
    | .single => (d, countCe r.2 st addr)
    | .poison =>
      (d, ({ r.2 with s := { r.2.s with poisonReads := satAdd r.2.s.poisonReads 1 } }).emit (.poisonRead st))
    | .uncorrectable => (d, (countUe r.2 st addr 0).emit (.uncorrectable addr reqMgmt))

/-- The rick writes back and drops the line that holds a word (R207). -/
def dropForTest (x : RM) (a : Nat) : RM :=
  let x0 := settleMiss x a 32
  let n := sliceAt x0 a
  dropLine (onFrame x0 n (a / 1024) (fun x f => writeBackFrame x f)) n (a / 1024)

/-- Change the checker's objects. -/
def Mod.onTest (m : Mod) (f : Stacks → Stacks) : Mod := { m with memStacks := f m.memStacks }

/-- Carry out a checker test command on the word at an address: 1 RAW_WRITE, 2 RAW_READ, 3 DECODE_READ. `bs` is what
TEST_DATA and TEST_CHECK held when it was written. -/
def Mod.testRun (m : Mod) (op a : Nat) (bs : Bytes) : Mod :=
  let m1 := m.onRick reqMgmt (fun x => dropForTest x a)
  let w := (decodeAddr m1.memStacks.placeActive a).1
  let m2 :=
    if op = 1 then m1.onStacks reqMgmt (fun s => rawWrite s w a bs)
    else if op = 2 then
      let r := m1.withStacks reqMgmt (fun s => rawRead s w)
      r.2.onTest (fun s => { s with testData := r.1.take 32, testCheck := r.1.drop 32 })
    else
      let r := m1.withStacks reqMgmt (fun s => decodeRead s w a)
      r.2.onTest (fun s => { s with
        testData := r.1.data, testSyndrome := r.1.syndrome, testClass := BitVec.ofNat 8 r.1.cls.code })
  m2.onTest (fun s => { s with testResult := 0#8 })

/-! ### Unsow requests (R202) -/

/-- An unsow request of 1 KiB or a whole 2 KiB block, aligned to its size; nothing is unsown outside the stack region, in a
metadata chunk, under a write lock or in a stack in FAULT. -/
def Mod.unsowAt (m : Mod) (a : Nat) (whole strict : Bool) : Mod :=
  let n := if whole then 2048 else 1024
  if a % n ≠ 0 ∨ stackRangeOk a n = false ∨ m.memStacks.locks.any (fun r => decide (r.1 < a + n ∧ a ≤ r.2)) = true then m
  else
    let w := (decodeAddr m.memStacks.placeActive a).1
    if (ctlOf m.memStacks (stackOf w)).fault then m
    else m.onStacks noUnit (fun s => unsow s (blockOf w) whole (a / 1024 % 2) strict)

end Sys2Proof.Machine
end

