-- ==== Sys2Proof/Machine/GlnExec.lean ====
section
/-!
DEFINITION. The gleaners' micro-instructions (R212, R213, R219 to R224, R228, R229): one fetched word carried out
on a gleaner's registers and its bank.
-/
namespace Sys2Proof.Machine

/-- Fields of a micro-instruction (R220). -/
structure GlnF where
  op : Nat
  d : Nat
  a : Nat
  b : Nat
  c : Nat
  bs : Bool
  fmt : Nat
  reserved : Nat
  imm : Nat
deriving DecidableEq, Repr

/-- Read the fields of a micro-instruction (R220). -/
def glnF (w : BitVec 64) : GlnF :=
  let v := w.toNat
  ⟨field v 0 6, field v 6 4, field v 10 4, field v 14 4, field v 18 4, bitOf v 22, field v 23 4, field v 27 5,
   field v 32 32⟩

/-- A scalar register; A0 reads as 0 (R213). -/
def Gleaner.getA (g : Gleaner) (i : Nat) : Nat := if i = 0 then 0 else (Map.get 0#64 g.a i).toNat

/-- Write a scalar register; writes to A0 are discarded (R213). -/
def Gleaner.setA (g : Gleaner) (i v : Nat) : Gleaner :=
  if i = 0 then g else { g with a := Map.set 0#64 g.a i (BitVec.ofNat 64 v) }

/-- A vector register. -/
def Gleaner.getV (g : Gleaner) (i : Nat) : BitVec 512 := Map.get 0#512 g.v i

/-- Write a vector register. -/
def Gleaner.setV (g : Gleaner) (i : Nat) (v : BitVec 512) : Gleaner := { g with v := Map.set 0#512 g.v i v }

/-- The sixteen lanes of a vector. -/
def lanes (v : BitVec 512) : List (BitVec 32) :=
  (List.range 16).map (fun i => BitVec.ofNat 32 (v.toNat / 2 ^ (32 * i)))

/-- A vector of sixteen lanes. -/
def ofLanes (ls : List (BitVec 32)) : BitVec 512 :=
  BitVec.ofNat 512 (ls.foldr (fun l acc => l.toNat + 2 ^ 32 * acc) 0)

/-- How a micro-instruction ends a program. -/
inductive GlnEnd where
  | halt | illegal | range | ue
deriving DecidableEq, Repr

/-- The outcome of one micro-instruction: the gleaner, the stacks, and an ending if it is one. -/
structure GlnOut where
  g : Gleaner
  m : MS
  stop : Option GlnEnd
deriving DecidableEq, Repr

/-- A row lies in a window (R219). -/
def RowWin.has (w : RowWin) (row : Nat) : Bool :=
  decide (w.first.toNat ≤ row ∧ row < w.first.toNat + w.rows.toNat)

/-- A row may be read (R219). -/
def Gleaner.mayRead (g : Gleaner) (row : Nat) : Bool := g.rwin0.has row || g.rwin1.has row || g.wwin.has row

/-- The physical word of a bank address (R212). -/
def bankWord (gi ba : Nat) : Nat := gi * 2 ^ 22 + ba / 32

/-- Time for an access to a row: 48 ns more where the row is not open (R221). -/
def Gleaner.touch (g : Gleaner) (row ns : Nat) : Gleaner :=
  { g with timeNs := g.timeNs + ns + (if g.openRow = some row then 0 else 48), openRow := some row }

/-- Read one word through the bank column: its bytes, or none where it is poison or uncorrectable (R228, R229). -/
def bankLoad (m : MS) (w : Nat) : Option Bytes × MS :=
  let x := rsDecode (dramWord m.s w)
  let addr := encodeAddr m.s.placeActive w
  match x.1 with
  | .clean => (some (x.2.take 32), m)
  | .single => (some (x.2.take 32), countCe m (stackOf w) addr)
  | .poison => (none, { m with s := { m.s with poisonReads := satAdd m.s.poisonReads 1 } })
  | .uncorrectable =>
    let m1 := countUe m (stackOf w) addr 3
    (none, { m1 with s := { putDram m1.s w (rsPoison (x.2.take 32)) with poisonWrites := satAdd m1.s.poisonWrites 1 } })

/-- Store one whole word through the bank column, unless it is write-locked (R106, R228). -/
def bankStore (m : MS) (w : Nat) (d : Bytes) (poison : Bool) : MS × Bool :=
  let addr := encodeAddr m.s.placeActive w
  if isLocked m.s addr then
    (if m.fx.any (fun f => match f with | .locked _ => true | _ => false) then m else m.emit (.locked addr), true)
  else if poison then
    ({ m with s := { putDram m.s w (rsPoison d) with poisonWrites := satAdd m.s.poisonWrites 1 } }, false)
  else ({ m with s := putDram m.s w (rsEncode d) }, false)

/-- Read `n` bytes at a bank address within one or two words; `fuel` bounds the words. -/
def bankRead (fuel : Nat) (m : MS) (gi ba n : Nat) : Option Bytes × MS :=
  match fuel with
  | 0 => (some [], m)
  | f + 1 =>
    if n = 0 then (some [], m)
    else
      let k := min n (32 - ba % 32)
      let r := bankLoad m (bankWord gi ba)
      match r.1 with
      | none => (none, r.2)
      | some d =>
        let t := bankRead f r.2 gi (ba + k) (n - k)
        (t.1.map (fun x => (d.drop (ba % 32)).take k ++ x), t.2)

/-- Write bytes at a bank address: whole words directly, part of a word by read-modify-write (R228). The last
component says that a store was discarded under a lock. -/
def bankWrite (fuel : Nat) (m : MS) (gi ba : Nat) (bs : Bytes) : Bool × MS × Bool :=
  match fuel with
  | 0 => (true, m, false)
  | f + 1 =>
    match bs with
    | [] => (true, m, false)
    | _ =>
      let k := 32 - ba % 32
      let w := bankWord gi ba
      let part := bs.take k
      if isLocked m.s (encodeAddr m.s.placeActive w) then
        let t := bankWrite f (bankStore m w [] false).1 gi (ba + k) (bs.drop k)
        (t.1, t.2.1, true)
      else if part.length = 32 then
        bankWrite f (bankStore m w part false).1 gi (ba + k) (bs.drop k)
      else
        let r := bankLoad m w
        match r.1 with
        | none => (false, r.2, false)
        | some d =>
          let d' := d.take (ba % 32) ++ part ++ d.drop (ba % 32 + part.length)
          bankWrite f (bankStore r.2 w d' false).1 gi (ba + k) (bs.drop k)

/-- End with GLN_RANGE or GLN_UE at a bank address. -/
def GlnOut.bad (g : Gleaner) (m : MS) (ba : Nat) (e : GlnEnd) : GlnOut :=
  ⟨{ g with faultAddr := BitVec.ofNat 27 ba }, m, some e⟩

/-- Load `n` bytes at an effective address, checked against the windows (R219, R229). -/
def glnLoad (g : Gleaner) (m : MS) (gi ea n align : Nat) (k : Gleaner → MS → Bytes → GlnOut) : GlnOut :=
  if ea % align ≠ 0 then ⟨g, m, some .illegal⟩
  else if 2 ^ 27 ≤ ea ∨ ¬ g.mayRead (ea / 4096) then .bad g m ea .range
  else
    let r := bankRead 3 m gi ea n
    let g1 := g.touch (ea / 4096) (max 1 ((n + 31) / 32))
    match r.1 with
    | none => .bad g1 r.2 ea .ue
    | some bs => k g1 r.2 bs

/-- Store bytes at an effective address, checked against the write window (R219, R228). -/
def glnStore (g : Gleaner) (m : MS) (gi ea align : Nat) (bs : Bytes) : GlnOut :=
  if ea % align ≠ 0 then ⟨g, m, some .illegal⟩
  else if 2 ^ 27 ≤ ea ∨ ¬ g.wwin.has (ea / 4096) then .bad g m ea .range
  else
    let r := bankWrite 3 m gi ea bs
    let g1 := g.touch (ea / 4096) (max 1 ((bs.length + 31) / 32) + if bs.length % 32 = 0 then 0 else 2)
    if r.1 then ⟨{ g1 with locked := g1.locked || r.2.2 }, r.2.1, none⟩ else .bad g1 r.2.1 ea .ue

/-- Bytes per 16 lanes of a format, its alignment (R222). -/
def glnFmtBytes (fmt : Nat) : Option Nat :=
  match fmt with
  | 0 => some 64
  | 1 => some 32
  | 4 => some 16
  | 5 => some 16
  | 8 => some 8
  | 9 => some 16
  | 15 => some 32
  | _ => none

/-- Sixteen lanes from their bytes in a format; `scale` is the MX scale byte (R222, R223). -/
def glnUnpack (fmt scale : Nat) (bs : Bytes) : BitVec 512 :=
  if fmt = 15 then BitVec.ofNat 512 (leNat bs)
  else if fmt = 0 then BitVec.ofNat 512 (leNat bs)
  else
    let v := leNat bs
    ofLanes ((List.range 16).map (fun i =>
      if fmt = 9 then
        let e := signed (field v (8 * i) 8) 8
        toF32 (Num.ofInt e 0)
      else
        let bits := fmtBits fmt
        let x := (fmtOf fmt).decode (field v (bits * i) bits)
        toF32 (if fmtMx fmt then scaled x scale else x)))

/-- fp32 to int8: nearest even, saturating, NaN to 0 (R222). -/
def toInt8 (x : BitVec 32) : Nat :=
  match f32 x with
  | .nan => 0
  | .inf neg => if neg then 0x80 else 0x7F
  | .fin neg m q =>
    let n := if 0 ≤ q then m * 2 ^ (min q 40).toNat else rneShift m (-q).toNat
    if neg then (256 - min n 128) % 256 else min n 127

/-- The bytes ST writes in a format (R222). -/
def glnPack (fmt : Nat) (v : BitVec 512) : Bytes :=
  match fmt with
  | 0 => leBytes 64 v.toNat
  | 15 => leBytes 32 v.toNat
  | 1 => ((lanes v).map (fun l => leBytes 2 (fmtBf16.encode false (f32 l)))).flatten
  | _ => (lanes v).map (fun l => BitVec.ofNat 8 (toInt8 l))

/-- Pairwise sum of the lanes, four levels (R223). -/
def pairSum : Nat → List (BitVec 32) → BitVec 32
  | 0, ls => listGet 0#32 ls 0
  | n + 1, ls => pairSum n ((chunks 16 2 ls).map (fun p => f32Add (listGet 0#32 p 0) (listGet 0#32 p 1)))

/-- Replace element `i` of width `w` bits in a vector. -/
def vinsAt (v : BitVec 512) (i w x : Nat) : BitVec 512 :=
  let n := v.toNat
  BitVec.ofNat 512 (n - field n (i * w) w * 2 ^ (i * w) + x % 2 ^ w * 2 ^ (i * w))

/-- The value of A[i] plus signed IMM, modulo 2^64. -/
def glnEa (g : Gleaner) (i imm : Nat) : Nat := ((g.getA i : Int) + signed imm 32).emod (2 ^ 64) |>.toNat

/-- Lane operand B: V[b], or the fp32 value in A[b] given to every lane (R220). -/
def glnB (g : Gleaner) (f : GlnF) : List (BitVec 32) :=
  if f.bs then List.replicate 16 (BitVec.ofNat 32 (g.getA f.b)) else lanes (g.getV f.b)

/-- Lane-wise result into V[d]. -/
def laneOp (g : Gleaner) (m : MS) (f : GlnF) (ns : Nat) (op : BitVec 32 → BitVec 32 → BitVec 32) : GlnOut :=
  ⟨{ (g.setV f.d (ofLanes (List.zipWith op (lanes (g.getV f.a)) (glnB g f)))) with timeNs := g.timeNs + ns }, m, none⟩

/-- A field that names a V register holds more than 7, or another reserved value stands (R220, R222). -/
def glnIllegal (f : GlnF) : Bool :=
  let vd := decide (7 < f.d)
  let va := decide (7 < f.a)
  let vb := !f.bs && decide (7 < f.b)
  f.reserved != 0 || match f.op with
  | 0x00 => false | 0x01 => false | 0x02 => false | 0x03 => false | 0x04 => false
  | 0x08 => false | 0x09 => false | 0x0A => false | 0x0B => false | 0x0C => false | 0x0D => false | 0x0E => false
  | 0x0F => false
  | 0x10 => vd || (glnFmtBytes f.fmt).isNone
  | 0x11 => va || f.fmt ∉ [0, 1, 9, 15]
  | 0x12 => vd || (glnFmtBytes f.fmt).isNone
  | 0x13 => false | 0x14 => false
  | 0x15 => decide (6 < f.a) || f.fmt ∉ [4, 5, 8]
  | 0x16 => vd || decide (512 < (field f.imm 0 6 + 1) * 2 ^ (3 + field f.imm 6 2))
  | 0x17 => f.fmt ∉ [9, 0, 15]
  | 0x18 => false
  | 0x20 => vd || va || vb | 0x21 => vd || va || vb
  | 0x22 => vd || va || vb || decide (7 < f.c)
  | 0x23 => vd || va || vb | 0x24 => vd || va || vb
  | 0x25 => vd || va | 0x26 => vd || va
  | 0x27 => vd
  | 0x28 => va | 0x29 => va
  | _ => true

/-- Carry out one micro-instruction on gleaner `gi`; the program counter stands after it unless it jumps
(R220 to R223). -/
def glnExec (gi : Nat) (g0 : Gleaner) (m : MS) (w : BitVec 64) : GlnOut :=
  let f := glnF w
  let here := g0.pc
  let g1 := { g0 with lastPc := BitVec.ofNat 9 here, pc := here + 1 }
  let g := { g1 with timeNs := g1.timeNs + 1 }
  let ok (g : Gleaner) : GlnOut := ⟨g, m, none⟩
  let target := field f.imm 0 9
  if glnIllegal f then ⟨g1, m, some .illegal⟩
  else match f.op with
  | 0x00 => ok g
  | 0x01 => ⟨g, m, some .halt⟩
  | 0x02 => ok { g with pc := target }
  | 0x03 => ok (if g.getA f.a = 0 then { g with pc := target } else g)
  | 0x04 =>
    if g.getA f.d = 0 then ok g
    else
      let v := g.getA f.d - 1
      let g' := g.setA f.d v
      ok (if v ≠ 0 then { g' with pc := target } else g')
  | 0x08 => ok (g.setA f.d ((signed f.imm 32).emod (2 ^ 64)).toNat)
  | 0x09 => ok (g.setA f.d (g.getA f.d % 2 ^ 32 + f.imm * 2 ^ 32))
  | 0x0A => ok (g.setA f.d (Map.get 0#64 g.param (field f.imm 0 3)).toNat)
  | 0x0B => ok (g.setA f.d (glnEa g f.a f.imm))
  | 0x0C => ok (g.setA f.d (g.getA f.a + g.getA f.b))
  | 0x0D => ok (g.setA f.d (g.getA f.a ^^^ ((signed f.imm 32).emod (2 ^ 64)).toNat))
  | 0x0E => ok (g.setA f.d (g.getA f.a * 2 ^ field f.imm 0 6))
  | 0x0F => ok { g with res := Map.set 0#64 g.res (field f.imm 0 3) (BitVec.ofNat 64 (g.getA f.a)) }
  | 0x10 =>
    let n := (glnFmtBytes f.fmt).getD 32
    glnLoad g1 m gi (glnEa g1 f.a f.imm) n n (fun g m bs =>
      ⟨g.setV f.d (glnUnpack f.fmt (field (g.getA f.b) 0 8) bs), m, none⟩)
  | 0x11 =>
    let bs := glnPack f.fmt (g1.getV f.a)
    glnStore g1 m gi (glnEa g1 f.b f.imm) bs.length bs
  | 0x12 =>
    let n := (glnFmtBytes f.fmt).getD 32
    let ea := (g.getA f.a + f.imm) % 4096
    if ea % n ≠ 0 then ⟨g1, m, some .illegal⟩
    else ok { (g.setV f.d (glnUnpack f.fmt (field (g.getA f.b) 0 8) (memRead g.side ea n))) with
      timeNs := g1.timeNs + (n + 31) / 32 }
  | 0x13 =>
    let ea := (g.getA f.a + f.imm) % 4096
    if ea % 4 ≠ 0 then ⟨g1, m, some .illegal⟩ else ok (g.setA f.d (leNat (memRead g.side ea 4)))
  | 0x14 =>
    let ba := g1.getA f.a
    if 2 ^ 27 ≤ ba ∨ ¬ g1.mayRead (ba / 4096) then .bad g1 m ba .range
    else
      let r := bankRead 129 m gi (ba / 4096 * 4096) 4096
      let g2 := { g1 with timeNs := g1.timeNs + 176, openRow := some (ba / 4096) }
      match r.1 with
      | none => .bad g2 r.2 (ba / 4096 * 4096) .ue
      | some bs => ⟨{ g2 with side := memWrite [] 0 bs }, r.2, none⟩
  | 0x15 =>
    let q := mxQuant (fmtOf f.fmt) (lanes (g1.getV f.a) ++ lanes (g1.getV (f.a + 1)))
    let bs := packElems (fmtBits f.fmt) q.2
    let o := glnStore g1 m gi (glnEa g1 f.b f.imm) bs.length bs
    if o.stop.isNone then { o with g := o.g.setA f.d q.1 } else o
  | 0x16 => ok (g.setV f.d (vinsAt (g.getV f.d) (field f.imm 0 6) (2 ^ (3 + field f.imm 6 2)) (g.getA f.a)))
  | 0x17 =>
    let n := if f.fmt = 9 then 1 else if f.fmt = 0 then 4 else 8
    glnLoad g1 m gi (glnEa g1 f.a f.imm) n n (fun g m bs => ⟨g.setA f.d (leNat bs), m, none⟩)
  | 0x18 => glnLoad g1 m gi (glnEa g1 f.a f.imm) 32 32 (fun g m bs =>
      ⟨g.setA f.d (crc64Update (g.getA f.d) bs), m, none⟩)
  | 0x20 => laneOp g1 m f 1 f32Add
  | 0x21 => laneOp g1 m f 1 f32Mul
  | 0x22 =>
    ok (g.setV f.d (ofLanes (List.zipWith (fun xy z => f32Fma xy.1 xy.2 z)
      ((lanes (g.getV f.a)).zip (glnB g f)) (lanes (g.getV f.c)))))
  | 0x23 => laneOp g1 m f 1 f32Max
  | 0x24 => laneOp g1 m f 1 f32Min
  | 0x25 => laneOp g1 m f 4 (fun x _ => f32Rcp x)
  | 0x26 => laneOp g1 m f 4 (fun x _ => f32Rsqrt x)
  | 0x27 => ok (g.setV f.d (ofLanes (List.replicate 16 (BitVec.ofNat 32 (g.getA f.a)))))
  | 0x28 => ok { (g.setA f.d (pairSum 4 (lanes (g.getV f.a))).toNat) with timeNs := g1.timeNs + 4 }
  | _ =>
    ok { (g.setA f.d ((lanes (g.getV f.a)).foldl (fun x l => f32Max x (f32Abs l)) f32Zero).toNat) with
      timeNs := g1.timeNs + 4 }

/-- Fetch the word at the program counter: `none` where it is uncorrectable (R215), and whether an error was
corrected. -/
def glnFetch (g : Gleaner) : Option (BitVec 64) :=
  let x := loadWord g.store g.pc
  if x.1.bad then none else some x.1.d

/-- Run the word at the program counter (R215, R220). -/
def glnStep (gi : Nat) (g : Gleaner) (m : MS) : GlnOut :=
  if 511 < g.pc then ⟨{ g with lastPc := BitVec.ofNat 9 511 }, m, some .illegal⟩
  else match glnFetch g with
    | none => .bad { g with lastPc := BitVec.ofNat 9 g.pc } m g.faultAddr.toNat .ue
    | some w => glnExec gi g m w

end Sys2Proof.Machine
end

