-- ==== Sys2Proof/Machine/Gln.lean ====
section
/-!
DEFINITION. Gleaners at the level of the module: program stores, launches, preparation, endings, completions,
and the accesses held while a program has its bank (R214 to R238).
-/
namespace Sys2Proof.Machine

/-- A gleaner. -/
def Mod.glnOf (m : Mod) (g : Nat) : Gleaner := Map.get Gleaner.reset m.gln.cells g

/-- Replace a gleaner. -/
def Mod.setGln (m : Mod) (g : Nat) (x : Gleaner) : Mod :=
  { m with gln := { m.gln with cells := Map.set Gleaner.reset m.gln.cells g x } }

/-- A gleaner that prepares or runs: its bank is shared under R225. -/
def Gleaner.active (g : Gleaner) : Bool := decide (g.state = .preparing ∨ g.state = .running)

/-- Statuses of launches (R238). -/
def stGlnBusy : BitVec 8 := 0x50#8
/-- GLN_LAUNCH_INVALID. -/
def stGlnLaunchInvalid : BitVec 8 := 0x51#8
/-- GLN_ILLEGAL. -/
def stGlnIllegal : BitVec 8 := 0x52#8
/-- GLN_RANGE. -/
def stGlnRange : BitVec 8 := 0x53#8
/-- GLN_UE. -/
def stGlnUe : BitVec 8 := 0x54#8
/-- GLN_WATCHDOG. -/
def stGlnWatchdog : BitVec 8 := 0x55#8
/-- GLN_ABORTED. -/
def stGlnAborted : BitVec 8 := 0x56#8
/-- GLN_FAULTED. -/
def stGlnFaulted : BitVec 8 := 0x57#8
/-- GLN_UNAVAILABLE. -/
def stGlnUnavailable : BitVec 8 := 0x58#8
/-- IMAGE_LOCKED (R285). -/
def stImageLocked : BitVec 8 := 0x77#8

/-! ### Accesses held under R225 -/

/-- An ordinary access to a physical word is held: the write window holds everything, a read window holds writes. -/
def Mod.wordHeld (m : Mod) (w : Nat) (write : Bool) : Bool :=
  let g := m.glnOf (bankOf w)
  g.active && (g.wwin.has (bankRowOf w) || (write && (g.rwin0.has (bankRowOf w) || g.rwin1.has (bankRowOf w))))

/-- Some word of a range of the stack region is held. -/
def Mod.rangeHeld (m : Mod) (a len : Nat) (write : Bool) : Bool :=
  m.gln.cells.any (fun e => e.2.active)
  && (List.range ((a % 32 + len + 31) / 32)).any (fun i =>
    inStacks (a + 32 * i) && m.wordHeld (decodeAddr m.memStacks.placeActive ((a / 32 + i) * 32)).1 write)

/-- The first held word of a range. -/
def Mod.heldWord (m : Mod) (a len : Nat) (write : Bool) : Option Nat :=
  ((List.range ((a % 32 + len + 31) / 32)).map (fun i => (decodeAddr m.memStacks.placeActive ((a / 32 + i) * 32)).1)).find?
    (fun w => m.wordHeld w write)

/-- Hold an access: it joins the hold list of its channel, if the list has room; a full list stalls the requester,
and the access has no effect (R225). -/
def Mod.hold (m : Mod) (w : Nat) (h : HeldAccess) : Mod :=
  let ch := w / 2 ^ 27
  let l := Map.get [] m.gln.held ch
  if 16 ≤ l.length then m
  else
    let g := m.glnOf (bankOf w)
    let m1 := m.setGln (bankOf w) { g with held := satAdd g.held 1 }
    { m1 with gln := { m1.gln with held := Map.set [] m1.gln.held ch (l ++ [h]) } }

/-- A hold of `since` µs has ended: HOLD_MAX. -/
def Mod.holdEnded (m : Mod) (since : Nat) : Mod :=
  let ns := (m.clock.timeUs - since) * 1000
  { m with gln := { m.gln with holdMax := BitVec.ofNat 32 (max m.gln.holdMax.toNat (min ns (2 ^ 32 - 1))) } }

/-- Carry out an access that was held: at its slice, or at the controller where it went there. -/
def Mod.release (m : Mod) (h : HeldAccess) : Mod :=
  let m1 := m.holdEnded h.since
  let answer (r : List (Bytes × Bool) × Mod) : Mod := { r.2 with rick := { r.2.rick with answer := r.1 } }
  match h.kind with
  | .direct =>
    if h.write then m1.onStacks h.requester (fun s => writeMem s h.addr h.data h.poison h.requester)
    else answer (m1.withStacks h.requester (fun s => readMem s h.addr h.len h.requester 0))
  | .access =>
    if h.write then (m1.writeStack h.addr [(h.data, h.poison)] h.cls h.sheaf h.requester).2
    else answer (m1.readStack h.addr h.len h.cls h.sheaf h.requester)
  | .unsow whole strict => m1.unsowAt h.addr whole strict
  | .test op => m1.testRun op h.addr h.data

/-- An access that was held can go on: no program has its words, or, for a checker test command, its bank. -/
def Mod.heldFree (m : Mod) (h : HeldAccess) : Bool :=
  match h.kind with
  | .test _ => !(m.glnOf (bankOf (decodeAddr m.memStacks.placeActive h.addr).1)).active
  | _ => !m.rangeHeld h.addr h.len h.write

/-- Release the accesses of a channel that nothing holds any more, in arrival order (R225). -/
def Mod.releaseHeld (m : Mod) (ch : Nat) : Mod :=
  let l := Map.get [] m.gln.held ch
  let m0 := { m with gln := { m.gln with held := Map.set [] m.gln.held ch [] } }
  l.foldl (fun m h =>
    if m.heldFree h then m.release h
    else { m with gln := { m.gln with held := Map.modify [] m.gln.held ch (fun l => l ++ [h]) } }) m0

/-! ### Completions (R232) -/

/-- The record of a single launch. -/
def glnRecord (gi : Nat) (g : Gleaner) (launched : Bool) : BitVec 128 :=
  BitVec.ofNat 128 (g.tag.toNat + g.status.toNat * 2 ^ 16 + gi * 2 ^ 24 + b2n launched * 2 ^ 48
    + b2n (g.status != 0#8) * 2 ^ 64 + g.elapsed.toNat * 2 ^ 80 + (Map.get 0#64 g.res 0).toNat % 2 ^ 32 * 2 ^ 96)

/-- The record of a group (R232). -/
def groupRecord (x : GlnGroup) : BitVec 128 :=
  let low := x.lowest.getD (0, 0#8)
  BitVec.ofNat 128 (x.tag.toNat + 256 + low.2.toNat * 2 ^ 16 + low.1 * 2 ^ 24 + x.launched * 2 ^ 48
    + x.failed * 2 ^ 64 + x.elapsed.toNat * 2 ^ 80)

/-- Note the end of a gleaner in the group of its stack (R232). -/
def GlnGroup.note (x : GlnGroup) (gi : Nat) (g : Gleaner) : GlnGroup :=
  if gi ∈ x.pending then
    let bad := decide (g.status ≠ 0#8)
    { x with
      pending := x.pending.filter (fun i => decide (i ≠ gi))
      failed := x.failed + b2n bad
      lowest := if bad then
          (match x.lowest with
           | some l => if gi < l.1 then some (gi, g.status) else some l
           | none => some (gi, g.status)) else x.lowest
      elapsed := BitVec.ofNat 16 (max x.elapsed.toNat g.elapsed.toNat) }
  else x

/-- A launch has ended or been refused: its record waits for delivery, or its group is told. -/
def Mod.glnDone (m : Mod) (gi : Nat) (g : Gleaner) (launched : Bool) : Mod :=
  if g.group then
    let gs := m.gln.groups.map (fun x => if x.stack = gi / 1024 then x.note gi g else x)
    let m1 := m.setGln gi g
    { m1 with gln := { m1.gln with groups := gs } }
  else if g.cc = 0x1F#5 then m.setGln gi g
  else m.setGln gi { g with waiting := some (glnRecord gi g launched) }

/-- Put a record into a core's queue, or discard it while the core is held in reset (R232, R233). -/
def Mod.glnDeliver (m : Mod) (cc : BitVec 5) (gi : Nat) (tag : BitVec 8) (rec : BitVec 128) : Mod :=
  if bitOf m.boot.coresHeld.toNat cc.toNat then
    m.raise .glnCompletionLost (unitId 6 (gi / 1024)) (payload [i2 gi, i1 tag.toNat])
  else
    { m with gln := { m.gln with queues := Map.modify [] m.gln.queues cc.toNat (fun l => l ++ [rec]) } }

/-- A launch of the optimiser step ended not OK: the owner's control core reports it (R328). -/
def Mod.optFailed (m : Mod) (gi : Nat) (g : Gleaner) : Mod :=
  let m1 := { m with train := { m.train with optFails := satAdd m.train.optFails 1 } }
  m1.raise .optUpdateFailed (unitId 6 (gi / 1024))
    (payload [i2 gi, i1 g.status.toNat, i2 ((Map.get 0#64 g.param 0).toNat % 2 ^ 16)])

/-- GLN_COMPLETION (R232): the core's firmware first takes `drained` records; then the waiting record of a gleaner,
or of a group whose every gleaner has ended, is delivered if the queue has room. `opt` says that the launch is an
optimiser update of the step (R328). -/
def Mod.glnCompletion (m : Mod) (d : GlnDone) (drained : Nat) (opt : Bool) : Mod :=
  match d with
  | .one g =>
    let x := m.glnOf g.val
    match x.waiting with
    | none => m
    | some rec =>
      let cc := x.cc.toNat
      let m0 := { m with gln := { m.gln with queues := Map.modify [] m.gln.queues cc (fun l => l.drop drained) } }
      if 64 ≤ (Map.get [] m0.gln.queues cc).length ∧ ¬ bitOf m.boot.coresHeld.toNat cc then m0
      else
        let m1 := (m0.setGln g.val { x with waiting := none }).glnDeliver x.cc g.val x.tag rec
        if opt && x.status != 0#8 then m1.optFailed g.val x else m1
  | .group s =>
    match m.gln.groups.find? (fun x => x.stack = s.val && x.pending.isEmpty) with
    | none => m
    | some x =>
      let cc := x.cc.toNat
      let m0 := { m with gln := { m.gln with queues := Map.modify [] m.gln.queues cc (fun l => l.drop drained) } }
      if x.cc = 0x1F#5 then { m with gln := { m.gln with groups := m.gln.groups.filter (fun y => decide (y ≠ x)) } }
      else if 64 ≤ (Map.get [] m0.gln.queues cc).length ∧ ¬ bitOf m.boot.coresHeld.toNat cc then m0
      else
        let m1 := { m0 with gln := { m0.gln with groups := m0.gln.groups.filter (fun y => decide (y ≠ x)) } }
        m1.glnDeliver x.cc (s.val * 1024) x.tag (groupRecord x)

/-! ### Program stores (R215) -/

/-- A write that R215 discards. -/
def Mod.rejectGln (m : Mod) : Mod := { m with gln := { m.gln with rejectedWrites := satAdd m.gln.rejectedWrites 1 } }

/-- Write one micro-instruction into a program store. -/
def Mod.writeStore (m : Mod) (g : Nat) (word : Nat) (v : BitVec 64) : Mod :=
  let x := m.glnOf g
  if x.active then m.rejectGln else m.setGln g { x with store := storeWord x.store word ⟨v, false⟩ }

/-- A data write to a command-area register other than GLN_CTRL (R216). -/
def Mod.writeGlnReg (m : Mod) (g : Nat) (off : Nat) (v : BitVec 64) : Mod :=
  let x := m.glnOf g
  let win : RowWin := ⟨v.setWidth 15, BitVec.ofNat 9 (field v.toNat 16 9)⟩
  if x.active then m.rejectGln
  else if off = 0x10 then m.setGln g { x with rwin0 := win }
  else if off = 0x18 then m.setGln g { x with rwin1 := win }
  else if off = 0x20 then m.setGln g { x with wwin := win }
  else if 0x40 ≤ off ∧ off < 0x80 ∧ off % 8 = 0 then
    m.setGln g { x with param := Map.set 0#64 x.param ((off - 0x40) / 8) v }
  else m

/-- A read of a command-area register (R216). -/
def Mod.readGlnReg (m : Mod) (g : Nat) (off : Nat) : BitVec 64 :=
  let x := m.glnOf g
  let win (w : RowWin) : BitVec 64 := BitVec.ofNat 64 (w.first.toNat + w.rows.toNat * 2 ^ 16)
  if off = 0 then BitVec.ofNat 64 (x.entry.toNat * 2 ^ 8 + x.tag.toNat * 2 ^ 24 + x.cc.toNat * 2 ^ 32)
  else if off = 8 then BitVec.ofNat 64 (x.state.code + x.status.toNat * 2 ^ 8 + x.lastPc.toNat * 2 ^ 16
    + x.elapsed.toNat * 2 ^ 32 + x.held.toNat * 2 ^ 48)
  else if off = 0x10 then win x.rwin0
  else if off = 0x18 then win x.rwin1
  else if off = 0x20 then win x.wwin
  else if off = 0x28 then x.faultAddr.setWidth 64
  else if 0x40 ≤ off ∧ off < 0x80 ∧ off % 8 = 0 then Map.get 0#64 x.param ((off - 0x40) / 8)
  else if 0x80 ≤ off ∧ off < 0xC0 ∧ off % 8 = 0 then Map.get 0#64 x.res ((off - 0x80) / 8)
  else 0#64

/-! ### Launching (R217) -/

/-- Check 1 of R217. -/
def Mod.glnUnavailable (m : Mod) (gi : Nat) : Bool :=
  let c := ctlOf m.memStacks (gi / 1024)
  m.gln.enable != 1#8 || c.fault || c.selfRefresh || m.memStacks.testEnable == 1#8 || m.inFault 4 (gi / 1024)

/-- A window keeps to the bank, to its limit, and in S11 off the metadata rows (R217, check 4). -/
def winOk (gi limit : Nat) (w : RowWin) : Bool :=
  decide (w.rows = 0#9) ||
  (decide (w.first.toNat + w.rows.toNat ≤ 32768 ∧ w.rows.toNat ≤ limit)
   && !(gi / 1024 == 11 && decide (32744 < w.first.toNat + w.rows.toNat)))

/-- Check 4 of R217. -/
def launchValid (gi : Nat) (g : Gleaner) : Bool :=
  winOk gi 256 g.rwin0 && winOk gi 256 g.rwin1 && winOk gi 64 g.wwin && (decide (g.cc.toNat < 16) || g.cc == 0x1F#5)

/-- One gleaner is launched: true if it was refused as busy (R217). -/
def Mod.glnLaunch (m : Mod) (gi : Nat) (v : BitVec 64) (group : Bool) : Mod :=
  let x := m.glnOf gi
  if x.active ∨ x.waiting.isSome then
    let m1 := m.rejectGln
    let m2 := { m1 with gln := { m1.gln with endedNotOk := satAdd m1.gln.endedNotOk 1 } }
    let noted := m2.gln.groups.map (fun y =>
      if y.stack = gi / 1024 then y.note gi { x with status := stGlnBusy } else y)
    { m2 with gln := { m2.gln with groups := if group then noted else m2.gln.groups } }
  else
    let y := { x with
      entry := BitVec.ofNat 9 (field v.toNat 8 9), tag := BitVec.ofNat 8 (field v.toNat 24 8)
      cc := BitVec.ofNat 5 (field v.toNat 32 5), held := 0#16, elapsed := 0#16, group := group }
    let st := if m.glnUnavailable gi then stGlnUnavailable
      else if x.faulted then stGlnFaulted
      else if ¬ launchValid gi y then stGlnLaunchInvalid else 0#8
    if st ≠ 0#8 then
      let m1 := { m with gln := { m.gln with endedNotOk := satAdd m.gln.endedNotOk 1 } }
      m1.glnDone gi { y with state := .done, status := st } false
    else
      let m1 := m.setGln gi { y with state := .preparing, timeNs := 0, locked := false, openRow := none }
      let noted := m1.gln.groups.map (fun z =>
        if z.stack = gi / 1024 ∧ gi ∈ z.pending then { z with launched := z.launched + 1 } else z)
      { m1 with gln := { m1.gln with
          launches := satAdd m1.gln.launches 1
          groups := if group then noted else m1.gln.groups } }

/-- A launch write with GO = 1, direct or through the broadcast window (R217, R232). -/
def Mod.glnGo (m : Mod) (t : GlnTarget) (v : BitVec 64) : Mod :=
  let gs := t.list
  let memStacks := (List.range 12).filter (fun s => gs.any (fun g => g / 1024 = s))
  let new := memStacks.map (fun s => (⟨s, BitVec.ofNat 5 (field v.toNat 32 5), BitVec.ofNat 8 (field v.toNat 24 8),
    gs.filter (fun g => g / 1024 = s), 0, 0, none, 0#16⟩ : GlnGroup))
  let m0 := if t.isGroup then { m with gln := { m.gln with groups := m.gln.groups ++ new } } else m
  gs.foldl (fun m g => m.glnLaunch g v t.isGroup) m0

/-! ### Preparation and endings (R218, R225, R230, R231) -/

/-- A physical word lies in some window of gleaner `gi`. -/
def glnInWindows (gi : Nat) (g : Gleaner) (w : Nat) : Bool := decide (bankOf w = gi) && g.mayRead (bankRowOf w)

/-- A physical word lies in the write window of gleaner `gi`. -/
def inWriteWindow (gi : Nat) (g : Gleaner) (w : Nat) : Bool := decide (bankOf w = gi) && g.wwin.has (bankRowOf w)

/-- The rows of a window. -/
def RowWin.list (w : RowWin) : List Nat := (List.range w.rows.toNat).map (fun i => w.first.toNat + i)

/-- Flush the merge entries and zero-fill the unsown blocks of the windows (R218, steps 2 and 3). -/
def prepareBank (gi : Nat) (g : Gleaner) (m : MS) : MS :=
  let es := (ctlOf m.s (gi / 1024)).merge.filter (fun e => glnInWindows gi g e.word)
  let m1 := es.foldl (fun m e => flushWord m e.word) m
  (g.rwin0.list ++ g.rwin1.list ++ g.wwin.list).foldl (fun m row =>
    let w := gi * 2 ^ 22 + row * 128
    ensureSown (ensureSown m w) (w + 64)) m1

/-- Preparation completes: the program starts at ENTRY with every register and the side row at zero (R213, R218). -/
def Mod.glnStart (m : Mod) (gi : Nat) : Mod :=
  let g := m.glnOf gi
  if g.state = .preparing then
    let m1 := m.onRick (reqGln gi) (fun x => glnPrepareSlice x (gi / 1024) (glnInWindows gi g) (inWriteWindow gi g))
    let m2 := m1.onStacks (reqGln gi) (prepareBank gi g)
    m2.setGln gi { g with
      state := .running, a := [], v := [], side := [], res := [], pc := g.entry.toNat, timeNs := 0, openRow := none }
  else m

/-- Store poison over every word of the write window; write-locked words keep their contents (R106, R230). -/
def poisonWindow (gi : Nat) (g : Gleaner) (m : MS) : MS :=
  g.wwin.list.foldl (fun m row => (List.range 128).foldl (fun m i =>
    let w := gi * 2 ^ 22 + row * 128 + i
    (bankStore m w ((dramWord m.s w).take 32) true).1) m) m

/-- End a launch with a status: poisoning, state, event, counters, completion, release of held accesses. `halt` says
that the program ended by HALT, `started` that it had begun to run. -/
def Mod.glnFinish (m : Mod) (gi : Nat) (g : Gleaner) (st : BitVec 8) (halt started : Bool) : Mod :=
  let m1 := if started && !halt then m.onStacks (reqGln gi) (poisonWindow gi g) else m
  let dead := decide (st = stGlnWatchdog)
  let g1 := { g with
    state := if halt then .done else if dead then .fault else .aborted
    faulted := g.faulted || dead
    status := st
    elapsed := BitVec.ofNat 16 (min g.timeNs 65535) }
  let c := m1.gln
  let m2 := { m1 with gln := { c with
    endedOk := if halt then satAdd c.endedOk 1 else c.endedOk
    endedNotOk := if halt then c.endedNotOk else satAdd c.endedNotOk 1
    ueEnds := if st = stGlnUe then satAdd c.ueEnds 1 else c.ueEnds
    watchdogEnds := if dead then satAdd c.watchdogEnds 1 else c.watchdogEnds } }
  let u := unitId 6 (gi / 1024)
  let m3 := if halt then m2
    else if st = stGlnUe then m2.raise .glnUncorrectable u (payload [i2 gi, i8 g.faultAddr.toNat, i2 g.lastPc.toNat])
    else if dead then m2.raise .glnWatchdog u (payload [i2 gi, i2 g.lastPc.toNat])
    else if st = stGlnAborted then m2.raise .glnAborted u (payload [i2 gi])
    else m2.raise .glnProgramError u (payload [i2 gi, i1 st.toNat, i2 g.lastPc.toNat, i8 g.faultAddr.toNat])
  (m3.glnDone gi g1 true).releaseHeld (gi / 32)

/-- End with ABORT or for self-refresh; during preparation nothing is poisoned (R230, R233). -/
def Mod.glnAbort (m : Mod) (gi : Nat) : Mod :=
  let g := m.glnOf gi
  if g.state = .running then m.glnFinish gi g stGlnAborted false true
  else if g.state = .preparing then m.glnFinish gi g stGlnAborted false false
  else m

/-- The watchdog (R227). -/
def Mod.glnWatchdog (m : Mod) (gi : Nat) : Mod :=
  let g := m.glnOf gi
  if g.state = .running then m.glnFinish gi g stGlnWatchdog false true else m

/-- Run the micro-instruction at the program counter if it is the one named: one that is reserved or cannot be
fetched ends the program whichever is named (R215, R220). -/
def Mod.glnRun (m : Mod) (op gi : Nat) : Mod :=
  let g := m.glnOf gi
  let here := match glnFetch g with
    | some w => decide ((glnF w).op = op) || glnIllegal (glnF w)
    | none => true
  if g.state = .running ∧ (511 < g.pc ∨ here = true) then
    let r := m.withStacks (reqGln gi) (fun s => let o := glnStep gi g s; ((o.g, o.stop), o.m))
    let m1 := r.2.setGln gi r.1.1
    match r.1.2 with
    | none => m1
    | some .halt => m1.glnFinish gi r.1.1 (if r.1.1.locked then stImageLocked else 0#8) true true
    | some .illegal => m1.glnFinish gi r.1.1 stGlnIllegal false true
    | some .range => m1.glnFinish gi r.1.1 stGlnRange false true
    | some .ue => m1.glnFinish gi r.1.1 stGlnUe false true
  else m

/-- Every program of a stack ends before self-refresh (R233). -/
def Mod.glnStopStack (m : Mod) (stack : Nat) : Mod :=
  (m.gln.cells.filter (fun e => e.1 / 1024 = stack && e.2.active)).foldl (fun m e => m.glnAbort e.1) m

/-- Completions addressed to a control core held in reset are discarded (R233). -/
def Mod.glnLoseCompletions (m : Mod) (held : Nat → Bool) : Mod :=
  (m.gln.cells.filter (fun e => e.2.waiting.isSome && held e.2.cc.toNat)).foldl (fun m e =>
    (m.setGln e.1 { e.2 with waiting := none }).raise .glnCompletionLost (unitId 6 (e.1 / 1024))
      (payload [i2 e.1, i1 e.2.tag.toNat])) m

end Sys2Proof.Machine
end

