-- ==== Sys2Proof/Machine/Lea.lean ====
section
/-!
DEFINITION. The lea: token tree, tokens, reports, ALIVE and ABORT, the barrier checksum, and the halting of the
stream (R135 to R163, R348, R352, R356).
-/
namespace Sys2Proof.Machine

/-! ### Shape (R135, R141, R336) -/

/-- The extents of the active configuration. -/
def LeaCfg.ext (c : LeaCfg) : Nat × Nat × Nat :=
  (field c.dims.toNat 0 4 + 1, field c.dims.toNat 4 4 + 1, field c.dims.toNat 8 4 + 1)

/-- The coordinate of a member index (R135). -/
def coordOf (e : Nat × Nat × Nat) (i : Nat) : Nat × Nat × Nat := (i % e.1, i / e.1 % e.2.1, i / (e.1 * e.2.1))

/-- The member index at a coordinate. -/
def indexOf (e : Nat × Nat × Nat) (c : Nat × Nat × Nat) : Nat := c.1 + e.1 * (c.2.1 + e.2.1 * c.2.2)

/-- One hop toward 0 on a ring of e positions; a tie goes down (R141). -/
def towardZero (v e : Nat) : Nat := if v ≤ e / 2 then v - 1 else (v + 1) % e

/-- The gate of that hop in dimension k (R335). -/
def gateZero (k v e : Nat) : Nat := if v ≤ e / 2 then 2 * k + 1 else 2 * k

/-- The parent of a member and the gate toward it; none for the leader (R141). -/
def parentOf (e : Nat × Nat × Nat) (i : Nat) : Option (Nat × Nat) :=
  let c := coordOf e i
  if c.1 ≠ 0 then some (indexOf e (towardZero c.1 e.1, c.2.1, c.2.2), gateZero 0 c.1 e.1)
  else if c.2.1 ≠ 0 then some (indexOf e (c.1, towardZero c.2.1 e.2.1, c.2.2), gateZero 1 c.2.1 e.2.1)
  else if c.2.2 ≠ 0 then some (indexOf e (c.1, c.2.1, towardZero c.2.2 e.2.2), gateZero 2 c.2.2 e.2.2)
  else none

/-- The children of a member, each with the gate toward it. -/
def childrenOf (e : Nat × Nat × Nat) (size i : Nat) : List (Nat × Nat) :=
  (List.range size).filterMap (fun j => match parentOf e j with
    | some p => if p.1 = i then some (j, oppositeGate p.2) else none
    | none => none)

/-- This member's index. -/
def Mod.member (m : Mod) : Nat := m.lea.active.index.toNat
/-- This member's parent. -/
def Mod.leaParent (m : Mod) : Option (Nat × Nat) := parentOf m.lea.active.ext m.member
/-- This member's children. -/
def Mod.leaChildren (m : Mod) : List (Nat × Nat) := childrenOf m.lea.active.ext m.lea.active.size.toNat m.member
/-- This member is the leader. -/
def Mod.isLeader (m : Mod) : Bool := m.leaParent.isNone
/-- The module is a member of a lea. -/
def Mod.inLea (m : Mod) : Bool := m.lea.active.size != 0#16

/-- The gates a coordinate uses in one dimension, with the coordinate each leads to (R336). -/
def gatesOfDim (k v e : Nat) : List (Nat × Nat) :=
  if e = 1 then []
  else if e = 2 then (if v = 0 then [(2 * k, 1)] else [(2 * k + 1, 0)])
  else [(2 * k, (v + 1) % e), (2 * k + 1, (v + e - 1) % e)]

/-- Every lea gate this member uses, with the member index it leads to. -/
def Mod.leaGates (m : Mod) : List (Nat × Nat) :=
  let e := m.lea.active.ext
  let c := coordOf e m.member
  (gatesOfDim 0 c.1 e.1).map (fun g => (g.1, indexOf e (g.2, c.2.1, c.2.2)))
    ++ (gatesOfDim 1 c.2.1 e.2.1).map (fun g => (g.1, indexOf e (c.1, g.2, c.2.2)))
    ++ (gatesOfDim 2 c.2.2 e.2.2).map (fun g => (g.1, indexOf e (c.1, c.2.1, g.2)))

/-- The identification check at formation (R352). -/
def Mod.identOk (m : Mod) : Bool :=
  m.leaGates.all (fun g => (m.upPorts g.1).all (fun p =>
    let x := m.port p
    let v := x.peer.toNat
    field v 32 16 == g.2 && x.peerLea == m.lea.active.id && field v 12 3 == oppositeGate g.1 && field v 16 3 == idxOf p))

/-! ### Tokens (R142) -/

/-- The 64 B of a token (R142). -/
def Token.bytes (t : Token) : Bytes :=
  leBytes 64 (t.type.toNat + b2n t.stop * 2 ^ 8 + b2n t.mismatch * 2 ^ 9 + b2n t.paused * 2 ^ 10 + b2n t.lost * 2 ^ 11
    + b2n t.fault * 2 ^ 12 + t.barId.toNat * 2 ^ 16 + t.leaId.toNat * 2 ^ 32 + t.barSeq.toNat * 2 ^ 64
    + t.pace.toNat * 2 ^ 112 + t.kind.toNat * 2 ^ 120 + t.checksum.toNat * 2 ^ 128 + t.firstBad.toNat * 2 ^ 192
    + t.count.toNat * 2 ^ 208)

/-- Read a token region: no token in 64 zero bytes, nor one of a reserved TYPE. -/
def readToken (bs : Bytes) : Option Token :=
  let v := leNat (bs.take 64)
  if field v 0 8 = 0 ∨ 4 < field v 0 8 then none
  else some ⟨BitVec.ofNat 8 v, bitOf v 8, bitOf v 9, bitOf v 10, bitOf v 11, bitOf v 12, BitVec.ofNat 16 (field v 16 16),
    BitVec.ofNat 32 (field v 32 32), BitVec.ofNat 48 (field v 64 48), BitVec.ofNat 8 (field v 112 8),
    BitVec.ofNat 8 (field v 120 8), BitVec.ofNat 64 (field v 128 64), BitVec.ofNat 16 (field v 192 16),
    BitVec.ofNat 10 (field v 208 10)⟩

/-- Send a token: in the next two token regions of every UP port of a gate (R348). -/
def Mod.sendToken (m : Mod) (gate : Nat) (t : Token) : Mod :=
  (m.upPorts gate).foldl (fun m p =>
    let f := hdgFlit 0 false true 0 t.bytes
    (m.hdgEmit p none 0 f).hdgEmit p none 0 f) m

/-- Send a token to every child. -/
def Mod.sendDown (m : Mod) (t : Token) : Mod := m.leaChildren.foldl (fun m c => m.sendToken c.2 t) m

/-- Send a token toward the leader. -/
def Mod.sendUp (m : Mod) (t : Token) : Mod :=
  match m.leaParent with
  | some p => m.sendToken p.2 t
  | none => m

/-! ### The barrier checksum (R144) -/

/-- The bytes 44 to 75: the loop counters. -/
def Mod.loopBytes (m : Mod) : Bytes :=
  let n := m.stream.loops.length
  ((List.range 8).map (fun c =>
    match (m.stream.loops.zipIdx).find? (fun e => e.1.ctr == c) with
    | some e => leBytes 4 (e.1.index % 65536 + (n - e.2) * 65536)
    | none => leBytes 4 0)).flatten

/-- CHECKSUM with the given first two bytes and kind (R144). -/
def Mod.barChecksum (m : Mod) (first kind barSeq : Nat) : BitVec 64 :=
  let c := m.lea.active
  let digest := match m.boot.image with | some i => i.leaDigest | none => List.replicate 32 0#8
  let seqs := ((List.range c.seqCount.toNat).map (fun k =>
    leBytes 4 (m.seqLen (c.seqFirst.toNat + k)) ++ leBytes 4 (m.seqGen (c.seqFirst.toNat + k)))).flatten
  BitVec.ofNat 64 (crc64 (leBytes 2 first ++ leBytes 1 kind ++ [0#8] ++ leBytes 8 barSeq ++ padTo 32 digest
    ++ m.loopBytes ++ seqs))

/-! ### Halting -/

/-- Some unit is in FAULT that the stream uses (R157, R405). -/
def Mod.anyFault (m : Mod) : Bool :=
  m.safe.active
  || m.units.recs.any (fun e => (e.2.mgmtFault || e.2.dataFault || e.2.forceAt.isSome) && (e.1 / 65536 != 7 || m.portUsed (e.1 % 65536)))
  || (List.range 36).any (fun p => m.portUsed p && decide ((m.port p).train.st = .failed))
  || decide (m.jnl.train.st = .failed)

/-- The stream stops at the present step boundary: no image runs, and a band that waits for its barrier goes dark
(R429). -/
def Mod.haltStream (m : Mod) : Mod :=
  let m1 : Mod := { m with
    stream := { m.stream with running := false, permit := false }
    boot := { m.boot with work := if m.boot.work = .run then .ready else m.boot.work }
    memStacks := { m.memStacks with ctl := m.memStacks.ctl.zipIdx.map (fun e => { e.1 with slots := idleSlots e.2 }) }
    power := { m.power with paceNow := 0#8, rest := 0#8, hint := none, slewTo := none, deferred := none } }
  m1.darkenDying

/-- Deliver every held completion with a status in place of its own, or with its own (R148). -/
def Mod.deliverHeld (m : Mod) (upTo : Nat) (status : Option (BitVec 8)) : Mod :=
  let m1 := m.deliverHeldDma upTo status
  let fix (e : Bytes × Option Nat) : Bytes × Option Nat :=
    match e.2 with
    | none => e
    | some k => if k ≤ upTo then ((match status with | some st => listSet e.1 2 st | none => e.1), none) else e
  { m1 with jnl := { m1.jnl with
      mailboxes := m1.jnl.mailboxes.map (fun b => { b with waiting := b.waiting.map fix }) } }

/-- Every barrier number. -/
def allBarriers : Nat := 2 ^ 64

/-- The lea leaves RUNNING for a state: its transfer lists are discarded (R356), no barrier waits. A member that lost a
band clears its active configuration and leaves the lea (R157). -/
def Mod.leaveRunning (m : Mod) (st : LeaSt) : Mod :=
  let m1 := m.dropTransfers
  let l : Lea := { m1.lea with
    st := if m1.lea.leaveAfter then .none else st
    pace := 0#8, wait := none, reports := [], stopReq := false, ending := false, abort := none, leaveAfter := false }
  let m2 : Mod := { m1 with lea := l }
  if m1.lea.leaveAfter then m2.setLeaActive LeaCfg.zero else m2

/-- The module leaves its lea because a band is lost: at its next stop, or now where it does not run (R52, R157). -/
def Mod.leaveLea (m : Mod) : Mod :=
  match m.lea.st with
  | .forming | .running => { m with lea := { m.lea with leaveAfter := true } }
  | _ => ({ m with lea := { m.lea with st := .none } } : Mod).setLeaActive LeaCfg.zero

/-! ### ALIVE and ABORT (R154 to R156) -/

/-- The stream of a RUNNING member has halted in FAULT (R156). -/
def Mod.leaHalted (m : Mod) : Bool := decide (m.lea.st = .running) && !m.running && !m.lea.paused

/-- A token that carries only flags. -/
def Mod.flagToken (m : Mod) (type : BitVec 8) (stop paused lost fault : Bool) (firstBad : BitVec 16) : Token :=
  ⟨type, stop, false, paused, lost, fault, 0#16, m.lea.active.id, m.lea.barSeq.setWidth 48, 0#8, 0#8, 0#64, firstBad, 0#10⟩

/-- The member's own ALIVE (R154, R155). -/
def Mod.aliveToken (m : Mod) : Token :=
  let bad := m.lea.paused || m.leaHalted
  m.flagToken 3#8 false m.lea.paused false m.leaHalted (if bad then BitVec.ofNat 16 m.member else 0xFFFF#16)

/-- Raise the events of an abort, one for each flag (R156). -/
def Mod.abortEvents (m : Mod) (t : Token) : Mod :=
  let p := payload [i2 t.firstBad.toNat]
  let m1 := if t.paused then m.raise .leaMemberPaused noUnit p else m
  let m2 := if t.lost then m1.raise .leaMemberLost noUnit p else m1
  if t.fault then m2.raise .leaMemberFaulted noUnit p else m2

/-- The abort takes effect: the member halts without completing the barrier (R156). -/
def Mod.abortNow (m : Mod) (t : Token) : Mod :=
  let m1 := (m.haltStream.deliverHeld allBarriers (some 0x38#8)).leaveRunning .stopped
  ({ m1 with lea := { m1.lea with firstBad := t.firstBad } }).abortEvents t

/-- An ABORT reaches this member: it is sent on, and the member halts at the first lea barrier it reaches, or at once
if it waits at one or its stream has stopped (R156). -/
def Mod.takeAbort (m : Mod) (t : Token) : Mod :=
  if m.lea.st ≠ .running then m
  else
    let m1 := ({ m with lea := { m.lea with aborting := some t } }).sendDown t
    if m1.lea.wait.isSome ∨ m1.running = false then m1.abortNow t
    else { m1 with lea := { m1.lea with abort := some t } }

/-- The leader aborts the lea for an ALIVE with a flag; a member sends the ALIVE on (R154, R156). -/
def Mod.flagAlive (m : Mod) (t : Token) : Mod :=
  if m.lea.st ≠ .running then m
  else if m.isLeader then m.takeAbort { m.flagToken 4#8 true t.paused t.lost t.fault t.firstBad with pace := 0#8 }
  else m.sendUp t

/-- The member's stream has halted in FAULT, or the member pauses: it says so at once (R155, R156, R462). -/
def Mod.leaSignal (m : Mod) : Mod :=
  if m.lea.st = .running ∧ (m.lea.paused = true ∨ m.running = false) then m.flagAlive m.aliveToken else m

/-- The neighbour at a gate: its index, and whether it is the parent. -/
def Mod.neighbourAt (m : Mod) (gate : Nat) : Option (Nat × Bool) :=
  match m.leaParent with
  | some p => if p.2 = gate then some (p.1, true) else ((m.leaChildren.find? (fun c => c.2 == gate)).map (fun c => (c.1, false)))
  | none => (m.leaChildren.find? (fun c => c.2 == gate)).map (fun c => (c.1, false))

/-- No token of a neighbour for 100 µs: it is declared lost (R154). -/
def Mod.neighbourLost (m : Mod) (gate : Nat) : Mod :=
  if m.lea.st ≠ .running then m
  else match m.neighbourAt gate with
  | none => m
  | some n =>
    let bad := BitVec.ofNat 16 n.1
    if n.2 then m.takeAbort (m.flagToken 4#8 true false true false bad)
    else m.flagAlive (m.flagToken 3#8 false false true false bad)

/-! ### Reports (R141, R143) -/

/-- The member's own values at a barrier it has taken (R142, R149). -/
def Mod.ownToken (m : Mod) (kind barId first : Nat) (barSeq : Nat) (bad : Bool) : Token :=
  let fault := m.running && m.anyFault
  ⟨1#8, m.lea.stopReq || m.lea.ending || m.lea.leaveAfter, bad, false, false, fault, BitVec.ofNat 16 barId, m.lea.active.id,
    BitVec.ofNat 48 barSeq, m.power.paceAllow, BitVec.ofNat 8 kind, m.barChecksum first kind barSeq,
    (if bad || fault then BitVec.ofNat 16 m.member else 0xFFFF#16), 1#10⟩

/-- Combine a node's values with one child's report (R143). -/
def Token.combine (own acc : Token) (child : Nat) (t : Token) : Token :=
  let differs := decide (t.barId ≠ own.barId ∨ t.barSeq ≠ own.barSeq ∨ t.kind ≠ own.kind ∨ t.checksum ≠ own.checksum)
  let bad := if differs then min t.firstBad.toNat child else t.firstBad.toNat
  { acc with
    stop := acc.stop || t.stop, paused := acc.paused || t.paused, lost := acc.lost || t.lost, fault := acc.fault || t.fault
    mismatch := acc.mismatch || t.mismatch || differs
    pace := if t.pace < acc.pace then t.pace else acc.pace
    count := acc.count + t.count
    firstBad := BitVec.ofNat 16 (min acc.firstBad.toNat bad) }

/-- Once the member has taken the barrier and every child has reported, the combined report is complete: it is sent to
the parent, or answered as the leader's RELEASE, which is then to be applied (R141, R143, R158). -/
def Mod.tryReport (m : Mod) : Mod × Option Token :=
  match m.lea.wait with
  | none => (m, none)
  | some w =>
    if w.sent.isSome then (m, none)
    else
      let reps := m.leaChildren.filterMap (fun c => (m.lea.reports.find? (fun r => r.1 == c.1)).map (fun r => r))
      if reps.length < m.leaChildren.length then (m, none)
      else
        let all := reps.foldl (fun acc r => Token.combine w.own acc r.1 r.2) w.own
        let m1 := { m with lea := { m.lea with wait := some { w with sent := some all }, reports := [] } }
        if m.isLeader then
          if m.lea.st = .forming ∧ all.count.toNat ≠ m.lea.active.size.toNat then (m1, none)
          else (m1, some { all with
            type := 2#8, stop := all.stop || all.fault
            pace := if m.power.paceAllow < all.pace then m.power.paceAllow else all.pace })
        else (m1.sendUp all, none)

/-- A REPORT arrives from a child: kept, or, for a barrier already released, answered with the RELEASE again (R348). -/
def Mod.takeReport (m : Mod) (gate : Nat) (t : Token) : Mod × Option Token :=
  match m.neighbourAt gate with
  | some (c, false) =>
    let kept : List (Nat × Token) := m.lea.reports.filter (fun x => x.1 != c) ++ [(c, t)]
    let m1 : Mod := { m with lea := { m.lea with reports := kept } }
    match m.lea.lastRelease with
    | some r => if r.barSeq = t.barSeq ∧ m.lea.st ≠ .forming then (m.sendToken gate r, none) else m1.tryReport
    | none => m1.tryReport
  | _ => (m, none)

/-- A token of a foreign lea is discarded and counted (R142). -/
def Mod.ownLea (m : Mod) (t : Token) : Bool := m.inLea && t.leaId == m.lea.active.id

/-- Count a foreign token. -/
def Mod.foreignToken (m : Mod) : Mod := { m with lea := { m.lea with foreign := satAdd m.lea.foreign 1 } }

/-- TOKEN_RESEND: an unanswered REPORT goes to the parent again, an ABORT to the children (R348). -/
def Mod.resendTokens (m : Mod) : Mod :=
  let m1 := match m.lea.wait with
    | some w => (match w.sent with | some t => m.sendUp t | none => m)
    | none => m
  match m1.lea.aborting with
  | some t => m1.sendDown t
  | none => m1

/-- ALIVE_TIMER: a RUNNING member that does not wait at a barrier sends ALIVE to its neighbours (R154, R155). -/
def Mod.aliveTimer (m : Mod) : Mod :=
  if m.lea.st = .running ∧ m.lea.wait.isNone then
    let t := m.aliveToken
    let m1 := if t.paused ∨ t.fault then m.flagAlive t else m.sendUp t
    if m1.lea.st = .running then m1.sendDown t else m1
  else m

end Sys2Proof.Machine
end

