-- ==== Sys2Proof/Machine/Safe.lean ====
section
/-!
DEFINITION. The safe state, the cairn, weight fingerprints and fault injection (R457 to R480).
-/
namespace Sys2Proof.Machine

/-! ### Figures that more than one part shows -/

/-- Signed 16-bit value of a temperature. -/
def tempOf (t : BitVec 16) : Int := t.toInt

/-- BAND_STATUS of a band (R443). -/
def Mod.bandStatus (m : Mod) (b : Nat) : BitVec 32 :=
  let x := m.band b
  BitVec.ofNat 32 (failedPhases m.fuses b + b2n x.closed * 32 + b2n (isDark m.plan b) * 64 + b2n x.droop * 128
    + x.senseMv.toNat * 256)

/-- IMAGE_DIGEST (R399). -/
def Mod.imageDigest (m : Mod) : Bytes := match m.boot.image with | some i => i.digest | none => List.replicate 32 0#8

/-- The coolant sensors 0x2C10:01 to 06. -/
def Mod.coolantBytes (m : Mod) : Bytes :=
  let t := m.thermal
  leBytes 2 t.flowA.toNat ++ leBytes 2 t.flowB.toNat ++ leBytes 2 t.pIn.toNat ++ leBytes 2 t.pOut.toNat
    ++ leBytes 2 t.tIn.toNat ++ leBytes 2 t.tOut.toNat

/-! ### The cairn (R466 to R471) -/

/-- The snapshot's body (R467). -/
def Mod.snapshotBody (m : Mod) : Bytes :=
  let states := (allUnits.filter (fun u => u.1 != 2)).map (fun u => BitVec.ofNat 8 (m.effective u.1 u.2).code)
  let faults := (List.range 588).map (fun k =>
    BitVec.ofNat 8 ((List.range 8).foldl (fun v j => if m.inFault 2 (8 * k + j) then v + 2 ^ j else v) 0))
  let two (l : List (BitVec 16)) : Bytes := (l.map (fun v => leBytes 2 v.toNat)).flatten
  states ++ faults ++ [0#8]
    ++ ((List.range 16).map (fun b => leBytes 4 (m.bandStatus b).toNat)).flatten
    ++ two (m.thermal.bands.map (fun b => b.control)) ++ two (m.thermal.bands.map (fun b => b.estimate))
    ++ m.coolantBytes ++ two m.power.current ++ [m.power.paceNow, m.power.paceAllow]
    ++ leBytes 2 m.power.limitCause.toNat ++ [m.power.rest, 0#8]
    ++ leBytes 2 m.safe.cause.toNat ++ leBytes 2 0 ++ leBytes 8 m.stream.stepCount.toNat
    ++ leBytes 8 m.lea.barSeq.toNat ++ m.imageDigest ++ m.plan.digest

/-- A record of the given kind and body is queued; `thenSeal` asks for a seal after it. -/
def Mod.cairnNote (m : Mod) (k : CairnKind) (e : Option EventRec) (body : Bytes) (thenSeal : Bool) : Mod :=
  m.cairnPut ⟨k, m.testing, e, body, m.clock.timeUs, thenSeal⟩

/-- Bytes 0 to 191 of the next record. -/
def Mod.cairnHead (m : Mod) (p : CairnPending) (copy held : Bool) : Bytes :=
  let c := m.cairn
  leBytes 4 0x4E524143 ++ leBytes 2 1 ++ leBytes 1 p.kind.code
    ++ leBytes 1 (b2n copy + 2 * b2n held + 4 * b2n p.test)
    ++ leBytes 8 c.next ++ leBytes 4 c.powerCycles ++ leBytes 4 0 ++ leBytes 8 p.timeUs ++ c.chain
    ++ padTo 128 (match p.event with | some e => e.bytes | none => [])

/-- The record's 4,096 bytes from its first 192 and its body. -/
def cairnRecord (head body : Bytes) : Bytes :=
  let b := head ++ padTo 3900 body
  b ++ leBytes 4 (crc32 b)

/-- A record whose EVENT field holds an event of severity fault or dangerous is copied to the first-fault area (R470). -/
def CairnPending.firstFault (p : CairnPending) : Bool :=
  match p.kind, p.event with
  | .event, some e => decide (2 ≤ e.event.severity.code)
  | _, _ => false

/-- Let waiting records take the entries that have become free (R469). -/
def Cairn.startNext (c : Cairn) : Cairn :=
  let room := 32 - c.queue.length
  { c with queue := c.queue ++ c.waiting.take room, waiting := c.waiting.drop room }

/-- The seal's BODY (R468): a signature over the digest of the record's bytes 0–191, and the previous seal's RECNO. -/
def Mod.sealBody (m : Mod) (head : Bytes) : Bytes × Mod :=
  let sig := Config.signature m.clock.signCtr (BitVec.ofNat 256 (beNat (sm3 head)))
  (leBytes 64 sig.toNat ++ leBytes 8 m.cairn.lastSeal.toNat,
    { m with clock := { m.clock with signCtr := m.clock.signCtr + 1 } })

/-- The record at the head of the queue finishes writing (R466); `held` says that it finishes on hold-up. -/
def Mod.cairnWrite (m : Mod) (held : Bool) : Mod :=
  match m.cairn.queue with
  | [] => m
  | p :: rest =>
    let head := m.cairnHead p false held
    let sb : Bytes × Mod := if p.kind = .seal then m.sealBody head else (p.body, m)
    let m1 := sb.2
    let bs := cairnRecord head sb.1
    let c := m1.cairn
    let isSeal := decide (p.kind = .seal)
    let since := if isSeal then 0 else c.sinceSeal + 1
    let copy := cairnRecord (m1.cairnHead p true held) sb.1
    let needs := p.thenSeal || (!isSeal && decide (since = 63) && !rest.any (fun q => decide (q.kind = .seal)))
    let next : CairnPending := ⟨.seal, m1.testing, none, [], m1.clock.timeUs, false⟩
    let c1 : Cairn := { c with
      ring := Map.set [] c.ring (c.next % 8192) bs
      next := c.next + 1
      chain := sm3 (bs.take 4092)
      lastSeal := if isSeal then BitVec.ofNat 64 c.next else c.lastSeal
      sinceSeal := since
      firstFault := if p.firstFault && decide (c.firstFault.length < 64) then c.firstFault ++ [copy] else c.firstFault
      queue := if needs then next :: rest else rest }
    { m1 with cairn := c1.startNext }

/-- FF_CLEAR (R470): the area is emptied, and a CLEAR record is written to the ring. -/
def Mod.ffClear (m : Mod) : Mod :=
  ({ m with cairn := { m.cairn with firstFault := [] } }).cairnNote .clear none [] false

/-- RECNO of the oldest record held (R471). -/
def Cairn.oldest (c : Cairn) : Nat := c.next - 8192

/-- CRN_RECORD or FF_RECORD of a number, if it is held (R471). -/
def Cairn.read (c : Cairn) (n : Nat) : Option Bytes :=
  if c.oldest ≤ n ∧ n < c.next then some (Map.get [] c.ring (n % 8192)) else none

/-- The power-up check (R469): every ring record's CRC and chain link. Answers the RECNOs that fail and the chain value
from which the chain goes on: that of the last intact record. -/
def Cairn.check (c : Cairn) : List Nat × Bytes :=
  let step (acc : List Nat × Bytes × Option Bytes) (n : Nat) : List Nat × Bytes × Option Bytes :=
    let bs := Map.get [] c.ring (n % 8192)
    let okCrc := decide (bs.length = 4096 ∧ leNat (bs.drop 4092) = crc32 (bs.take 4092))
    let prev := (bs.drop 32).take 32
    let okLink := match acc.2.2 with
      | some v => prev == v
      | none => n != 0 || prev == List.replicate 32 0#8
    let own := sm3 (bs.take 4092)
    if okCrc && okLink then (acc.1, own, some own) else (acc.1 ++ [n], acc.2.1, some own)
  let r := ((List.range (c.next - c.oldest)).map (fun i => c.oldest + i)).foldl step ([], List.replicate 32 0#8, none)
  (r.1, r.2.1)

/-- The cairn at power-up (R467 to R469): checked, sealed when records have followed the last seal, and a POWER_ON record
queued. -/
def Mod.cairnPowerUp (m : Mod) : Mod :=
  let r := m.cairn.check
  let m1 : Mod := { m with cairn := { m.cairn with
    chain := r.2, faults := BitVec.ofNat 32 r.1.length, powerCycles := m.cairn.powerCycles + 1
    queue := [], waiting := [], dropped := 0#32, select := 0#64, ffSelect := 0#8 } }
  let m2 := if m1.cairn.sinceSeal = 0 then m1 else m1.cairnNote .seal none [] false
  let m3 := m2.cairnNote .powerOn none [] false
  r.1.foldl (fun m n => m.raise .cairnFault noUnit (payload [i8 n])) m3

/-! ### Bring-up steps that end (R412, R413) -/

/-- A bring-up step's object. -/
def Mod.step (m : Mod) (n : Nat) : StepObj := listGet StepObj.reset m.boot.steps (n - 1)

/-- Replace a step's object. -/
def Mod.setStep (m : Mod) (n : Nat) (x : StepObj) : Mod :=
  { m with boot := { m.boot with steps := listSet m.boot.steps (n - 1) x } }

/-- The running step ends FAILED with a status; a FAILED RAILS leaves every switched rail off (R525). -/
def Mod.failStep (m : Mod) (st : BitVec 8) : Mod :=
  match m.boot.run with
  | none => m
  | some w =>
    let x := m.step w.step
    let m1 := m.setStep w.step { x with
      st := .failed, status := st, elapsedUs := BitVec.ofNat 32 (m.clock.timeUs - x.since) }
    let m2 := { m1 with boot := { m1.boot with run := none } }
    let m3 := if w.step = 1 then { m2 with power := { m2.power with railsOn := false } } else m2
    m3.raise .buStepFailed noUnit (payload [i1 w.step, i1 st.toNat])

/-- The running step ends DONE. -/
def Mod.endStep (m : Mod) (st : BitVec 8) : Mod :=
  match m.boot.run with
  | none => m
  | some w =>
    let x := m.step w.step
    let us := BitVec.ofNat 32 (m.clock.timeUs - x.since)
    let m1 := m.setStep w.step { x with st := .done, status := st, elapsedUs := us }
    ({ m1 with boot := { m1.boot with run := none } }).raise .buStepDone noUnit (payload [i1 w.step, i4 us.toNat])

/-! ### The safe state (R458 to R464) -/

/-- The codes of R480. -/
def stSafeWithheld : BitVec 8 := 0xD0#8
/-- SAFE_STATE -/
def stSafeState : BitVec 8 := 0xD1#8

/-- The highest of some temperatures; 0x8000 (no reading) is the lowest. -/
def hottest (ts : List (BitVec 16)) : BitVec 16 := ts.foldl (fun a t => if tempOf a < tempOf t then t else a) noTemp

/-- In the safe state a stack at 95.0 °C or above enters self-refresh; below 88.0 °C it leaves (R449). -/
def Mod.selfRefresh (m : Mod) : Mod :=
  (List.range 12).foldl (fun m s =>
    let t := tempOf (hottest (listGet ⟨[], false, 0, false, 0⟩ m.thermal.memStacks s).diodes)
    let c := ctlOf m.memStacks s
    if m.safe.active ∧ 950 ≤ t ∧ c.selfRefresh = false then
      ({ m with memStacks := setCtl m.memStacks s { c with selfRefresh := true } }).glnStopStack s
    else if t < 880 ∧ c.selfRefresh = true then { m with memStacks := setCtl m.memStacks s { c with selfRefresh := false } }
    else m) m

/-- A safe-state cause (R462, R463): its bit is set; the first one enters the safe state. The raiser has raised the
dangerous event. -/
def Mod.enterSafe (m : Mod) (bit : Nat) : Mod :=
  let cause := m.safe.cause ||| BitVec.ofNat 16 (2 ^ bit)
  if m.safe.active then { m with safe := { m.safe with cause := cause } }
  else
    let m1 : Mod := { m with
      safe := { m.safe with
        active := true, cause := cause, count := satAdd m.safe.count 1
        entryMs := BitVec.ofNat 32 ((m.clock.timeUs - m.clock.resetUs) / 1000) }
      can := { m.can with errorRegister := m.can.errorRegister ||| 0x80#8 } }
    let m2 := m1.repace.haltStream
    let m3 := if m2.lea.st = .running then m2.deliverHeld allBarriers (some 0x38#8) else m2
    let m4 := m3.leaSignal.failStep stSafeState
    let m5 := m4.selfRefresh.cairnNote .snapshot none m4.snapshotBody true
    m5.raise .safeState noUnit (payload [i2 m5.safe.cause.toNat])

/-- Raise a dangerous event and enter the safe state for it. -/
def Mod.danger (m : Mod) (e : Event) (unit : BitVec 32) (p : Bytes) (bit : Nat) : Mod :=
  (m.raise e unit p).enterSafe bit

/-- The compute control value (R446): over the bands that are not dark. -/
def Mod.computeTemp (m : Mod) : BitVec 16 :=
  hottest ((m.thermal.bands.zipIdx.filter (fun e => !isDark m.plan e.2)).map (fun e => e.1.control))

/-- The bits of SAFE_CAUSE that a kind 3 reset can release now (R464). -/
def Mod.releasable (m : Mod) : BitVec 16 :=
  let cool := match m.thermal.hotAt with | some t => decide (t + 10000000 ≤ m.clock.timeUs) | none => true
  BitVec.ofNat 16 (b2n cool * 4 + 16 + b2n m.can.hbBack * 32 + 128 + 256)

/-- The safe state is released by a reset (R464). -/
def Mod.leaveSafe (m : Mod) (kind : Nat) : Mod :=
  let m1 : Mod := { m with
    safe := { m.safe with active := false, cause := 0#16 }
    can := { m.can with errorRegister := m.can.errorRegister &&& 0x7F#8 }
    boot := { m.boot with work := if m.boot.image.isSome then .ready else .fenced } }
  m1.repace.raise .safeStateLeft noUnit (payload [i1 kind])

/-- A kind 3 reset releases the safe state only if it can release every bit set (R464). -/
def Mod.tryRelease (m : Mod) : Mod :=
  if m.safe.active ∧ m.safe.cause &&& ~~~m.releasable = 0#16 then m.leaveSafe 3 else m

/-- SAFE_REQ (R478). -/
def Mod.safeReq (m : Mod) : Mod := m.danger .safeRequested noUnit [] 8

/-! ### Weight fingerprints (R472 to R474) -/

/-- FP_PLAN_INVALID -/
def stFpPlanInvalid : BitVec 8 := 0xD4#8

/-- The shards of a plan table, if it obeys R472. -/
def Mod.readPlanTable (m : Mod) (a : Nat) : Option (List (Nat × Nat)) × Mod :=
  if a % 64 ≠ 0 ∨ ¬ stackRangeOk a 16 then (none, m)
  else
    let h := m.readStack a 16 7 false reqMgmt
    let hv := leNat (pieceBytes h.1)
    let n := field hv 0 16
    if 256 < n ∨ 2 ^ 16 ≤ hv ∨ ¬ stackRangeOk a (16 + 16 * n) then (none, h.2)
    else
      let t := h.2.readStack (a + 16) (16 * n) 7 false reqMgmt
      let bs := pieceBytes t.1
      let es := (List.range n).map (fun i => leNat ((bs.drop (16 * i)).take 16))
      let good (v : Nat) : Bool :=
        let base := field v 0 52
        let len := field v 64 32 * 4096
        field v 52 12 == 0 && field v 96 32 == 0 && base % 4096 == 0
          && decide (base + len ≤ (base / fieldBytes + 1) * fieldBytes) && stackRangeOk base len
          && bankLocal m.memStacks.placeActive (base / fieldBytes)
      if es.all good then (some (es.map (fun v => (field v 0 52, field v 64 32))), t.2) else (none, t.2)

/-- A write of FP_PLAN_ADDR, checked at once (R472): true if it is accepted. 0 withdraws the plan. -/
def Mod.fpPlan (m : Mod) (v : BitVec 64) : Bool × Mod :=
  if v = 0#64 then
    (true, { m with fpr := { m.fpr with planAddr := v, shards := [], pass := 0#64, status := 0#8, since := m.clock.timeUs } })
  else match m.readPlanTable v.toNat with
    | (none, m1) => (false, { m1 with fpr := { m1.fpr with status := stFpPlanInvalid } })
    | (some l, m1) =>
      (true, { m1 with fpr := { m1.fpr with
        planAddr := v, shards := l, pass := 0#64, status := 0#8, since := m1.clock.timeUs } })

/-- The CRC-64 that FP_ROWS gives for a 4 KiB piece, as 8 bytes; a row with a poisoned word has none, and its place is
undefined (log entry 4). -/
def Mod.pieceCrc (m : Mod) (a : Nat) : Bytes × Mod :=
  let r := m.withStacks (reqGln (bankOf (decodeAddr m.memStacks.placeActive a).1)) (fun s => readMem s a 4096
    (reqGln (bankOf (decodeAddr m.memStacks.placeActive a).1)) 1)
  if piecePoison r.1 then
    let m1 := r.2
    ((List.range 8).map (fun i => Config.freeByte (m1.clock.freeCtr + i)),
      { m1 with clock := { m1.clock with freeCtr := m1.clock.freeCtr + 8 } })
  else (leBytes 8 (crc64 (pieceBytes r.1)), r.2)

/-- A shard's digest (R473). -/
def Mod.shardDigest (m : Mod) (base pieces : Nat) : Bytes × Mod :=
  if pieces = 0 then (List.replicate 32 0#8, m)
  else
    let r := (List.range pieces).foldl (fun (acc : Bytes × Mod) i =>
      let p := acc.2.pieceCrc (base + 4096 * i)
      (acc.1 ++ p.1, p.2)) ([], m)
    (sm3 r.1, r.2)

/-- FINGERPRINT_PASS (R473): a pass over the shards of the plan, while no training image is loaded. -/
def Mod.fpPassRun (m : Mod) : Mod :=
  let training := match m.boot.image with | some i => i.training | none => false
  if m.fpr.planAddr = 0#64 ∨ training = true then m
  else
    let all (x : RM) : RM := (List.range 12).foldl (fun x n => glnPrepareSlice x n (fun w =>
      m.fpr.shards.any (fun s => (List.range s.2).any (fun i =>
        decide ((decodeAddr m.memStacks.placeActive (s.1 + 4096 * i)).1 / 128 = w / 128)))) (fun _ => false)) x
    let m1 := m.onRick (reqCore 0) all
    let r := m.fpr.shards.foldl (fun (acc : Bytes × Mod) s =>
      let d := acc.2.shardDigest s.1 s.2
      (acc.1 ++ d.1, d.2)) ([], m1)
    let m2 := r.2.coreWriteStack 0 m.fpr.outAddr.toNat (leBytes 16 m.fpr.pass.toNat ++ r.1) 3
    { m2 with fpr := { m2.fpr with pass := m2.fpr.pass + 1, since := m2.clock.timeUs } }

/-- FP_PASS_LATE (R473). -/
def Mod.fpLate (m : Mod) : Mod := if m.fpr.planAddr = 0#64 then m else m.raise .fpPassLate noUnit []

/-- The verdict names a pass among the last two completed; passes count from 0 as their headers do. -/
def Mod.passKnown (m : Mod) (p : Nat) : Bool :=
  decide (p < m.fpr.pass.toNat ∧ m.fpr.pass.toNat ≤ p + 2)

/-- An accepted FP_VERDICT: a non-zero one is a lost vote (R474). -/
def Mod.fpVerdict (m : Mod) (v : BitVec 64) : Mod :=
  let m1 : Mod := { m with fpr := { m.fpr with verdict := v } }
  let k := field v.toNat 16 8
  if k = 0 then m1
  else
    let p := payload [i2 (field v.toNat 0 16), i1 k, i8 (field v.toNat 32 32)]
    let e := m1.record .weightMismatch noUnit p
    let m2 := (m1.raise .weightMismatch noUnit p).cairnNote .verdict (some e) [] false
    m2.enterSafe 7

/-! ### Fault injection (R476, R477) -/

/-- FI_TARGET_INVALID -/
def stFiTargetInvalid : BitVec 8 := 0xD2#8
/-- FI_BUSY -/
def stFiBusy : BitVec 8 := 0xD3#8

/-- The mode suits the target and the parameter obeys the rule of its mode (R477). -/
def Inject.valid (i : Inject) : Bool :=
  let t := i.target.toNat
  let p := i.param.toNat
  let link := decide (t ≤ 36)
  let stack := decide (40 ≤ t ∧ t ≤ 51)
  match i.mode.toNat with
  | 1 => link
  | 2 => link && decide (field p 0 32 ≠ 0 ∧ field p 32 13 ≤ (if t = 36 then 2016 else 4064))
  | 3 => link
  | 4 => stack && decide (field p 8 8 ≤ 31 ∧ field p 16 8 ≠ 0
      ∧ (field p 24 8 ≤ 31 ∨ field p 24 8 = 255))
  | 5 => stack && decide (field p 8 8 ≤ 3 ∧ field p 16 8 ≠ 0
      ∧ (field p 24 8 ≤ 3 ∨ field p 24 8 = 255))
  | 6 => decide (t = 60)
  | _ => false

/-- The 36 bytes a mode 4 or 5 injection XORs into a code word (R477). -/
def bridgeBytes (check : Bool) (p : Nat) : Bytes :=
  let base := if check then 32 else 0
  let one := listSet (List.replicate 36 0#8) (base + field p 8 8) (BitVec.ofNat 8 (field p 16 8))
  if field p 24 8 = 255 then one
  else
    let k := base + field p 24 8
    listSet one k (listGet 0#8 one k ^^^ BitVec.ofNat 8 (field p 32 8))

/-- The armed injection ends disarmed; a flit held back for a swap is sent as it stands. -/
def Mod.disarm (m : Mod) : Mod :=
  let m1 : Mod := { m with
    inject := { m.inject with armed := false, swapHeld := none }
    memStacks := { m.memStacks with inject := none } }
  match m.inject.swapHeld with
  | none => m1
  | some (t, f) =>
    if t = 36 then { m1 with jnl := { m1.jnl with flits := m1.jnl.flits ++ [f] } }
    else { m1 with hdg := { m1.hdg with out := m1.hdg.out ++ [(t, f)] } }

/-- A write of 0x01 to FI_ARM (R476). -/
def Mod.fiArm (m : Mod) : Mod :=
  let i := m.inject
  if i.armed then { m with inject := { i with status := stFiBusy } }
  else if ¬ i.valid then { m with inject := { i with status := stFiTargetInvalid } }
  else
    let armed := decide (i.count ≠ 0#16)
    let check := decide (i.mode = 5#8)
    let bridge : Option BridgeInject :=
      if armed && (decide (i.mode = 4#8) || check) then
        some ⟨i.target.toNat - 40, field i.param.toNat 0 5, bitOf i.param.toNat 5, bridgeBytes check i.param.toNat, i.count.toNat⟩
      else none
    let m1 : Mod := { m with
      inject := { i with
        armed := armed, status := 0#8, done := 0#16, armTarget := i.target, armMode := i.mode, armCount := i.count
        armParam := i.param, swapHeld := none }
      memStacks := { m.memStacks with inject := bridge } }
    m1.raise .fiInjected noUnit (payload [i1 i.target.toNat, i1 i.mode.toNat, i2 i.count.toNat])

/-! ### The beacon's watch (R459) -/

/-- MC_SIGNAL: the management controller signals the beacon. -/
def Mod.mcSignal (m : Mod) : Mod := { m with safe := { m.safe with mcSignal := m.clock.timeUs } }

end Sys2Proof.Machine
end

