-- ==== Sys2Proof/Machine/Power.lean ====
section
/-!
DEFINITION. Power: failed phases, overcurrent, rails, the input, telemetry and the cap loop, droop, ageing trim
(R426 to R442).
-/
namespace Sys2Proof.Machine

/-! ### Phases and headers (R429 to R431) -/

/-- A band reaches 9 failed phases: it waits for its barrier, or goes dark now where no stream runs (R429). -/
def Mod.bandDying (m : Mod) (b : Nat) : Mod :=
  if m.running then
    let x := m.band b
    if x.dyingAt.isSome then m else (m.setBand b { x with dyingAt := some m.clock.timeUs }).leaveLea
  else (m.leaveLea).bandDark b

/-- PHASE_OVERCURRENT: a phase is switched off, marked failed and fused, and the module answers by the number of failed
phases of its band (R429). -/
def Mod.phaseFailed (m : Mod) (b phase : Nat) : Mod :=
  let old := Map.get 0#24 m.fuses.phases b
  if bitOf old.toNat phase ∨ isDark m.plan b then m
  else
    let m1 : Mod := { m with fuses := { m.fuses with
      phases := Map.set 0#24 m.fuses.phases b (old ||| BitVec.ofNat 24 (2 ^ phase)) } }
    let f := failedPhases m1.fuses b
    let m2 := (m1.raise .phaseFailed (unitId 1 b) (payload [i1 b, i1 phase, i1 f])).repace
    if f ≤ 4 then m2
    else if f ≤ 8 then m2.raise .phaseLimit (unitId 1 b) (payload [i1 b, i1 ((phaseLimit f).getD 0)])
    else if f ≤ 16 then m2.bandDying b
    else ((m2.leaveLea).bandDark b).danger .phaseCollapse (unitId 1 b) [] 1

/-- PHASE_LIMIT_TIMEOUT: the barrier has not come within 1 ms (R429): the stream halts, the module enters FAULT, the band
goes dark. -/
def Mod.phaseLimitTimeout (m : Mod) : Mod :=
  if m.running ∧ m.dyingBands ≠ [] then ((m.mgmtFault 0 0).haltStream).leaSignal else m

/-- REGULATOR_OVERCURRENT (R430). -/
def Mod.overcurrent (m : Mod) (b : Nat) (current : BitVec 16) : Mod :=
  if (m.band b).closed then
    (m.openHeaders b).danger .bandOvercurrent (unitId 1 b) (payload [i1 b, i2 current.toNat]) 0
  else m

/-! ### Rails and input (R427) -/

/-- The units that a rail feeds (R427). -/
def railUnits (rail : Nat) : List (Nat × Nat) :=
  match rail with
  | 3 | 4 => (List.range 36).map (fun p => (7, p)) ++ [(8, 0)]
  | 5 | 6 | 7 => (List.range 12).map (fun s => (4, s))
  | _ => [(0, 0)]

/-- RAIL_TOLERANCE_TIMEOUT: a rail has stayed more than 5% from its setpoint for 100 µs. -/
def Mod.railFault (m : Mod) (rail : Nat) (mv : BitVec 16) : Mod :=
  let m1 : Mod := { m with power := { m.power with railBad := m.power.railBad ||| BitVec.ofNat 7 (2 ^ (rail - 1)) } }
  let m2 := (railUnits rail).foldl (fun m u => m.mgmtFault u.1 u.2) m1
  let m3 := m2.raise .railFault noUnit (payload [i1 rail, i2 mv.toNat])
  if (0, 0) ∈ railUnits rail then m3.haltStream.leaSignal else m3

/-- The setpoint of a rail in mV; VDD_ARRAY's follows the pace (R426, R435). -/
def Mod.railSetpoint (m : Mod) (rail : Nat) : Nat :=
  let p := m.power.paceNow.toNat
  listGet 0 [750, (if p < 100 then 680 else if p ≤ 140 then 720 else 780), 750, 1200, 850, 1050, 450] (rail - 1)

/-- A reading lies within 5% of a setpoint. -/
def within5 (v set : Nat) : Bool := decide (95 * set ≤ 100 * v ∧ 100 * v ≤ 105 * set)

/-- INPUT_UNDERVOLTAGE. -/
def Mod.undervolt (m : Mod) : Mod :=
  if m.power.undervolt then m
  else (({ m with power := { m.power with undervolt := true } }).raise .inputUndervolt noUnit []).repace

/-- UNDERVOLT_RECOVERY: 10 ms at 40 V or above. -/
def Mod.undervoltEnd (m : Mod) : Mod :=
  if m.power.undervolt then ({ m with power := { m.power with undervolt := false } }).repace else m

/-! ### Telemetry and the cap (R432, R437, R438) -/

/-- Is the rail of a domain of 0x2810 on? Bands follow their headers, every other domain the rails of step 1. -/
def Mod.domainOn (m : Mod) (i : Nat) : Bool := if i < 16 then (m.band i).closed else m.power.railsOn

/-- Publish a window's measurements whole; a domain whose rail is off reads 0. -/
def Mod.publish (m : Mod) (w : PowerWindow) : Mod :=
  let mj := m.power.energyMj + w.inputW.toNat
  let cur := (List.range 45).map (fun i => if m.domainOn i then listGet 0#16 w.current i else 0#16)
  let rails := (List.range 7).map (fun i => listGet 0#16 w.railMv i)
  let bad := (List.range 7).foldl (fun v i =>
    if bitOf m.power.railBad.toNat i && !within5 (listGet 0#16 w.railMv i).toNat (m.railSetpoint (i + 1))
    then v + 2 ^ i else v) 0
  let bands := m.power.bands.zipIdx.map (fun (e : Band × Nat) => { e.1 with senseMv := listGet 0#12 w.senseMv e.2 })
  { m with power := { m.power with
    railMv := rails, current := cur, bands := bands, railBad := BitVec.ofNat 7 bad
    inputMv := w.inputMv, inputCa := w.inputCa, inputW := w.inputW
    energyJ := satAdd m.power.energyJ (mj / 1000), energyMj := mj % 1000 } }

/-- CAP_EXCEEDED: 20 windows in a row more than 2% above the cap, once until a window within the cap (R438). -/
def Mod.capWatch (m : Mod) : Mod :=
  let p := m.power
  let above := decide (102 * p.capW.toNat < 100 * p.inputW.toNat)
  let n := if above then p.overWindows + 1 else 0
  let again := p.overRaised && decide (p.capW.toNat < p.inputW.toNat)
  if 20 ≤ n ∧ again = false then
    ({ m with power := { p with
      overWindows := n, overRaised := true, capExceed := satAdd p.capExceed 1 } }).raise .capExceeded noUnit []
  else { m with power := { p with overWindows := n, overRaised := again } }

/-- TELEMETRY_WINDOW: the window's end (R432, R437). -/
def Mod.window (m : Mod) (w : PowerWindow) : Mod :=
  let m1 := m.publish w
  let cap := m1.power.capNext.getD m1.power.capW
  let now := if m1.running then m1.power.paceNow.toNat else 0
  let watts := m1.power.inputW.toNat
  let rest := if m1.running then restAfter m1.power.rest.toNat cap.toNat watts else 0
  let m2 : Mod := { m1 with power := { m1.power with
    capW := cap, capNext := none, capLimit := capLimitOf cap.toNat watts now, rest := BitVec.ofNat 8 rest } }
  m2.capWatch.repace

/-! ### Droop (R440) -/

/-- DROOP: a band exceeds 25 mV. The response begins; a pace change under way is deferred and counted. -/
def Mod.droopStart (m : Mod) (b : Nat) : Mod :=
  let m1 := m.setBand b { m.band b with droop := true }
  if m.power.droop then m1
  else
    let m2 : Mod := { m1 with power := { m1.power with
      droop := true, droopSkip := true, droopCount := satAdd m1.power.droopCount 1 } }
    match m2.power.slewTo with
    | some p => m2.deferPace p
    | none => m2

/-- SEVERE_DROOP: above 60 mV for 5 µs; the reduction of bit 8 lowers the pace at once (R433, R440). -/
def Mod.severeDroop (m : Mod) (b : Nat) (peak : BitVec 16) : Mod :=
  let m1 := m.droopStart b
  let m2 : Mod := { m1 with power := { m1.power with severe := true } }
  let m3 := m2.raise .droopSevere (unitId 1 b) (payload [i1 b, i2 peak.toNat])
  let m4 := if m3.running ∧ m3.allowance < m3.power.paceNow.toNat then m3.setPace m3.allowance else m3
  m4.repace

/-- DROOP_CLEARED: every band at 10 mV or less for 2 µs; a deferred change applies at the next step boundary. -/
def Mod.droopEnd (m : Mod) : Mod :=
  let m1 : Mod := { m with power := { m.power with
    droop := false, droopSkip := false, deferred := none
    bands := m.power.bands.map (fun (b : Band) => { b with droop := false }) } }
  match m.power.deferred with
  | some p => (m1.movePace p).repace
  | none => m1.repace

/-- DROOP_REDUCTION_END: 1 s after the last severe droop. -/
def Mod.severeEnd (m : Mod) : Mod := ({ m with power := { m.power with severe := false } }).repace

/-- CROSSING_STALL: a band's droop exceeds 40 mV, and its crossings stall (R178). -/
def Mod.crossStall (m : Mod) (b : Nat) : Mod :=
  let m1 := m.droopStart b
  { m1 with tl := { m1.tl with stalled := m1.tl.stalled ||| BitVec.ofNat 16 (2 ^ b) } }

/-- CROSSING_STALL_END; a recalibration that waited for it finds the listed windows (R176). -/
def Mod.crossStallEnd (m : Mod) (b : Nat) (ws : List CrossWindow) : Mod :=
  let m1 : Mod := { m with tl := { m.tl with stalled := m.tl.stalled &&& ~~~ BitVec.ofNat 16 (2 ^ b) } }
  if m1.tl.recalWait then m1.recalibrate ws else m1

/-! ### Ageing (R441) -/

/-- A band's trim is raised by 2.5 mV and fused; it is applied at the next barrier. -/
def Mod.trimBand (m : Mod) (b : Nat) : Mod :=
  let t := Map.get 0 m.power.trims b
  if t + 25 ≤ 400 then
    let x := m.band b
    let m1 : Mod := { m with power := { m.power with trims := Map.set 0 m.power.trims b (t + 25) } }
    (m1.setBand b { x with trimPending := x.trimPending + 25 }).raise .ageingTrim (unitId 1 b)
      (payload [i1 b, i2 (t + 25)])
  else m.raise .ageingExhausted (unitId 1 b) []

/-- AGEING_CHECK: bands (by bit) whose monitors show less margin than at manufacture test. -/
def Mod.ageingCheck (m : Mod) (lost : BitVec 16) : Mod :=
  (List.range 16).foldl (fun m b => if bitOf lost.toNat b && (m.band b).closed then m.trimBand b else m) m

/-! ### Hints (R439) -/

/-- HINT_RAMP: the voltages start toward the boost. -/
def Mod.hintRamp (m : Mod) : Mod :=
  match m.power.hint with
  | some h => { m with power := { m.power with hint := some { h with active := true } } }
  | none => m

/-- BOOST_END. -/
def Mod.boostEnd (m : Mod) : Mod := { m with power := { m.power with hint := none } }

end Sys2Proof.Machine
end

