-- ==== Sys2Proof/Machine/Stream.lean ====
section
/-!
DEFINITION. The instruction stream: bundles, permits, steps, loops, the DM and SB slots, and a slot's operation at one
cell (R101 to R134, R273 to R279).
-/
namespace Sys2Proof.Machine

/-! ### Bundles (R105 to R110) -/

/-- A bundle header (R107). -/
structure Hdr where
  repeats : Nat
  mask : Nat
  level : Nat
  lead : Nat
  barKind : Nat
  fin : Bool
  restart : Bool
  barId : Nat
  loopOp : Nat
  ctr : Nat
  count : Nat
  body : Nat
  /-- HPAR fits -/
  parity : Bool
  /-- a reserved bit or value, or both END and RESTART (R110) -/
  bad : Bool
deriving DecidableEq, Repr

/-- Number of ones among the low `n` bits. -/
def onesIn (n v : Nat) : Nat := ((List.range n).filter (fun i => bitOf v i)).length

/-- The fields of a header. -/
def hdrF (h : BitVec 128) : Hdr :=
  let v := h.toNat
  let op := field v 64 2
  { repeats := field v 0 16, mask := field v 16 16, level := field v 32 3, lead := field v 35 6
    barKind := field v 41 3, fin := bitOf v 44, restart := bitOf v 45, barId := field v 48 16
    loopOp := op, ctr := field v 66 3, count := field v 72 16, body := field v 88 24
    parity := onesIn 128 v % 2 == 0
    bad := decide (4 ≤ field v 41 3 ∨ field v 46 2 ≠ 0 ∨ field v 69 3 ≠ 0 ∨ field v 112 15 ≠ 0 ∨ op = 3)
      || (bitOf v 44 && bitOf v 45) || (op != 1 && decide (field v 72 16 ≠ 0 ∨ field v 88 24 ≠ 0)) }

/-- Length of a bundle in units of 16 B (R108). -/
def Hdr.units (h : Hdr) : Nat := 1 + 12 * onesIn 16 h.mask

/-- A unit of the bundle buffer. -/
def Mod.unitAt (m : Mod) (off : Nat) : Option (BitVec 128) :=
  (m.stream.buffer.find? (fun e => e.1 == off)).map (fun e => e.2)

/-- The header of the current bundle. -/
def Mod.header (m : Mod) : Option Hdr := (m.unitAt m.stream.pos).map hdrF

/-- All of the current bundle is in the buffer. -/
def Mod.bundleIn (m : Mod) (h : Hdr) : Bool :=
  (List.range h.units).all (fun i => (m.unitAt (m.stream.pos + i)).isSome)

/-- A row's word in the current bundle: all NOP for a band the header does not name (R108). -/
def Mod.rowWord (m : Mod) (h : Hdr) (row : Nat) : BitVec 256 :=
  let b := bandOfRow row
  if bitOf h.mask b = false then 0#256
  else
    let off := m.stream.pos + 1 + 12 * onesIn b h.mask + 2 * (row % 6)
    let lo := (m.unitAt off).getD 0#128
    let hi := (m.unitAt (off + 1)).getD 0#128
    BitVec.ofNat 256 (lo.toNat + hi.toNat * 2 ^ 128)

/-- The module enters FAULT and its stream halts; a lea learns of it (R106, R110, R112, R115). -/
def Mod.streamFault (m : Mod) (e : Event) (p : Bytes) : Mod :=
  let m1 := (m.raise e noUnit p).dataFault 0 0
  m1.haltStream.leaSignal

/-- Where a header or row names none, the payload gives 0xFF. -/
def noRow : Nat := 0xFF

/-! ### Loops (R111, R112) -/

/-- A loop rule, or the rule for END and RESTART, is broken: the stream halts before the bundle's loop operation. -/
def Mod.loopFault (m : Mod) : Mod := m.streamFault .loopFault (payload [i8 m.bundlePos.toNat])

/-- The loop stack and the next bundle that a loop operation gives, from the bundle at `pos`; none: LOOP_FAULT. -/
def loopApply (h : Hdr) (pos : Nat) (loops : List LoopEntry) : Option (List LoopEntry × Option Nat) :=
  let stop := pos + h.units
  match h.loopOp with
  | 0 => some (loops, none)
  | 1 =>
    if loops.any (fun l => l.ctr == h.ctr) then none
    else if h.count = 0 then some (loops, some (stop + h.body))
    else if 8 ≤ loops.length then none
    else some (⟨h.ctr, 0, h.count, stop, stop + h.body⟩ :: loops, none)
  | _ =>
    match loops with
    | [] => none
    | l :: rest =>
      if l.ctr ≠ h.ctr ∨ stop ≠ l.stop then none
      else if l.index < l.count - 1 then some ({ l with index := l.index + 1 } :: rest, some l.start)
      else some (rest, none)

/-- The loop phase of the current bundle: END and RESTART are valid only at the depth 0 that it leaves (R110). -/
def Mod.loopStep (m : Mod) (h : Hdr) : Mod :=
  match loopApply h m.stream.pos m.stream.loops with
  | none => m.loopFault
  | some r =>
    if (h.fin = true ∨ h.restart = true) ∧ r.1 ≠ [] then m.loopFault
    else { m with stream := { m.stream with phase := .barrier, loops := r.1, next := r.2 } }

/-- Bring the stream to the next thing it has to do: phases that the bundle does not have are passed over, and the
header of the next bundle is checked as it is entered (R109, R110). -/
def Mod.settlePhase (fuel : Nat) (m : Mod) : Mod :=
  match fuel with
  | 0 => m
  | fuel + 1 =>
    if m.running = false then m
    else
      let s := m.stream
      match m.header with
      | none =>
        if s.fetchBad.contains s.pos then (m.dataFault 0 0).haltStream.leaSignal else m
      | some h =>
        if s.phase = .run ∧ s.rep = 0 ∧ h.parity = false then
          m.streamFault .streamParity (payload [i8 m.bundlePos.toNat, i1 noRow])
        else if s.phase = .run ∧ s.rep = 0 ∧ h.bad = true then
          m.streamFault .slotIllegal (payload [i1 noRow, i1 noRow, i8 m.bundlePos.toNat])
        else if s.fetchBad.any (fun u => decide (s.pos ≤ u ∧ u < s.pos + h.units)) && !(m.bundleIn h) then
          (m.dataFault 0 0).haltStream.leaSignal
        else match s.phase with
        | .run => if s.rep < h.repeats then m else settlePhase fuel { m with stream := { s with phase := .loop } }
        | .loop => if h.loopOp ≠ 0 then m else settlePhase fuel (m.loopStep h)
        | .barrier => if h.barKind ≠ 0 then m else settlePhase fuel { m with stream := { s with phase := .fin } }
        | .fin =>
          if h.fin = true ∨ h.restart = true then m
          else settlePhase fuel { m with stream := { s with
            phase := .run, rep := 0, pos := s.next.getD (s.pos + h.units), next := none } }

/-- Settle with as much fuel as the buffer can need. -/
def Mod.settled (m : Mod) : Mod := m.settlePhase (4 * m.stream.buffer.length + 8)

/-- The header of the current bundle, if it stands in the given phase. -/
def Mod.inPhase (m : Mod) (p : Phase) : Option Hdr := if m.running = true ∧ m.stream.phase = p then m.header else none

/-- BUNDLE_FETCH: `n` units of 16 B from `off` reach the bundle buffer, through the FETCH slots and not the rick (R105);
poison raises FETCH_POISON (R106). -/
def Mod.bundleFetch (m : Mod) (off n : Nat) : Mod :=
  match m.boot.image with
  | none => m
  | some im =>
    match im.sections with
    | [] => m
    | sec :: _ =>
      if m.running = false ∨ sec.len / 16 < off + n then m
      else
        let r := m.withStacks reqFetch (fun s => readMem s (sec.addr + 16 * off) (16 * n) reqFetch 0)
        let bs := pieceBytes r.1
        -- each piece of at most 32 B marks the units it covers
        let marks := (r.1.map (fun p => List.replicate ((p.1.length + 15) / 16) p.2)).flatten
        let units := (List.range n).map (fun i => (off + i, BitVec.ofNat 128 (leNat ((bs.drop (16 * i)).take 16)),
          listGet false marks i))
        let good := (units.filter (fun u => !u.2.2)).map (fun u => (u.1, u.2.1))
        let bad := (units.filter (fun u => u.2.2)).map (fun u => u.1)
        let m1 := r.2
        let kept := m1.stream.buffer.filter (fun e => !(good.any (fun g => g.1 == e.1)))
        let all := kept ++ good
        let m2 : Mod := { m1 with stream := { m1.stream with
          buffer := all.drop (all.length - 131072), fetchBad := m1.stream.fetchBad ++ bad } }
        let m3 := match bad with
          | b :: _ => m2.raise .fetchPoison noUnit (payload [i8 (sec.addr + 16 * b)])
          | [] => m2
        m3.settled

/-! ### Permits and slips (R102, R132, R434, R438, R440, R499) -/

/-- Count a slip with the given causes (R132, R133). -/
def Mod.slip (m : Mod) (causes : List Nat) : Mod :=
  let cs := if causes = [] then [11] else causes
  let low := cs.foldl min 11
  let s := m.stream
  let first := if s.slipTotal = 0#64 then BitVec.ofNat 64 (s.stepCount.toNat % 2 ^ 48 + low * 2 ^ 48) else s.firstSlip
  let n := s.slips + 1
  let nlow := if s.slips = 0 then low else min s.slipLow low
  let above := decide (s.slipLimit ≠ 0#32 ∧ s.slipLimit.toNat < n) && !s.slipRaised
  let m1 : Mod := { m with stream := { s with
    slipTotal := satAdd s.slipTotal 1
    slipCause := s.slipCause.zipIdx.map (fun e => if cs.contains (e.2 + 1) then satAdd e.1 1 else e.1)
    firstSlip := first, slips := n, slipLow := nlow, slipRaised := s.slipRaised || above } }
  if above then m1.raise .slipLimit noUnit (payload [i8 n, i1 nlow]) else m1

/-- The pacer withholds the next permit: debug halt, droop, or the rest fraction. -/
def Mod.withholds (m : Mod) : Bool :=
  let p := m.power
  let n := p.permitIdx
  let r := p.rest.toNat
  m.sec.dbgHalt == 1#8 || (p.droop && p.droopSkip) || decide (n * r / 64 < (n + 1) * r / 64)

/-- The pacer's next permit: granted, or counted as a rest step. -/
def Mod.nextPermit (m : Mod) : Mod :=
  let p := m.power
  let held := m.withholds
  let s := m.stream
  { m with
    power := { p with permitIdx := (p.permitIdx + 1) % 64, droopSkip := p.droop && !p.droopSkip }
    stream := { s with
      permit := !held
      restSteps := if held then satAdd s.restSteps 1 else s.restSteps } }

/-! ### Row words (R114, R121, R122) -/

/-- The DM slot (R121). -/
structure DmF where
  op : Nat
  dq : Nat
  tag : Nat
  xb : Bool
  line : Nat
deriving DecidableEq, Repr

/-- The SB slot (R122). -/
structure SbF where
  op : Nat
  lane : Nat
  q : Nat
  tag : Nat
  pctr : Nat
  pred : Nat
  lsrc : Nat
  bad : Bool
deriving DecidableEq, Repr

/-- Fields of a DM slot. -/
def dmF (v : Nat) : DmF := ⟨field v 0 4, field v 4 6, field v 10 8, bitOf v 18, field v 19 13⟩

/-- Fields of an SB slot. -/
def sbF (v : Nat) : SbF :=
  ⟨field v 0 4, field v 4 2, field v 6 2, field v 10 8, field v 18 3, field v 21 3, field v 24 3,
    decide (4 ≤ field v 0 4 ∨ field v 8 2 ≠ 0 ∨ field v 21 3 = 7 ∨ field v 27 4 ≠ 0)⟩

/-- The predicate of a row word, from the loop counters alone (R122). -/
def Mod.predHolds (m : Mod) (f : SbF) : Bool :=
  let l := m.stream.loops.find? (fun l => l.ctr == f.pctr)
  let i := match l with | some x => x.index | none => 0
  let n := match l with | some x => x.count | none => 1
  match f.pred with
  | 0 => true
  | 1 => i == 0
  | 2 => i + 1 == n
  | 3 => i != 0
  | 4 => i + 1 != n
  | 5 => i % 2 == 0
  | 6 => i % 2 == 1
  | _ => true

/-- What one row does in a step. -/
structure RowAct where
  row : Nat
  slots : Slots
  dm : DmF
  sb : SbF
  /-- slots that hold a reserved opcode or field value (R123) -/
  bad : List Nat
deriving DecidableEq, Repr

/-- The cells of a row that can execute. -/
def Mod.rowCells (m : Mod) (row : Nat) : List Nat := ((List.range 49).map (cellAt row)).filter m.cellRuns

/-- The cell that LSRC selects (R122, R124). -/
def Mod.lsrcCell (m : Mod) (row lsrc : Nat) : Option Nat :=
  match (Map.get [] m.planting.active.lanes row)[lsrc]? with
  | some c => (cellOfLogical m.plan row c).filter m.cellRuns
  | none => none

/-- Cell slots that are illegal as they stand, whatever the cell holds (R119, R123). -/
def badSlots (training : Bool) (s : Slots) : List Nat :=
  let env : CellEnv := ⟨0, [], 0#32, 0, [], training, 0⟩
  let c := CellState.reset
  let hit (r : CellState × List Fx) : Bool := r.2.any (fun f => match f with | .slotIllegal _ => true | _ => false)
  (if field s.mx.toNat 0 4 ≠ 0 ∧ hit (mxIssue [] [] s.mx env c) = true then [0] else [])
  ++ (if field s.vx.toNat 0 6 ≠ 0 ∧ hit (vxIssue env c s.vx) = true then [1] else [])
  ++ (if field s.mv.toNat 0 4 ≠ 0 ∧ hit (mvIssue env c s.mv) = true then [2] else [])

/-- A row's action: a row word whose predicate is false executes as all NOP with its lane idle (R122); one with an illegal
slot stops its cells before they execute any of it (R123). -/
def Mod.rowAct (m : Mod) (row : Nat) (w : BitVec 256) : RowAct :=
  let v := w.toNat
  let sb := sbF (v / 2 ^ 224)
  if m.predHolds sb = false then ⟨row, Slots.nop, dmF 0, sbF 0, []⟩
  else
    let s : Slots := ⟨BitVec.ofNat 64 v, BitVec.ofNat 64 (v / 2 ^ 64), BitVec.ofNat 64 (v / 2 ^ 128)⟩
    let dm := dmF (v / 2 ^ 192 % 2 ^ 32)
    let bad := badSlots m.training s ++ (if 3 ≤ dm.op then [3] else []) ++ (if sb.bad then [4] else [])
    if bad = [] then ⟨row, s, dm, sb, []⟩ else ⟨row, Slots.nop, dmF 0, sbF 0, bad⟩

/-- The slots as one cell of the row executes them: LANE_TX only at the cell that LSRC selects (R120). -/
def RowAct.slotsOf (a : RowAct) (src : Option Nat) (cell : Nat) : Slots :=
  if (mvF a.slots.mv).op = 8 ∧ src ≠ some cell then { a.slots with mv := 0#64 } else a.slots

/-- Each band's rows of the bundle, with their words; a dark band's are discarded (R108). -/
def Mod.rowsOf (m : Mod) (h : Hdr) : List (Nat × BitVec 256) :=
  ((List.range 96).filter (fun r => !(isDark m.plan (bandOfRow r)))).map (fun r => (r, m.rowWord h r))

/-! ### What a step waits for outside the cells -/

/-- Words ready for the broadcast tree that a row takes: its die's (96, 97), else that of both dies (98) (R54, R55). -/
def broadcastOf (m : Mod) (die : Nat) : Option (Nat × Nat) :=
  if 16 ≤ (Map.get [] m.chip.injector (96 + die)).length then some (96 + die, 6)
  else if 16 ≤ (Map.get [] m.chip.injector 98).length then some (98, 7)
  else none

/-- A queue cannot give an entry to the stream at all: disabled, halted or in free mode (R274). -/
def Mod.queueRefuses (m : Mod) (q : Nat) : Bool :=
  let x := m.dmaq q
  !x.enable || x.state == 3#2 || x.mode

/-- A tag of the row is held (R121). -/
def Mod.tagHeld (m : Mod) (row tag : Nat) : Bool := m.dma.tags.any (fun t => t.row == row && t.tag == tag)

/-- Records waiting in a control core's completion queue. -/
def Mod.completionsOf (m : Mod) (core : Nat) : List (BitVec 128) := Map.get [] m.chip.completions core

/-- The causes for which a row's action has to wait (R121, R122, R128, R132, R279). -/
def Mod.rowWaits (m : Mod) (a : RowAct) : List Nat :=
  let desc := (a.sb.op = 1 ∧ (m.rowCells a.row).any (fun c => (listGet [] (m.cell c).queues a.sb.q).isEmpty) = true)
    ∨ (a.sb.op = 2 ∧ 256 ≤ (m.completionsOf (bandOfRow a.row)).length)
  let dma := (a.sb.op = 3 ∧ m.tagHeld a.row a.sb.tag = true)
    ∨ (a.dm.op = 1 ∧ m.queueRefuses a.dm.dq = false ∧ m.queueReady a.dm.dq false = false)
    ∨ (a.sb.lane = 1 ∧ (Map.get [] m.chip.injector a.row).length < 16)
    ∨ (a.sb.lane = 3 ∧ (broadcastOf m (dieOfRow a.row)).isNone = true)
  let busy := a.dm.op ≠ 0 ∧ m.tagHeld a.row a.dm.tag = true
  if m.rowCells a.row = [] then []
  else (if desc then [1] else []) ++ (if dma then [2] else []) ++ (if busy then [9] else [])

/-- Some cell of the row cannot take its slots yet (R72, R123). -/
def Mod.rowHeld (m : Mod) (a : RowAct) : Bool :=
  let src := m.lsrcCell a.row a.sb.lsrc
  (m.rowCells a.row).any (fun c => (a.slotsOf src c).held (m.cell c))

/-- The actions of the current bundle's rows. -/
def Mod.bundleActs (m : Mod) (h : Hdr) : List RowAct := (m.rowsOf h).map (fun e => m.rowAct e.1 e.2)

/-- Crossings of a band under supply stall under droop (R178). -/
def Mod.crossStalled (m : Mod) : Bool := decide (m.tl.stalled ≠ 0#16)

/-- What holds the module at its step boundary, as far as the module's state shows it (R132). -/
def Mod.holdCauses (m : Mod) : List Nat :=
  match m.header with
  | none => [6]
  | some h =>
    match m.stream.phase with
    | .run =>
      if m.bundleIn h = false then [6]
      else (((m.bundleActs h).map (fun a => m.rowWaits a)).flatten ++ (if m.crossStalled then [7] else [])).eraseDups
    | .barrier => if m.crossStalled then [7, 10] else [10]
    | _ => if m.crossStalled then [7] else []

/-- PERMIT_PERIOD: a permit that is still unused expires as a slip, with the causes shown by the state and those in the
mask (bit n − 1 is cause n); then the pacer withholds or grants the next (R102). -/
def Mod.permitPeriod (m : Mod) (seen : BitVec 11) : Mod :=
  let m0 := m.settled
  if m0.running = false then m0
  else
    let named := (List.range 11).filterMap (fun i => if bitOf seen.toNat i then some (i + 1) else none)
    let m1 := if m0.stream.permit then m0.slip (m0.holdCauses ++ named).eraseDups else m0
    m1.nextPermit

/-! ### The DM slot (R121, R273, R274) -/

/-- A transfer is bound to its tag and waits for its step boundary (R273). -/
def Mod.bindIssue (m : Mod) (row : Nat) (f : DmF) (step : Nat) (dq : Nat) (desc : BitVec 512) (index : Option Nat) : Mod :=
  let due := if f.line = 0 then none else some (step + 256 * f.line)
  { m with dma := { m.dma with
      tags := m.dma.tags ++ [⟨row, f.tag, f.xb⟩]
      waiting := m.dma.waiting ++ [⟨row, f.tag, f.xb, due, dq, desc, index⟩] } }

/-- ISSUE: the next descriptor of a stream queue; a queue that cannot serve the stream faults the row's cells, with a
status the spec does not state (log entry 4). -/
def Mod.issue (m : Mod) (row : Nat) (f : DmF) (hostDesc : BitVec 512) : Mod :=
  if m.queueRefuses f.dq then
    let st := Config.freeByte m.clock.freeCtr
    let m1 : Mod := { m with clock := { m.clock with freeCtr := m.clock.freeCtr + 1 } }
    m1.issueFault row f.tag f.dq st
  else
    let r := m.takeDesc f.dq hostDesc
    r.2.2.bindIssue row f m.stream.stepCount.toNat f.dq r.2.1 (some r.1)

/-- ISSUE_D: the DMA descriptor in register `q` of the cell that LSRC selects; another kind is DESC_KIND (R130). -/
def Mod.issueD (m : Mod) (row : Nat) (f : DmF) (q : Nat) (src : Option Nat) : Mod :=
  match src with
  | none => m
  | some c =>
    let d := listGet 0#512 (m.cell c).regs q
    if field d.toNat 0 8 = 0x20 then m.bindIssue row f m.stream.stepCount.toNat q d none
    else (m.dataFault 2 c).raise .descKind (unitId 2 c) (payload [i2 c, i1 q, i1 (field d.toNat 0 8)])

/-! ### The SB slot (R122, R128 to R131) -/

/-- WAITQ at one cell: the oldest entry of queue `q` is popped and, if its SEQ and KIND fit, loaded into register `q`. -/
def Mod.waitq (m : Mod) (cell q : Nat) : Mod :=
  let c := m.cell cell
  match listGet [] c.queues q with
  | [] => m
  | d :: rest =>
    let c1 := { c with queues := listSet c.queues q rest }
    let m1 := m.setCell cell c1
    let want := (listGet 0#16 c.seq q).toNat
    let got := field d.toNat 16 16
    let kind := field d.toNat 0 8
    if got ≠ want then
      (m1.dataFault 2 cell).raise .descSeq (unitId 2 cell) (payload [i2 cell, i1 q, i2 want, i2 got])
    else
      let c2 := { c1 with seq := listSet c.seq q (BitVec.ofNat 16 (want + 1)) }
      let m2 := m.setCell cell c2
      if kind = 1 ∨ kind = 2 ∨ kind = 0x10 ∨ kind = 0x20 then
        let c3 := { c2 with regs := listSet c.regs q d }
        m2.setCell cell (if kind = 0x10 then { c3 with maskDesc := some d, tb := 0 } else c3)
      else (m2.dataFault 2 cell).raise .descKind (unitId 2 cell) (payload [i2 cell, i1 q, i1 kind])

/-- A completion record (R131). -/
def completionRecord (tag row lcol step : Nat) : BitVec 128 :=
  BitVec.ofNat 128 (tag + row * 2 ^ 8 + lcol * 2 ^ 16 + step % 2 ^ 48 * 2 ^ 32)

/-- POSTQ at the posting cell. -/
def Mod.postq (m : Mod) (cell tag : Nat) : Mod :=
  let row := rowOf cell
  let r := completionRecord tag row (logicalOf m.plan cell) m.stream.stepCount.toNat
  { m with chip := { m.chip with completions := Map.modify [] m.chip.completions (bandOfRow row) (fun l => l ++ [r]) } }

/-- The SB operation of a row. -/
def Mod.sbOp (m : Mod) (a : RowAct) : Mod :=
  match a.sb.op with
  | 1 => (m.rowCells a.row).foldl (fun m c => m.waitq c a.sb.q) m
  | 2 => match m.lsrcCell a.row a.sb.lsrc with
    | some c => m.postq c a.sb.tag
    | none => m
  | _ => m

/-! ### The data lane (R54, R55, R279) -/

/-- What the row's lane takes from the injector in this step. -/
def Mod.laneInject (m : Mod) (row : Nat) : Mod :=
  let q := Map.get [] m.chip.injector row
  ({ m with chip := { m.chip with
      injector := Map.set [] m.chip.injector row (q.drop 16)
      lanes := m.chip.lanes ++ [⟨row, 2, q.take 16⟩] } } : Mod).pumpInjector row

/-- What the rows of a die that select the broadcast tree take: one piece a step, for all of them. -/
def Mod.laneBroadcast (m : Mod) (die : Nat) (rows : List Nat) : Mod :=
  if rows = [] then m
  else match broadcastOf m die with
    | none => m
    | some s =>
      let q := Map.get [] m.chip.injector s.1
      { m with chip := { m.chip with lanes := m.chip.lanes ++ rows.map (fun r => ⟨r, s.2, q.take 16⟩) } }

/-- The broadcast buffers give up what a step took from them. -/
def Mod.broadcastPop (m : Mod) (used : List Nat) : Mod :=
  used.foldl (fun m k => { m with chip := { m.chip with
    injector := Map.set [] m.chip.injector k ((Map.get [] m.chip.injector k).drop 16) } }) m

/-- The lane sources of a step's rows. -/
def Mod.lanes (m : Mod) (acts : List RowAct) : Mod :=
  let m1 := (acts.filter (fun a => a.sb.lane == 1)).foldl (fun m a => m.laneInject a.row) m
  let rows (die : Nat) : List Nat := (acts.filter (fun a => a.sb.lane == 3 && dieOfRow a.row == die)).map (fun a => a.row)
  let m2 := (m1.laneBroadcast 0 (rows 0)).laneBroadcast 1 (rows 1)
  let used := ([0, 1].filterMap (fun d => if rows d = [] then none else (broadcastOf m d).map (fun s => s.1))).eraseDups
  m2.broadcastPop used

/-! ### A program step (R101, R115) -/

/-- The hint of a bundle takes effect at its first step (R109, R439). -/
def Mod.takeHint (m : Mod) (h : Hdr) : Mod :=
  if h.level = 0 then m
  else { m with power := { m.power with hint := some ⟨m.stream.stepCount.toNat + 1024 * h.lead, h.level, false⟩ } }

/-- One cell of a row in a step; only the lane's selected source reaches the lane (R55). -/
def Mod.rowCell (m0 : Mod) (a : RowAct) (src : Option Nat) (ups : List Upset) (m : Mod) (cell : Nat) : Mod :=
  let s := a.slotsOf src cell
  if s.some? = false ∧ cellBusy (m0.cell cell) = false then m
  else
    let m1 := m0.stepCell m cell s ups
    if a.sb.lane = 2 ∧ src = some cell then m1
    else { m1 with chip := { m1.chip with lanes := m.chip.lanes } }

/-- An illegal slot puts the row's cells in FAULT (R123). -/
def Mod.illegalRow (m : Mod) (a : RowAct) (slot : Nat) : Mod :=
  ((m.rowCells a.row).foldl (fun m c => m.dataFault 2 c) m).raise .slotIllegal noUnit
    (payload [i1 slot, i1 a.row, i8 m.bundlePos.toNat])

/-- One row in a step: MX, VX and MV at every cell, DM once, SB; a row whose cells are all stopped does nothing. -/
def Mod.rowStep (m0 : Mod) (ups : List Upset) (hosts : List (Nat × BitVec 512)) (m : Mod) (a : RowAct) : Mod :=
  let cells := m0.rowCells a.row
  if cells = [] then m
  else match a.bad with
  | b :: _ => m.illegalRow a b
  | [] =>
    let src := m0.lsrcCell a.row a.sb.lsrc
    let m1 := cells.foldl (m0.rowCell a src ups) m
    let host := match hosts.find? (fun e => e.1 == a.row) with | some e => e.2 | none => 0#512
    let m2 := match a.dm.op with
      | 1 => m1.issue a.row a.dm host
      | 2 => m1.issueD a.row a.dm a.sb.q src
      | _ => m1
    m2.sbOp a

/-- Fuel for operations that finish while the module is held. -/
def roundFuel : Nat := 65536

/-- Execute one step of the bundle: the whole module at once (R115). -/
def Mod.takeStep (m : Mod) (h : Hdr) (ups : List Upset) (hosts : List (Nat × BitVec 512)) (emptyRows : Nat) : Mod :=
  let acts := m.bundleActs h
  let m0 := ups.foldl Mod.applyUpset (if m.stream.rep = 0 then m.takeHint h else m)
  let m1 := (acts.foldl (m0.rowStep ups hosts) m0).lanes acts
  let m2 := m1.pathsTick (fun _ => false)
  let s := m2.stream
  let m3 : Mod := { m2 with
    stream := { s with permit := false, stepCount := satAdd s.stepCount 1, rep := s.rep + 1, sinceLea := s.sinceLea + 1 }
    attn := { m2.attn with emptyRow := satAdd m2.attn.emptyRow emptyRows } }
  m3.settled

/-- PROGRAM_STEP: with a permit, and once no unit holds the module at its boundary, the module takes one step. Units that
are busy finish first; what only the outside can bring leaves the module held (R101, R123). -/
def Mod.programStep (m : Mod) (ups : List Upset) (hosts : List (Nat × BitVec 512)) (emptyRows : Nat) : Mod :=
  let m0 := m.leaSwap.settled
  match m0.inPhase .run with
  | none => m0
  | some h =>
    if m0.stream.permit = false ∨ m0.bundleIn h = false ∨ m0.crossStalled = true then m0
    else
      let words := m0.rowsOf h
      match words.find? (fun e => onesIn 256 e.2.toNat % 2 == 1) with
      | some e => m0.streamFault .streamParity (payload [i8 m0.bundlePos.toNat, i1 e.1])
      | none =>
        let acts := m0.bundleActs h
        let ready (m : Mod) : Bool := acts.all (fun a => !(m.rowHeld a))
        let m1 := m0.rounds roundFuel ready
        if ready m1 = false ∨ acts.any (fun a => m1.rowWaits a != []) = true then m1
        else m1.takeStep h ups hosts emptyRows

/-- LOOP_BEGIN of the current bundle (R111). -/
def Mod.loopBegin (m : Mod) : Mod :=
  let m0 := m.settled
  match m0.inPhase .loop with
  | some h => if h.loopOp = 1 then (m0.loopStep h).settled else m0
  | none => m0

/-- LOOP_END of the current bundle (R111). -/
def Mod.loopEnd (m : Mod) : Mod :=
  let m0 := m.settled
  match m0.inPhase .loop with
  | some h => if h.loopOp = 2 then (m0.loopStep h).settled else m0
  | none => m0

/-- HEAVY_PHASE_HINT: at the first step of a bundle with a HINT_LEVEL the heavy phase is announced (R109, R439). -/
def Mod.hintNow (m : Mod) : Mod :=
  let m0 := m.settled
  match m0.inPhase .run with
  | some h => if m0.stream.rep = 0 then m0.takeHint h else m0
  | none => m0

/-- RESTART: the stream continues at offset 0 (R109). -/
def Mod.restart (m : Mod) : Mod :=
  let m0 := m.settled
  match m0.inPhase .fin with
  | some h =>
    if h.restart then
      ({ m0 with stream := { m0.stream with phase := .run, rep := 0, pos := 0, next := none } } : Mod).settled
    else m0
  | none => m0

/-! ### A slot's operation at one cell

A slot row sent alone is that operation at one cell, with the generators of its role and the stream's present counters,
carried to its end (log entry 24). -/

/-- A word with its operation code forced to the row's: the low `n` bits. -/
def withOp (n op : Nat) (w : BitVec 64) : BitVec 64 := BitVec.ofNat 64 (w.toNat - w.toNat % 2 ^ n + op)

/-- Steps of one cell until its MX, VX and MV units are done with what `busy` asks, at most `fuel`; it stops when a step
changes nothing. -/
def Mod.stepsOf (fuel : Nat) (busy : CellState → Bool) (m : Mod) (cell : Nat) (ups : List Upset) : Mod :=
  match fuel with
  | 0 => m
  | fuel + 1 =>
    if busy (m.cell cell) = false then m
    else
      let n := m.stepCell m cell Slots.nop ups
      if n.cell cell = m.cell cell then n else stepsOf fuel busy n cell ups

/-- Everything that has left the units lands. -/
def Mod.landCell (m : Mod) (cell : Nat) : Mod := m.onCell cell landAll

/-- Run a VX or MV slot at a cell to its end, after the unit has finished what it had. -/
def Mod.runSlot (m : Mod) (cell : Nat) (s : Slots) (ups : List Upset) : Mod :=
  if m.cellRuns cell = false then m
  else
    let m1 := ups.foldl Mod.applyUpset m
    let m2 := m1.stepsOf roundFuel s.held cell []
    if s.held (m2.cell cell) then m2
    else
      let m3 := m2.stepCell m2 cell s ups
      let unit (c : CellState) : Bool :=
        (decide (field s.vx.toNat 0 6 ≠ 0) && c.vx.isSome) || (decide (field s.mv.toNat 0 4 ≠ 0) && c.mv.isSome)
      (m3.stepsOf roundFuel unit cell ups).landCell cell

/-- A VX operation at a cell. -/
def Mod.runVx (m : Mod) (cell vop : Nat) (w : BitVec 64) (ups : List Upset) : Mod :=
  m.runSlot cell ⟨0#64, withOp 6 vop w, 0#64⟩ ups

/-- An MV operation at a cell. -/
def Mod.runMv (m : Mod) (cell mvop : Nat) (w : BitVec 64) (ups : List Upset) : Mod :=
  m.runSlot cell ⟨0#64, 0#64, withOp 4 mvop w⟩ ups

/-- ADV at a cell: it is issued, and its feed has yet to start. -/
def Mod.runAdv (m : Mod) (cell : Nat) (w : BitVec 64) : Mod :=
  if m.cellRuns cell = false ∨ mxHeld (m.cell cell) = true then m
  else m.runCell cell (fun e c => advIssue e c (withOp 4 1 w))

/-- Advances made by the cell's running ADV. -/
def madeBy (c : CellState) : Nat := match c.adv with | some r => r.made | none => 0

/-- ADVANCE: the feed goes on until the cell has made one more advance (R69). -/
def Mod.runAdvance (m : Mod) (cell : Nat) : Mod :=
  let n := madeBy (m.cell cell)
  if m.cellRuns cell then m.stepsOf roundFuel (fun c => c.adv.isSome && decide (madeBy c = n)) cell [] else m

/-- SWAP at a cell: the accumulators are read out and preloaded; the drain is left to TILE_DRAIN (R70). -/
def Mod.runSwap (m : Mod) (cell : Nat) (w : BitVec 64) (ups : List Upset) : Mod :=
  if m.cellRuns cell = false then m
  else
    let m1 := (ups.foldl Mod.applyUpset m).stepsOf roundFuel mxHeld cell []
    if mxHeld (m1.cell cell) then m1
    else
      let m2 := m1.runCell cell (fun e c =>
        let r0 : CellState × List Fx := if c.drain.isSome then tileDrain e c else (c, [])
        andThen e r0 (fun e c => swapIssue e c.tile c (withOp 4 2 w) (residuesAt cell ups)))
      m2.onCell cell (fun c => { c with mxBusy := 0 })

/-- SWAP with PRELOAD = SAVED (R180). -/
def swapSaved (w : BitVec 64) : BitVec 64 := w ||| 0x6000#64

/-- TILE_DRAIN: the cell's pending drain is carried out (R70). -/
def Mod.runDrain (m : Mod) (cell : Nat) : Mod :=
  if m.cellRuns cell = true ∧ (m.cell cell).drain.isSome = true then m.runCell cell tileDrain else m

/-- A context save or restore at a cell (R98). -/
def Mod.runCtx (m : Mod) (cell : Nat) (save : Bool) : Mod :=
  if m.cellRuns cell = false then m
  else
    let m1 := m.stepsOf roundFuel mxHeld cell []
    if mxHeld (m1.cell cell) then m1
    else
      let m2 := m1.runCell cell (fun e c =>
        let r0 : CellState × List Fx := if c.drain.isSome then tileDrain e c else (c, [])
        andThen e r0 (fun _ c => if save then ctxSave c else ctxRestore c))
      m2.onCell cell (fun c => { c with mxBusy := 0, upBusy := 0, downBusy := 0 })

/-- DM and SB operations of a row sent alone wait where the row's step would (R121, R122): they then change nothing. -/
def Mod.runRow (m : Mod) (row : Nat) (dm : DmF) (sb : SbF) (host : BitVec 512) : Mod :=
  let a : RowAct := ⟨row, Slots.nop, dm, sb, []⟩
  if isDark m.plan (bandOfRow row) = true ∨ a.sb.bad = true ∨ m.rowWaits a ≠ [] then m
  else m.rowStep [] [(row, host)] m a

/-- DEBUG_READ: the accumulator that `sel` names, while the module is halted for debug (R97, R499). -/
def Mod.debugRead (m : Mod) (sel : BitVec 32) : Mod :=
  let v := sel.toNat
  if m.sec.dbgHalt = 1#8 then
    { m with sec := { m.sec with
      dbgStatus := 0#8
      dbgAcc := debugWord (m.cell (field v 0 13)) (field v 13 2) (field v 15 4) (field v 19 5) } }
  else { m with sec := { m.sec with dbgStatus := 0x21#8 } }

end Sys2Proof.Machine
end

