-- ==== Sys2Proof/Machine/Units.lean ====
section
/-!
DEFINITION. The unit state table: the comparison of the two views, forced units, the mismatch bits (R403 to R406).
-/
namespace Sys2Proof.Machine

/-- How conservative a state is: FAULT most of all (R404). -/
def UState.rank : UState → Nat
  | .fault => 0
  | .off => 1
  | .fenced => 2
  | .degraded => 3
  | .ready => 4
  | .run => 5

/-- The views of a unit disagree: its data view is less conservative than its management view. -/
def Mod.disagrees (m : Mod) (cls inst : Nat) : Bool :=
  decide ((m.mgmtView cls inst).rank < (m.dataView cls inst).rank)

/-- The unit is active in a running stream (R405). -/
def Mod.activeUnit (m : Mod) (cls inst : Nat) : Bool :=
  m.running && (match cls with
    | 0 => true
    | 2 => isUsable m.plan inst
    | 3 => true
    | 4 => true
    | 5 => true
    | 7 => m.portUsed inst
    | 8 => true
    | 9 => true
    | _ => false)

/-- Time since the last full reset in ms. -/
def Mod.resetMs (m : Mod) : Nat := (m.clock.timeUs - m.clock.resetUs) / 1000

/-- What FIRST_MISMATCH holds of a unit (R406). -/
def Mod.mismatchWord (m : Mod) (cls inst : Nat) : BitVec 64 :=
  BitVec.ofNat 64 ((unitId cls inst).toNat + (m.mgmtView cls inst).code * 2 ^ 32 + (m.dataView cls inst).code * 2 ^ 36
    + min m.resetMs (2 ^ 24 - 1) * 2 ^ 40)

/-- A disagreement is found (R405): it is latched, reported and noted in the cairn; a unit active in a running stream is
forced at its barrier, any other at once. Its effective state is the lower of its views, whether it obeys or not. -/
def Mod.mismatchFound (m : Mod) (cls inst : Nat) : Mod :=
  let w := m.mismatchWord cls inst
  let u := unitId cls inst
  let wait := m.activeUnit cls inst
  let m1 := m.setUnit u (fun r => { r with mismatch := true, forceAt := if wait then some m.clock.timeUs else none })
  let m2 : Mod := { m1 with units := { m1.units with
    mismatchCount := satAdd m1.units.mismatchCount 1
    firstMismatch := if m1.units.firstMismatch = 0#64 then w else m1.units.firstMismatch } }
  let m3 := m2.raise .planeMismatch u (payload [i8 w.toNat])
  m3.cairnNote .snapshot none m3.snapshotBody false

/-- One unit at a comparison: found when two comparisons in a row see it disagree, and reported once until it agrees. -/
def Mod.compareUnit (m : Mod) (cls inst : Nat) : Mod :=
  let u := unitId cls inst
  let r := m.unit u
  let mark (n : Nat) : Mod := m.setUnit u (fun r => { r with seen := n })
  if m.disagrees cls inst = false then mark 0
  else if r.seen = 0 then mark 1
  else if r.seen = 1 then (mark 2).mismatchFound cls inst
  else m

/-- STATE_COMPARISON: units report the data views that differ from what their management view calls for, or that they
have brought it into agreement; then the views of every unit are compared. -/
def Mod.compareStates (m : Mod) (reports : List (BitVec 32 × Option UState)) : Mod :=
  let m1 := reports.foldl (fun (m : Mod) r =>
    if unitExists r.1 then m.setUnit r.1 (fun x => { x with lag := r.2 }) else m) m
  let listed := m1.units.recs.filter (fun e => e.2.lag.isSome || decide (e.2.seen ≠ 0))
  listed.foldl (fun (m : Mod) e => m.compareUnit (e.1 / 65536) (e.1 % 65536)) m1

/-- A force that waited for a barrier takes effect. -/
def Mod.forceUnits (m : Mod) : Mod :=
  { m with units := { m.units with
      recs := (m.units.recs.map (fun e => (e.1, ({ e.2 with forceAt := none } : UnitRec)))).filter
        (fun e => decide (e.2 ≠ UnitRec.none)) } }

/-- FORCE_TIMEOUT: 700 µs have passed without the barrier. The stream halts, the module enters FAULT, the lea aborts. -/
def Mod.forceTimeout (m : Mod) : Mod :=
  if m.running = true ∧ m.units.recs.any (fun e => e.2.forceAt.isSome) = true then
    (((m.mgmtFault 0 0).forceUnits).haltStream).leaSignal
  else m

/-- MISMATCH_CLEAR: the bits of units whose views agree. -/
def Mod.mismatchClear (m : Mod) : Mod :=
  let listed := m.units.recs.filter (fun e => e.2.mismatch)
  listed.foldl (fun (m : Mod) e =>
    if m.disagrees (e.1 / 65536) (e.1 % 65536) then m
    else m.setUnit (BitVec.ofNat 32 e.1) (fun r => { r with mismatch := false })) m

/-- UNIT_VIEW of a unit (R406). -/
def Mod.unitView (m : Mod) (u : BitVec 32) : BitVec 32 :=
  let c := u.toNat / 65536
  let i := u.toNat % 65536
  BitVec.ofNat 32 ((m.effective c i).code + (m.mgmtView c i).code * 16 + (m.dataView c i).code * 256
    + b2n (m.unit u).mismatch * 65536)

/-- One byte of CLASS_STATES (R406). -/
def Mod.classByte (m : Mod) (c i : Nat) : Byte :=
  BitVec.ofNat 8 ((m.effective c i).code + b2n (m.unit (unitId c i)).mismatch * 8)

end Sys2Proof.Machine
end

