-- ==== Sys2Proof/Machine/Barrier.lean ====
section
/-!
DEFINITION. Starting an image, the check of a planting map, barriers and what takes effect at them, and the lea's release
(R113, R127, R141 to R158, R176, R246, R307, R331, R402, R405, R420, R429, R441, R454).
-/
namespace Sys2Proof.Machine

/-! ### The planting map's checks (R402) -/

/-- The position a role is bound to, if it is a usable one. -/
def Mod.boundCell (m : Mod) (r : Role) : Option Nat :=
  match r.bound with
  | some b => (cellOfLogical m.plan b.1 b.2).filter (fun c => decide (b.1 < 96) && isUsable m.plan c)
  | none => none

/-- An address generator has its reserved bits at 0 and a SPACE value of 0 to 5 (R125). -/
def genOk (g : BitVec 256) : Bool := decide (field g.toNat 9 3 = 0 ∧ field g.toNat 244 12 = 0 ∧ field g.toNat 0 4 ≤ 5)

/-- Checks 2 to 5 in order: the status of the first that fails, 0 if none does. -/
def Mod.pmChecks (m : Mod) (p : PlantMap) : BitVec 8 :=
  let cells := p.roles.map m.boundCell
  let numbers := p.roles.map (fun r => r.number)
  if cells.any (fun c => c.isNone) = true ∨ cells.eraseDups.length ≠ cells.length
      ∨ numbers.eraseDups.length ≠ numbers.length ∨ numbers.any (fun n => decide (4608 ≤ n)) = true then 0xB1#8
  else if p.roles.any (fun r => match m.boundCell r with
      | some c => r.routes.any (fun e => match walkRoute m.plan 0 c e.2 with | .ok _ => false | .error _ => true)
      | none => true) then 0xB2#8
  else if p.lanes.any (fun e => e.2.any (fun l => (cellOfLogical m.plan e.1 l).isNone)) then 0xB3#8
  else if p.roles.any (fun r => r.gens.any (fun g => !genOk g.2)) then 0xB4#8
  else 0#8

/-- All five checks of R402. -/
def Mod.pmCheck (m : Mod) (p : PlantMap) : BitVec 8 := if p.fpDigest ≠ m.plan.digest then 0xB0#8 else m.pmChecks p

/-! ### Starting an image (R133, R234, R320, R332, R420) -/

/-- Some unit that the loaded image uses is in FAULT (check 6 of R420). -/
def Mod.imageUnitFault (m : Mod) : Bool :=
  (usableList m.plan).any (fun c => m.inFault 2 c) || (List.range 16).any (fun i => m.inFault 3 i)
  || (List.range 12).any (fun i => m.inFault 4 i || m.inFault 5 i) || m.inFault 9 0 || m.inFault 8 0

/-- Checks 4 to 6 of R420: those that lea formation applies as well. -/
def Mod.startChecks (m : Mod) : BitVec 8 :=
  if m.memStacks.testEnable ≠ 0#8 then 0xCD#8
  else if m.can.consumerHb = 0#32 then 0xB5#8
  else if m.imageUnitFault then 0xCE#8
  else 0#8

/-- The firmware loads the standard gleaner programs into every program store. -/
def Mod.loadPrograms (m : Mod) (ps : List (Fin 512 × BitVec 64)) : Mod :=
  if ps = [] then m
  else (List.range 12288).foldl (fun m g => ps.foldl (fun m p => m.writeStore g p.1.val p.2) m) m

/-- The stream of the loaded image begins at offset 0; `pace` is the pace of its first permit. -/
def Mod.startImage (m : Mod) (programs : List (Fin 512 × BitVec 64)) (pace : Nat) : Mod :=
  match m.boot.image with
  | none => m
  | some im =>
    let active := match m.planting.staged with | some (p, false) => p | _ => m.planting.active
    let staged := match m.planting.staged with | some (_, false) => none | x => x
    let fresh (c : CellState) : CellState := { c with side := [], gradNf := false, seq := List.replicate 4 0#16 }
    let memStacks : Stacks := { m.memStacks with
      ctl := m.memStacks.ctl.zipIdx.map (fun (e : Controller × Nat) => { e.1 with slots := listGet [] im.slots e.2 }) }
    let m1 : Mod := { m with
      planting := ⟨active, staged⟩
      stream := { Stream.reset with running := true, slipLimit := m.stream.slipLimit }
      train := Train.reset
      chip := { m.chip with sendSeq := [] }
      boot := { m.boot with work := .run }
      memStacks := memStacks }
    let m2 := m1.mapCells (fun _ => true) fresh
    let m3 := (m2.loadTransfers.loadPrograms programs).setPace pace
    let m4 := m3.raise .imageStarted noUnit []
    match im.sections with
    | s :: _ => if s.len = 0 then m4.haltStream else m4
    | [] => m4.haltStream

/-! ### What takes effect at a barrier (R113) -/

/-- R454: a rotation point. -/
def Mod.rotationPoint (m : Mod) (barId kind : Nat) : Bool := bitOf barId 15 && (m.lea.st != .running || kind != 1)

/-- Highest band control value less the lowest, over the bands with a reading, in units of 0.1 °C. -/
def Mod.bandSpread (m : Mod) : Int :=
  let vs := (m.thermal.bands.filter (fun b => b.control != 0x8000#16)).map (fun b => b.control.toInt)
  match vs with
  | [] => 0
  | v :: t => t.foldl max v - t.foldl min v

/-- The management controller stages the next variant at a rotation point (R454). -/
def Mod.stageRotation (m : Mod) : Mod :=
  let t := m.thermal
  let due := match t.rotLast with
    | some since => decide (since + t.rotInterval.toNat * 1000000 ≤ m.clock.timeUs)
    | none => true
  if t.rotEnable ≠ 1#8 ∨ due = false ∨ m.bandSpread < t.rotSpread.toNat ∨ m.safe.active = true
      ∨ m.planting.staged.isSome = true then m
  else match m.boot.image with
  | none => m
  | some im =>
    let k := (t.rotActive.toNat + 1) % max 1 t.rotVariants.toNat
    match im.variants[k]? with
    | some v => if t.rotVariants.toNat ≤ 1 then m else { m with planting := { m.planting with staged := some (v, true) } }
    | none => m

/-- Every descriptor queue and completion queue is empty and no XB transfer is outstanding (R127). -/
def Mod.swapReady (m : Mod) : Bool :=
  m.cells.all (fun e => e.2.queues.all (fun q => q.isEmpty)) && m.chip.completions.all (fun e => e.2.isEmpty)
  && m.dma.tags.isEmpty

/-- The swap of a map staged by rotation, its check, or its deferral (R127, R402, R454). -/
def Mod.swapPlanting (m : Mod) : Mod :=
  match m.planting.staged with
  | some (p, true) =>
    if m.swapReady = false then
      ({ m with stream := { m.stream with pmDeferCount := satAdd m.stream.pmDeferCount 1 } } : Mod).raise .pmDeferred noUnit []
    else
      let st := m.pmCheck p
      let seq := m.lea.barSeq.toNat
      if st = 0#8 then
        let t := m.thermal
        let k := (t.rotActive.toNat + 1) % max 1 t.rotVariants.toNat
        let m1 : Mod := { m with
          planting := ⟨p, none⟩
          thermal := { t with
            rotActive := BitVec.ofNat 8 k, rotCount := satAdd t.rotCount 1, rotLast := some m.clock.timeUs } }
        m1.raise .rotation noUnit (payload [i1 k, i8 seq])
      else
        let m1 : Mod := { m with
          planting := { m.planting with staged := none }, thermal := { m.thermal with rotEnable := 0#8 } }
        (m1.raise .pmRejected noUnit (payload [i1 st.toNat, i8 seq])).raise .rotSuspended noUnit []
  | _ => m

/-- The optimiser step that begins after a barrier runs, or is skipped on every member (R331, R332). -/
def Mod.optimiser (m : Mod) (grad : Option Bool) : Mod :=
  match grad with
  | none => m
  | some false => { m with train := { m.train with optSteps := satAdd m.train.optSteps 1 } }
  | some true =>
    let first := match (m.cells.filter (fun e => e.2.flagRead)).map (fun e => e.1) with
      | c :: _ => c
      | [] => 0xFFFF
    let seq := m.lea.barSeq.toNat % 2 ^ 48
    let m1 : Mod := { m with train := { m.train with
      skippedSteps := satAdd m.train.skippedSteps 1
      lastSkipBar := BitVec.ofNat 64 seq
      firstNfCell := BitVec.ofNat 16 first } }
    m1.raise .stepSkipped noUnit (payload [i8 seq, i2 first])

/-- Everything that takes effect at the step boundary after a barrier of a kind. `closes` says that the barrier is one
that no walk spans: a lea barrier inside a lea, any barrier outside one (R294). -/
def Mod.atBarrier (m : Mod) (kind barId : Nat) (closes : Bool) (x : BarrierIn) : Mod :=
  let crossings := (m.tl.crossings.map (fun e => (e.1, ({ e.2 with margin := false } : Crossing)))).filter
    (fun e => decide (e.2 ≠ Crossing.reset))
  let m0 : Mod := { m with
    stream := { m.stream with slips := 0, slipLow := 0, slipRaised := false, barriers := m.stream.barriers + 1 }
    dma := { m.dma with deadlineRaised := false }
    tl := { m.tl with crossings := crossings } }
  let m1 := (m0.mapCells (fun _ => true) (fun c => { c with l1 := [], nfRaised := false, tlRaised := false }))
  let m2 := m1.darkenDying.applyTrims
  let m3 := if closes then m2.forceUnits else m2
  let m4 := m3.recalibrate x.windows
  let m5 := if m4.rotationPoint barId kind then m4.stageRotation else m4
  let m6 := m5.swapPlanting
  if closes = false then m6
  else
    let m7 := (({ m6 with attn := { m6.attn with walks := [] } } : Mod).settleFences)
    let m8 := if kind = 3 then (m7.commitStep x.close).optimiser x.grad else m7
    m8.dueSubs

/-! ### The release of a lea barrier (R143, R148, R149, R153, R157, R158) -/

/-- LEA_DIVERGED. -/
def stLeaDiverged : BitVec 8 := 0x37#8

/-- Barrier 0 is released: the lea runs, or the members disagreed (R158). -/
def Mod.formed (m : Mod) (t : Token) (x : BarrierIn) : Mod :=
  if t.mismatch then
    { m with lea := { m.lea with result := 0x35#8, st := .stopped, wait := none, reports := [], firstBad := t.firstBad } }
  else
    let sum := match m.lea.wait with | some w => w.own.checksum | none => 0#64
    let m1 : Mod := { m with lea := { m.lea with
      st := .running, barSeq := 0#64, pace := t.pace, lastChecksum := sum, waitMax := 0#32, wait := none, reports := []
      stopReq := false, ending := false, abort := none, aborting := none, lastRelease := some t } }
    let m2 := m1.startImage x.programs (min t.pace.toNat m1.atOnce)
    m2.raise .leaFormed noUnit (payload [i4 m.lea.active.id.toNat, i2 m.lea.active.size.toNat])

/-- Why a lea stopped at a barrier: 1 STOP_REQ, 2 END, 3 a unit in FAULT. -/
def Mod.stopCause (m : Mod) (t : Token) : Nat := if m.lea.ending then 2 else if t.fault then 3 else 1

/-- The module's own share of a divergence (R153). -/
def Mod.diverge (m : Mod) (w : BarrierWait) (t : Token) : Mod :=
  let m1 := m.deliverHeld t.barSeq.toNat (some stLeaDiverged)
  let m2 : Mod := { m1 with lea := { m1.lea with
    barSeq := t.barSeq.setWidth 64, lastChecksum := w.own.checksum, firstBad := t.firstBad, reload := true } }
  let m3 := (m2.haltStream).leaveRunning .diverged
  m3.danger .leaDivergence noUnit
    (payload [i8 t.barSeq.toNat, i2 t.firstBad.toNat, i8 w.own.checksum.toNat, i8 t.checksum.toNat]) 4

/-- A RELEASE answers the barrier at which the member waits: the barrier completes (R143). -/
def Mod.applyRelease (m : Mod) (t : Token) (x : BarrierIn) : Mod :=
  match m.lea.wait with
  | none => m
  | some w =>
    if w.own.barSeq ≠ t.barSeq ∨ w.sent.isNone = true then m
    else
      let m0 := m.sendDown t
      if m.lea.st = .forming then m0.formed t x
      else if t.mismatch then m0.diverge w t
      else
        let wait := BitVec.ofNat 32 (min ((m.clock.timeUs - w.since) * 1000) (2 ^ 32 - 1))
        let m1 : Mod := { m0 with lea := { m0.lea with
          barSeq := t.barSeq.setWidth 64, lastChecksum := w.own.checksum
          waitMax := if m0.lea.waitMax < wait then wait else m0.lea.waitMax
          wait := none, lastRelease := some t } }
        let m2 := m1.deliverHeld t.barSeq.toNat none
        let m3 := m2.atBarrier w.own.kind.toNat w.own.barId.toNat true x
        let old := m3.lea.pace
        let m4 : Mod := { m3 with lea := { m3.lea with pace := t.pace } }
        let m5 := if old ≠ t.pace then m4.raise .leaPaceChanged noUnit (payload [i1 old.toNat, i1 t.pace.toNat]) else m4
        if t.stop then
          let m6 := (m5.haltStream.leaveRunning .stopped)
          m6.raise .leaStopped noUnit (payload [i8 t.barSeq.toNat, i1 (m.stopCause t)])
        else
          let m6 := m5.releasePace t.pace.toNat
          ({ m6 with stream := { m6.stream with phase := if m6.running then .fin else m6.stream.phase } } : Mod).settled

/-- What a complete report or an arriving token leaves to be done. -/
def Mod.andRelease (r : Mod × Option Token) (x : BarrierIn) : Mod :=
  match r.2 with
  | some t => r.1.applyRelease t x
  | none => r.1

/-! ### Taking a barrier (R113, R140, R141) -/

/-- Every operation issued before the barrier has completed; a transfer with XB may be outstanding. -/
def Mod.barrierReady (m : Mod) : Bool :=
  m.cellsIdle && m.dma.tags.all (fun t => t.xb) && m.dma.waiting.all (fun w => w.xb) && !m.crossStalled

/-- The barrier of the current bundle, if it is of the kind (R113, R141, R156). -/
def Mod.takeBarrier (m : Mod) (kind : Nat) (x : BarrierIn) : Mod :=
  let m0 := m.settled
  match m0.inPhase .barrier with
  | none => m0
  | some h =>
    if h.barKind ≠ kind ∨ m0.lea.wait.isSome = true then m0
    else
      let m1 := m0.rounds roundFuel Mod.cellsIdle
      if m1.barrierReady = false then m1
      else if kind = 1 ∨ m1.lea.st ≠ .running then
        let m2 := m1.atBarrier kind h.barId (decide (m1.lea.st ≠ .running)) x
        ({ m2 with stream := { m2.stream with phase := if m2.running then .fin else m2.stream.phase } } : Mod).settled
      else match m1.lea.abort with
      | some t => m1.abortNow t
      | none =>
        let m2 : Mod := { m1 with
          stream := { m1.stream with sinceLea := 0 }, lea := { m1.lea with ending := m1.lea.ending || h.fin } }
        let own := m2.ownToken kind h.barId h.barId (m2.lea.barSeq.toNat + 1) false
        let m3 : Mod := { m2 with lea := { m2.lea with wait := some ⟨own, m2.clock.timeUs, none⟩ } }
        Mod.andRelease m3.tryReport x

/-- BARRIER_OVERDUE: 65,536 program steps have passed without a lea barrier (R140). -/
def Mod.barrierOverdue (m : Mod) : Mod :=
  if m.running = true ∧ m.lea.st = .running ∧ 65536 ≤ m.stream.sinceLea then
    ((m.raise .barrierOverdue noUnit []).dataFault 0 0).haltStream.leaSignal
  else m

/-- END: after the bundle and its barrier the stream stops and the module returns to READY (R109, R157, R420). -/
def Mod.endStream (m : Mod) : Mod :=
  let m0 := m.settled
  match m0.inPhase .fin with
  | some h => if h.fin then m0.haltStream.leaSignal else m0
  | none => m0

/-! ### Commands of the lea (R138, R139, R157 to R159) -/

/-- LEA_START: the formation REPORT is sent, or the start is refused (R158). -/
def Mod.leaStart (mc : Mod) (x : BarrierIn) : Mod :=
  let m := mc.leaSwap
  let bad := match m.boot.image with
    | some im => !(m.isReady && m.inLea && im.lea && decide (im.partIndex = m.lea.active.index)
        && decide (im.leaSize = m.lea.active.size)) || m.running || m.lea.reload
    | none => true
  let busy := m.lea.st == .forming || m.lea.st == .running
  if bad || busy then { m with lea := { m.lea with result := 0x34#8 } }
  else
    let st := m.startChecks
    if st ≠ 0#8 then
      let step := listGet StepObj.reset m.boot.steps 6
      { m with
        lea := { m.lea with result := 0x34#8 }
        boot := { m.boot with steps := listSet m.boot.steps 6 { step with status := st } } }
    else
      let m1 : Mod := { m with lea := { m.lea with
        before := m.lea.st, st := .forming, result := 0#8, reports := [], stopReq := false, ending := false
        abort := none, aborting := none, lastRelease := none } }
      let own := m1.ownToken 3 0 m1.lea.active.size.toNat 0 (!m1.identOk)
      let m2 : Mod := { m1 with lea := { m1.lea with wait := some ⟨own, m1.clock.timeUs, none⟩ } }
      Mod.andRelease m2.tryReport x

/-- FORMATION_TIMEOUT: no release within 1 s of START (R158). -/
def Mod.formationTimeout (m : Mod) : Mod :=
  if m.lea.st = .forming then
    { m with lea := { m.lea with result := 0x36#8, st := m.lea.before, wait := none, reports := [] } }
  else m

/-- LEAVE (R159). -/
def Mod.leaLeave (m : Mod) : Mod :=
  if m.lea.st = .forming ∨ m.lea.st = .running then { m with lea := { m.lea with result := 0x34#8 } }
  else ({ m with lea := { m.lea with st := .none, result := 0#8 } } : Mod).setLeaActive LeaCfg.zero

/-- A step token arrives at a port: a foreign one is discarded and counted (R142). -/
def Mod.takeToken (m : Mod) (gate : Nat) (t : Token) (x : BarrierIn) : Mod :=
  if m.ownLea t = false then m.foreignToken
  else if t.type = 1#8 then Mod.andRelease (m.takeReport gate t) x
  else if t.type = 2#8 then (if (m.neighbourAt gate).any (fun n => n.2) then m.applyRelease t x else m)
  else if t.type = 3#8 then (if t.paused ∨ t.lost ∨ t.fault then m.flagAlive t else m)
  else if t.type = 4#8 then m.takeAbort t
  else m

end Sys2Proof.Machine
end

