-- ==== Sys2Proof/Machine/LinkRows.lean ====
section
/-!
DEFINITION. What arrives on the hedgerow ports, the training of the ports and of the Jaeno link, losses, FEC and
REFCLK (R339 to R352, R367 to R372, R510).
-/
namespace Sys2Proof.Machine

/-! ### Flits on a port -/

/-- The token region of a flit: its token acts at the gate it came through (R348). -/
def Mod.flitToken (m : Mod) (p : Nat) (f : Bytes) (x : BarrierIn) : Mod :=
  if hdgTok f then
    match readToken (hdgTokenRegion f) with
    | some t => m.takeToken (gateOf p) t x
    | none => m
  else m

/-- LEA_FLIT: a flit of the LEA lane (R344, R354). -/
def Mod.leaFlit (m : Mod) (p : Nat) (f : Bytes) (fecBad : Bool) (x : BarrierIn) : Mod :=
  m.takeFlit p 1 f fecBad (fun (m : Mod) =>
    let r := (m.flitToken p f x).laneTakes p false (hdgSeq f)
    let m2 := r.2
    if r.1 then
      let y := m2.port p
      let item := (hdgPayload f, BitVec.ofNat 62 (hdgMark f), hdgLast f)
      ((m2.setPort p { y with leaIn := y.leaIn ++ [item] }).drainRecv (y.leaIn.length + 2) p).sendSettled p
    else m2.sendSettled p)

/-- BE_FLIT: a flit of the best-effort lane (R344, R359). -/
def Mod.beFlit (m : Mod) (p : Nat) (f : Bytes) (fecBad : Bool) (x : BarrierIn) : Mod :=
  m.takeFlit p 2 f fecBad (fun (m : Mod) =>
    let r := (m.flitToken p f x).laneTakes p true (hdgSeq f)
    (if r.1 then r.2.takeBe p f else r.2).sendSettled p)

/-- IDLE_FLIT: acknowledgements and a token region (R341). -/
def Mod.idleFlit (m : Mod) (p : Nat) (f : Bytes) (fecBad : Bool) (x : BarrierIn) : Mod :=
  m.takeFlit p 0 f fecBad (fun (m : Mod) => (m.flitToken p f x).sendSettled p)

/-! ### LINK flits (R342) -/

/-- SUBTYPE, ECHO and SERIAL of a link header. -/
structure LinkHdr where
  subtype : Nat
  echo : Bool
  serial : Nat
deriving DecidableEq, Repr

/-- Read a link header. -/
def linkF (pl : Bytes) : LinkHdr :=
  let v := leNat (pl.take 8)
  ⟨field v 0 8, bitOf v 8, field v 16 16⟩

/-- A LINK flit's payload has no reserved SUBTYPE or bit; for a port, 1 IDENT and 2 LANE_RESET. -/
def linkPayloadOk (pl : Bytes) : Bool :=
  let v := leNat (pl.take 8)
  let b := leNat ((pl.drop 8).take 16)
  let rest := pl.drop 24
  decide (field v 9 7 = 0 ∧ field v 32 32 = 0) && rest.all (fun x => x == 0#8)
  && (if field v 0 8 = 1 then decide (field b 15 1 = 0 ∧ field b 19 13 = 0 ∧ field b 48 16 = 0 ∧ b < 2 ^ 96)
      else decide (field v 0 8 = 2 ∧ b < 2))

/-- The last serials acted on. -/
def LinkTrain.act (t : LinkTrain) (subtype serial : Nat) : LinkTrain :=
  { t with acted := ((subtype, serial) :: t.acted).take 64 }

/-- The flit with that SUBTYPE and SERIAL has been echoed. -/
def LinkTrain.echoed (t : LinkTrain) (subtype serial : Nat) : LinkTrain :=
  { t with waits := t.waits.filter (fun w => !(w.subtype == subtype && w.serial == serial)) }

/-- The end waits for an echo of that flit. -/
def LinkTrain.waitsFor (t : LinkTrain) (subtype serial : Nat) : Bool :=
  t.waits.any (fun w => w.subtype == subtype && w.serial == serial)

/-- The peer's identification is stored; a change while UP is reported (R352). -/
def Mod.storePeer (m : Mod) (p : Nat) (body : Bytes) : Mod :=
  let x := m.port p
  let v := BitVec.ofNat 64 (leNat (body.take 8))
  let l := BitVec.ofNat 32 (leNat ((body.drop 8).take 4))
  let m1 := m.setPort p { x with peer := v, peerLea := l }
  if x.train.st = .up ∧ (x.peer ≠ v ∨ x.peerLea ≠ l) then m1.raise .hdgPeerChanged (unitId 7 p) [] else m1

/-- Both ends have echoed: the port enters UP (R349). -/
def Mod.portIdentDone (m : Mod) (p : Nat) : Mod :=
  let t := (m.port p).train
  let open' := t.st == .ident || (t.st == .retrain && t.sub == 2)
  if open' && t.identIn && t.identEchoed then m.portEnterUp p else m

/-- IDENT: identification of the peer, or its echo of this end's (R342, R352). -/
def Mod.portIdent (m : Mod) (p : Nat) (pl : Bytes) : Mod :=
  let h := linkF pl
  let body := (pl.drop 8).take 16
  let x := m.port p
  if h.echo then
    if x.train.waitsFor 1 h.serial then
      let t := x.train.echoed 1 h.serial
      ((m.setPort p { x with train := { t with identEchoed := true } }).storePeer p body).portIdentDone p
    else m
  else if x.train.acted.contains (1, h.serial) then m.emitLink p 1 true h.serial (m.identBody p)
  else
    let t := x.train.act 1 h.serial
    let m1 := (m.setPort p { x with train := { t with identIn := true } }).storePeer p body
    (m1.emitLink p 1 true h.serial (m1.identBody p)).portIdentDone p

/-- LANE_RESET: the peer resets a lane, or echoes this end's reset (R342). -/
def Mod.portLaneReset (m : Mod) (p : Nat) (pl : Bytes) : Mod :=
  let h := linkF pl
  let be := bitOf (leNat ((pl.drop 8).take 1)) 0
  let x := m.port p
  let l := x.lane be
  if h.echo then
    if x.train.waitsFor 2 h.serial then
      let y := x.setLane be { l with resetting := false }
      (m.setPort p { y with train := x.train.echoed 2 h.serial }).pumpLane 64 p be
    else m
  else if x.train.acted.contains (2, h.serial) then m.emitLink p 2 true h.serial [BitVec.ofNat 8 (b2n be)]
  else
    let y := x.setLane be (l.cleared l.resetting)
    let m1 := m.setPort p { y with train := x.train.act 2 h.serial }
    (m1.emitLink p 2 true h.serial [BitVec.ofNat 8 (b2n be)]).sendSettled p

/-- A LINK flit of SUBTYPE `want` arrives; one with a reserved SUBTYPE or bit is discarded and counted (R342). -/
def Mod.linkFlit (m : Mod) (p want : Nat) (f : Bytes) (fecBad : Bool) : Mod :=
  let pl := hdgPayload f
  let bad := fecBad || (hdgType f == 3 && !linkPayloadOk pl)
  m.takeFlit p 3 f bad (fun (m : Mod) =>
    if (linkF pl).subtype ≠ want then m
    else if want = 1 then (m.portIdent p pl).sendSettled p
    else m.portLaneReset p pl)

/-- REPLAY_TIMEOUT: 2 µs without ACK progress; the third replay in a row retrains the port (R344). -/
def Mod.portReplayTimeout (m : Mod) (p : Nat) (be : Bool) : Mod :=
  let x := m.port p
  let l := x.lane be
  if x.train.st ≠ .up ∨ l.replay = [] then m
  else
    let m1 := (m.setPort p (x.setLane be { l with timeouts := l.timeouts + 1 })).replayLane p be
    if 3 ≤ l.timeouts + 1 then m1.portRetrain p 3 true else m1

/-! ### Training of ports (R349 to R351) -/

/-- Links train once the rails and REFCLK are there and TRAIN has begun (R414). -/
def Mod.linksTrain (m : Mod) : Bool := m.phyReady && decide ((m.step 2).st ≠ .notDone)

/-- PORT_SIGNAL_DETECTED. -/
def Mod.portSignal (m : Mod) (p : Nat) : Mod :=
  let x := m.port p
  if m.linksTrain = true ∧ x.train.st = .down then m.setPort p { x with train := { x.train with st := .signal } } else m

/-- PORT_SIGNAL_DONE. -/
def Mod.portSignalDone (m : Mod) (p : Nat) : Mod :=
  let x := m.port p
  if x.train.st = .signal then m.setPort p { x with train := { x.train with st := .align } }
  else if x.train.st = .retrain ∧ x.train.sub = 0 then m.setPort p { x with train := { x.train with sub := 1 } }
  else m

/-- PORT_ALIGN_DONE: identification begins. -/
def Mod.portAlignDone (m : Mod) (p : Nat) : Mod :=
  let x := m.port p
  if x.train.st = .align then (m.setPort p { x with train := { x.train with st := .ident } }).sendIdent p
  else if x.train.st = .retrain ∧ x.train.sub = 1 then
    (m.setPort p { x with train := { x.train with sub := 2 } }).sendIdent p
  else m

/-- A link is in a state that has a bound. -/
def LinkSt.bounded : LinkSt → Bool
  | .signal => true
  | .align => true
  | .ident => true
  | .retrain => true
  | _ => false

/-- PORT_STATE_TIMEOUT. -/
def Mod.portTimeout (m : Mod) (p : Nat) : Mod := if (m.port p).train.st.bounded then m.portAttemptFailed p else m

/-- Uncorrectable codewords of the last ms, and in a row, after one more. -/
def LinkTrain.oneUe (t : LinkTrain) (now : Nat) : LinkTrain :=
  { t with ueRun := t.ueRun + 1, ueTimes := t.ueTimes.filter (fun x => decide (now < x + 1000)) ++ [now] }

/-- The trigger that uncorrectable codewords give: 1, 2, or 0 for none (R350). -/
def LinkTrain.ueTrigger (t : LinkTrain) : Nat := if 8 ≤ t.ueTimes.length then 1 else if 4 ≤ t.ueRun then 2 else 0

/-- PORT_CODEWORD_UE. -/
def Mod.portUe (m : Mod) (p : Nat) : Mod :=
  let x := m.port p
  if x.train.st ≠ .up then m
  else
    let t := x.train.oneUe m.clock.timeUs
    let m1 := { m.setPort p { x with train := t } with
      hdg := { (m.setPort p { x with train := t }).hdg with fecUncorr := satAdd m.hdg.fecUncorr 1 } }
    if t.ueTrigger = 0 then m1 else m1.portRetrain p t.ueTrigger true

/-- The corrected-symbol ratio of a window crosses 10⁻⁵ upward, or 5 × 10⁻⁶ downward (R350). -/
def fecDegraded (was : Bool) (corrected received : Nat) : Bool :=
  if was then decide (received ≤ 200000 * corrected) else decide (received < 100000 * corrected)

/-- FEC_WINDOW of a port. -/
def Mod.portFec (m : Mod) (p corrected received : Nat) : Mod :=
  let x := m.port p
  let d := fecDegraded x.train.degraded corrected received
  let m1 := m.setPort p { x with train := { x.train with degraded := d } }
  let m2 : Mod := { m1 with hdg := { m1.hdg with fecCorrected := satAdd m1.hdg.fecCorrected corrected } }
  if d && !x.train.degraded then m2.raise .hdgFecDegraded (unitId 7 p) [] else m2

/-- RETRAIN_REQ of a port (R351). -/
def Mod.portRetrainReq (m : Mod) (p : Nat) : Mod :=
  match (m.port p).train.st with
  | .up => m.portRetrain p 4 false
  | .signal => m.portDown p 4
  | .align => m.portDown p 4
  | .ident => m.portDown p 4
  | .failed => m.portRevive p
  | .down => m
  | .retrain => m

/-! ### The Jaeno link (R369 to R372) -/

/-- Replace the Jaeno link's training; a change of its state sets vector 81 (R381). -/
def Mod.setJnl (m : Mod) (t : LinkTrain) : Mod :=
  let m1 : Mod := { m with jnl := { m.jnl with train := t } }
  if t.st = m.jnl.train.st then m1 else m1.interrupt 81

/-- The link is lost when it leaves UP or RETRAIN for DOWN or FAILED: transfers with a host side end, requests and
packets in flight are dropped, interrupts wait (R372). -/
def Mod.jnlLost (m : Mod) (trigger : Nat) (st : LinkSt) : Mod :=
  let t := m.jnl.train
  let m1 := m.setJnl { t.down with st := st }
  if t.st = .up ∨ t.st = .retrain then
    let keep := m1.jnl.pendingOut.filter (fun p => field p.header.toNat 0 4 == 4)
    let m2 : Mod := { m1 with jnl := { m1.jnl with
      losses := satAdd m1.jnl.losses 1, lane := Lane.reset, rx := [], pendingOut := keep
      hostQ := m1.jnl.hostQ.filter (fun q => q.write) } }
    m2.hostLost.raise .jnlLinkLost (unitId 8 0) (payload [i1 trigger])
  else m1

/-- The link enters FAILED: its unit enters FAULT. -/
def Mod.jnlFailed (m : Mod) : Mod := (m.jnlLost 7 .failed).raise .jnlLinkFailed (unitId 8 0) []

/-- A failed attempt; the third in a row is FAILED. -/
def Mod.jnlAttemptFailed (m : Mod) : Mod :=
  let n := m.jnl.train.attempts + 1
  let m1 := m.setJnl { m.jnl.train with attempts := n }
  if 3 ≤ n then m1.jnlFailed else m1.jnlLost 6 .down

/-- UP is left for RETRAIN; a counted 16th retrain within 60 s is not made (R372). -/
def Mod.jnlRetrain (m : Mod) (counted : Bool) : Mod :=
  let t := m.jnl.train
  let rs := t.recent m.clock.timeUs
  if t.st ≠ .up then m
  else if counted = true ∧ 15 ≤ rs.length then m.jnlFailed
  else
    let m1 := m.setJnl { t with
      st := .retrain, sub := 0, ueRun := 0, ueTimes := [], identIn := false, identEchoed := false, waits := []
      retrains := if counted then rs ++ [m.clock.timeUs] else rs }
    { m1 with jnl := { m1.jnl with
      retrains := satAdd m1.jnl.retrains 1, lane := { m1.jnl.lane with timeouts := 0 } } }

/-- Resend every unacknowledged flit (R369). -/
def Mod.jnlResend (m : Mod) : Mod := m.jnl.lane.replay.foldl (fun m e => m.jnlEmit true e.1 e.2) m

/-- The link enters UP: what waited is sent. -/
def Mod.jnlEnterUp (m : Mod) : Mod :=
  let m1 := m.setJnl { m.jnl.train with st := .up, sub := 0, attempts := 0 }
  let out := m1.jnl.pendingOut
  let m2 : Mod := { m1 with jnl := { m1.jnl with wasUp := true, pendingOut := [] } }
  let m3 := (m2.raise .jnlLinkUp (unitId 8 0) []).jnlResend
  out.foldl Mod.sendPacket (m3.jnlPump 512)

/-- The module's IDENT body: part number, revision, largest read (R370). -/
def jnlIdentBody : Bytes := strBytes "TRL-NY1536-A0" ++ [0xA0#8] ++ leBytes 2 4096 ++ List.replicate 8 0#8

/-- Send a LINK IDENT flit, or its echo. -/
def Mod.jnlSendLink (m : Mod) (echo : Bool) (serial : Nat) : Mod :=
  if m.jnl.train.linkOpen then m.jnlEmit false 0 (jnlFlit 2 0xFF (linkHeader 1 echo serial ++ jnlIdentBody)) else m

/-- Send a new IDENT, to be repeated until it is echoed. -/
def Mod.jnlSendIdent (m : Mod) : Mod :=
  let t := m.jnl.train
  (m.setJnl { t with serial := (t.serial + 1) % 65536, waits := t.waits ++ [⟨1, t.serial, []⟩] }).jnlSendLink false t.serial

/-- Repeat every unechoed LINK flit. -/
def Mod.jnlRepeatLinks (m : Mod) : Mod := m.jnl.train.waits.foldl (fun m w => m.jnlSendLink false w.serial) m

/-- A Jaeno LINK payload has SUBTYPE IDENT and no reserved bit (R370). -/
def jnlLinkOk (pl : Bytes) : Bool :=
  let v := leNat (pl.take 8)
  decide (field v 0 8 = 1 ∧ field v 9 7 = 0 ∧ field v 32 32 = 0) && (pl.drop 24).all (fun x => x == 0#8)

/-- Both ends have echoed. -/
def Mod.jnlIdentDone (m : Mod) : Mod :=
  let t := m.jnl.train
  let open' := t.st == .ident || (t.st == .retrain && t.sub == 2)
  if open' && t.identIn && t.identEchoed then m.jnlEnterUp else m

/-- The IDENT of the JA-2, or its echo of the module's: MAX_READ out of range is a failed IDENT (R370). -/
def Mod.jnlTakeIdent (m : Mod) (pl : Bytes) : Mod :=
  let h := linkF pl
  let body := (pl.drop 8).take 16
  let rd := leNat ((body.drop 14).take 2)
  let t := m.jnl.train
  let store (m : Mod) : Mod := { m with jnl := { m.jnl with
    peerPart := body.take 13, peerRev := listGet 0#8 body 13, maxRead := rd } }
  if rd % 64 ≠ 0 ∨ rd < 64 ∨ 4096 < rd then (if t.st.bounded then m.jnlAttemptFailed else m)
  else if h.echo then
    if t.waitsFor 1 h.serial then
      (store (m.setJnl { t.echoed 1 h.serial with identEchoed := true })).jnlIdentDone
    else m
  else if t.acted.contains (1, h.serial) then m.jnlSendLink true h.serial
  else ((store (m.setJnl { t.act 1 h.serial with identIn := true })).jnlSendLink true h.serial).jnlIdentDone

/-- A LINK flit of the Jaeno link arrives: JNL_IDENT. -/
def Mod.jnlIdent (m : Mod) (f : Bytes) (fecBad : Bool) : Mod :=
  let pl := (f.drop 12).take 240
  if ¬ m.jnl.train.linkOpen then m
  else if fecBad || !jnlIntact f || (field (leNat (f.take 1)) 0 4 == 2 && !jnlLinkOk pl) then
    { m with jnl := { m.jnl with crcFail := satAdd m.jnl.crcFail 1 } }
  else if field (leNat (f.take 1)) 0 4 ≠ 2 then m
  else m.jnlTakeIdent pl

/-- JNL_REPLAY_TIMEOUT: 5 µs without ACK progress (R369). -/
def Mod.jnlReplayTimeout (m : Mod) : Mod :=
  let l := m.jnl.lane
  if m.jnl.train.st ≠ .up ∨ l.replay = [] then m
  else
    let m1 : Mod := { m with jnl := { m.jnl with
      lane := { l with timeouts := l.timeouts + 1 }, replays := satAdd m.jnl.replays 1 } }
    if 3 ≤ l.timeouts + 1 then m1.jnlResend.jnlRetrain true else m1.jnlResend

/-- JNL_SIGNAL_DETECTED. -/
def Mod.jnlSignal (m : Mod) : Mod :=
  if m.linksTrain = true ∧ m.jnl.train.st = .down then m.setJnl { m.jnl.train with st := .signal } else m

/-- JNL_SIGNAL_DONE. -/
def Mod.jnlSignalDone (m : Mod) : Mod :=
  let t := m.jnl.train
  if t.st = .signal then m.setJnl { t with st := .align }
  else if t.st = .retrain ∧ t.sub = 0 then m.setJnl { t with sub := 1 }
  else m

/-- JNL_ALIGN_DONE. -/
def Mod.jnlAlignDone (m : Mod) : Mod :=
  let t := m.jnl.train
  if t.st = .align then (m.setJnl { t with st := .ident }).jnlSendIdent
  else if t.st = .retrain ∧ t.sub = 1 then (m.setJnl { t with sub := 2 }).jnlSendIdent
  else m

/-- JNL_STATE_TIMEOUT. -/
def Mod.jnlTimeout (m : Mod) : Mod := if m.jnl.train.st.bounded then m.jnlAttemptFailed else m

/-- JNL_CODEWORD_UE. -/
def Mod.jnlUe (m : Mod) : Mod :=
  if m.jnl.train.st ≠ .up then m
  else
    let t := m.jnl.train.oneUe m.clock.timeUs
    let m1 : Mod := { m with jnl := { m.jnl with train := t, fecUncorr := satAdd m.jnl.fecUncorr 1 } }
    if t.ueTrigger = 0 then m1 else m1.jnlRetrain true

/-- JNL_FEC_WINDOW. -/
def Mod.jnlFec (m : Mod) (corrected received : Nat) : Mod :=
  let d := fecDegraded m.jnl.train.degraded corrected received
  let m1 : Mod := { m with jnl := { m.jnl with
    train := { m.jnl.train with degraded := d }, fecCorrected := satAdd m.jnl.fecCorrected corrected } }
  if d && !m.jnl.train.degraded then m1.raise .jnlFecDegraded (unitId 8 0) [] else m1

/-- JNL_RETRAIN_REQ (R372). -/
def Mod.jnlRetrainReq (m : Mod) : Mod :=
  let t := m.jnl.train
  match t.st with
  | .up => m.jnlRetrain false
  | .signal => m.setJnl t.down
  | .align => m.setJnl t.down
  | .ident => m.setJnl t.down
  | .failed => (m.setJnl { t.down with attempts := 0, retrains := [] }).clearFault 8 0
  | .down => m
  | .retrain => m

/-! ### REFCLK (R510) -/

/-- REFCLK_LOST: every link PHY that is not DOWN or FAILED returns to DOWN. -/
def Mod.refclkLost (m : Mod) : Mod :=
  let m1 : Mod := { m with boot := { m.boot with refclk := false } }
  let m2 := (List.range 36).foldl (fun (m : Mod) p =>
    let st := (m.port p).train.st
    if st = .down ∨ st = .failed then m else m.portDown p 5) m1
  if m2.jnl.train.st = .down ∨ m2.jnl.train.st = .failed then m2 else m2.jnlLost 5 .down

/-- REFCLK_RESTORED. -/
def Mod.refclkBack (m : Mod) : Mod := { m with boot := { m.boot with refclk := true } }

end Sys2Proof.Machine
end

