-- ==== Sys2Proof/Machine/Security.lean ====
section
/-!
DEFINITION. Verification of packages and images, sessions, the firmware update, attestation, debug (R481 to R502).
Functions that answer a write give its SDO abort code, 0 where it is accepted (R394).
-/
namespace Sys2Proof.Machine

/-! ### SDO abort codes that this chapter and others give -/

/-- 0x0609_0030: the value is out of range. -/
def abValue : Nat := 0x06090030
/-- 0x0609_0031: a length or value too high. -/
def abHigh : Nat := 0x06090031
/-- 0x0800_0020: not authorised. -/
def abAuth : Nat := 0x08000020
/-- 0x0800_0022: not in the present state. -/
def abState : Nat := 0x08000022
/-- 0x0800_0024: no data. -/
def abNoData : Nat := 0x08000024

/-- Set SEC_RESULT. -/
def Mod.secResult (m : Mod) (st : BitVec 8) : Mod := { m with sec := { m.sec with result := st } }

/-! ### Packages (R483, R484) -/

/-- SEC_FORMAT -/
def stSecFormat : BitVec 8 := 0xE0#8
/-- SEC_SIG_BAD -/
def stSecSigBad : BitVec 8 := 0xE4#8

/-- A key or digest of zero bytes is not enrolled (R482). -/
def enrolled (k : Bytes) : Bool := k.any (fun b => b != 0#8)

/-- LENGTH of a package header. -/
def pkgLength (hdr : Bytes) : Nat := leNat ((hdr.drop 12).take 4)
/-- KEY_INDEX. -/
def pkgKey (hdr : Bytes) : Nat := field (leNat (hdr.take 16)) 40 2
/-- SVN. -/
def pkgSvn (hdr : Bytes) : Nat := field (leNat (hdr.take 16)) 48 6
/-- VERSION. -/
def pkgVersion (hdr : Bytes) : Nat := field (leNat (hdr.take 16)) 64 32

/-- Check 1 of R484: the status of a package whose header is not as expected for its KIND. -/
def pkgFormOk (kind : Nat) (hdr : Bytes) : Bool :=
  let v := leNat (hdr.take 16)
  let most := if kind = 1 then 2096640 else 67108864
  decide (field v 0 32 = 0x46504B31 ∧ field v 32 8 = kind ∧ field v 42 6 = 0 ∧ field v 54 10 = 0
    ∧ 1 ≤ pkgLength hdr ∧ pkgLength hdr ≤ most)
  && ((hdr.drop 112).take 336).all (fun b => b == 0#8)

/-- The measurement of a package: SM3 of its header bits [3583:0] followed by its body (R485). -/
def pkgMeasure (hdr body : Bytes) : Bytes := sm3 (hdr.take 448 ++ body)

/-- The six checks of R484 in order: the status of the first that fails, 0 where none does; a mark on the bytes fails none
(log entry 40). -/
def packageStatus (f : Fuses) (kind : Nat) (hdr body : Bytes) : BitVec 8 :=
  let pub := (hdr.drop 48).take 64
  let svn := if kind = 1 then f.mcSvn.toNat else f.ccSvn.toNat
  let digest := listGet [] f.fwKeys (pkgKey hdr)
  if pkgFormOk kind hdr = false then stSecFormat
  else if enrolled digest = false ∨ sm3 pub ≠ digest then 0xE1#8
  else if bitOf f.revoked.toNat (pkgKey hdr) then 0xE2#8
  else if pkgSvn hdr < svn then 0xE3#8
  else if sm2Verify pub (hdr.take 448) ((hdr.drop 448).take 64) = false then stSecSigBad
  else if sm3 body ≠ (hdr.drop 16).take 32 then 0xE5#8
  else 0#8

/-- A verification has ended: SEC_RESULT, and SEC_VERIFY_FAIL with KIND and status where it failed. -/
def Mod.verified (m : Mod) (kind : Nat) (st : BitVec 8) : Mod :=
  let m1 := m.secResult st
  if st = 0#8 then m1 else m1.raise .secVerifyFail noUnit (payload [i1 kind, i1 st.toNat])

/-- The bytes of a firmware slot. -/
def Mod.slotMem (m : Mod) (slot : BitVec 8) : Mem := if slot = 0#8 then m.sec.slotA else m.sec.slotB

/-- The header of the package in a slot. -/
def Mod.slotHeader (m : Mod) (slot : BitVec 8) : Bytes := memRead (m.slotMem slot) 0 512

/-- The body of the package in a slot; one longer than the slot is never read, since check 1 refuses it. -/
def Mod.slotBody (m : Mod) (slot : BitVec 8) : Bytes :=
  memRead (m.slotMem slot) 512 (min (pkgLength (m.slotHeader slot)) 2096640)

/-- The status of the package in a slot. -/
def Mod.slotStatus (m : Mod) (slot : BitVec 8) : BitVec 8 :=
  packageStatus m.fuses 1 (m.slotHeader slot) (m.slotBody slot)

/-- A control-core package in the stack region, as the management controller reads it: header and body; none where it does
not lie in the region (R414). -/
def Mod.readPackage (m : Mod) (a : Nat) : Option (Bytes × Bytes) × Mod :=
  if ¬ stackRangeOk a 512 then (none, m)
  else
    let h := m.readStack a 512 7 false reqMgmt
    let hdr := pieceBytes h.1
    let n := pkgLength hdr
    if pkgFormOk 2 hdr = false then (some (hdr, []), h.2)
    else if ¬ stackRangeOk (a + 512) n then (none, h.2)
    else
      let b := h.2.readStack (a + 512) n 7 false reqMgmt
      (some (hdr, pieceBytes b.1), b.2)

/-- Verification of an image's signature (R487): the status, 0 where it passes. `digest` is its IMAGE_DIGEST. -/
def Mod.imageSecurity (m : Mod) (isSigned : Bool) (digest sig : Bytes) : BitVec 8 :=
  if isSigned then
    (if enrolled m.sec.imageKey = false then 0xE7#8
     else if sm2Verify m.sec.imageKey digest sig then 0#8 else stSecSigBad)
  else if bitOf m.sec.profile.toNat 0 then 0xE6#8 else 0#8

/-! ### Sessions (R496 to R498) -/

/-- The session has a right: 0 ADMIN, 1 DEBUG, 2 TEST. -/
def Mod.hasRight (m : Mod) (r : Nat) : Bool :=
  match m.sec.session with
  | some s => bitOf s.rights.toNat r
  | none => false

/-- AUTH_STATE: rights, key, seconds left rounded up. -/
def Mod.authState (m : Mod) : BitVec 32 :=
  match m.sec.session with
  | none => 0#32
  | some s => BitVec.ofNat 32 (s.rights.toNat + b2n s.service * 256
      + min ((s.ends - m.clock.timeUs + 999999) / 1000000) 0xFFFF * 65536)

/-- Checker test mode ends: TEST_ENABLE returns to 0, reported if it was 1 (R207). -/
def Mod.leaveTest (m : Mod) : Mod :=
  if m.memStacks.testEnable = 0#8 then m
  else ({ m with memStacks := { m.memStacks with testEnable := 0#8 } }).raise .checkerTest noUnit []

/-- The session, if one is open, ends (R498). Causes: 1 AUTH_CLOSE, 2 DURATION, 3 SEC_PROFILE, 4 restart of the
management controller; none where the log is emptied with it. -/
def Mod.endSession (m : Mod) (cause : Option Nat) : Mod :=
  match m.sec.session with
  | none => m
  | some _ =>
    let m1 : Mod := { m.disarm with sec := { m.sec with session := none, dbgHalt := 0#8 } }
    match cause with
    | none => { m1 with memStacks := { m1.memStacks with testEnable := 0#8 } }
    | some c => m1.leaveTest.raise .authClosed noUnit (payload [i1 c])

/-- The key that a request names may ask for the rights (R496). -/
def Mod.rightsAllowed (m : Mod) (rights : Nat) (service : Bool) : Bool :=
  let owner := enrolled m.sec.ownerKey
  (if service then enrolled m.fuses.svcKey else owner)
  && !(bitOf rights 0 && service && owner)
  && !(bitOf rights 1 && !bitOf m.sec.profile.toNat 1)
  && !(bitOf rights 2 && !bitOf m.sec.profile.toNat 2)

/-- A write of AUTH_REQ (R497). -/
def Mod.authReq (m : Mod) (v : BitVec 32) : Nat × Mod :=
  let n := v.toNat
  let service := bitOf n 8
  if field n 3 5 ≠ 0 ∨ field n 9 7 ≠ 0 ∨ m.rightsAllowed (field n 0 3) service = false then (abValue, m)
  else if field n 16 16 = 0 then (0, m)
  else if m.sec.session.isSome = true ∨ m.sec.verifying.isSome = true ∨ m.sec.lockout = true then (abState, m)
  else
    let c : Challenge := ⟨Config.challenge m.clock.challengeCtr, v.setWidth 3, service, BitVec.ofNat 16 (n / 65536),
      m.clock.timeUs⟩
    (0, { m with sec := { m.sec with challenge := some c }, clock := { m.clock with challengeCtr := m.clock.challengeCtr + 1 } })

/-- A write of AUTH_RESPONSE (R497): the challenge is used, and its verification begins. -/
def Mod.authResponse (m : Mod) (sig : Bytes) : Nat × Mod :=
  match m.sec.challenge with
  | none => (abNoData, m.secResult 0xE9#8)
  | some c => (0, { m with sec := { m.sec with challenge := none, verifying := some (c, sig) } })

/-- The 52 bytes that a response signs. -/
def Mod.authMessage (m : Mod) (c : Challenge) : Bytes :=
  leBytes 32 c.value.toNat ++ m.fuses.serial ++ leBytes 1 c.rights.toNat ++ leBytes 2 c.duration.toNat
    ++ leBytes 1 (b2n c.service)

/-- The key that verifies a response: the owner key, or the service key's public key, which is right where its digest is
the fused one. -/
def Mod.authKeyOk (m : Mod) (c : Challenge) (sig svcKey : Bytes) : Bool :=
  if c.service then decide (sm3 svcKey = m.fuses.svcKey) && sm2Verify svcKey (m.authMessage c) sig
  else sm2Verify m.sec.ownerKey (m.authMessage c) sig

/-- RESPONSE_VERIFIED (R497, R498). -/
def Mod.responseVerified (m : Mod) (svcKey : Bytes) : Mod :=
  match m.sec.verifying with
  | none => m
  | some (c, sig) =>
    let m0 : Mod := { m with sec := { m.sec with verifying := none } }
    if m.authKeyOk c sig svcKey then
      let s : Session := ⟨c.rights, c.service, m.clock.timeUs + c.duration.toNat * 1000000⟩
      let m1 : Mod := { m0 with sec := { m0.sec with session := some s, failRun := 0, result := 0#8 } }
      m1.raise .authOpened noUnit (payload [i4 m1.authState.toNat])
    else
      let m1 : Mod := { m0 with sec := { m0.sec with
        fails := satAdd m0.sec.fails 1, failRun := m0.sec.failRun + 1, result := 0xE8#8 } }
      let m2 := m1.raise .authRejected noUnit []
      if m1.sec.failRun < 5 then m2
      else ({ m2 with sec := { m2.sec with failRun := 0, lockout := true } }).raise .authLockout noUnit []

/-- A write of AUTH_CLOSE (R498). -/
def Mod.authClose (m : Mod) : Mod := ({ m with sec := { m.sec with challenge := none } }).endSession (some 1)

/-- CHALLENGE_EXPIRY: 60 s after it was drawn. -/
def Mod.challengeExpired (m : Mod) : Mod := { m with sec := { m.sec with challenge := none } }

/-- LOCKOUT_END. -/
def Mod.lockoutEnd (m : Mod) : Mod := { m with sec := { m.sec with lockout := false } }

/-! ### Objects that need a right -/

/-- A write of SEC_PROFILE that has passed the range and the right (R498, R500). -/
def Mod.setProfile (m : Mod) (v : BitVec 8) : Mod :=
  let m1 : Mod := { m with sec := { m.sec with profile := v } }
  match m1.sec.session with
  | none => m1
  | some s =>
    if (bitOf s.rights.toNat 1 && !bitOf v.toNat 1) || (bitOf s.rights.toNat 2 && !bitOf v.toNat 2) then
      m1.endSession (some 3)
    else m1

/-- A write of SVN_COMMIT (R488). -/
def Mod.svnCommit (m : Mod) : Mod :=
  let mc := max m.fuses.mcSvn.toNat (pkgSvn (m.slotHeader m.sec.mcSlot))
  let cc := match m.boot.coreFw with | some f => max m.fuses.ccSvn.toNat f.svn.toNat | none => m.fuses.ccSvn.toNat
  let m1 : Mod := { m with fuses := { m.fuses with mcSvn := BitVec.ofNat 8 mc, ccSvn := BitVec.ofNat 8 cc } }
  m1.raise .svnCommitted noUnit (payload [i1 mc, i1 cc])

/-- A write of FW_REVOKE in 0x01–0x0F (R496). -/
def Mod.fwRevoke (m : Mod) (v : BitVec 8) : Nat × Mod :=
  let service := match m.sec.session with | some s => s.service | none => false
  let cc := match m.boot.coreFw with | some f => bitOf v.toNat f.key.toNat | none => false
  if service = false then (abAuth, m)
  else if bitOf v.toNat (pkgKey (m.slotHeader m.sec.mcSlot)) || cc then (abValue, m)
  else
    (0, ({ m with fuses := { m.fuses with revoked := m.fuses.revoked ||| v } }).raise .secKeyChanged noUnit [])

/-- OWNER_KEY may be written: with the ADMIN right, or once without a session while none is enrolled (R497). -/
def Mod.ownerMayWrite (m : Mod) : Bool := m.hasRight 0 || (!enrolled m.sec.ownerKey && !m.sec.ownerOnce)

/-- A write of OWNER_KEY. -/
def Mod.setOwnerKey (m : Mod) (k : Bytes) : Mod :=
  let m1 : Mod := { m with sec := { m.sec with ownerKey := padTo 64 k, ownerOnce := m.sec.ownerOnce || !m.hasRight 0 } }
  m1.raise .secKeyChanged noUnit []

/-- A write of IMAGE_KEY. -/
def Mod.setImageKey (m : Mod) (k : Bytes) : Mod :=
  ({ m with sec := { m.sec with imageKey := padTo 64 k } }).raise .secKeyChanged noUnit []

/-! ### Firmware update (R490) -/

/-- A write of FW_SLOT, 0 or 1. -/
def Mod.setFwSlot (m : Mod) (v : BitVec 8) : Nat × Mod :=
  if m.sec.recovery = false ∧ v = m.sec.mcSlot then (abValue, m)
  else (0, { m with sec := { m.sec with fwSlot := v } })

/-- A write of FW_CHUNK. -/
def Mod.fwChunk (m : Mod) (bs : Bytes) : Nat × Mod :=
  let off := m.sec.fwOffset.toNat
  if m.sec.committing.isSome then (abState, m)
  else if 2097152 < off + bs.length then (abHigh, m)
  else
    let mem := memWrite (m.slotMem m.sec.fwSlot) off bs
    let s := m.sec
    let s1 : Sec := if s.fwSlot = 0#8 then { s with slotA := mem } else { s with slotB := mem }
    (0, { m with sec := { s1 with fwOffset := BitVec.ofNat 32 (off + bs.length) } })

/-- A write of FW_COMMIT: the slot's verification begins. -/
def Mod.fwCommit (m : Mod) : Nat × Mod :=
  if m.sec.committing.isSome then (abState, m)
  else (0, { m with sec := { m.sec with committing := some m.sec.fwSlot } })

/-- Verification of the slot ends: on OK it is selected for the next boot. Answers whether it passed. -/
def Mod.commitVerified (m : Mod) : Bool × Mod :=
  match m.sec.committing with
  | none => (false, m)
  | some slot =>
    let st := m.slotStatus slot
    let m1 := ({ m with sec := { m.sec with committing := none } }).verified 1 st
    if st = 0#8 then (true, { m1 with sec := { m1.sec with nextSlot := slot } }) else (false, m1)

/-! ### Attestation (R492 to R494) -/

/-- ACTIVE_CFG: the active copy of 0x4800:01 to 06. -/
def LeaCfg.bytes (c : LeaCfg) : Bytes :=
  leBytes 4 c.id.toNat ++ leBytes 2 c.size.toNat ++ leBytes 2 c.dims.toNat ++ leBytes 2 c.index.toNat
    ++ leBytes 2 c.seqFirst.toNat ++ leBytes 2 c.seqCount.toNat

/-- CFG_DIGEST (R494). -/
def Mod.cfgDigest (m : Mod) : Bytes :=
  sm3 (m.lea.active.bytes ++ leBytes 16 m.memStacks.placeActive.toNat ++ leBytes 1 (b2n m.safe.fallowStrict)
    ++ (m.rick.policy.map (fun b => leBytes 1 b.toNat)).flatten ++ leBytes 2 m.power.capW.toNat
    ++ leBytes 1 m.power.paceLimit.toNat ++ leBytes 1 m.sec.profile.toNat)

/-- The fuse map as the last full reset read it. -/
def Mod.fuseMap (m : Mod) : Bytes := (List.range 4096).map (Config.fuseByte m.boot.fuseSnap)

/-- Bits [3583:0] of a report taken now (R493). -/
def Mod.reportBody (m : Mod) : Bytes :=
  let cc := match m.boot.coreFw with | some f => f.measure | none => List.replicate 32 0#8
  padTo 448 (leBytes 4 0x31545441 ++ leBytes 4 0x0001 ++ padTo 16 m.fuses.serial ++ padTo 32 m.sec.attNonce
    ++ padTo 32 m.sec.mcMeasure ++ padTo 32 cc ++ sm3 m.fuseMap ++ padTo 32 m.plan.digest ++ m.cfgDigest
    ++ padTo 32 m.imageDigest ++ padTo 32 m.planting.active.digest ++ leBytes 1 m.sec.profile.toNat
    ++ leBytes 1 m.fuses.mcSvn.toNat ++ leBytes 1 m.fuses.ccSvn.toNat ++ leBytes 1 (m.authState.toNat % 256)
    ++ leBytes 8 m.cairn.next ++ padTo 32 m.cairn.chain ++ leBytes 8 m.clock.timeUs)

/-- A write of ATT_GO: the snapshot is taken, and signing begins (R492). -/
def Mod.attGo (m : Mod) : Nat × Mod :=
  if m.sec.attState = 1#8 then (abState, m)
  else (0, { m with sec := { m.sec with attState := 1#8, attReport := padTo 512 m.reportBody } })

/-- ATTEST_SIGNED: the report has its signature. -/
def Mod.attestSigned (m : Mod) : Mod :=
  if m.sec.attState ≠ 1#8 then m
  else
    let body := m.sec.attReport.take 448
    let sig := Config.signature m.clock.signCtr (BitVec.ofNat 256 (beNat (sm3 body)))
    let m1 : Mod := { m with
      sec := { m.sec with attState := 2#8, attReport := body ++ leBytes 64 sig.toNat }
      clock := { m.clock with signCtr := m.clock.signCtr + 1 } }
    m1.raise .attestSigned noUnit []

/-! ### Debug (R499) -/

/-- A write of DBG_HALT, 0 or 1. -/
def Mod.setDbgHalt (m : Mod) (v : BitVec 8) : Nat × Mod :=
  if m.lea.st = .running then (abState, m)
  else (0, { m with sec := { m.sec with dbgHalt := v } })

end Sys2Proof.Machine
end

