-- ==== Sys2Proof/Machine/Image.lean ====
section
/-!
DEFINITION. Image parts: the header, its sections and the checks of the load (R190, R297, R323, R347, R353, R417 to R420,
R453).
-/
namespace Sys2Proof.Machine

/-! ### The header (R417) -/

/-- The fields of a header. -/
structure ImgHdr where
  training : Bool
  isSigned : Bool
  lea : Bool
  part : Nat
  size : Nat
  portMask : Nat
  fpDigest : Bytes
  leaDigest : Bytes
  /-- offset, length and reserved bits of each section -/
  secs : List (Nat × Nat × Nat)
  sig : Bytes
deriving DecidableEq, Repr

/-- Read a header. -/
def imgHdr (b : Bytes) : ImgHdr :=
  let v := leNat (b.take 24)
  let sec (k : Nat) : Nat × Nat × Nat :=
    let e := leNat ((b.drop (88 + 16 * k)).take 16)
    (field e 0 48, field e 48 32, field e 80 48)
  ⟨bitOf v 48, bitOf v 49, bitOf v 50, field v 64 16, field v 80 16, field v 128 36, (b.drop 24).take 32,
    (b.drop 56).take 32, (List.range 8).map sec, (b.drop 448).take 64⟩

/-- MAGIC, FORMAT and the reserved fields. -/
def imgMagicOk (b : Bytes) : Bool :=
  let v := leNat (b.take 24)
  decide (field v 0 32 = 0x4E59494D ∧ field v 32 16 = 1 ∧ field v 51 13 = 0 ∧ field v 96 32 = 0 ∧ field v 164 28 = 0)
  && ((b.drop 216).take 232).all (fun x => x == 0#8)

/-- Two ranges of bytes share none. -/
def apart (a b : Nat × Nat) : Bool := decide (a.2 = 0 ∨ b.2 = 0 ∨ a.1 + a.2 ≤ b.1 ∨ b.1 + b.2 ≤ a.1)

/-- Ranges share no byte pairwise. -/
def allApart : List (Nat × Nat) → Bool
  | [] => true
  | x :: t => t.all (apart x) && allApart t

/-- Check 2 of R418: the status, 0 where it passes. An empty section occupies nothing. -/
def imgFormat (a : Nat) (b : Bytes) : BitVec 8 :=
  let h := imgHdr b
  let secs := h.secs.map (fun s => (a + s.1, s.2.1))
  let place (s : Nat × Nat) : Bool := s.2 == 0 || (s.1 % 64 == 0 && stackRangeOk s.1 s.2)
  if ¬ imgMagicOk b then 0xC9#8
  else if h.lea = true ∧ h.size = 0 then stZeroInvalid
  else if h.lea = true ∧ ¬ (2 ≤ h.size ∧ h.size ≤ 512 ∧ h.part < h.size) then 0xC9#8
  else if h.lea = false ∧ ¬ (h.part = 0 ∧ h.size = 0 ∧ h.leaDigest.all (fun x => x == 0#8) = true) then 0xC9#8
  else if h.secs.any (fun s => decide (s.2.2 ≠ 0 ∨ (s.2.1 ≠ 0 ∧ s.1 % 64 ≠ 0))) then 0xC9#8
  else if ¬ (secs.all place && allApart ((a, 512) :: secs)) then 0xC9#8
  else if h.training ≠ decide ((listGet (0, 0, 0) h.secs 6).2.1 ≠ 0) then 0xC9#8
  else 0#8

/-! ### Slot maps (R190) -/

/-- The class codes of a stack in the section. -/
def slotCodes (sec : Bytes) (s : Nat) : List Nat := ((sec.drop (80 * s)).take 80).map (fun b => b.toNat)

/-- One stack's slot map obeys R190. -/
def slotMapOk (s : Nat) (codes : List Nat) : Bool :=
  let fetch := (codes.filter (fun c => c == 1)).length
  let busy := (codes.filter (fun c => c != 0)).length
  codes.all (fun c => decide (c ≤ 3)) && decide (1 ≤ fetch ∧ fetch ≤ 4 ∧ busy ≤ 72)
  && codes.zipIdx.all (fun e => (e.1 == 3) == (s == 11 && (e.2 == 0 || e.2 == 40)))

/-- Check 5 of R418. -/
def slotMapsOk (sec : Bytes) : Bool :=
  decide (sec.length = 960) && (List.range 12).all (fun s => slotMapOk s (slotCodes sec s))

/-! ### Hedgerow maps and lists (R347, R353) -/

/-- The slot map of a port in the section. -/
def hdgMapOf (sec : Bytes) (p : Nat) : BitVec 64 := BitVec.ofNat 64 (leNat ((sec.drop (8 * p)).take 8))

/-- Offset and entry count of a port's list. -/
def hdgIndex (sec : Bytes) (p : Nat) : Nat × Nat :=
  let v := leNat ((sec.drop (16 * p)).take 16)
  (field v 0 32, field v 32 16)

/-- The entries of a port's list. -/
def hdgEntries (sec : Bytes) (p : Nat) : List XferEntry :=
  let ix := hdgIndex sec p
  (List.range ix.2).map (fun k => BitVec.ofNat 256 (leNat ((sec.drop (ix.1 + 32 * k)).take 32)))

/-- START_STEP ascends within the entries of one direction. -/
def ascending : List Nat → Bool
  | [] => true
  | a :: t => (match t with | [] => true | b :: _ => decide (a ≤ b)) && ascending t

/-- One entry obeys R353; with more than one variant of the planting map it names no tile memory (R453). -/
def Mod.xferEntryOk (m : Mod) (p variants : Nat) (e : XferEntry) : Bool :=
  let v := e.toNat
  let f := entryF e
  let reps := if f.stride = 0 then min f.rep 1 else f.rep
  decide (bitOf v 7 = false ∧ field v 23 9 = 0 ∧ field v 116 12 = 0 ∧ field v 1 3 = idxOf p ∧ f.row < 96 ∧ f.len % 8 = 0)
  && (f.len == 0 || (List.range reps).all (fun k =>
    m.dmaRangeOk (f.addrAt k) f.len && (decide (variants ≤ 1) || !inTileAperture (f.addrAt k))))

/-- The list of one port obeys R353. -/
def Mod.xferListOk (m : Mod) (mask variants : Nat) (sec : Bytes) (p : Nat) : Bool :=
  let ix := hdgIndex sec p
  let es := hdgEntries sec p
  let starts (dir : Bool) := (es.filter (fun e => bitOf e.toNat 0 == dir)).map (fun e => (entryF e).start)
  ix.2 == 0 || (bitOf mask p && decide (ix.1 + 32 * ix.2 ≤ sec.length) && es.all (m.xferEntryOk p variants)
    && ascending (starts false) && ascending (starts true))

/-- Check 7 of R418: the status, 0 where it passes. -/
def Mod.hdgCheck (m : Mod) (mask variants : Nat) (maps lists : Bytes) : BitVec 8 :=
  let ones (p : Nat) : Nat := ((List.range 64).filter (fun i => bitOf (hdgMapOf maps p).toNat i)).length
  let named := (List.range 36).filter (fun p => bitOf mask p)
  if named.any (fun p => decide ((m.port p).train.st = .failed)) then 0xA3#8
  else if maps.length ≠ 288 ∧ ¬ (maps = [] ∧ mask = 0) then 0xA4#8
  else if named.any (fun p => decide (56 < ones p)) then 0xA4#8
  else if lists ≠ [] ∧ lists.length < 576 then 0xA4#8
  else if (List.range 36).all (m.xferListOk mask variants lists) then 0#8
  else 0xA4#8

/-! ### Attention commands (R297, R323) -/

/-- The commands of the section, in CMD_ID order. -/
def attnCmds (sec : Bytes) : List (BitVec 1024) :=
  (List.range (sec.length / 128)).map (fun i => BitVec.ofNat 1024 (leNat ((sec.drop (128 * i)).take 128)))

/-- Two format codes are a pairing of R67: bf16 with itself, the fp8 and MX formats with one another. -/
def pairing (a w : Nat) : Bool := (a == 1 && w == 1) || (decide (2 ≤ a ∧ a ≤ 8) && decide (2 ≤ w ∧ w ≤ 8))

/-- T of R288 for a page format and head dimension, 0 where there is none. -/
def pageTokens (fmt dim : Nat) : Nat :=
  if (fmt = 4 ∨ fmt = 5 ∨ fmt = 8) ∧ dim % 32 = 0 ∧ dim ≤ 512 then tokensPerPage fmt dim else 0

/-- The checks of R297 on command `i`, in order: the status, 0 where it passes. -/
def attnCheck (i : Nat) (w : BitVec 1024) : BitVec 8 :=
  let v := w.toNat
  let c := attnF w
  let t := pageTokens c.fmt c.dim
  let most := if c.mode = 0 then 8 else if c.mode = 1 then 16 else 2048
  if c.dim = 0 ∨ (c.win = true ∧ c.window = 0) then stZeroInvalid
  else if v / 2 ^ 212 ≠ 0 ∨ field v 0 16 ≠ i ∨ c.mode = 3 ∨ 16 < c.qh ∨ 1 < field v 44 4 ∨ 8 < field v 36 4
      ∨ 8 < field v 40 4 ∨ t = 0 then 0x83#8
  else if ¬ (pairing (field v 36 4) c.fmt && pairing (field v 40 4) c.fmt) then 0x83#8
  else if c.nmax = 0 ∨ most < c.nmax then 0x83#8
  else if c.win = true ∧ (t < c.nmax ∨ c.window < c.nmax ∨ 65535 < (c.window + t - 1) / t + 1) then 0x83#8
  else if c.addr % 8 ≠ 0 ∨ 0x18000000000 ≤ c.addr ∨ 0x18000000000 < c.addr + 8 * c.count then 0x83#8
  else 0#8

/-- A cell finishes at most 1,024 rows in a command: each work entry of split 0 finishes QH × NMAX rows (R323). -/
def sideRowsOk (c : AttnCmd) (work : List Nat) : Bool :=
  let ws := (work.map workF).filter (fun w => w.split == 0)
  ws.all (fun w => decide ((ws.filter (fun x => x.role == w.role)).length * (c.qh * c.nmax) ≤ 1024))

/-- Check 8 of R418: each command passes R297, in a training image then R323. -/
def Mod.attnChecks (m : Mod) (training : Bool) (cmds : List (BitVec 1024 × Nat)) : BitVec 8 × Mod :=
  match cmds with
  | [] => (0#8, m)
  | (w, i) :: rest =>
    let st := attnCheck i w
    if st ≠ 0#8 then (st, m)
    else
      let c := attnF w
      if training = true ∧ c.count ≠ 0 then
        let r := m.readStack c.addr (8 * c.count) 7 false reqMgmt
        let bs := pieceBytes r.1
        let work := (List.range c.count).map (fun k => leNat ((bs.drop (8 * k)).take 8))
        if sideRowsOk c work then r.2.attnChecks training rest else (0x90#8, r.2)
      else m.attnChecks training rest

/-! ### The load (R418) -/

/-- Bytes of the stack region as the load reads them; a mark on them fails no check of R418 (log entry 40). -/
def Mod.loadBytes (m : Mod) (a n : Nat) : Bytes × Mod :=
  if n = 0 then ([], m)
  else
    let r := m.readStack a n 7 false reqMgmt
    (pieceBytes r.1, r.2)

/-- The sections of a part, in order. -/
def Mod.loadSections (m : Mod) (secs : List (Nat × Nat)) : List Bytes × Mod :=
  match secs with
  | [] => ([], m)
  | s :: t =>
    let r := m.loadBytes s.1 s.2
    let q := r.2.loadSections t
    (r.1 :: q.1, q.2)

/-- The empty planting map of an empty section, compiled for a floor plan. -/
def emptyMap (fp : Bytes) : PlantMap := ⟨[], [], fp, sm3 []⟩

/-- Check 3 of R418: IMG_SIGNATURE with its own status and event, or the module with SEC_RESULT set by a signature that
passed (R487). The payload's KIND is 0 for an image. -/
def Mod.imgSignature (m : Mod) (isSigned : Bool) (digest sig : Bytes) : Bool × Mod :=
  let st := m.imageSecurity isSigned digest sig
  if st ≠ 0#8 then (false, (m.secResult st).raise .secVerifyFail noUnit (payload [i1 0, i1 st.toNat]))
  else (true, if isSigned then m.secResult 0#8 else m)

/-- Checks 3 to 8 of R418 on a part whose format is right: the status, and the image that a status of 0 loads. -/
def Mod.imgChecks (m : Mod) (a : Nat) (hdr : Bytes) (variants : List PlantMap) : BitVec 8 × Option Image × Mod :=
  let h := imgHdr hdr
  let secs := h.secs.map (fun s => (a + s.1, s.2.1))
  let r := m.loadSections secs
  let sec (k : Nat) : Bytes := listGet [] r.1 k
  let digest := sm3 (hdr.take 448 ++ r.1.flatten)
  let g := r.2.imgSignature h.isSigned digest h.sig
  let m1 := g.2
  let maps := if sec 1 = [] ∨ variants = [] then [{ emptyMap h.fpDigest with digest := sm3 (sec 1) }] else variants.take 8
  let pm := m1.pmChecks (listGet (emptyMap []) maps 0)
  let hc := m1.hdgCheck h.portMask maps.length (sec 3) (sec 4)
  let cmds := attnCmds (sec 5)
  let ac := m1.attnChecks h.training cmds.zipIdx
  if g.1 = false then (0xCA#8, none, m1)
  else if h.fpDigest ≠ m1.plan.digest then (0xB0#8, none, m1)
  else if slotMapsOk (sec 2) = false then (0x44#8, none, m1)
  else if pm ≠ 0#8 then (pm, none, m1)
  else if hc ≠ 0#8 then (hc, none, m1)
  else if (sec 5).length % 128 ≠ 0 then (0x83#8, none, m1)
  else if ac.1 ≠ 0#8 then (ac.1, none, ac.2)
  else
    let slots := (List.range 12).map (fun s => (slotCodes (sec 2) s).map (BitVec.ofNat 2))
    let lists := (List.range 36).map (fun p => if (hdgIndex (sec 4) p).2 = 0 then [] else hdgEntries (sec 4) p)
    let im : Image := {
      addr := a
      sections := secs.map (fun s => (⟨s.1, s.2⟩ : Section))
      training := h.training
      lea := h.lea
      partIndex := BitVec.ofNat 16 h.part
      leaSize := BitVec.ofNat 16 h.size
      portMask := BitVec.ofNat 36 h.portMask
      leaDigest := h.leaDigest
      digest := digest
      slots := slots
      hdgSlots := (List.range 36).map (hdgMapOf (sec 3))
      hdgLists := lists
      attn := cmds
      variants := maps }
    (0#8, some im, ac.2)

/-- The write locks: the loaded image's header and sections, and the verified control-core package (R420). -/
def Mod.setLocks (m : Mod) : Mod :=
  let ofImage := match m.boot.image with
    | none => []
    | some i => (i.addr, i.addr + 511) :: (i.sections.filter (fun s => s.len ≠ 0)).map (fun s => (s.addr, s.addr + s.len - 1))
  let ofFw := match m.boot.coreFw with
    | none => []
    | some f => [(f.addr, f.addr + 511 + f.len)]
  { m with memStacks := { m.memStacks with locks := ofImage ++ ofFw } }

/-- A part that has passed every check is loaded: it replaces the previous image, its planting map is staged, and the
module is READY (R418). -/
def Mod.installImage (m : Mod) (im : Image) : Mod :=
  let m1 : Mod := { m with
    boot := { m.boot with image := some im, work := .ready }
    planting := { m.planting with staged := some (listGet (emptyMap []) im.variants 0, false) }
    thermal := { m.thermal with rotVariants := BitVec.ofNat 8 im.variants.length, rotActive := 0#8 }
    lea := { m.lea with reload := false } }
  m1.setLocks.raise .imageLoaded noUnit (payload [iBytes im.digest])

/-- The eight checks of R418 on the part at an address, and the load: the status, 0 where the part is loaded. -/
def Mod.loadImage (m : Mod) (a : Nat) (variants : List PlantMap) : BitVec 8 × Mod :=
  if m.moduleFault = true ∨ m.running = true then (0xC8#8, m)
  else if ¬ stackRangeOk a 512 then (0xC9#8, m)
  else
    let r := m.loadBytes a 512
    let st := imgFormat a r.1
    if st ≠ 0#8 then (st, r.2)
    else
      match r.2.imgChecks a r.1 variants with
      | (_, some im, m1) => (0#8, m1.installImage im)
      | (st, none, m1) => (st, m1)

end Sys2Proof.Machine
end

