-- ==== Sys2Proof/Machine/Thermal.lean ====
section
/-!
DEFINITION. Temperature and coolant: control values, the cross-layer estimator, the thresholds, the thermal law,
flow and inlet (R445 to R452, R461). A condition "for t" holds when as many samples in a row as make up t meet it.
-/
namespace Sys2Proof.Machine

/-! ### Control values (R446, R448) -/

/-- A hot spot that has no reading. -/
def HotSpot.none : HotSpot := ⟨noTemp, noTemp, false, 0, 0⟩
/-- A band that has no reading. -/
def BandTemp.none : BandTemp := ⟨noTemp, noTemp, false, 0, 0, 0⟩

/-- The higher of two temperatures. -/
def hotter (a b : BitVec 16) : BitVec 16 := if tempOf a < tempOf b then b else a

/-- A hot spot's control value by its own sensors and, while its pair is suspect, the band's estimate (R446). -/
def HotSpot.control (x : HotSpot) (estimate : BitVec 16) : BitVec 16 :=
  let h := hotter x.diode x.delay
  if x.suspect then hotter h estimate else h

/-- The hot spots of a band. -/
def Mod.spotsOf (m : Mod) (b : Nat) : List HotSpot := (List.range 8).map (fun k => listGet HotSpot.none m.thermal.spots (8 * b + k))

/-- The band's temperatures. -/
def Mod.bandTemp (m : Mod) (b : Nat) : BandTemp := listGet BandTemp.none m.thermal.bands b

/-- The band's control value by R446 alone. -/
def Mod.ownControl (m : Mod) (b : Nat) : BitVec 16 :=
  hottest ((m.spotsOf b).map (fun x => x.control (m.bandTemp b).estimate))

/-- Form a band's control value; a dark band has none. -/
def Mod.formControl (m : Mod) (b : Nat) : Mod :=
  let t := m.bandTemp b
  let own := m.ownControl b
  let c := if isDark m.plan b then noTemp else if t.layerSuspect then hotter own t.estimate else own
  { m with thermal := { m.thermal with bands := listSet m.thermal.bands b { t with control := c } } }

/-- The band has a sensor fault (R461). -/
def Mod.sensorBad (m : Mod) (b : Nat) : Bool := (m.spotsOf b).any (fun x => x.suspect) || (m.bandTemp b).layerSuspect

/-- SENSOR_FAULT is raised once while a band has a sensor fault (R461). -/
def Mod.beaconWatch (m : Mod) (b : Nat) : Mod :=
  let seen := bitOf m.safe.sensorFault.toNat b
  if m.sensorBad b then
    if seen then m
    else ({ m with safe := { m.safe with sensorFault := m.safe.sensorFault ||| BitVec.ofNat 16 (2 ^ b) } }).raise
      .sensorFault (unitId 1 b) (payload [i1 b])
  else { m with safe := { m.safe with sensorFault := m.safe.sensorFault &&& ~~~ BitVec.ofNat 16 (2 ^ b) } }

/-- One hot spot takes its sample: the pair is suspect after more than 20 ms apart, until within 3.0 °C for 1 s. -/
def Mod.sampleSpot (m : Mod) (i : Nat) (diode delay : BitVec 16) : Mod :=
  let x := listGet HotSpot.none m.thermal.spots i
  let d := (tempOf diode - tempOf delay).natAbs
  let apart := if 50 < d then x.apart + 1 else 0
  let close := if d ≤ 30 then x.close + 1 else 0
  let suspect := if x.suspect then !decide (10000 ≤ close) else decide (200 < apart)
  let y : HotSpot := ⟨diode, delay, suspect, apart, close⟩
  let m1 : Mod := { m with thermal := { m.thermal with spots := listSet m.thermal.spots i y } }
  if suspect && !x.suspect then
    m1.raise .thmPairSuspect (unitId 1 (i / 8)) (payload [i1 (i / 8), i1 (i % 8), i2 diode.toNat, i2 delay.toNat])
  else m1

/-! ### Thresholds of the compute control value (R449, R461) -/

/-- Raise THM_DANGEROUS for a band and enter the safe state. -/
def Mod.thmDanger (m : Mod) (b : Nat) : Mod :=
  m.danger .thmDangerous (unitId 1 b) (payload [i1 b, i2 (m.bandTemp b).control.toNat]) 2

/-- The band with the compute control value. -/
def Mod.hottestBand (m : Mod) : Nat :=
  ((List.range 16).find? (fun b => !isDark m.plan b && (m.bandTemp b).control == m.computeTemp)).getD 0

/-- Above 105.0 °C in 3 samples in a row, or above 100.0 °C for a band with a sensor fault. -/
def Mod.dangerWatch (m : Mod) : Mod :=
  let n := if 1050 < tempOf m.computeTemp then m.thermal.danger + 1 else 0
  let m1 : Mod := { m with thermal := { m.thermal with danger := n } }
  let m2 := if n = 3 then m1.thmDanger m1.hottestBand else m1
  (List.range 16).foldl (fun m b =>
    let t := m.bandTemp b
    let k := if m.sensorBad b && !isDark m.plan b && decide (1000 < tempOf t.control) then t.danger + 1 else 0
    let m3 : Mod := { m with thermal := { m.thermal with bands := listSet m.thermal.bands b { t with danger := k } } }
    if k = 3 ∧ n ≠ 3 then m3.thmDanger b else m3) m2

/-- At 100.0 °C or above for 10 ms the thermal limit falls to 0.35 Gsteps/s; below 97.0 °C for 100 ms it clears. -/
def Mod.maxWatch (m : Mod) : Mod :=
  let t := tempOf m.computeTemp
  let hot := if 1000 ≤ t then m.thermal.maxHot + 1 else 0
  let cool := if t < 970 then m.thermal.maxCool + 1 else 0
  let on := if m.thermal.maxOn then !decide (1000 ≤ cool) else decide (100 ≤ hot)
  let m1 : Mod := { m with thermal := { m.thermal with
    maxHot := hot, maxCool := cool, maxOn := on
    limit := if on && !m.thermal.maxOn then 35#8 else m.thermal.limit
    hotAt := if 950 ≤ t then some m.clock.timeUs else m.thermal.hotAt } }
  if on && !m.thermal.maxOn then m1.raise .thmMax noUnit [] else m1

/-- HOT_SPOT_SAMPLE: the readings of 128 pairs, diode then delay, band × 8 + hot spot. -/
def Mod.hotSpots (m : Mod) (pairs : List (BitVec 16 × BitVec 16)) : Mod :=
  let m1 := (List.range 128).foldl (fun m i =>
    if isDark m.plan (i / 8) then { m with thermal := { m.thermal with spots := listSet m.thermal.spots i HotSpot.none } }
    else
      let p := listGet (noTemp, noTemp) pairs i
      m.sampleSpot i p.1 p.2) m
  let m2 := (List.range 16).foldl (fun m b => (m.formControl b).beaconWatch b) m1
  m2.dangerWatch.maxWatch.repace

/-! ### The cross-layer estimator (R447, R448) -/

/-- Sum of the 8 Loam layer 1 diodes over a band pair; none if one has no reading. -/
def Mod.loamSum (m : Mod) (n : Nat) : Option Int :=
  let ts := (List.range 8).map (fun k => listGet noTemp m.thermal.loam1 (8 * n + k))
  if ts.any (fun t => t == noTemp) then none else some (ts.foldl (fun a t => a + tempOf t) 0)

/-- 8 times one reading; none if there is no reading. -/
def eightTimes (t : BitVec 16) : Option Int := if t = noTemp then none else some (8 * tempOf t)

/-- A band's estimate, to the nearest 0.1 °C (log entry 23); none for a dark band. -/
def Mod.estimateOf (m : Mod) (b : Nat) : BitVec 16 :=
  let n := b % 8
  let upper := decide (8 ≤ b)
  let other := if upper then n else n + 8
  let o := m.bandTemp other
  let above : Option Int :=
    if upper then m.loamSum n
    else if isDark m.plan other then m.loamSum n
    else eightTimes (if o.layerSuspect then o.estimate else o.control)
  let below : Option Int :=
    if upper then (if isDark m.plan other then eightTimes m.thermal.tOut else eightTimes o.control)
    else eightTimes m.thermal.tOut
  let p := (listGet 0#16 m.power.current b).toNat * (m.band b).senseMv.toNat
  if isDark m.plan b then noTemp
  else match above, below with
    | some a, some c => BitVec.ofInt 16 (((a + c) * 1000000 + 16 * (listGet 48 m.thermal.kCoef b * p : Nat) + 8000000) / 16000000)
    | _, _ => noTemp

/-- The rule for a middle layer whose sensors read low, for an Upper band (R448). -/
def Mod.layerWatch (m : Mod) (b : Nat) : Mod :=
  let t := m.bandTemp b
  let d := tempOf t.estimate - tempOf (m.ownControl b)
  let known := decide (t.estimate ≠ noTemp)
  let high := if known && decide (80 ≤ d) then t.high + 1 else 0
  let low := if known && decide (d < 40) then t.low + 1 else 0
  let sus := if t.layerSuspect then !decide (10000 ≤ low) else decide (5 ≤ high)
  let m1 : Mod := { m with thermal := { m.thermal with
    bands := listSet m.thermal.bands b { t with high := high, low := low, layerSuspect := sus } } }
  let m2 := m1.formControl b
  if sus && !t.layerSuspect then
    m2.raise .thmLayerSuspect (unitId 1 b) (payload [i1 b, i2 t.estimate.toNat, i2 t.control.toNat])
  else m2

/-- CROSS_LAYER_ESTIMATE: the estimates of the Upper bands, then of the Lower bands. -/
def Mod.estimates (m : Mod) : Mod :=
  let set (m : Mod) (b : Nat) : Mod :=
    let t := m.bandTemp b
    { m with thermal := { m.thermal with bands := listSet m.thermal.bands b { t with estimate := m.estimateOf b } } }
  let up := (List.range 8).map (fun n => n + 8)
  let m1 := (up ++ List.range 8).foldl set m
  let m2 := up.foldl Mod.layerWatch m1
  ((List.range 16).foldl (fun m b => (m.formControl b).beaconWatch b) m2).repace

/-! ### Stacks and the scan (R445, R449) -/

/-- A stack that has no reading. -/
def StackTemp.none : StackTemp := ⟨List.replicate 4 noTemp, false, 0, false, 0⟩

/-- A stack's temperatures. -/
def Mod.stackTemp (m : Mod) (s : Nat) : StackTemp := listGet StackTemp.none m.thermal.memStacks s

/-- The highest diode over all stacks. -/
def Mod.maxStack (m : Mod) : BitVec 16 := hottest (m.thermal.memStacks.map (fun s => hottest s.diodes))

/-- One stack takes its sample. -/
def Mod.sampleStack (m : Mod) (s : Nat) (diodes : List (BitVec 16)) : Mod :=
  let x := m.stackTemp s
  let t := tempOf (hottest diodes)
  let hot := if 950 ≤ t then x.hot + 1 else 0
  let cool := if t < 900 then x.cool + 1 else 0
  let above := if x.above then !decide (100 ≤ cool) else decide (10 ≤ hot)
  let doubled := if x.doubled then !decide (t < 820) else decide (850 ≤ t)
  let m1 : Mod := { m with thermal := { m.thermal with
    memStacks := listSet m.thermal.memStacks s ⟨diodes, doubled, hot, above, cool⟩
    limit := if above && !x.above then 35#8 else m.thermal.limit } }
  if above && !x.above then m1.raise .stackOvertemp (unitId 4 s) [] else m1

/-- SENSOR_SCAN: disabled positions read 0x8000 (R455). -/
def Mod.scan (m : Mod) (r : SensorReadings) : Mod :=
  let m1 : Mod := { m with thermal := { m.thermal with
    cells := r.cells.filter (fun e => isEnabled m.plan e.1 && decide (e.1 < 4704) && e.2 != noTemp)
    loam1 := (List.range 64).map (fun i => listGet noTemp r.loam1 i)
    loam2 := (List.range 64).map (fun i => listGet noTemp r.loam2 i)
    cap := (List.range 16).map (fun i => listGet noTemp r.cap i) } }
  let m2 := (List.range 12).foldl (fun m s =>
    m.sampleStack s ((List.range 4).map (fun d => listGet noTemp r.memStacks (4 * s + d)))) m1
  m2.selfRefresh.repace

/-! ### The thermal law (R450) -/

/-- THERMAL_WINDOW. -/
def Mod.thermalWindow (m : Mod) : Mod :=
  let c := tempOf m.computeTemp
  let s := tempOf m.maxStack
  let e := max (c - 920) (s - 900)
  let old := m.thermal.limit.toNat
  if 0 < e then
    let base := if m.running then min old m.power.paceNow.toNat else old
    let new := max 35 (base - 2 * ((e.toNat + 9) / 10))
    let m1 : Mod := { m with thermal := { m.thermal with
      limit := BitVec.ofNat 8 new, throttling := true
      throttleWindows := if new < old then satAdd m.thermal.throttleWindows 1 else m.thermal.throttleWindows } }
    (if m.thermal.throttling then m1 else m1.raise .thmThrottle noUnit []).repace
  else if c < 900 ∧ s < 880 then
    ({ m with thermal := { m.thermal with limit := BitVec.ofNat 8 (min 160 (old + 1)), throttling := false } }).repace
  else m

/-! ### Coolant (R451, R452) -/

/-- The flow F: the lower of the two readings. -/
def Mod.flow (m : Mod) : Nat := min m.thermal.flowA.toNat m.thermal.flowB.toNat

/-- The flow sensors' agreement. -/
def Mod.flowWatch (m : Mod) : Mod :=
  let t := m.thermal
  let hi := max t.flowA.toNat t.flowB.toNat
  let d := hi - m.flow
  let apart := if hi < 10 * d then t.flowApart + 1 else 0
  let close := if 20 * d ≤ hi then t.flowClose + 1 else 0
  let sus := if t.flowSuspect then !decide (50000 ≤ close) else decide (5000 ≤ apart)
  let m1 : Mod := { m with thermal := { t with flowApart := apart, flowClose := close, flowSuspect := sus } }
  if sus && !t.flowSuspect then m1.raise .flowSensorSuspect noUnit [] else m1

/-- Entry to LOST (R452). -/
def Mod.coolantLost (m : Mod) (dp : Nat) : Mod :=
  let m1 : Mod := { m with thermal := { m.thermal with
    flowState := 3#8, coolantLimit := 35#8, lossPrev := some m.computeTemp } }
  m1.repace.danger .coolantLoss noUnit (payload [i2 m1.flow, i2 dp]) 3

/-- FLOW_SAMPLE: two flows in mL/min, two pressures in kPa. -/
def Mod.flowSample (m : Mod) (flowA flowB pIn pOut : BitVec 16) : Mod :=
  let t := m.thermal
  let dp := pIn.toNat - pOut.toNat
  let earlier := listGet 0 t.dp 499
  let m1 : Mod := { m with thermal := { t with
    flowA := flowA, flowB := flowB, pIn := pIn, pOut := pOut, dp := (dp :: t.dp).take 500 } }
  let f := m1.flow
  let lost := if f < 900 then t.flowLost + 1 else 0
  let m2 : Mod := { m1 with thermal := { m1.thermal with
    flowSum := t.flowSum + f, flowN := t.flowN + 1, flowLost := lost } }
  let m3 := m2.flowWatch
  if t.flowState ≠ 3#8 ∧ (3 ≤ lost ∨ (20 ≤ earlier ∧ 4 * dp < earlier)) then m3.coolantLost dp else m3

/-- The coolant limit of an average flow: 1.60 × F ÷ 3.60 Gsteps/s, never below 0.35. -/
def coolantLimitOf (f : Nat) : Nat := min 160 (max 35 (160 * f / 3600))

/-- FLOW_AVERAGE: the average of the last 100 ms governs LOW and FAULT. -/
def Mod.flowAverage (m : Mod) : Mod :=
  let t := m.thermal
  if t.flowN = 0 ∨ t.flowState = 3#8 then { m with thermal := { t with flowSum := 0, flowN := 0 } }
  else
    let f := t.flowSum / t.flowN
    let low := if t.flowState = 0#8 then decide (f < 3600) else decide (f < 3700)
    let m1 : Mod := { m with thermal := { t with
      flowSum := 0, flowN := 0
      flowState := if low then (if t.flowState = 0#8 then 1#8 else t.flowState) else 0#8
      coolantLimit := if low then BitVec.ofNat 8 (coolantLimitOf f) else 160#8 } }
    (if low && decide (t.flowState = 0#8) then m1.raise .coolantLow noUnit [] else m1).repace

/-- LOW_HELD: LOW for 10 s. The module enters FAULT: its lea stops at the next barrier, outside a lea its stream halts
(R157, R451). -/
def Mod.lowHeld (m : Mod) : Mod :=
  if m.thermal.flowState = 1#8 then
    let m1 : Mod := { m with thermal := { m.thermal with flowState := 2#8 } }
    let m2 := (m1.mgmtFault 0 0).raise .coolantFault noUnit []
    if m2.lea.st = .running then m2 else m2.haltStream
  else m

/-- COOLANT_TEMP_SAMPLE. -/
def Mod.coolantTemps (m : Mod) (tIn tOut : BitVec 16) : Mod :=
  let out := decide (tempOf tIn < 200 ∨ 450 < tempOf tIn)
  let n := if out then m.thermal.inletOut + 1 else 0
  let raise := decide (10 ≤ n) && !m.thermal.inletRaised
  let m1 : Mod := { m with thermal := { m.thermal with
    tIn := tIn, tOut := tOut, inletOut := n, inletRaised := out && (m.thermal.inletRaised || decide (10 ≤ n)) } }
  if raise then m1.raise .coolantInlet noUnit [] else m1

/-- LOSS_COMPARISON: after a coolant loss, a value above 95.0 °C and higher than 1 ms before opens every header. -/
def Mod.lossCompare (m : Mod) : Mod :=
  match m.thermal.lossPrev with
  | none => m
  | some p =>
    let v := m.computeTemp
    let m1 : Mod := { m with thermal := { m.thermal with lossPrev := some v } }
    if 950 < tempOf v ∧ tempOf p < tempOf v then
      (List.range 16).foldl (fun m b => if (m.band b).closed then m.openHeaders b else m) m1
    else m1

end Sys2Proof.Machine
end

