-- ==== Sys2Proof/Machine/Boot.lean ====
section
/-!
DEFINITION. Power-up and boot, the bring-up steps, resets, RESET_N, the restart of the management controller and the loss
of input power (R23, R391, R411 to R423, R460, R485, R489, R513, R525).
-/
namespace Sys2Proof.Machine

/-! ### What a step's end brings (R414 to R416, R525) -/

/-- Every test and check passes. -/
def StepEnd.good : StepEnd := ⟨false, [], [], none, []⟩

/-! ### GO (R413) -/

/-- A GO to step n is in order. -/
def Mod.stepInOrder (m : Mod) (n : Nat) : Bool :=
  let st (k : Nat) : StepSt := (m.step k).st
  if n = 1 then decide (st 1 ≠ .done)
  else if n ≤ 5 then decide (st (n - 1) = .done ∧ st n ≠ .done)
  else if n = 6 then decide (st 5 = .done ∨ st 5 = .failed)
  else decide (st 6 = .done)

/-- BU_ORDER. -/
def stBuOrder : BitVec 8 := 0xC0#8

/-- A GO of value 1 to step n: the abort code, and where it is accepted the step RUNNING and then what it begins with. -/
def Mod.stepGo (m : Mod) (n : Nat) (variants : List PlantMap) (begin' : Mod → Mod) : Nat × Mod :=
  let x := m.step n
  if m.boot.run.isSome = true ∨ m.boot.rst.isSome = true ∨ m.boot.resetHeld = true then (abState, m)
  else if m.stepInOrder n = false then (abState, m.setStep n { x with status := stBuOrder })
  else
    let m1 := m.setStep n { x with st := .running, since := m.clock.timeUs }
    (0, begin' { m1 with boot := { m1.boot with run := some ⟨n, x.param.toNat, variants⟩ } })

/-- RAILS checks the input and then the coolant before it switches on any rail (R525). -/
def Mod.railsBegin (m : Mod) : Mod :=
  let t := m.thermal
  if m.power.inputMv.toNat < 40000 ∨ 60000 < m.power.inputMv.toNat then m.failStep 0xC2#8
  else if m.flow < 3600 ∨ t.tIn = noTemp ∨ tempOf t.tIn < 200 ∨ 450 < tempOf t.tIn then m.failStep 0xC3#8
  else { m with power := { m.power with railsOn := true } }

/-- The metadata is cleared: every block is unsown, every cache of valid bits is empty (R201). -/
def Mod.clearMetadata (m : Mod) : Mod :=
  { m with memStacks := { m.memStacks with
      dram := m.memStacks.dram.filter (fun e => !blockIsMeta (blockOf (e.1 / 36)))
      ctl := m.memStacks.ctl.map (fun c => { c with cache := [] }) } }

/-- TRAIN begins: the metadata is cleared, and a link that had failed trains again. -/
def Mod.trainBegin (m : Mod) : Mod :=
  let m1 := m.clearMetadata
  if m1.jnl.train.st = .failed then m1.jnlRetrainReq else m1

/-- START's own checks (R420): the status of the first that fails, 0 where none does. -/
def Mod.startStatus (m : Mod) : BitVec 8 :=
  if m.isReady = false ∨ m.running = true then 0xC8#8
  else match m.boot.image with
    | none => 0xCB#8
    | some im => if im.lea then 0xCC#8 else m.startChecks

/-- START: refused with the status of its first failing check, or the image starts. -/
def Mod.startBegin (m : Mod) (programs : List (Fin 512 × BitVec 64)) : Mod :=
  let st := m.startStatus
  if st ≠ 0#8 then m.failStep st else m.startImage programs m.allowance

/-- A GO to a step, with what the part and the firmware bring to it. -/
def Mod.go (m : Mod) (n : Nat) (variants : List PlantMap) (programs : List (Fin 512 × BitVec 64)) : Nat × Mod :=
  m.stepGo n variants (fun (m : Mod) =>
    if n = 1 then m.railsBegin else if n = 2 then m.trainBegin else if n = 7 then m.startBegin programs else m)

/-! ### The end of a step -/

/-- TRAIN ends (R415). -/
def Mod.trainEnd (m : Mod) (x : StepEnd) : Mod :=
  let m1 := m.calibrateAll x.windows
  let m2 := x.memStacks.foldl (fun (m : Mod) s => m.dataFault 4 s.val) m1
  if m2.jnl.train.st ≠ .up then
    (if m2.jnl.train.st = .failed then m2 else m2.jnlFailed).failStep 0xC4#8
  else if x.memStacks ≠ [] then m2.failStep 0xC4#8
  else m2.endStep 0#8

/-- A band that does not come up: its headers open, it stays OFF, its unit enters FAULT (R525). -/
def Mod.bandFailed (m : Mod) (b : Nat) : Mod :=
  let x := m.band b
  if x.held then m else (m.openHeaders b).mgmtFault 1 b

/-- The bands from `bs` come up in order until one fails; true if all are up (R525, R174). -/
def Mod.bringBands (m : Mod) (bs : List Nat) (fail : Option Nat) : Bool × Mod :=
  match bs with
  | [] => (true, m)
  | b :: t =>
    let x := m.band b
    if isDark m.plan b = true ∨ x.closed = true then m.bringBands t fail
    else if x.held = true ∨ fail = some b then (false, m.bandFailed b)
    else
      let m1 : Mod := { m with cells := m.cells.filter (fun e => bandOf e.1 != b) }
      (m1.setBand b { x with closed := true }).bringBands t fail

/-- HEADERS ends. -/
def Mod.headersEnd (m : Mod) (x : StepEnd) : Mod :=
  let r := m.bringBands (List.range 16) (x.band.map (fun b => b.val))
  if r.1 then r.2.endStep 0#8 else r.2.failStep 0xC5#8

/-- Control cores outside dark bands, by bit. -/
def Mod.liveCores (m : Mod) : BitVec 16 := ~~~m.plan.darkBands

/-- FIRMWARE ends: the package at the address is verified, locked, and its cores start (R414, R486). One that does not lie
in the stack region is not verified. -/
def Mod.firmwareEnd (m : Mod) (a : Nat) : Mod :=
  match m.readPackage a with
  | (none, m0) => m0.failStep 0xC6#8
  | (some p, m0) =>
    let st := packageStatus m0.fuses 2 p.1 p.2
    let m1 := m0.verified 2 st
    if st ≠ 0#8 then m1.failStep 0xC6#8
    else
      let fw : CoreFw := ⟨a, pkgLength p.1, BitVec.ofNat 6 (pkgSvn p.1), BitVec.ofNat 32 (pkgVersion p.1),
        BitVec.ofNat 2 (pkgKey p.1), pkgMeasure p.1 p.2⟩
      let m2 : Mod := { m1 with boot := { m1.boot with
        coreFw := some fw, coresHeld := m1.boot.coresHeld &&& ~~~m1.liveCores } }
      m2.setLocks.endStep 0#8

/-- Write back and empty every rick slice. -/
def Mod.emptyRicks (m : Mod) : Mod :=
  let m1 := m.onRick reqMgmt (fun x => (List.range 12).foldl cleanSlice x)
  { m1 with rick := { m1.rick with slices := m1.rick.slices.map emptySlice } }

/-- The two blocks of bank row 0 of every bank are unsown again (R416). -/
def Mod.unsowTested (m : Mod) : Mod :=
  m.onStacks reqMgmt (fun s => (List.range 12288).foldl (fun s b =>
    setSown (setSown s (65536 * b) false) (65536 * b + 1) false) s)

/-- SELF_TEST ends: what it tested is left zeroed, emptied or unsown, and each unit that failed enters FAULT (R416). -/
def Mod.selfTestEnd (m : Mod) (x : StepEnd) : Mod :=
  let m1 : Mod := { m.emptyRicks.unsowTested with cells := [] }
  let m2 := x.units.foldl (fun (m : Mod) u =>
    (m.dataFault (u.1.toNat / 65536) (u.1.toNat % 65536)).raise .selftestUnitFail u.1
      (payload [i4 u.1.toNat, i1 u.2.toNat])) m1
  let m3 : Mod := { m2 with boot := { m2.boot with selftestFails := satAdd 0#16 x.units.length } }
  if x.units = [] then m3.endStep 0#8 else m3.failStep 0xC7#8

/-- IMAGE_LOAD ends. -/
def Mod.imageEnd (m : Mod) (a : Nat) (variants : List PlantMap) : Mod :=
  let r := m.loadImage a variants
  if r.1 = 0#8 then r.2.endStep 0#8 else r.2.failStep r.1

/-- STEP_COMPLETION: the running step ends (R413 to R418). -/
def Mod.stepCompletion (m : Mod) (x : StepEnd) : Mod :=
  match m.boot.run with
  | none => m
  | some w =>
    if w.step = 1 then (if x.railBad then m.failStep 0xC2#8 else m.endStep 0#8)
    else if w.step = 2 then m.trainEnd x
    else if w.step = 3 then m.headersEnd x
    else if w.step = 4 then m.firmwareEnd w.addr
    else if w.step = 5 then m.selfTestEnd x
    else if w.step = 6 then m.imageEnd w.addr w.variants
    else m.endStep 0#8

/-- STEP_BOUND_EXPIRY (R413). -/
def Mod.stepTimeout (m : Mod) : Mod := m.failStep 0xC1#8

/-! ### Boot (R411, R485, R489) -/

/-- The firmware of a slot runs: its measurements, version and SVN are the running ones (R485). -/
def Mod.runSlot' (m : Mod) (slot : BitVec 8) : Mod :=
  let h := m.slotHeader slot
  { m with sec := { m.sec with
      mcSlot := slot, nextSlot := slot, mcVersion := BitVec.ofNat 32 (pkgVersion h)
      mcMeasure := pkgMeasure h (m.slotBody slot), fwSlot := 1#8 - slot, recovery := false } }

/-- The boot ROM verifies the slot selected last, and then the other one; if neither verifies the controller enters
recovery mode. -/
def Mod.bootFirmware (m : Mod) : Mod :=
  let a := m.sec.nextSlot
  let b := 1#8 - a
  let sa := m.slotStatus a
  let sb := m.slotStatus b
  if sa = 0#8 then (m.secResult 0#8).runSlot' a
  else if sb = 0#8 then ((m.secResult 0#8).runSlot' b).raise .secFwFallback noUnit []
  else
    let m1 := m.secResult sb
    (({ m1 with sec := { m1.sec with recovery := true } }).mgmtFault 0 0).raise .secRecovery (unitId 0 0) []

/-- The boot-up message (R392). -/
def Mod.bootMessage (m : Mod) : Mod := m.sendFrame 1 ⟨0x700 + m.can.activeNodeId.toNat, [0#8]⟩

/-- The boot-up message, and outside recovery mode BU_BOOT. -/
def Mod.announce (m : Mod) : Mod :=
  if m.sec.recovery then m.bootMessage
  else m.bootMessage.raise .buBoot noUnit (payload [i4 m.boot.bootMs.toNat])

/-- The floor plan record is checked (R47); one that breaks its rules puts the module in FAULT. -/
def Mod.checkPlan (m : Mod) : Mod :=
  if planOk m.plan then m else (m.mgmtFault 0 0).raise .fpRecordFault noUnit []

/-- Security after a full reset: keys, slots, the profile and a lockout stay; a session and what belongs to it end
(R422, R482, R498, R500). -/
def Sec.afterReset (s : Sec) : Sec :=
  { Sec.reset with
    profile := s.profile, mcSlot := s.mcSlot, nextSlot := s.nextSlot, slotA := s.slotA, slotB := s.slotB
    mcVersion := s.mcVersion, mcMeasure := s.mcMeasure, ownerKey := s.ownerKey, ownerOnce := s.ownerOnce
    imageKey := s.imageKey, failRun := s.failRun, lockout := s.lockout, fwSlot := 1#8 - s.mcSlot
    recovery := s.recovery }

/-- The cairn at a full reset: its contents and its queue stay (R422, R471). -/
def Cairn.afterReset (c : Cairn) : Cairn := { c with dropped := 0#32, select := 0#64, ffSelect := 0#8 }

/-- Temperatures after a full reset: a reading stays the value at the sensor's most recent sample (R445), and every mark,
run and limit takes its Reset value (R446, R451, R455). -/
def Thermal.afterReset (t : Thermal) : Thermal :=
  { Thermal.reset with
    spots := t.spots.map (fun x => ⟨x.diode, x.delay, false, 0, 0⟩)
    bands := t.bands.map (fun x => ⟨x.control, x.estimate, false, 0, 0, 0⟩)
    loam1 := t.loam1, loam2 := t.loam2, cap := t.cap
    memStacks := t.memStacks.map (fun x => ⟨x.diodes, false, 0, false, 0⟩)
    cells := t.cells, kCoef := t.kCoef
    flowA := t.flowA, flowB := t.flowB, pIn := t.pIn, pOut := t.pOut, tIn := t.tIn, tOut := t.tOut }

/-- Everything that a full reset sets to its Reset value; the pins, the model's outputs and what R422 keeps stay. -/
def Mod.freshAfter (m : Mod) : Mod :=
  let can : Can := { m.can with errorRegister := m.can.errorRegister &&& 0x80#8 }
  let n := Mod.afterReset m.fuses m.clock.timeUs can m.cairn.afterReset m.sec.afterReset m.power.trims m.boot.mismatches
    m.boot.bootMs m.clock
  { n with
    safe := { n.safe with active := m.safe.active, cause := m.safe.cause }
    thermal := m.thermal.afterReset
    boot := { n.boot with resetHeld := m.boot.resetHeld, refclk := m.boot.refclk }
    hdg := { n.hdg with out := m.hdg.out }
    jnl := { n.jnl with out := m.jnl.out, flits := m.jnl.flits } }

/-- A full reset of the module (R422): a slot that FW_COMMIT has selected is booted (R490). -/
def Mod.fullResetNow (m : Mod) : Mod :=
  let m1 := m.freshAfter
  let m2 := if m1.sec.nextSlot = m1.sec.mcSlot ∨ m1.sec.recovery = true then m1 else m1.bootFirmware
  m2.checkPlan

/-- BOOT: after input power has held 40 V for 1 ms, with the straps as the lands give them; or the end of a restart of the
management controller (R411, R460), after which the records of the restarted log have their EMCY frames sent. -/
def Mod.bootUp (m : Mod) (straps : BitVec 7) (resetLow : Bool) (bootMs : BitVec 32) : Mod :=
  if m.boot.powered then
    if m.boot.mcDown then
      let m1 := m.bootFirmware
      let m2 : Mod := { m1 with boot := { m1.boot with mcDown := false } }
      (m1.log.ring.foldl Mod.emcy m2.announce).mcSignal
    else m
  else
    let node := chooseNode straps 0#8
    let clock : Clock := { m.clock with timeUs := 0, resetUs := 0 }
    let n := Mod.afterReset m.fuses 0 (Can.reset straps 0#8 node) m.cairn m.sec.afterReset m.power.trims [] bootMs clock
    let m1 : Mod := { n with
      can := { n.can with out := m.can.out, answers := m.can.answers }
      boot := { n.boot with resetHeld := resetLow }
      hdg := { n.hdg with out := m.hdg.out }
      jnl := { n.jnl with out := m.jnl.out, flits := m.jnl.flits } }
    let m2 := m1.cairnPowerUp.bootFirmware.checkPlan
    let m3 := if straps = 0#7 then m2.raise .nodeIdDefault noUnit [] else m2
    m3.announce

/-- INPUT_POWER_LOST: the record being written is completed, and every volatile value is lost (R23). The cairn's ring,
fuses, field fuses, firmware slots, keys and profile stay. -/
def Mod.powerLost (m : Mod) : Mod :=
  let m1 := m.cairnWrite true
  let cairn : Cairn := { m1.cairn with queue := [], waiting := [] }
  let can : Can := { Can.reset m.can.strapNodeId 0#8 m.can.activeNodeId.toNat with
    out := m.can.out, answers := m.can.answers }
  let n := Mod.afterReset m1.fuses 0 can cairn m1.sec.afterReset m1.power.trims [] m1.boot.bootMs
    { m1.clock with timeUs := 0, resetUs := 0 }
  { n with
    boot := { n.boot with powered := false }
    hdg := { n.hdg with out := m.hdg.out }
    jnl := { n.jnl with out := m.jnl.out, flits := m.jnl.flits } }

/-! ### Resets (R421 to R423) -/

/-- The die of a control core: 0 L, 1 U. -/
def dieOfCore (n : Nat) : Nat := n / 8

/-- A cell after a compute reset: tile memory and Loam stay (R66, R174). -/
def CellState.computeReset (c : CellState) : CellState := { CellState.reset with tile := c.tile, loam := c.loam }

/-- Control cores of some dies, by bit. -/
def coresOf (dies : Nat → Bool) : BitVec 16 :=
  BitVec.ofNat 16 ((List.range 16).foldl (fun v n => if dies (dieOfCore n) then v + 2 ^ n else v) 0)

/-- A save of the accumulators of every enabled cell of some dies, after their swaps have ended; cells with an open K block
are counted (R423). A cell that holds nothing saves nothing but zeros. -/
def Mod.saveCells (m : Mod) (dies : Nat → Bool) : Mod :=
  let cs := (m.cells.filter (fun e => dies (dieOfRow (rowOf e.1)))).map (fun e => e.1)
  let m1 := cs.foldl (fun (m : Mod) c => (m.runDrain c).runCtx c true) m
  let bad := (cs.filter (fun c => Map.get 0#8 m1.chip.status c == 0x22#8)).length
  { m1 with boot := { m1.boot with saveFails := satAdd 0#16 bad } }

/-- The stream stops, its queues, loop counters and paths empty, tags are forgotten, walks end; a pending lea COMMIT is
cancelled (R104, R284, R400). -/
def Mod.clearStream (m : Mod) : Mod :=
  let m1 := m.haltStream
  let m2 := m1.mapCells (fun _ => true) (fun c => { c with queues := List.replicate 4 [], seq := List.replicate 4 0#16 })
  let s := m2.stream
  let stream : Stream := { s with
    pos := 0, rep := 0, phase := .run, next := none, loops := [], buffer := [], fetchBad := [], slips := 0
    slipRaised := false, sinceLea := 0 }
  let lea : Lea := if m2.lea.locked then { m2.lea with locked := false, result := 0x70#8 } else m2.lea
  let m3 : Mod := { m2 with
    stream := stream
    chip := { OnChip.reset with status := m2.chip.status }
    dma := { m2.dma with tags := [], waiting := [] }
    attn := { m2.attn with walks := [], prefill := [] }
    lea := lea }
  m3.settleFences

/-- Cells and control cores of some dies are reset; the cores stay held until the reset ends (R422). -/
def Mod.resetDies (m : Mod) (dies : Nat → Bool) : Mod :=
  let m1 := m.mapCells (fun i => dies (dieOfRow (rowOf i))) CellState.computeReset
  let held := coresOf dies
  let m2 : Mod := { m1 with
    boot := { m1.boot with coresHeld := m1.boot.coresHeld ||| held }
    rick := dropCoreL1s m1.rick (fun c => bitOf held.toNat c)
    gln := { m1.gln with queues := Map.keep m1.gln.queues (fun c => !bitOf held.toNat c) } }
  m2.glnLoseCompletions (fun c => bitOf held.toNat c)

/-- A compute reset of some dies (R422). -/
def Mod.computeReset (m : Mod) (dies : Nat → Bool) (save : Bool) : Mod :=
  let m0 : Mod := { m with lea := { m.lea with paused := true } }
  let m1 := if save then m0.haltStream.saveCells dies else m0
  let m2 := (m1.clearStream.resetDies dies).leaSignal
  if dies 0 then m2.emptyRicks else m2

/-- The control cores that a reset held restart: records taken and not completed end with ABORTED_BY_RESET (R384). -/
def Mod.restartCores (m : Mod) (dies : Nat → Bool) : Mod :=
  let held := coresOf dies
  let live := if m.boot.coreFw.isSome then m.liveCores &&& held else 0#16
  let cut (s : Submission) : Submission :=
    if bitOf held.toNat s.core then { s with applied := true, status := 0x70#8, fence := none, asked := s.total, got := s.total }
    else s
  let m1 : Mod := { m with
    boot := { m.boot with coresHeld := m.boot.coresHeld &&& ~~~live }
    attn := { m.attn with subs := m.attn.subs.map cut } }
  (List.range 16).foldl (fun (m : Mod) c => m.postSubs 256 c) m1

/-- The engines after a full reset of the Lower die: every queue DISABLED, its records given up (R284). -/
def Mod.disableQueues (m : Mod) : Mod :=
  let off (q : DmaQueue) : DmaQueue := { q with enable := false, state := 0#2, order := [] }
  let m1 := m.abortXfers
  { m1 with dma := { m1.dma with queues := m1.dma.queues.map off, waiting := [], tags := [], quiesce := false } }

/-- Outstanding best-effort messages complete with ABORTED_BY_RESET, and every queue is DISABLED (R358). -/
def Mod.disableBeqs (m : Mod) : Mod :=
  let off (q : BeQueue) : BeQueue := { q with enable := false, state := false }
  let m1 : Mod := { m with hdg := { m.hdg with queues := m.hdg.queues.map off } }
  let ids := (m1.hdg.msgs.filter (fun e => e.status.isNone)).map (fun e => e.msgId)
  ids.foldl (fun (m : Mod) i => m.beSettle i 0x70#8) m1

/-- A full reset of the Lower die begins: the stream halts, READY falls, the engines start no transfer (R423). -/
def Mod.lowerReset (m : Mod) : Mod :=
  let m1 : Mod := { m with
    lea := { m.lea with paused := true }
    jnl := { m.jnl with ready := false }
    dma := { m.dma with quiesce := true } }
  m1.clearStream.dropTransfers.leaSignal

/-- RESET_QUIESCE_TIMEOUT: the transfers that still run 100 µs later are aborted (R284). -/
def Mod.quiesceTimeout (m : Mod) : Mod := if m.dma.quiesce then m.abortXfers else m

/-- The rest of a full reset of the Lower die: steps 3 to 6 of R423. -/
def Mod.lowerResetEnd (m : Mod) (ws : List CrossWindow) : Mod :=
  let m1 := (m.disableQueues.disableBeqs.emptyRicks).calibrateAll ws
  let m2 := (m1.resetDies (fun d => d == 0)).restartCores (fun d => d == 0)
  { m2 with jnl := { m2.jnl with
      ready := true
      mailboxes := m2.jnl.mailboxes.map (fun b => { Mailbox.reset with waiting := b.waiting }) } }

/-- A partial reset of RESET_UNIT (R423): the status it meets. -/
def Mod.partialReset (m : Mod) : BitVec 8 × Mod :=
  let u := m.boot.resetUnit.toNat
  let cls := u / 65536
  let n := u % 65536
  if cls = 3 ∧ m.effective 0 0 ≠ .run then
    let one (s : Submission) : Submission :=
      if s.core = n then { s with applied := true, status := 0x70#8, fence := none, asked := s.total, got := s.total } else s
    let m1 : Mod := { m with
      rick := dropCoreL1s m.rick (fun c => c == n)
      attn := { m.attn with subs := m.attn.subs.map one }
      chip := { m.chip with
        completions := Map.keep m.chip.completions (fun k => k != n)
        outbox := Map.keep m.chip.outbox (fun k => bandOf (k / 4) != n) }
      gln := { m.gln with queues := Map.keep m.gln.queues (fun k => k != n) } }
    (0#8, (m1.clearFault 3 n).postSubs 256 n)
  else if cls = 7 then (0#8, m.portRetrainReq n)
  else if cls = 8 then (0#8, m.jnlRetrainReq)
  else (0xCF#8, m)

/-- A reset ends with a result (R421). -/
def Mod.resetEnds (m : Mod) (st : BitVec 8) : Mod :=
  match m.boot.rst with
  | none => m
  | some r =>
    let m1 : Mod := { m with boot := { m.boot with rst := none, resetResult := st } }
    ({ m1 with lea := { m1.lea with paused := false } }).raise .resetDone noUnit (payload [i1 r.kind, i1 st.toNat])

/-- A reset of a kind begins; a running step ends with ABORTED_BY_RESET (R413). -/
def Mod.resetBegin (m : Mod) (kind : Nat) (save : Bool) : Mod :=
  let m1 := m.failStep 0x70#8
  let mark (m : Mod) (st : BitVec 8) : Mod := { m with boot := { m.boot with rst := some ⟨kind, st⟩ } }
  if kind = 1 then mark (m1.computeReset (fun d => d == 0) save) 0#8
  else if kind = 2 then mark (m1.computeReset (fun d => d == 1) save) 0#8
  else if kind = 3 then mark (m1.computeReset (fun _ => true) save) 0#8
  else if kind = 4 then mark m1.lowerReset 0#8
  else if kind = 5 then mark m1.fullResetNow 0#8
  else
    let r := m1.partialReset
    mark r.2 r.1

/-- RESET_CMD (R421): [3:0] the kind, [8] SAVE. A full reset ends a running reset; any other is refused. -/
def Mod.resetCmd (m : Mod) (v : BitVec 16) : Nat × Mod :=
  let n := v.toNat
  let kind := field n 0 4
  let save := bitOf n 8
  if field n 4 4 ≠ 0 ∨ field n 9 7 ≠ 0 ∨ kind = 0 ∨ 6 < kind ∨ (save = true ∧ 3 < kind) then (abValue, m)
  else if m.boot.rst.isSome = true ∧ kind ≠ 5 then (abState, m)
  else (0, (m.resetEnds 0x70#8).resetBegin kind save)

/-- RESET_COMPLETION: the running reset ends; while the safe state holds, with SAFE_STATE (R463, R464). -/
def Mod.resetCompletion (m : Mod) (ws : List CrossWindow) : Mod :=
  match m.boot.rst with
  | none => m
  | some r =>
    let m1 :=
      if r.kind = 1 then m.restartCores (fun d => d == 0)
      else if r.kind = 2 then m.restartCores (fun d => d == 1)
      else if r.kind = 3 then (m.restartCores (fun _ => true)).tryRelease
      else if r.kind = 4 then m.lowerResetEnd ws
      else if r.kind = 5 ∧ m.safe.active = true then m.leaveSafe 5
      else m
    m1.resetEnds (if r.status ≠ 0#8 then r.status else if m1.safe.active then stSafeState else 0#8)

/-- RESET_N: low for 10 µs or more starts a full reset (R513). -/
def Mod.resetPin (m : Mod) : Mod :=
  let m1 := (m.resetEnds 0x70#8).resetBegin 5 false
  { m1 with boot := { m1.boot with resetHeld := true } }

/-- RESET_N_RELEASED: RESET_N has been high for 1 ms. -/
def Mod.resetPinHigh (m : Mod) : Mod := { m with boot := { m.boot with resetHeld := false } }

/-! ### The watchdog of the management controller (R459, R460) -/

/-- The objects 0x1000 to 0x1FFF at their defaults, but 0x1016:01 where `keepHb`. -/
def Can.defaults (c : Can) (keepHb : Bool) (node : Nat) : Can :=
  { Can.reset c.strapNodeId c.nodeIdOverride node with
    consumerHb := if keepHb then c.consumerHb else 0#32
    hbLost := c.hbLost, hbBack := c.hbBack, busOff := c.busOff, out := c.out, answers := c.answers
    errorRegister := c.errorRegister }

/-- MC_WATCHDOG: 5 ms have passed without a signal. The log restarts with MC_WATCHDOG; the session, a running step or
reset, transfers and staged copies are lost; the safe state is entered. -/
def Mod.mcWatchdog (m : Mod) : Mod :=
  if m.boot.mcDown then m
  else
    let lea : Lea := { m.lea with
      staged := m.lea.active, locked := false, result := if m.lea.locked then 0x70#8 else m.lea.result }
    let m0 : Mod := { m with
      log := Log.reset
      can := m.can.defaults true m.can.activeNodeId.toNat
      lea := lea
      memStacks := { m.memStacks with placeMode := m.memStacks.placeActive }
      boot := { m.boot with mcDown := true }
      sec := { m.sec with challenge := none, verifying := none, committing := none } }
    let m1 := m0.raise .mcWatchdog noUnit []
    let m2 := (m1.failStep 0x70#8).resetEnds 0x70#8
    (m2.endSession (some 4)).enterSafe 6

/-- FW_COMMIT_VERIFIED: in recovery mode a slot that verifies is booted, and the module goes through a full reset (R489,
R490). -/
def Mod.fwVerified (m : Mod) : Mod :=
  let r := m.commitVerified
  if r.1 = true ∧ m.sec.recovery = true then
    let m1 := (r.2.secResult 0#8).runSlot' r.2.sec.nextSlot
    let m2 := m1.freshAfter.checkPlan
    (if m2.safe.active then m2.leaveSafe 5 else m2).announce
  else r.2

/-- ALERT_N is driven low (R514): during a restart's boot it is not, after power-up the boot-up message has been sent. -/
def Mod.alertLow (m : Mod) : Bool :=
  m.boot.powered && (m.sec.recovery || m.boot.resetHeld || bitOf m.can.errorRegister.toNat 0
    || bitOf m.can.errorRegister.toNat 7)

end Sys2Proof.Machine
end

