-- ==== Sys2Proof/Machine/Regs.lean ====
section
/-!
DEFINITION. The register apertures (R187): the blocks' registers by their offset from 0x8_0003_0000_0000, as control
cores, the host and the management controller reach them (R11, R13, R188, R214, R253, R267, R290, R295, R361).
A write answers none where its offset is unassigned or reserved, or where it is no aligned access of 4 B or 8 B.
-/
namespace Sys2Proof.Machine

/-! ### DMA queues (R267) -/

/-- The value of a queue register. -/
def Mod.readDmaReg (m : Mod) (q off : Nat) : Option Nat :=
  let x := m.dmaq q
  match off / 8 * 8 with
  | 0x00 => some (b2n x.enable + b2n x.mode * 2 + b2n x.ringHost * 4 + b2n x.cqHost * 8)
  | 0x08 => some x.ringBase.toNat
  | 0x10 => some x.ringSize.toNat
  | 0x18 => some x.head.toNat
  | 0x20 => some x.tail.toNat
  | 0x28 => some x.cqBase.toNat
  | 0x30 => some x.cqSize.toNat
  | 0x38 => some x.cqHead.toNat
  | 0x40 => some (x.state.toNat + x.last.toNat * 2 ^ 8 + x.errIndex.toNat * 2 ^ 16)
  | 0x48 => some x.done.toNat
  | 0x50 => some x.cqRead.toNat
  | _ => none

/-- A ring size of 4 to 16; other values are discarded. -/
def ringSizeOk (v : Nat) : Bool := decide (4 ≤ field v 0 5 ∧ field v 0 5 ≤ 16)

/-- A write of a queue register; a half of a register that holds no field takes nothing. -/
def Mod.writeDmaReg (m : Mod) (q off : Nat) (bs : Bytes) (comps : Nat) : Option Mod :=
  let x := m.dmaq q
  let low := decide (off % 8 = 0)
  match m.readDmaReg q off with
  | none => none
  | some old =>
    let v := regMerge old off bs
    some (match off / 8 * 8 with
      | 0x00 => if low then m.dmaqCtrl q v else m
      | 0x08 => m.setDmaq q { x with ringBase := BitVec.ofNat 64 (v - v % 64) }
      | 0x10 => if ringSizeOk v then m.setDmaq q { x with ringSize := BitVec.ofNat 5 v } else m
      | 0x18 => if low then m.dmaqHead q (field v 0 16) comps else m
      | 0x28 => m.setDmaq q { x with cqBase := BitVec.ofNat 64 (v - v % 16) }
      | 0x30 => if ringSizeOk v then m.setDmaq q { x with cqSize := BitVec.ofNat 5 v } else m
      | 0x50 => m.setDmaq q { x with cqRead := BitVec.ofNat 16 v }
      | _ => m)

/-! ### Best-effort queues (R361) -/

/-- HDG_BEQ_HEAD: a doorbell; one that would hold more records than the ring has is discarded and counted. -/
def Mod.beqHead (m : Mod) (q : Nat) (v : BitVec 16) : Mod :=
  let x := m.beq q
  if 2 ^ x.ringSize.toNat < (v - x.tail).toNat then
    { m with dma := { m.dma with headOverruns := satAdd m.dma.headOverruns 1 } }
  else (m.setBeq q { x with head := v }).beqPump 65536 q

/-- HDG_BEQ_CTRL: the queue sends, or stops sending. -/
def Mod.beqCtrl (m : Mod) (q : Nat) (on : Bool) : Mod :=
  (m.setBeq q { m.beq q with enable := on, state := on }).beqPump 65536 q

/-- The value of a best-effort register. -/
def Mod.readBeReg (m : Mod) (q off : Nat) : Option Nat :=
  let x := m.beq q
  match off / 8 * 8 with
  | 0x00 => some (b2n x.enable)
  | 0x08 => some x.ringBase.toNat
  | 0x10 => some x.ringSize.toNat
  | 0x18 => some x.head.toNat
  | 0x20 => some x.tail.toNat
  | 0x28 => some x.cqBase.toNat
  | 0x30 => some x.cqHead.toNat
  | 0x38 => some (b2n x.state + x.last.toNat * 2 ^ 8)
  | _ => none

/-- A write of a best-effort register. -/
def Mod.writeBeReg (m : Mod) (q off : Nat) (bs : Bytes) : Option Mod :=
  let x := m.beq q
  let low := decide (off % 8 = 0)
  match m.readBeReg q off with
  | none => none
  | some old =>
    let v := regMerge old off bs
    some (match off / 8 * 8 with
      | 0x00 => if low then m.beqCtrl q (bitOf v 0) else m
      | 0x08 => m.setBeq q { x with ringBase := BitVec.ofNat 64 (field v 6 46 * 64) }
      | 0x10 =>
        if 4 ≤ field v 0 4 ∧ field v 0 4 ≤ 12 then m.setBeq q { x with ringSize := BitVec.ofNat 4 v } else m
      | 0x18 => if low then m.beqHead q (BitVec.ofNat 16 v) else m
      | 0x28 => m.setBeq q { x with cqBase := BitVec.ofNat 64 (field v 4 48 * 16) }
      | _ => m)

/-! ### Rick slices (R253) -/

/-- Which slices a command reaches: one, or all twelve. -/
def sliceList : Option (Fin 12) → List Nat
  | some n => [n.val]
  | none => List.range 12

/-- A write of RICK_CMD at some slices (R254). -/
def Mod.rickCmd (m : Mod) (t : Option (Fin 12)) (op : BitVec 3) (tag : BitVec 8) (req : BitVec 32) : Mod :=
  (sliceList t).foldl (fun (m : Mod) n => m.onRick req (fun x => rickCommand x n op tag req m.safe.fallowStrict)) m

/-- Change a slice's registers. -/
def Mod.onSlice (m : Mod) (n : Nat) (f : Slice → Slice) : Mod :=
  { m with rick := { m.rick with slices := listSet m.rick.slices n (f (listGet Slice.reset m.rick.slices n)) } }

/-- The value of a slice's register. -/
def Mod.readRickReg (m : Mod) (n off : Nat) : Option Nat :=
  let s := listGet Slice.reset m.rick.slices n
  match off / 8 * 8 with
  | 0x00 => some 0
  | 0x08 => some s.base.toNat
  | 0x10 => some s.len.toNat
  | 0x18 => some (b2n s.busy.isSome + s.status.toNat * 2 ^ 8 + s.tag.toNat * 2 ^ 16 + s.lines.toNat * 2 ^ 32)
  | 0x20 => let p := pinFigures s; some (field p.1 0 12 + p.2 * 2 ^ 16)
  | _ => none

/-- A write of a register of some slices; none at an offset that has no register. -/
def Mod.writeRickReg (m : Mod) (t : Option (Fin 12)) (off : Nat) (bs : Bytes) (req : BitVec 32) : Option Mod :=
  let merged (n : Nat) (m : Mod) : Nat := regMerge ((m.readRickReg n off).getD 0) off bs
  match off / 8 * 8 with
  | 0x00 =>
    let v := regMerge 0 off bs
    some (if off % 8 = 0 then m.rickCmd t (BitVec.ofNat 3 v) (BitVec.ofNat 8 (field v 8 8)) req else m)
  | 0x08 => some ((sliceList t).foldl (fun (m : Mod) n =>
      m.onSlice n (fun s => { s with base := BitVec.ofNat 52 (merged n m) })) m)
  | 0x10 => some ((sliceList t).foldl (fun (m : Mod) n =>
      m.onSlice n (fun s => { s with len := BitVec.ofNat 25 (merged n m) })) m)
  | 0x18 => some m
  | 0x20 => some m
  | _ => none

/-! ### Gleaners (R214 to R217) -/

/-- Fields of GLN_CTRL written without GO: they are discarded while the gleaner prepares or runs. -/
def Mod.glnCtrlFields (m : Mod) (v : BitVec 64) (g : Nat) : Mod :=
  let x := m.glnOf g
  if x.active then m.rejectGln
  else m.setGln g { x with
    entry := BitVec.ofNat 9 (field v.toNat 8 9), tag := BitVec.ofNat 8 (field v.toNat 24 8)
    cc := BitVec.ofNat 5 (field v.toNat 32 5) }

/-- A write of GLN_CTRL with ABORT and without GO: of one that prepares or runs, only ABORT is taken (R215, R230). -/
def Mod.glnCtrlAbort (m : Mod) (t : GlnTarget) (v : BitVec 64) : Mod :=
  t.list.foldl (fun (m : Mod) g => if (m.glnOf g).active then m.glnAbort g else m.glnCtrlFields v g) m

/-- A write of GLN_CTRL; GO is judged before anything else of the write (R217). -/
def Mod.glnCtrl (m : Mod) (t : GlnTarget) (v : BitVec 64) : Mod :=
  if bitOf v.toNat 0 then m.glnGo t v
  else if bitOf v.toNat 1 then m.glnCtrlAbort t v
  else t.list.foldl (fun (m : Mod) g => m.glnCtrlFields v g) m

/-- An offset of a command area that holds a register: the others are reserved. -/
def glnRegAt (off : Nat) : Bool := decide (off < 0x30 ∨ (0x40 ≤ off ∧ off < 0xC0))

/-- A write of a register of the command areas of some gleaners. -/
def Mod.writeGlnArea (m : Mod) (t : GlnTarget) (off : Nat) (bs : Bytes) : Option Mod :=
  if glnRegAt off = false then none
  else
    let r := off / 8 * 8
    let merged (m : Mod) (g : Nat) : BitVec 64 := BitVec.ofNat 64 (regMerge (m.readGlnReg g r).toNat off bs)
    if r ≠ 0 then some (t.list.foldl (fun (m : Mod) g => m.writeGlnReg g r (merged m g)) m)
    else if off % 8 = 0 ∧ bs.length = 8 then some (m.glnCtrl t (BitVec.ofNat 64 (leNat bs)))
    else if off % 8 = 0 ∧ (bitOf (leNat bs) 0 = true ∨ bitOf (leNat bs) 1 = true) then
      some (m.glnCtrl t (merged m (t.list.headD 0)))
    else some (t.list.foldl (fun (m : Mod) g => m.glnCtrlFields (merged m g) g) m)

/-- A write of a program store of some gleaners: only an aligned 8 B one is taken (R215). -/
def Mod.writeStores (m : Mod) (t : GlnTarget) (off : Nat) (bs : Bytes) : Mod :=
  t.list.foldl (fun (m : Mod) g =>
    if off % 8 = 0 ∧ bs.length = 8 then m.writeStore g (off / 8) (BitVec.ofNat 64 (leNat bs)) else m.rejectGln) m

/-- A gleaner by number. -/
def glnFin (g : Nat) : Fin 12288 := Fin.ofNat 12288 g

/-- The gleaners that an offset of the broadcast window reaches; none where it is unassigned (R214). -/
def broadcastTarget (off : Nat) : Option GlnTarget :=
  let stack := field off 18 4
  match field off 22 2 with
  | 0 => if stack < 12 then some (.channel (Fin.ofNat 12 stack) (Fin.ofNat 32 (field off 13 5))) else none
  | 1 => if stack < 12 then some (.stack (Fin.ofNat 12 stack)) else none
  | 2 => some .all
  | _ => none

/-- A write at an offset of the broadcast window. -/
def Mod.writeBroadcast (m : Mod) (off : Nat) (bs : Bytes) : Option Mod :=
  match broadcastTarget off with
  | none => none
  | some t =>
    if bitOf off 12 = false then some (m.writeStores t (field off 0 12) bs)
    else if field off 8 4 ≠ 0 then none
    else m.writeGlnArea t (field off 0 8) bs

/-! ### The sequence table and its fence (R290 to R295) -/

/-- A write of the table, entry by entry. -/
def Mod.seqWriteAll (fuel : Nat) (m : Mod) (off : Nat) (bs : Bytes) (writer : BitVec 32) : Mod :=
  match fuel with
  | 0 => m
  | fuel + 1 =>
    if bs = [] then m
    else
      let n := 256 - off % 256
      seqWriteAll fuel (m.seqWriteIn off (bs.take n) writer) (off + n) (bs.drop n) writer

/-- The value of a fence register. -/
def Mod.readFence (m : Mod) (off : Nat) : Option Nat :=
  match off / 8 * 8 with
  | 0x00 => some 0
  | 0x08 => some (b2n m.attn.fencePending + m.attn.fenceStatus.toNat * 2 ^ 8)
  | _ => none

/-- A write of a fence register; SEQT_FENCE is taken as a whole, from its lower half. -/
def Mod.writeFence (m : Mod) (off : Nat) (bs : Bytes) : Option Mod :=
  match off / 8 * 8 with
  | 0x00 => some (if off % 8 = 0 then (m.fenceWrite (leNat bs)).settleFences else m)
  | 0x08 => some m
  | _ => none

/-! ### By device address -/

/-- Where the register apertures begin (R187). -/
def regBase : Nat := 0x8000300000000

/-- A block of the register apertures. -/
inductive RegBlock where
  /-- a slice, or all of them -/
  | rick (n : Option (Fin 12)) (off : Nat)
  | dma (q off : Nat)
  | seqt (off : Nat)
  | fence (off : Nat)
  | gln (g : Fin 12288) (off : Nat)
  | beq (q off : Nat)
  | store (g : Fin 12288) (off : Nat)
  | broadcast (off : Nat)
  | none
deriving DecidableEq, Repr

/-- The block at an offset. -/
def regBlock (o : Nat) : RegBlock :=
  if 0x1000000 ≤ o ∧ o < 0x100C000 then .rick (some (Fin.ofNat 12 ((o - 0x1000000) / 0x1000))) (o % 0x1000)
  else if 0x100C000 ≤ o ∧ o < 0x100C018 then .rick .none (o % 0x1000)
  else if 0x2000000 ≤ o ∧ o < 0x2040000 then .dma ((o - 0x2000000) / 0x1000) (o % 0x1000)
  else if 0x3000000 ≤ o ∧ o < 0x3100000 then .seqt (o - 0x3000000)
  else if 0x3100000 ≤ o ∧ o < 0x3100010 then .fence (o - 0x3100000)
  else if 0x4000000 ≤ o ∧ o < 0x4300000 then .gln (glnFin ((o - 0x4000000) / 0x100)) (o % 0x100)
  else if 0x5000000 ≤ o ∧ o < 0x5008000 then .beq ((o - 0x5000000) / 0x1000) (o % 0x1000)
  else if 0x8000000 ≤ o ∧ o < 0xB000000 then .store (glnFin ((o - 0x8000000) / 0x1000)) (o % 0x1000)
  else if 0xC000000 ≤ o ∧ o < 0xD000000 then .broadcast (o - 0xC000000)
  else .none

/-- What a read of `n` bytes at an offset answers; none for an access that no register takes. -/
def Mod.regRead (m : Mod) (o n : Nat) : Option Bytes :=
  let word (v : Option Nat) : Option Bytes := if regAligned o n then v.map (fun x => regSlice x o n) else none
  match regBlock o with
  | .rick (some k) off => word (m.readRickReg k.val off)
  | .rick .none _ => word (some 0)
  | .dma q off => word (m.readDmaReg q off)
  | .seqt off => if off + n ≤ 0x100000 then some (m.seqRead off n) else none
  | .fence off => word (m.readFence off)
  | .gln g off => word (if glnRegAt off then some (m.readGlnReg g.val (off / 8 * 8)).toNat else none)
  | .beq q off => word (m.readBeReg q off)
  | .store g off => word (some (leNat (memRead (m.glnOf g.val).store (9 * (off / 8)) 8)))
  | .broadcast off => word ((broadcastTarget off).map (fun _ => 0))
  | .none => none

/-- A write at an offset. -/
def Mod.regWrite (m : Mod) (o : Nat) (bs : Bytes) (writer : BitVec 32) (comps : Nat) : Option Mod :=
  match regBlock o with
  | .seqt off => if off + bs.length ≤ 0x100000 then some (m.seqWriteAll 4098 off bs writer) else none
  | .store g off => some (m.writeStores (.one g) off bs)
  | b =>
    if regAligned o bs.length = false then none
    else match b with
      | .rick t off => m.writeRickReg t off bs writer
      | .dma q off => m.writeDmaReg q off bs comps
      | .fence off => m.writeFence off bs
      | .gln g off => m.writeGlnArea (.one g) off bs
      | .beq q off => m.writeBeReg q off bs
      | .broadcast off => m.writeBroadcast off bs
      | _ => none

/-- A write in the register apertures; one that nothing takes is discarded and counted (R188). -/
def Mod.regStore (m : Mod) (o : Nat) (bs : Bytes) (writer : BitVec 32) (comps : Nat) : Mod :=
  (m.regWrite o bs writer comps).getD (m.countDiscard 2 (regBase + o))

end Sys2Proof.Machine
end

