-- ==== Sys2Proof/Machine/StackRows.lean ====
section
/-!
DEFINITION. The commands of the stacks, the checker, placement and the caches, at the level of the module (R182 to R211,
R236 to R263).
-/
namespace Sys2Proof.Machine

/-! ### Controller reads and writes -/

/-- Some word of a range lies in a bank that a program has: the access joins the hold list (R225), else it is made. -/
def Mod.orHold (m : Mod) (h : HeldAccess) (go : Mod → Mod) : Mod :=
  match (if m.rangeHeld h.addr h.len h.write then m.heldWord h.addr h.len h.write else none) with
  | some w => m.hold w h
  | none => go m

/-- STACK_READ: the controller reads the 32 B word at an address; `err` is what the hardware adds on the bridge. -/
def Mod.stackRead (m : Mod) (a : Nat) (req : BitVec 32) (err : Bytes) : Mod :=
  let b := a / 32 * 32
  if inStacks b = false then m
  else if inMeta b then { m with rick := { m.rick with answer := [(List.replicate 32 0#8, false)] } }
  else m.orHold ⟨b, false, [], false, 32, req, 7, false, .direct, m.clock.timeUs⟩ (fun (m : Mod) =>
    let r := m.withStacks req (fun s => readWord s (decodeAddr s.s.placeActive b).1 b req 0 err)
    { r.2 with rick := { r.2.rick with answer := [r.1] } })

/-- STACK_WRITE: bytes at an address, with their mark. -/
def Mod.stackWrite (m : Mod) (a : Nat) (bs : Bytes) (poison : Bool) (req : BitVec 32) : Mod :=
  if inStacks a = false then m
  else m.orHold ⟨a, true, bs, poison, bs.length, req, 7, false, .direct, m.clock.timeUs⟩ (fun (m : Mod) =>
    m.onStacks req (fun s => writeMem s a bs poison req))

/-- MERGE_TIMER_EXPIRY: the oldest entry of a stack's merge buffer has stood for 256 ns (R197). -/
def Mod.mergeExpired (m : Mod) (stack : Nat) : Mod :=
  match (ctlOf m.memStacks stack).merge with
  | [] => m
  | e :: _ => m.onStacks e.writer (fun s => flushWord s e.word)

/-- UNSOW_REQUEST: the rick hands over a fallow line under the policy in force. -/
def Mod.unsowRequest (m : Mod) (a : Nat) (whole : Bool) : Mod :=
  let n := if whole then 2048 else 1024
  m.orHold ⟨a, true, [], false, n, noUnit, 7, false, .unsow whole m.safe.fallowStrict, m.clock.timeUs⟩
    (fun (m : Mod) => m.unsowAt a whole m.safe.fallowStrict)

/-! ### The scrubber (R205, R206) -/

/-- Change a stack's scrubber. -/
def Mod.onScrub (m : Mod) (stack : Nat) (f : Scrub → Scrub) : Mod :=
  let c := ctlOf m.memStacks stack
  { m with memStacks := setCtl m.memStacks stack { c with scrub := f c.scrub } }

/-- The scrubber moves on to a word of the stack; past the last one its pass is complete and the next one begins. -/
def Mod.scrubTo (m : Mod) (stack pos : Nat) : Mod :=
  m.onScrub stack (fun s =>
    if pos < 2 ^ 32 then { s with pos := pos }
    else ⟨0, m.clock.timeUs, s.passes + 1, (m.clock.timeUs - s.began) / 1000000, false⟩)

/-- SCRUB_READ: the scrubber of a stack reads its next word, or passes over an unsown block; in self-refresh it pauses, and
a word that a program writes, or that would have to be rewritten in a read window, is left until the program ends (R225). -/
def Mod.scrubRead (m : Mod) (stack : Nat) (err : Bytes) : Mod :=
  let c := ctlOf m.memStacks stack
  if c.selfRefresh || c.fault then m
  else
    let w := stack * 2 ^ 32 + c.scrub.pos
    let v := m.withStacks reqMgmt (fun s => isSown s (blockOf w))
    let m1 := v.2
    if v.1 = false then m1.scrubTo stack ((c.scrub.pos / 64 + 1) * 64)
    else
      let read := rsDecode (busRead ⟨m1.memStacks, []⟩ w err).1
      let rewrite := decide (read.1 = .single ∨ read.1 = .uncorrectable)
      if m1.wordHeld w false || (rewrite && m1.wordHeld w true) then m1
      else
        (m1.onStacks reqMgmt (fun s => scrubWord s w (encodeAddr s.s.placeActive w) err)).scrubTo stack (c.scrub.pos + 1)

/-- SCRUB_OVERDUE: a pass has not completed 24 h after it began. -/
def Mod.scrubOverdue (m : Mod) (stack : Nat) : Mod :=
  if (ctlOf m.memStacks stack).scrub.overdue then m
  else (m.onScrub stack (fun s => { s with overdue := true })).raise .scrubOverdue (unitId 4 stack) (payload [i1 stack])

/-! ### Refresh (R192) -/

/-- REFRESH: a bank's refresh falls due, and is made or, at most four times in a row, postponed. -/
def Mod.refresh (m : Mod) (bank : Nat) (postpone : Bool) : Mod :=
  let n := Map.get 0 m.memStacks.postponed bank
  { m with memStacks := { m.memStacks with
      postponed := Map.set 0 m.memStacks.postponed bank (if postpone ∧ n < 4 then n + 1 else 0) } }

/-! ### Placement (R185) -/

/-- The module is READY or FENCED. -/
def Mod.readyOrFenced (m : Mod) : Bool := decide (m.effective 0 0 = .ready ∨ m.effective 0 0 = .fenced)

/-- The number of the metadata line that a word of a metadata chunk belongs to: chunk, then 64 B within it (R200). -/
def metaLineOf (w : Nat) : Nat :=
  let a := encodeAddr place127 w - metaBase
  (a / 0x3000000 * 0x400000 + a % 0x3000000) / 64

/-- Every block of some fields becomes unsown: line l of the valid bits serves field l mod 128 of one bank. What the
fields held is discarded. -/
def unsowFields (s : Stacks) (changed : Nat → Bool) : Stacks :=
  { s with
    dram := s.dram.filter (fun e =>
      !(blockIsMeta (blockOf (e.1 / 36)) && changed (metaLineOf (e.1 / 36) % 128)))
    ctl := s.ctl.map (fun c => { c with
      cache := (c.cache.map (fun e => (e.1, e.2.filter (fun l => !changed (l.line % 128))))).filter (fun e => e.2 != [])
      merge := c.merge.filter (fun e => !changed (bankRowOf e.word / 256)) }) }

/-- PLACE_COMMIT, of value 1: the abort code, 0 where it is accepted. -/
def Mod.placeCommit (m : Mod) : Nat × Mod :=
  let refuse (st : BitVec 8) : Nat × Mod := (0x08000022, { m with memStacks := { m.memStacks with placeResult := st } })
  let s := m.memStacks
  if bitOf s.placeMode.toNat 127 = false then refuse 0x42#8
  else if m.readyOrFenced = false ∨ m.dma.xfers ≠ [] ∨ m.dma.waiting ≠ [] then refuse 0x43#8
  else
    let changed (f : Nat) : Bool := bitOf (s.placeMode ^^^ s.placeActive).toNat f
    let m1 := m.onRick reqMgmt (fun x => dropFields x changed)
    let s1 := unsowFields m1.memStacks changed
    (0, { m1 with memStacks := { s1 with placeActive := s.placeMode, placeResult := 0#8 } })

/-! ### Checker test mode (R207) -/

/-- A write of TEST_ENABLE, 0 or 1. -/
def Mod.setTest (m : Mod) (on : Bool) : Nat × Mod :=
  if on = true ∧ m.readyOrFenced = false then (0x08000022, m)
  else if m.memStacks.testEnable = BitVec.ofNat 8 (b2n on) then (0, m)
  else
    let m1 : Mod := { m with memStacks := { m.memStacks with testEnable := BitVec.ofNat 8 (b2n on) } }
    (0, m1.raise .checkerTest noUnit [])

/-- A write of TEST_CMD, 1 to 3; while the word's bank has a program the command is held (R225). -/
def Mod.testCmd (m : Mod) (op : Nat) : Nat × Mod :=
  let s := m.memStacks
  let a := s.testAddr.toNat
  if s.testEnable = 0#8 then (0x08000022, { m with memStacks := { s with testResult := 0x45#8 } })
  else if a % 32 ≠ 0 ∨ stackRangeOk a 32 = false then (0, { m with memStacks := { s with testResult := 0x46#8 } })
  else
    let w := (decodeAddr s.placeActive a).1
    let bs := s.testData ++ s.testCheck
    if (m.glnOf (bankOf w)).active then
      (0, m.hold w ⟨a, true, bs, false, 32, reqMgmt, 7, false, .test op, m.clock.timeUs⟩)
    else (0, m.testRun op a bs)

/-! ### The caches -/

/-- The requester is a control core. -/
def coreReq (req : BitVec 32) : Option Nat :=
  if req.toNat / 65536 = 2 ∧ req.toNat % 65536 < 16 then some (req.toNat % 65536) else none

/-- RICK_READ: a read of at most one 1 KiB line arrives at its slice; longer ones are taken line by line. -/
def Mod.rickReadRow (m : Mod) (a len cls : Nat) (sheaf : Bool) (req : BitVec 32) (err : Bytes) : Mod :=
  m.orHold ⟨a, false, [], false, len, req, cls, sheaf, .access, m.clock.timeUs⟩ (fun (m : Mod) =>
    if a % 1024 + len ≤ 1024 ∧ stackRangeOk a len then
      m.onRick req (fun x => readAccess x (sliceAt x a) a len cls sheaf req err)
    else
      let r := m.readStack a len cls sheaf req
      { r.2 with rick := { r.2.rick with answer := r.1 } })

/-- RICK_WRITE: a write arrives at its slice; a control core's goes through its L1 (R245, R380). -/
def Mod.rickWriteRow (m : Mod) (a : Nat) (bs : Bytes) (poison : Bool) (cls : Nat) (sheaf : Bool) (req : BitVec 32) : Mod :=
  m.orHold ⟨a, true, bs, poison, bs.length, req, cls, sheaf, .access, m.clock.timeUs⟩ (fun (m : Mod) =>
    let m1 :=
      if a % 1024 + bs.length ≤ 1024 ∧ stackRangeOk a bs.length then
        m.onRick req (fun x => writeAccess x (sliceAt x a) a [(bs, poison)] cls sheaf req)
      else (m.writeStack a [(bs, poison)] cls sheaf req).2
    match coreReq req with
    | some core => if sheaf then m1.hrmCopy core a bs.length else m1
    | none => m1)

/-- MISS_FILL: the fill of a miss register arrives, its waiters are served, and what waited at the slice goes on; a fill of
words that a program has is held (R225). -/
def Mod.missFill (m : Mod) (n region : Nat) : Mod :=
  if m.rangeHeld (region * 1024) 1024 false then m
  else m.onRick (rickRequester n) (fun x => afterFill (fillMiss x n region) n m.safe.fallowStrict)

/-- STREAM_BYPASS_TIMEOUT: 10 µs without a miss of the stream: the detector of a class at a slice re-arms (R250). -/
def Mod.streamQuiet (m : Mod) (n cls : Nat) : Mod :=
  m.onRick noUnit (fun x => if (detectorOf (sliceOf x n) cls).bypass then
    setSlice x n (setDetector (sliceOf x n) cls Detector.reset) else x)

/-- RICK_INTERVAL: every slice evaluates every class (R256). -/
def Mod.rickInterval (m : Mod) : Mod :=
  m.onRick noUnit (fun x => (List.range 12).foldl (fun x n => (List.range 8).foldl (fun x c => endInterval x n c) x) x)

/-- TRANSFER_COMPLETION waits while a program has a word that the transfer reads or writes (R225). -/
def Mod.xferHeld (m : Mod) (x : Xfer) : Bool :=
  x.plan.any (fun w => m.rangeHeld w.dst w.bytes.length true
    || (match w.src with | some a => m.rangeHeld a w.bytes.length false | none => false))

end Sys2Proof.Machine
end

