-- ==== Sys2Proof/Machine/Objects.lean ====
section
/-!
DEFINITION. The objects of the dictionary: their rows, and what each reads (R397 to R399 and the object table of each
chapter).
-/
namespace Sys2Proof.Machine

/-! ### The rows -/

/-- Access codes (R11). -/
inductive Acc where
  | const | ro | wo | rw | auth
deriving DecidableEq, Repr

/-- Object types (R14): integers, and strings of a fixed or an open length. -/
inductive ObjTy where
  | u8 | u16 | u32 | u64 | i16
  | vis (n : Nat)
  | oct (n : Nat)
  | bytes
deriving DecidableEq, Repr

/-- The length of an object's value in bytes; none where it is open. -/
def ObjTy.len : ObjTy → Option Nat
  | .u8 => some 1
  | .u16 => some 2
  | .u32 => some 4
  | .u64 => some 8
  | .i16 => some 2
  | .vis n => some n
  | .oct n => some n
  | .bytes => none

/-- A row of an object table: the first index and how many indices it covers, the first subindex and how many, the type,
the access code, and the right that a write needs: 0 ADMIN, 1 DEBUG, 2 TEST (R496). -/
structure ObjRow where
  idx : Nat
  idxs : Nat
  sub : Nat
  subs : Nat
  ty : ObjTy
  acc : Acc
  right : Nat
deriving DecidableEq, Repr

/-- The objects 0x1000 to 0x1FFF (R397). -/
def objsComm : List ObjRow := [
  ⟨0x1000, 1, 0x00, 1, .u32, .const, 0⟩,
  ⟨0x1001, 1, 0x00, 1, .u8, .ro, 0⟩,
  ⟨0x1005, 1, 0x00, 1, .u32, .rw, 0⟩,
  ⟨0x1008, 1, 0x00, 1, (.vis 10), .const, 0⟩,
  ⟨0x1009, 1, 0x00, 1, (.vis 2), .const, 0⟩,
  ⟨0x100A, 1, 0x00, 1, (.vis 16), .ro, 0⟩,
  ⟨0x1014, 1, 0x00, 1, .u32, .ro, 0⟩,
  ⟨0x1016, 1, 0x01, 1, .u32, .rw, 0⟩,
  ⟨0x1017, 1, 0x00, 1, .u16, .ro, 0⟩,
  ⟨0x1018, 1, 0x01, 1, .u32, .const, 0⟩,
  ⟨0x1018, 1, 0x02, 1, .u32, .const, 0⟩,
  ⟨0x1018, 1, 0x03, 1, .u32, .const, 0⟩,
  ⟨0x1018, 1, 0x04, 1, .u32, .const, 0⟩,
  ⟨0x1800, 8, 0x01, 1, .u32, .rw, 0⟩,
  ⟨0x1800, 8, 0x02, 1, .u8, .rw, 0⟩,
  ⟨0x1800, 8, 0x03, 1, .u16, .rw, 0⟩,
  ⟨0x1800, 8, 0x05, 1, .u16, .rw, 0⟩,
  ⟨0x1A00, 8, 0x00, 1, .u8, .rw, 0⟩,
  ⟨0x1A00, 8, 0x01, 32, .u32, .rw, 0⟩]

/-- The objects 0x2000 to 0x27FF (R47, R399, R406, R412, R421). -/
def objsIdentity : List ObjRow := [
  ⟨0x2000, 1, 0x01, 1, (.vis 13), .const, 0⟩,
  ⟨0x2000, 1, 0x02, 1, .u8, .const, 0⟩,
  ⟨0x2000, 1, 0x03, 1, (.vis 16), .const, 0⟩,
  ⟨0x2000, 1, 0x04, 1, .u16, .const, 0⟩,
  ⟨0x2000, 1, 0x05, 1, .u32, .ro, 0⟩,
  ⟨0x2000, 1, 0x06, 1, .u32, .ro, 0⟩,
  ⟨0x2000, 1, 0x07, 1, .u32, .const, 0⟩,
  ⟨0x2000, 1, 0x08, 1, (.oct 32), .ro, 0⟩,
  ⟨0x2001, 1, 0x01, 1, .u8, .ro, 0⟩,
  ⟨0x2001, 1, 0x02, 1, .u8, .rw, 0⟩,
  ⟨0x2001, 1, 0x03, 1, .u8, .ro, 0⟩,
  ⟨0x2010, 1, 0x01, 1, .u16, .const, 0⟩,
  ⟨0x2010, 1, 0x02, 1, .u16, .ro, 0⟩,
  ⟨0x2010, 1, 0x03, 1, .u8, .ro, 0⟩,
  ⟨0x2010, 1, 0x04, 1, .u16, .ro, 0⟩,
  ⟨0x2010, 1, 0x05, 1, (.oct 192), .ro, 0⟩,
  ⟨0x2010, 1, 0x06, 1, (.oct 32), .ro, 0⟩,
  ⟨0x2010, 1, 0x07, 1, .u16, .auth, 0⟩,
  ⟨0x2200, 1, 0x01, 1, .u8, .ro, 0⟩,
  ⟨0x2200, 1, 0x02, 1, .u32, .ro, 0⟩,
  ⟨0x2200, 1, 0x03, 1, .u16, .ro, 0⟩,
  ⟨0x2210, 7, 0x01, 1, .u8, .wo, 0⟩,
  ⟨0x2210, 7, 0x02, 1, .u8, .ro, 0⟩,
  ⟨0x2210, 7, 0x03, 1, .u8, .ro, 0⟩,
  ⟨0x2210, 7, 0x04, 1, .u32, .ro, 0⟩,
  ⟨0x2210, 7, 0x05, 1, .u64, .rw, 0⟩,
  ⟨0x2400, 1, 0x01, 1, .u32, .rw, 0⟩,
  ⟨0x2400, 1, 0x02, 1, .u32, .ro, 0⟩,
  ⟨0x2400, 1, 0x03, 1, .u32, .ro, 0⟩,
  ⟨0x2400, 1, 0x04, 1, .u64, .ro, 0⟩,
  ⟨0x2401, 1, 0x01, 10, .bytes, .ro, 0⟩,
  ⟨0x2402, 1, 0x00, 1, .u8, .wo, 0⟩,
  ⟨0x2480, 1, 0x01, 1, .u16, .wo, 0⟩,
  ⟨0x2480, 1, 0x02, 1, .u32, .rw, 0⟩,
  ⟨0x2480, 1, 0x03, 1, .u8, .ro, 0⟩,
  ⟨0x2480, 1, 0x04, 1, .u16, .ro, 0⟩,
  ⟨0x2480, 1, 0x05, 1, .u8, .ro, 0⟩]

/-- The objects 0x2800 to 0x2FFF (R443, R455). -/
def objsPower : List ObjRow := [
  ⟨0x2800, 1, 0x01, 7, .u16, .ro, 0⟩,
  ⟨0x2801, 1, 0x01, 16, .u32, .ro, 0⟩,
  ⟨0x2802, 1, 0x01, 16, .u32, .ro, 0⟩,
  ⟨0x2810, 1, 0x01, 45, .u16, .ro, 0⟩,
  ⟨0x2811, 1, 0x01, 1, .u16, .ro, 0⟩,
  ⟨0x2811, 1, 0x02, 1, .u16, .ro, 0⟩,
  ⟨0x2811, 1, 0x03, 1, .u16, .ro, 0⟩,
  ⟨0x2811, 1, 0x04, 1, .u64, .ro, 0⟩,
  ⟨0x2820, 1, 0x01, 1, .u8, .rw, 0⟩,
  ⟨0x2820, 1, 0x02, 1, .u8, .ro, 0⟩,
  ⟨0x2820, 1, 0x03, 1, .u8, .ro, 0⟩,
  ⟨0x2820, 1, 0x04, 1, .u16, .ro, 0⟩,
  ⟨0x2820, 1, 0x05, 1, .u8, .ro, 0⟩,
  ⟨0x2820, 1, 0x06, 1, .u32, .ro, 0⟩,
  ⟨0x2820, 1, 0x07, 1, .u32, .ro, 0⟩,
  ⟨0x2830, 1, 0x01, 1, .u16, .rw, 0⟩,
  ⟨0x2830, 1, 0x02, 1, .u32, .ro, 0⟩,
  ⟨0x2840, 1, 0x01, 16, .u16, .ro, 0⟩,
  ⟨0x2840, 1, 0x11, 1, .u32, .ro, 0⟩,
  ⟨0x2C00, 1, 0x01, 1, .i16, .ro, 0⟩,
  ⟨0x2C00, 1, 0x02, 1, .i16, .ro, 0⟩,
  ⟨0x2C00, 1, 0x03, 1, .i16, .ro, 0⟩,
  ⟨0x2C00, 1, 0x04, 1, .i16, .ro, 0⟩,
  ⟨0x2C00, 1, 0x05, 1, .i16, .ro, 0⟩,
  ⟨0x2C00, 1, 0x06, 1, .u32, .ro, 0⟩,
  ⟨0x2C01, 1, 0x01, 16, .i16, .ro, 0⟩,
  ⟨0x2C02, 1, 0x01, 16, .i16, .ro, 0⟩,
  ⟨0x2C03, 1, 0x01, 16, .u16, .ro, 0⟩,
  ⟨0x2C04, 1, 0x00, 1, (.oct 9408), .ro, 0⟩,
  ⟨0x2C05, 1, 0x01, 12, .i16, .ro, 0⟩,
  ⟨0x2C10, 1, 0x01, 2, .u16, .ro, 0⟩,
  ⟨0x2C10, 1, 0x03, 2, .u16, .ro, 0⟩,
  ⟨0x2C10, 1, 0x05, 2, .i16, .ro, 0⟩,
  ⟨0x2C10, 1, 0x07, 1, .u8, .ro, 0⟩,
  ⟨0x2C20, 1, 0x01, 1, .u8, .ro, 0⟩,
  ⟨0x2C20, 1, 0x02, 1, .u8, .ro, 0⟩,
  ⟨0x2C20, 1, 0x03, 1, .u32, .ro, 0⟩,
  ⟨0x2C30, 1, 0x01, 1, .u8, .rw, 0⟩,
  ⟨0x2C30, 1, 0x02, 1, .u8, .rw, 0⟩,
  ⟨0x2C30, 1, 0x03, 1, .u16, .rw, 0⟩,
  ⟨0x2C30, 1, 0x04, 1, .u8, .ro, 0⟩,
  ⟨0x2C30, 1, 0x05, 1, .u8, .ro, 0⟩,
  ⟨0x2C30, 1, 0x06, 1, .u32, .ro, 0⟩]

/-- The objects 0x3000 to 0x33FF (R181, R185, R188, R206, R207, R208, R235, R285). -/
def objsMemory : List ObjRow := [
  ⟨0x3000, 1, 0x01, 1, (.oct 16), .rw, 0⟩,
  ⟨0x3000, 1, 0x02, 1, .u8, .wo, 0⟩,
  ⟨0x3000, 1, 0x03, 1, .u8, .ro, 0⟩,
  ⟨0x3000, 1, 0x04, 1, (.oct 16), .ro, 0⟩,
  ⟨0x3010, 1, 0x01, 1, .u64, .ro, 0⟩,
  ⟨0x3010, 1, 0x02, 1, .u64, .ro, 0⟩,
  ⟨0x3010, 1, 0x03, 1, .u64, .ro, 0⟩,
  ⟨0x3010, 1, 0x04, 1, .u64, .ro, 0⟩,
  ⟨0x3010, 1, 0x05, 1, .u64, .ro, 0⟩,
  ⟨0x3010, 1, 0x06, 1, .u64, .ro, 0⟩,
  ⟨0x3010, 1, 0x07, 1, .u64, .ro, 0⟩,
  ⟨0x3010, 1, 0x08, 1, .u64, .ro, 0⟩,
  ⟨0x3010, 1, 0x09, 1, .u64, .ro, 0⟩,
  ⟨0x3010, 1, 0x0A, 1, .u64, .ro, 0⟩,
  ⟨0x3011, 1, 0x01, 12, .u32, .ro, 0⟩,
  ⟨0x3012, 1, 0x01, 12, .u32, .ro, 0⟩,
  ⟨0x3020, 1, 0x01, 1, .u32, .ro, 0⟩,
  ⟨0x3020, 1, 0x02, 1, .u32, .ro, 0⟩,
  ⟨0x3020, 1, 0x03, 1, .u32, .ro, 0⟩,
  ⟨0x3020, 1, 0x04, 1, .u64, .ro, 0⟩,
  ⟨0x3030, 1, 0x01, 1, .u8, .rw, 0⟩,
  ⟨0x3030, 1, 0x02, 1, .u32, .ro, 0⟩,
  ⟨0x3030, 1, 0x03, 1, .u16, .ro, 0⟩,
  ⟨0x3030, 1, 0x04, 1, .u32, .ro, 0⟩,
  ⟨0x3030, 1, 0x05, 1, .u32, .ro, 0⟩,
  ⟨0x3030, 1, 0x06, 1, .u32, .ro, 0⟩,
  ⟨0x3040, 1, 0x01, 1, .u8, .auth, 2⟩,
  ⟨0x3040, 1, 0x02, 1, .u64, .rw, 0⟩,
  ⟨0x3040, 1, 0x03, 1, (.oct 32), .rw, 0⟩,
  ⟨0x3040, 1, 0x04, 1, (.oct 4), .rw, 0⟩,
  ⟨0x3040, 1, 0x05, 1, .u8, .wo, 0⟩,
  ⟨0x3040, 1, 0x06, 1, .u8, .ro, 0⟩,
  ⟨0x3040, 1, 0x07, 1, (.oct 4), .ro, 0⟩,
  ⟨0x3040, 1, 0x08, 1, .u8, .ro, 0⟩,
  ⟨0x3100, 1, 0x01, 1, .u64, .ro, 0⟩,
  ⟨0x3100, 1, 0x02, 1, .u64, .ro, 0⟩,
  ⟨0x3100, 1, 0x03, 1, .u64, .ro, 0⟩,
  ⟨0x3100, 1, 0x04, 1, .u32, .ro, 0⟩,
  ⟨0x3100, 1, 0x05, 1, .u32, .ro, 0⟩,
  ⟨0x3100, 1, 0x06, 1, .u32, .ro, 0⟩,
  ⟨0x3100, 1, 0x07, 1, .u32, .ro, 0⟩,
  ⟨0x3101, 1, 0x00, 1, (.oct 1536), .ro, 0⟩,
  ⟨0x3102, 1, 0x00, 1, .u8, .rw, 0⟩,
  ⟨0x3200, 1, 0x01, 1, .u64, .ro, 0⟩,
  ⟨0x3200, 1, 0x02, 1, .u64, .ro, 0⟩,
  ⟨0x3200, 1, 0x03, 1, .u64, .ro, 0⟩,
  ⟨0x3200, 1, 0x04, 1, .u64, .ro, 0⟩,
  ⟨0x3200, 1, 0x05, 1, .u32, .ro, 0⟩,
  ⟨0x3200, 1, 0x06, 1, .u32, .ro, 0⟩,
  ⟨0x3200, 1, 0x07, 1, .u32, .ro, 0⟩,
  ⟨0x3380, 1, 0x01, 1, .u32, .ro, 0⟩,
  ⟨0x3380, 1, 0x02, 1, .u32, .ro, 0⟩,
  ⟨0x3380, 1, 0x03, 1, .u32, .ro, 0⟩,
  ⟨0x3380, 1, 0x04, 1, .u32, .ro, 0⟩,
  ⟨0x3380, 1, 0x05, 1, .u32, .ro, 0⟩,
  ⟨0x3380, 1, 0x06, 1, .u64, .ro, 0⟩,
  ⟨0x3380, 1, 0x07, 1, .u32, .ro, 0⟩,
  ⟨0x3380, 1, 0x08, 1, .u32, .ro, 0⟩]

/-- The objects 0x3400 to 0x3BFF (R262, R364, R386, R478). -/
def objsFabric : List ObjRow := [
  ⟨0x3400, 1, 0x01, 1, .u64, .ro, 0⟩,
  ⟨0x3400, 1, 0x02, 1, .u64, .ro, 0⟩,
  ⟨0x3400, 1, 0x03, 1, .u32, .ro, 0⟩,
  ⟨0x3400, 1, 0x04, 1, .u32, .ro, 0⟩,
  ⟨0x3400, 1, 0x05, 1, .u32, .ro, 0⟩,
  ⟨0x3400, 1, 0x06, 1, .u64, .ro, 0⟩,
  ⟨0x3400, 1, 0x07, 1, .u64, .ro, 0⟩,
  ⟨0x3400, 1, 0x08, 1, .u32, .ro, 0⟩,
  ⟨0x3401, 1, 0x01, 8, .u8, .rw, 0⟩,
  ⟨0x3410, 8, 0x01, 1, .u64, .ro, 0⟩,
  ⟨0x3410, 8, 0x02, 1, .u64, .ro, 0⟩,
  ⟨0x3410, 8, 0x03, 1, .u64, .ro, 0⟩,
  ⟨0x3410, 8, 0x04, 1, .u64, .ro, 0⟩,
  ⟨0x3410, 8, 0x05, 1, .u64, .ro, 0⟩,
  ⟨0x3410, 8, 0x06, 1, .u32, .ro, 0⟩,
  ⟨0x3800, 1, 0x01, 36, .u32, .ro, 0⟩,
  ⟨0x3801, 1, 0x01, 36, .u64, .ro, 0⟩,
  ⟨0x3802, 1, 0x01, 1, .u64, .ro, 0⟩,
  ⟨0x3802, 1, 0x02, 1, .u64, .ro, 0⟩,
  ⟨0x3802, 1, 0x03, 1, .u64, .ro, 0⟩,
  ⟨0x3802, 1, 0x04, 1, .u64, .ro, 0⟩,
  ⟨0x3802, 1, 0x05, 1, .u32, .ro, 0⟩,
  ⟨0x3802, 1, 0x06, 1, .u64, .ro, 0⟩,
  ⟨0x3802, 1, 0x07, 1, .u64, .ro, 0⟩,
  ⟨0x3802, 1, 0x08, 1, .u32, .ro, 0⟩,
  ⟨0x3803, 1, 0x00, 1, .u8, .wo, 0⟩,
  ⟨0x3810, 1, 0x00, 1, .u16, .rw, 0⟩,
  ⟨0x3811, 1, 0x00, 1, (.oct 2048), .rw, 0⟩,
  ⟨0x3820, 1, 0x01, 16, .u64, .rw, 0⟩,
  ⟨0x3821, 1, 0x01, 16, .u32, .rw, 0⟩,
  ⟨0x3840, 1, 0x01, 1, .u8, .ro, 0⟩,
  ⟨0x3840, 1, 0x02, 1, .u64, .ro, 0⟩,
  ⟨0x3840, 1, 0x03, 1, .u64, .ro, 0⟩,
  ⟨0x3840, 1, 0x04, 1, .u64, .ro, 0⟩,
  ⟨0x3840, 1, 0x05, 1, .u64, .ro, 0⟩,
  ⟨0x3840, 1, 0x06, 1, .u32, .ro, 0⟩,
  ⟨0x3840, 1, 0x07, 1, .u32, .ro, 0⟩,
  ⟨0x3841, 1, 0x00, 1, .u8, .wo, 0⟩,
  ⟨0x3880, 1, 0x01, 1, .u8, .auth, 2⟩,
  ⟨0x3880, 1, 0x02, 1, .u8, .auth, 2⟩,
  ⟨0x3880, 1, 0x03, 1, .u16, .auth, 2⟩,
  ⟨0x3880, 1, 0x04, 1, .u64, .auth, 2⟩,
  ⟨0x3880, 1, 0x05, 1, .u8, .auth, 2⟩,
  ⟨0x3880, 1, 0x06, 1, .u8, .ro, 0⟩,
  ⟨0x3880, 1, 0x07, 1, .u16, .ro, 0⟩]

/-- The objects 0x3C00 to 0x43FF (R407, R471, R478). -/
def objsSafety : List ObjRow := [
  ⟨0x3C00, 1, 0x01, 1, .u8, .ro, 0⟩,
  ⟨0x3C00, 1, 0x02, 1, .u16, .ro, 0⟩,
  ⟨0x3C00, 1, 0x03, 1, .u32, .ro, 0⟩,
  ⟨0x3C00, 1, 0x04, 1, .u32, .ro, 0⟩,
  ⟨0x3C00, 1, 0x05, 1, .u8, .auth, 0⟩,
  ⟨0x3C01, 1, 0x01, 14, .u64, .const, 0⟩,
  ⟨0x3C10, 1, 0x01, 1, .u8, .auth, 0⟩,
  ⟨0x3C20, 1, 0x01, 1, .u64, .rw, 0⟩,
  ⟨0x3C20, 1, 0x02, 1, .u64, .rw, 0⟩,
  ⟨0x3C20, 1, 0x03, 1, .u64, .ro, 0⟩,
  ⟨0x3C20, 1, 0x04, 1, .u64, .rw, 0⟩,
  ⟨0x3C20, 1, 0x05, 1, .u8, .ro, 0⟩,
  ⟨0x3E00, 1, 0x01, 1, .u64, .ro, 0⟩,
  ⟨0x3E00, 1, 0x02, 1, .u64, .ro, 0⟩,
  ⟨0x3E00, 1, 0x03, 1, .u64, .rw, 0⟩,
  ⟨0x3E00, 1, 0x04, 1, .bytes, .ro, 0⟩,
  ⟨0x3E00, 1, 0x05, 1, .u64, .rw, 0⟩,
  ⟨0x3E00, 1, 0x06, 1, .u32, .ro, 0⟩,
  ⟨0x3E00, 1, 0x07, 1, .u8, .rw, 0⟩,
  ⟨0x3E01, 1, 0x00, 1, .u32, .ro, 0⟩,
  ⟨0x4000, 1, 0x01, 1, .u64, .ro, 0⟩,
  ⟨0x4000, 1, 0x02, 1, .u64, .ro, 0⟩,
  ⟨0x4000, 1, 0x03, 1, .u64, .rw, 0⟩,
  ⟨0x4000, 1, 0x04, 1, (.oct 4096), .ro, 0⟩,
  ⟨0x4000, 1, 0x05, 1, (.oct 32), .ro, 0⟩,
  ⟨0x4000, 1, 0x06, 1, .u64, .ro, 0⟩,
  ⟨0x4000, 1, 0x07, 1, .u32, .ro, 0⟩,
  ⟨0x4000, 1, 0x08, 1, .u32, .ro, 0⟩,
  ⟨0x4001, 1, 0x01, 1, .u8, .ro, 0⟩,
  ⟨0x4001, 1, 0x02, 1, .u8, .rw, 0⟩,
  ⟨0x4001, 1, 0x03, 1, (.oct 4096), .ro, 0⟩,
  ⟨0x4001, 1, 0x04, 1, .u8, .auth, 0⟩]

/-- The objects 0x4400 to 0x47FF (R500). -/
def objsSecurity : List ObjRow := [
  ⟨0x4400, 1, 0x01, 1, .u8, .auth, 0⟩,
  ⟨0x4400, 1, 0x02, 1, .u8, .ro, 0⟩,
  ⟨0x4400, 1, 0x03, 1, .u8, .ro, 0⟩,
  ⟨0x4400, 1, 0x04, 1, .u8, .ro, 0⟩,
  ⟨0x4400, 1, 0x05, 1, .u8, .auth, 0⟩,
  ⟨0x4400, 1, 0x06, 1, .u8, .ro, 0⟩,
  ⟨0x4401, 1, 0x01, 4, (.oct 32), .const, 0⟩,
  ⟨0x4401, 1, 0x05, 1, .u8, .ro, 0⟩,
  ⟨0x4401, 1, 0x06, 1, (.oct 32), .const, 0⟩,
  ⟨0x4401, 1, 0x07, 1, .u8, .auth, 0⟩,
  ⟨0x4410, 1, 0x01, 1, (.oct 64), .const, 0⟩,
  ⟨0x4410, 1, 0x02, 1, .bytes, .const, 0⟩,
  ⟨0x4410, 1, 0x03, 1, (.oct 64), .auth, 0⟩,
  ⟨0x4410, 1, 0x04, 1, (.oct 64), .auth, 0⟩,
  ⟨0x4420, 1, 0x01, 1, (.oct 32), .rw, 0⟩,
  ⟨0x4420, 1, 0x02, 1, .u8, .wo, 0⟩,
  ⟨0x4420, 1, 0x03, 1, .u8, .ro, 0⟩,
  ⟨0x4420, 1, 0x04, 1, (.oct 512), .ro, 0⟩,
  ⟨0x4430, 1, 0x01, 1, .u32, .wo, 0⟩,
  ⟨0x4430, 1, 0x02, 1, (.oct 32), .ro, 0⟩,
  ⟨0x4430, 1, 0x03, 1, (.oct 64), .wo, 0⟩,
  ⟨0x4430, 1, 0x04, 1, .u32, .ro, 0⟩,
  ⟨0x4430, 1, 0x05, 1, .u8, .wo, 0⟩,
  ⟨0x4430, 1, 0x06, 1, .u32, .ro, 0⟩,
  ⟨0x4440, 1, 0x01, 1, .u8, .rw, 0⟩,
  ⟨0x4440, 1, 0x02, 1, .u32, .rw, 0⟩,
  ⟨0x4440, 1, 0x03, 1, .bytes, .wo, 0⟩,
  ⟨0x4440, 1, 0x04, 1, .u8, .wo, 0⟩,
  ⟨0x4450, 1, 0x01, 1, .u8, .auth, 1⟩,
  ⟨0x4450, 1, 0x02, 1, .u32, .auth, 1⟩,
  ⟨0x4450, 1, 0x03, 1, .u64, .ro, 0⟩,
  ⟨0x4450, 1, 0x04, 1, .u8, .ro, 0⟩]

/-- The objects 0x4800 to 0x4BFF (R133, R137, R162, R312, R332). -/
def objsStream : List ObjRow := [
  ⟨0x4800, 1, 0x01, 1, .u32, .rw, 0⟩,
  ⟨0x4800, 1, 0x02, 1, .u16, .rw, 0⟩,
  ⟨0x4800, 1, 0x03, 1, .u16, .rw, 0⟩,
  ⟨0x4800, 1, 0x04, 1, .u16, .rw, 0⟩,
  ⟨0x4800, 1, 0x05, 1, .u16, .rw, 0⟩,
  ⟨0x4800, 1, 0x06, 1, .u16, .rw, 0⟩,
  ⟨0x4800, 1, 0x07, 1, .u8, .wo, 0⟩,
  ⟨0x4800, 1, 0x08, 1, .u8, .ro, 0⟩,
  ⟨0x4801, 1, 0x01, 1, .u8, .wo, 0⟩,
  ⟨0x4801, 1, 0x02, 1, .u8, .wo, 0⟩,
  ⟨0x4802, 1, 0x01, 1, .u8, .ro, 0⟩,
  ⟨0x4802, 1, 0x02, 1, .u64, .ro, 0⟩,
  ⟨0x4802, 1, 0x03, 1, .u8, .ro, 0⟩,
  ⟨0x4802, 1, 0x04, 1, .u64, .ro, 0⟩,
  ⟨0x4802, 1, 0x05, 1, .u16, .ro, 0⟩,
  ⟨0x4802, 1, 0x06, 1, (.oct 14), .ro, 0⟩,
  ⟨0x4802, 1, 0x07, 1, .u32, .ro, 0⟩,
  ⟨0x4802, 1, 0x08, 1, .u32, .ro, 0⟩,
  ⟨0x4840, 1, 0x01, 1, .u64, .ro, 0⟩,
  ⟨0x4840, 1, 0x02, 1, .u64, .ro, 0⟩,
  ⟨0x4840, 1, 0x03, 1, .u64, .ro, 0⟩,
  ⟨0x4840, 1, 0x04, 1, .u64, .ro, 0⟩,
  ⟨0x4840, 1, 0x05, 11, .u64, .ro, 0⟩,
  ⟨0x4840, 1, 0x10, 1, .u64, .ro, 0⟩,
  ⟨0x4841, 1, 0x00, 1, .u32, .rw, 0⟩,
  ⟨0x4842, 1, 0x01, 1, (.oct 32), .ro, 0⟩,
  ⟨0x4842, 1, 0x02, 1, .u8, .ro, 0⟩,
  ⟨0x4842, 1, 0x03, 1, .u32, .ro, 0⟩,
  ⟨0x4880, 1, 0x01, 1, .u64, .ro, 0⟩,
  ⟨0x4880, 1, 0x02, 1, .u64, .ro, 0⟩,
  ⟨0x4880, 1, 0x03, 1, .u64, .ro, 0⟩,
  ⟨0x4880, 1, 0x04, 1, .u32, .ro, 0⟩,
  ⟨0x4880, 1, 0x05, 1, .u32, .ro, 0⟩,
  ⟨0x4880, 1, 0x06, 1, .u32, .ro, 0⟩,
  ⟨0x4880, 1, 0x07, 1, .u32, .ro, 0⟩,
  ⟨0x4880, 1, 0x08, 1, .u64, .ro, 0⟩,
  ⟨0x4880, 1, 0x09, 1, .u64, .ro, 0⟩,
  ⟨0x4880, 1, 0x0A, 1, .u64, .ro, 0⟩,
  ⟨0x4890, 1, 0x01, 1, .u64, .ro, 0⟩,
  ⟨0x4890, 1, 0x02, 1, .u64, .ro, 0⟩,
  ⟨0x4890, 1, 0x03, 1, .u64, .ro, 0⟩,
  ⟨0x4890, 1, 0x04, 1, .u16, .ro, 0⟩,
  ⟨0x4890, 1, 0x05, 1, .u32, .ro, 0⟩]

/-- Every object but HIGHEST_SUB. -/
def objRows : List ObjRow :=
  objsComm ++ objsIdentity ++ objsPower ++ objsMemory ++ objsFabric ++ objsSafety ++ objsSecurity ++ objsStream

/-- The row covers an index. -/
def ObjRow.hasIdx (r : ObjRow) (i : Nat) : Bool := decide (r.idx ≤ i ∧ i < r.idx + r.idxs)

/-- The row covers an index and subindex. -/
def ObjRow.has (r : ObjRow) (i s : Nat) : Bool := r.hasIdx i && decide (r.sub ≤ s ∧ s < r.sub + r.subs)

/-- The rows of an index. -/
def rowsOf (i : Nat) : List ObjRow := objRows.filter (fun r => r.hasIdx i)

/-- The highest subindex of an index (R398). -/
def highestSub (i : Nat) : Nat := (rowsOf i).foldl (fun v r => max v (r.sub + r.subs - 1)) 0

/-- The row of an index and subindex: HIGHEST_SUB stands at subindex 00 of every index with a subindex above it, but for
the mapping objects. -/
def objRow (i s : Nat) : Option ObjRow :=
  match objRows.find? (fun r => r.has i s) with
  | some r => some r
  | none => if s = 0 ∧ 0 < highestSub i then some ⟨i, 1, 0, 1, .u8, .const, 0⟩ else none

/-- An object exists at an index. -/
def objExists (i : Nat) : Bool := objRows.any (fun r => r.hasIdx i)

/-! ### What the objects read -/

/-- A register's value. -/
def obReg {w : Nat} (v : BitVec w) : Option Bytes := some (regBytes v)
/-- A number of n bytes. -/
def obNat (n v : Nat) : Option Bytes := some (leBytes n v)
/-- The value of an element of a list, n bytes wide. -/
def obAt {w : Nat} (l : List (BitVec w)) (i : Nat) : Option Bytes := obReg (listGet 0#w l i)

/-- A transmit PDO. -/
def Mod.tpdo (m : Mod) (n : Nat) : Tpdo := listGet (Tpdo.reset 127 7) m.can.tpdos n

/-- Replace a transmit PDO. -/
def Mod.setTpdo (m : Mod) (n : Nat) (t : Tpdo) : Mod := { m with can := { m.can with tpdos := listSet m.can.tpdos n t } }

/-- The decimal number that visible digits spell. -/
def decimalOf (bs : Bytes) : Nat := bs.foldl (fun v b => v * 10 + (b.toNat - 48)) 0

/-- 0x1000 to 0x1FFF (R397). -/
def Mod.commValue (m : Mod) (i s : Nat) : Option Bytes :=
  let c := m.can
  match i, s with
  | 0x1000, _ => obNat 4 0
  | 0x1001, _ => obReg c.errorRegister
  | 0x1005, _ => obReg c.syncCobId
  | 0x1008, _ => some (strBytes "Nymda 1536")
  | 0x1009, _ => some (strBytes "A0")
  | 0x100A, _ => obReg (Config.swVersion m.sec.mcVersion)
  | 0x1014, _ => obNat 4 (0x80 + c.activeNodeId.toNat)
  | 0x1016, _ => obReg c.consumerHb
  | 0x1017, _ => obNat 2 100
  | 0x1018, 1 => obNat 4 0x5D7
  | 0x1018, 2 => obNat 4 0x1536
  | 0x1018, 3 => obNat 4 0xA00000
  | 0x1018, _ => obNat 4 (decimalOf (m.fuses.serial.drop 4))
  | _, _ =>
    if i < 0x1A00 then
      let t := m.tpdo (i - 0x1800)
      match s with
      | 1 => obReg t.cobId
      | 2 => obReg t.ttype
      | 3 => obReg t.inhibit
      | _ => obReg t.timer
    else
      let t := m.tpdo (i - 0x1A00)
      if s = 0 then obReg t.mapCount else obAt t.map (s - 1)

/-- 0x2000 to 0x27FF (R47, R399, R406, R412, R421). -/
def Mod.identityValue (m : Mod) (i s : Nat) : Option Bytes :=
  let f := m.fuses
  let p := m.plan
  let b := m.boot
  match i, s with
  | 0x2000, 1 => some (strBytes "TRL-NY1536-A0")
  | 0x2000, 2 => obNat 1 0xA0
  | 0x2000, 3 => some f.serial
  | 0x2000, 4 => obReg f.mfgWeek
  | 0x2000, 5 => obReg m.sec.mcVersion
  | 0x2000, 6 => match b.coreFw with | some w => obReg w.version | none => obNat 4 0
  | 0x2000, 7 => obReg f.bootRom
  | 0x2000, _ => some m.imageDigest
  | 0x2001, 1 => obNat 1 m.can.strapNodeId.toNat
  | 0x2001, 2 => obReg m.can.nodeIdOverride
  | 0x2001, _ => obReg m.can.activeNodeId
  | 0x2010, 1 => obNat 2 1
  | 0x2010, 2 => obReg p.usableCells
  | 0x2010, 3 => obReg p.shortRows
  | 0x2010, 4 => obReg p.darkBands
  | 0x2010, 5 => some (((List.range 96).map (fun r => leBytes 2 (rowEntry p.rowMap r))).flatten)
  | 0x2010, 6 => some p.digest
  | 0x2010, _ => obReg p.retire
  | 0x2200, 1 => obNat 1 (b.steps.zipIdx.foldl (fun v e => if e.1.st = .done then v + 2 ^ e.2 else v) 0)
  | 0x2200, 2 => obReg b.bootMs
  | 0x2200, _ => obReg b.selftestFails
  | 0x2400, 1 => obReg m.units.unitSelect
  | 0x2400, 2 => obReg (m.unitView m.units.unitSelect)
  | 0x2400, 3 => obReg m.units.mismatchCount
  | 0x2400, _ => obReg m.units.firstMismatch
  | 0x2401, _ => some ((List.range (classSize (s - 1))).map (m.classByte (s - 1)))
  | 0x2480, 2 => obReg b.resetUnit
  | 0x2480, 3 => obReg b.resetResult
  | 0x2480, 4 => obReg b.saveFails
  | 0x2480, _ => obNat 1 (b2n b.rst.isSome)
  | _, _ =>
    let x := m.step (i - 0x220F)
    match s with
    | 2 => obNat 1 x.st.code
    | 3 => obReg x.status
    | 4 => obReg x.elapsedUs
    | _ => obReg x.param

/-- 0x2800 to 0x2BFF (R443). -/
def Mod.powerValue (m : Mod) (i s : Nat) : Option Bytes :=
  let p := m.power
  match i, s with
  | 0x2800, _ => obAt p.railMv (s - 1)
  | 0x2801, _ => obReg (m.bandStatus (s - 1))
  | 0x2802, _ => obNat 4 (Map.get 0#24 m.fuses.phases (s - 1)).toNat
  | 0x2810, _ => obAt p.current (s - 1)
  | 0x2811, 1 => obReg p.inputMv
  | 0x2811, 2 => obReg p.inputCa
  | 0x2811, 3 => obReg p.inputW
  | 0x2811, _ => obReg p.energyJ
  | 0x2820, 1 => obReg p.paceLimit
  | 0x2820, 2 => obReg p.paceAllow
  | 0x2820, 3 => obReg p.paceNow
  | 0x2820, 4 => obReg p.limitCause
  | 0x2820, 5 => obReg p.rest
  | 0x2820, 6 => obReg p.droopCount
  | 0x2820, _ => obReg p.paceDeferred
  | 0x2830, 1 => obReg (p.capNext.getD p.capW)
  | 0x2830, _ => obReg p.capExceed
  | _, 17 => obReg p.trimCount
  | _, _ => obNat 2 (Map.get 0 p.trims (s - 1))

/-- A band's BAND_SUSPECT. -/
def Mod.bandSuspect (m : Mod) (b : Nat) : Nat :=
  (m.spotsOf b).zipIdx.foldl (fun v e => if e.1.suspect then v + 2 ^ e.2 else v) 0 + 256 * b2n (m.bandTemp b).layerSuspect

/-- 0x2C00 to 0x2FFF (R455). -/
def Mod.thermalValue (m : Mod) (i s : Nat) : Option Bytes :=
  let t := m.thermal
  let controls (lo : Nat) := hottest ((List.range 8).map (fun b => (m.bandTemp (lo + b)).control))
  match i, s with
  | 0x2C00, 1 => obReg (controls 0)
  | 0x2C00, 2 => obReg (controls 8)
  | 0x2C00, 3 => obReg (hottest (t.loam1 ++ t.loam2))
  | 0x2C00, 4 => obReg (hottest t.cap)
  | 0x2C00, 5 => obReg m.maxStack
  | 0x2C00, _ => obNat 4 (t.spots.filter (fun x => x.suspect)).length
  | 0x2C01, _ => obReg (m.bandTemp (s - 1)).control
  | 0x2C02, _ => obReg (m.bandTemp (s - 1)).estimate
  | 0x2C03, _ => obNat 2 (m.bandSuspect (s - 1))
  | 0x2C04, _ => some ((List.range 4704).map (fun c => regBytes (Map.get noTemp t.cells c))).flatten
  | 0x2C05, _ => obReg (hottest (m.stackTemp (s - 1)).diodes)
  | 0x2C10, 1 => obReg t.flowA
  | 0x2C10, 2 => obReg t.flowB
  | 0x2C10, 3 => obReg t.pIn
  | 0x2C10, 4 => obReg t.pOut
  | 0x2C10, 5 => obReg t.tIn
  | 0x2C10, 6 => obReg t.tOut
  | 0x2C10, _ => obReg t.flowState
  | 0x2C20, 1 => obReg t.limit
  | 0x2C20, 2 => obReg t.coolantLimit
  | 0x2C20, _ => obReg t.throttleWindows
  | 0x2C30, 1 => obReg t.rotEnable
  | 0x2C30, 2 => obReg t.rotSpread
  | 0x2C30, 3 => obReg t.rotInterval
  | 0x2C30, 4 => obReg t.rotVariants
  | 0x2C30, 5 => obReg t.rotActive
  | _, _ => obReg t.rotCount

/-- The lowest of some numbers. -/
def leastOf (l : List Nat) : Nat := match l with | [] => 0 | a :: t => t.foldl min a

/-- FAULT_MAP: one bit a gleaner (R231, R235). -/
def Mod.faultMap (m : Mod) : Bytes :=
  leBytes 1536 (m.gln.cells.foldl (fun v e => if e.2.faulted then v + 2 ^ e.1 else v) 0)

/-- 0x3000 to 0x33FF (R181, R185, R188, R206, R207, R208, R235, R285). -/
def Mod.memoryValue (m : Mod) (i s : Nat) : Option Bytes :=
  let k := m.memStacks
  let g := m.gln
  let d := m.dma
  let t := m.tl
  let scrubs := k.ctl.map (fun c => c.scrub)
  match i, s with
  | 0x3000, 1 => obReg k.placeMode
  | 0x3000, 3 => obReg k.placeResult
  | 0x3000, _ => obReg k.placeActive
  | 0x3010, 1 => obReg k.ceTotal
  | 0x3010, 2 => obReg k.ueTotal
  | 0x3010, 3 => obReg k.poisonReads
  | 0x3010, 4 => obReg k.poisonWrites
  | 0x3010, 5 => obReg k.rmwCount
  | 0x3010, 6 => obReg k.mergeComplete
  | 0x3010, 7 => obReg k.zeroFills
  | 0x3010, 8 => obReg k.unsownReads
  | 0x3010, 9 => obReg k.metaMisses
  | 0x3010, _ => obReg k.firstUe
  | 0x3011, _ => obReg (ctlOf k (s - 1)).ce
  | 0x3012, _ => obReg (ctlOf k (s - 1)).ue
  | 0x3020, 1 => obReg k.mapUnassigned
  | 0x3020, 2 => obReg k.regUnassigned
  | 0x3020, 3 => obReg k.authDiscards
  | 0x3020, _ => obReg k.firstUnassigned
  | 0x3030, 1 => obReg k.scrubPeriod
  | 0x3030, 2 => obNat 4 (leastOf (scrubs.map (fun x => x.passes)))
  | 0x3030, 3 => obNat 2 (leastOf (scrubs.map (fun x => x.pos * 1000 / 2 ^ 32)))
  | 0x3030, 4 => obNat 4 ((scrubs.map (fun x => x.lastS)).foldl max 0)
  | 0x3030, 5 => obReg k.scrubCe
  | 0x3030, _ => obReg k.scrubUe
  | 0x3040, 1 => obReg k.testEnable
  | 0x3040, 2 => obReg k.testAddr
  | 0x3040, 3 => some k.testData
  | 0x3040, 4 => some k.testCheck
  | 0x3040, 6 => obReg k.testResult
  | 0x3040, 7 => some k.testSyndrome
  | 0x3040, _ => obReg k.testClass
  | 0x3100, 1 => obReg g.launches
  | 0x3100, 2 => obReg g.endedOk
  | 0x3100, 3 => obReg g.endedNotOk
  | 0x3100, 4 => obReg g.ueEnds
  | 0x3100, 5 => obReg g.watchdogEnds
  | 0x3100, 6 => obReg g.rejectedWrites
  | 0x3100, _ => obReg g.holdMax
  | 0x3101, _ => some m.faultMap
  | 0x3102, _ => obReg g.enable
  | 0x3200, 1 => obReg d.transfers
  | 0x3200, 2 => obReg d.bytes
  | 0x3200, 3 => obReg d.deadlineMisses
  | 0x3200, 4 => obReg d.firstMiss
  | 0x3200, 5 => obReg d.queueHalts
  | 0x3200, 6 => obReg d.headOverruns
  | 0x3200, _ => obReg d.resetAborts
  | _, 1 => obReg t.tmCe
  | _, 2 => obReg t.tmUe
  | _, 3 => obReg t.loamCe
  | _, 4 => obReg t.loamUe
  | _, 5 => obReg t.crossCe
  | _, 6 => obReg t.firstUe
  | _, 7 => obReg t.recalCount
  | _, _ => obReg t.marginCount

/-- PORT_STATE of a port. -/
def Mod.portState (m : Mod) (p : Nat) : Nat :=
  let t := (m.port p).train
  t.st.code + 256 * min 255 (t.recent m.clock.timeUs).length

/-- 0x3400 to 0x3BFF (R262, R364, R386, R478). -/
def Mod.fabricValue (m : Mod) (i s : Nat) : Option Bytes :=
  let r := m.rick
  let h := m.hdg
  let j := m.jnl
  let x := m.inject
  let counts := listGet ⟨0#64, 0#64, 0#64, 0#64, 0#64⟩ r.counts (i - 0x3410)
  match i, s with
  | 0x3400, 1 => obReg r.missregFull
  | 0x3400, 2 => obReg r.waiterFull
  | 0x3400, 3 => obReg r.rejected
  | 0x3400, 4 => obReg r.pinFails
  | 0x3400, 5 => obReg r.thrash
  | 0x3400, 6 => obReg r.raf
  | 0x3400, 7 => obReg r.rafFirst
  | 0x3400, _ => obReg r.tagCe
  | 0x3401, _ => obAt r.policy (s - 1)
  | 0x3800, _ => obNat 4 (m.portState (s - 1))
  | 0x3801, _ => obReg (m.port (s - 1)).peer
  | 0x3802, 1 => obReg h.fecCorrected
  | 0x3802, 2 => obReg h.fecUncorr
  | 0x3802, 3 => obReg h.crcFail
  | 0x3802, 4 => obReg h.replays
  | 0x3802, 5 => obReg h.retrains
  | 0x3802, 6 => obReg h.markedWords
  | 0x3802, 7 => obReg h.firstMark
  | 0x3802, _ => obReg h.beDropped
  | 0x3810, _ => obReg h.fleetId
  | 0x3811, _ => some h.route
  | 0x3820, _ => obAt h.winBase (s - 1)
  | 0x3821, _ => obAt h.winLen (s - 1)
  | 0x3840, 1 => obNat 1 j.train.st.code
  | 0x3840, 2 => obReg j.fecCorrected
  | 0x3840, 3 => obReg j.fecUncorr
  | 0x3840, 4 => obReg j.crcFail
  | 0x3840, 5 => obReg j.replays
  | 0x3840, 6 => obReg j.retrains
  | 0x3840, _ => obReg j.losses
  | 0x3880, 1 => obReg x.target
  | 0x3880, 2 => obReg x.mode
  | 0x3880, 3 => obReg x.count
  | 0x3880, 4 => obReg x.param
  | 0x3880, 5 => obNat 1 (b2n x.armed)
  | 0x3880, 6 => obReg x.status
  | 0x3880, _ => obReg x.done
  | _, 1 => obReg counts.hits
  | _, 2 => obReg counts.misses
  | _, 3 => obReg counts.bypassed
  | _, 4 => obReg counts.writebacks
  | _, 5 => obReg counts.fallow
  | _, _ => obNat 4 (pinnedLines r (i - 0x3410))

/-- The bounds of R457 in ns, in row order; 0: found before the value concerned is used. -/
def detectBounds : List Nat :=
  [10000, 10000, 1000000, 2000000, 0, 0, 0, 86400000000000, 600000000000, 0, 49800, 300000000, 1000000, 5000000]

/-- 0x3C00 to 0x43FF (R407, R471, R478). -/
def Mod.safetyValue (m : Mod) (i s : Nat) : Option Bytes :=
  let a := m.safe
  let f := m.fpr
  let l := m.log
  let c := m.cairn
  match i, s with
  | 0x3C00, 1 => obNat 1 (b2n a.active)
  | 0x3C00, 2 => obReg a.cause
  | 0x3C00, 3 => obReg a.entryMs
  | 0x3C00, 4 => obReg a.count
  | 0x3C00, _ => obNat 1 0
  | 0x3C01, _ => obNat 8 (listGet 0 detectBounds (s - 1))
  | 0x3C10, _ => obNat 1 (b2n a.fallowStrict)
  | 0x3C20, 1 => obReg f.planAddr
  | 0x3C20, 2 => obReg f.outAddr
  | 0x3C20, 3 => obReg f.pass
  | 0x3C20, 4 => obReg f.verdict
  | 0x3C20, _ => obReg f.status
  | 0x3E00, 1 => obReg l.next
  | 0x3E00, 2 => obNat 8 (l.next.toNat - 1024)
  | 0x3E00, 3 => obReg l.select
  | 0x3E00, 4 => (l.ring.find? (fun r => decide (r.index = l.select))).map EventRec.bytes
  | 0x3E00, 5 => obReg l.read
  | 0x3E00, 6 => obReg l.unreadLost
  | 0x3E00, _ => obReg l.emcySeverity
  | 0x3E01, _ => obReg l.pdoOverruns
  | 0x4000, 1 => obNat 8 c.next
  | 0x4000, 2 => obNat 8 c.oldest
  | 0x4000, 3 => obReg c.select
  | 0x4000, 4 => c.read c.select.toNat
  | 0x4000, 5 => some c.chain
  | 0x4000, 6 => obReg c.lastSeal
  | 0x4000, 7 => obReg c.dropped
  | 0x4000, _ => obReg c.faults
  | _, 1 => obNat 1 c.firstFault.length
  | _, 2 => obReg c.ffSelect
  | _, 3 => if c.ffSelect.toNat < c.firstFault.length then some (listGet [] c.firstFault c.ffSelect.toNat) else none
  | _, _ => obNat 1 0

/-- 0x4400 to 0x47FF (R500). -/
def Mod.securityValue (m : Mod) (i s : Nat) : Option Bytes :=
  let x := m.sec
  let f := m.fuses
  match i, s with
  | 0x4400, 1 => obReg x.profile
  | 0x4400, 2 => obReg x.mcSlot
  | 0x4400, 3 => obReg f.mcSvn
  | 0x4400, 4 => obReg f.ccSvn
  | 0x4400, 5 => obNat 1 0
  | 0x4400, _ => obReg x.result
  | 0x4401, 5 => obReg f.revoked
  | 0x4401, 6 => some f.svcKey
  | 0x4401, 7 => obNat 1 0
  | 0x4401, _ => some (listGet [] f.fwKeys (s - 1))
  | 0x4410, 1 => some f.idPub
  | 0x4410, 2 => some f.devCert
  | 0x4410, 3 => some x.ownerKey
  | 0x4410, _ => some x.imageKey
  | 0x4420, 1 => some x.attNonce
  | 0x4420, 3 => obReg x.attState
  | 0x4420, _ => if x.attState = 2#8 then some x.attReport else none
  | 0x4430, 2 => x.challenge.map (fun c => regBytes c.value)
  | 0x4430, 4 => obReg m.authState
  | 0x4430, _ => obReg x.fails
  | 0x4440, 1 => obReg x.fwSlot
  | 0x4440, _ => obReg x.fwOffset
  | _, 1 => obReg x.dbgHalt
  | _, 2 => obReg x.dbgSel
  | _, 3 => obReg x.dbgAcc
  | _, _ => obReg x.dbgStatus

/-- 0x4800 to 0x4BFF (R133, R137, R162, R312, R332). -/
def Mod.streamValue (m : Mod) (i s : Nat) : Option Bytes :=
  let l := m.lea
  let t := m.stream
  let a := m.attn
  let r := m.train
  match i, s with
  | 0x4800, 1 => obReg l.staged.id
  | 0x4800, 2 => obReg l.staged.size
  | 0x4800, 3 => obReg l.staged.dims
  | 0x4800, 4 => obReg l.staged.index
  | 0x4800, 5 => obReg l.staged.seqFirst
  | 0x4800, 6 => obReg l.staged.seqCount
  | 0x4800, _ => obReg l.result
  | 0x4802, 1 => obNat 1 l.st.code
  | 0x4802, 2 => obReg l.barSeq
  | 0x4802, 3 => obReg l.pace
  | 0x4802, 4 => obReg l.lastChecksum
  | 0x4802, 5 => obReg l.firstBad
  | 0x4802, 6 => some l.active.bytes
  | 0x4802, 7 => obReg l.waitMax
  | 0x4802, _ => obReg l.foreign
  | 0x4840, 1 => obReg t.stepCount
  | 0x4840, 2 => obReg m.bundlePos
  | 0x4840, 3 => obReg t.restSteps
  | 0x4840, 4 => obReg t.slipTotal
  | 0x4840, 16 => obReg t.firstSlip
  | 0x4840, _ => obAt t.slipCause (s - 5)
  | 0x4841, _ => obReg t.slipLimit
  | 0x4842, 1 => some m.planting.active.digest
  | 0x4842, 2 => obNat 1 (b2n m.planting.staged.isSome)
  | 0x4842, _ => obReg t.pmDeferCount
  | 0x4880, 1 => obReg a.nWalks
  | 0x4880, 2 => obReg a.pageDescs
  | 0x4880, 3 => obReg a.emptyRow
  | 0x4880, 4 => obReg a.walkFaults
  | 0x4880, 5 => obReg a.pageFaults
  | 0x4880, 6 => obReg a.publishRefused
  | 0x4880, 7 => obReg a.seqtDiscards
  | 0x4880, 8 => obReg a.commits
  | 0x4880, 9 => obReg a.accepted
  | 0x4880, _ => obReg a.firstFault
  | _, 1 => obReg r.optSteps
  | _, 2 => obReg r.skippedSteps
  | _, 3 => obReg r.lastSkipBar
  | _, 4 => obReg r.firstNfCell
  | _, _ => obReg r.optFails

/-- The value of an existing object; none where it has no data (0x0800_0024). A wo object has no value. -/
def Mod.objValue (m : Mod) (i s : Nat) : Option Bytes :=
  if s = 0 ∧ 0 < highestSub i ∧ ¬ (0x1A00 ≤ i ∧ i < 0x1A08) then obNat 1 (highestSub i)
  else if i < 0x2000 then m.commValue i s
  else if i < 0x2800 then m.identityValue i s
  else if i < 0x2C00 then m.powerValue i s
  else if i < 0x3000 then m.thermalValue i s
  else if i < 0x3400 then m.memoryValue i s
  else if i < 0x3C00 then m.fabricValue i s
  else if i < 0x4400 then m.safetyValue i s
  else if i < 0x4800 then m.securityValue i s
  else m.streamValue i s

end Sys2Proof.Machine
end

