-- ==== Sys2Proof/Machine/Dictionary.lean ====
section
/-!
DEFINITION. Reads and writes of the object dictionary, with the aborts of R394 in their order, and the SDO and USDO
server (R389, R390, R394, R395, R400).
-/
namespace Sys2Proof.Machine

/-- Nothing is brought. -/
def ObjIn.none : ObjIn := ⟨[], ⟨⟨Option.none, []⟩, [], Option.none, []⟩⟩

/-! ### Abort codes (R394) -/

/-- 0x0504_0000: a segment came too late. -/
def abTimeout : Nat := 0x05040000
/-- 0x0504_0001: the command specifier is invalid. -/
def abSpecifier : Nat := 0x05040001
/-- 0x0601_0001: read of a wo object. -/
def abWriteOnly : Nat := 0x06010001
/-- 0x0601_0002: write of an ro or const object. -/
def abReadOnly : Nat := 0x06010002
/-- 0x0602_0000: the object does not exist. -/
def abNoObject : Nat := 0x06020000
/-- 0x0604_0041: the object cannot be mapped. -/
def abMapObject : Nat := 0x06040041
/-- 0x0604_0042: the mapping is too long. -/
def abMapLength : Nat := 0x06040042
/-- 0x0607_0010: the length does not match. -/
def abLength : Nat := 0x06070010
/-- 0x0609_0011: the subindex does not exist. -/
def abNoSub : Nat := 0x06090011
/-- 0x0609_0032: the value is too low. -/
def abLow : Nat := 0x06090032

/-- The abort is of orders 1 to 7: it comes before what the device's state refuses. -/
def abEarly (c : Nat) : Bool :=
  [abSpecifier, abNoObject, abNoSub, abWriteOnly, abReadOnly, abAuth, abLength, abValue, abHigh, abLow].contains c

/-- A value below `lo` or above `hi` is refused, any other one is taken. -/
def inRange (lo hi v : Nat) (m : Mod) (k : Nat × Mod) : Nat × Mod :=
  if v < lo then (abLow, m) else if hi < v then (abHigh, m) else k

/-- An object that takes only 0x01. -/
def onlyOne (v : Nat) (m : Mod) (k : Nat × Mod) : Nat × Mod := if v = 1 then k else (abValue, m)

/-! ### PDO mapping (R395) -/

/-- A mapping entry names an object that can be mapped, and its length. -/
def mapOk (e : BitVec 32) : Bool :=
  let i := field e.toNat 16 16
  match objRow i (field e.toNat 8 8) with
  | some r => decide (0x1001 ≤ i ∧ i ≤ 0x4BFF) && (r.acc == .ro || r.acc == .rw)
      && (match r.ty.len with | some n => decide (n ≤ 8 ∧ field e.toNat 0 8 = 8 * n) | none => false)
  | none => false

/-- The bytes that some entries map. -/
def mapBytes (es : List (BitVec 32)) : Nat := (es.map (fun e => field e.toNat 0 8 / 8)).foldl (· + ·) 0

/-- A write of MAP_COUNT. -/
def Mod.setMapCount (m : Mod) (n v : Nat) : Nat × Mod :=
  let t := m.tpdo n
  let es := t.map.take v
  if t.cobId.msb = false then (abState, m)
  else if 32 < v ∨ 64 < mapBytes es then (abMapLength, m)
  else if es.all mapOk = false then (abMapObject, m)
  else (0, m.setTpdo n { t with mapCount := BitVec.ofNat 8 v })

/-- A write of a MAP_ENTRY. -/
def Mod.setMapEntry (m : Mod) (n k : Nat) (v : BitVec 32) : Nat × Mod :=
  let t := m.tpdo n
  if t.cobId.msb = false ∨ t.mapCount ≠ 0#8 then (abState, m)
  else if mapOk v = false then (abMapObject, m)
  else (0, m.setTpdo n { t with map := listSet t.map k v })

/-! ### Writes by range -/

/-- CONSUMER_HB (R393, R397). -/
def Mod.setConsumer (m : Mod) (v : BitVec 32) : Nat × Mod :=
  let t := field v.toNat 0 16
  let node := field v.toNat 16 8
  let put : Mod := { m with can := { m.can with consumerHb := v } }
  if v = 0#32 then (if m.effective 0 0 = .run then (abState, m) else (0, put))
  else if field v.toNat 24 8 ≠ 0 ∨ node = 0 ∨ 127 < node ∨ node = m.can.activeNodeId.toNat then (abValue, m)
  else inRange 100 300 t m (0, put)

/-- Objects 0x1000 to 0x1FFF (R397). A PDO that becomes invalid has no instance queued. -/
def Mod.commWrite (m : Mod) (i s v : Nat) : Nat × Mod :=
  let n := if i < 0x1A00 then i - 0x1800 else i - 0x1A00
  let t := m.tpdo n
  match i, s with
  | 0x1005, _ =>
    if bitOf v 30 then (abValue, m)
    else (0, { m with can := { m.can with syncCobId := BitVec.ofNat 32 (field v 0 11) } })
  | 0x1016, _ => m.setConsumer (BitVec.ofNat 32 v)
  | _, _ =>
    if i < 0x1A00 then
      match s with
      | 1 =>
        let c := BitVec.ofNat 32 v &&& 0x800007FF#32
        (0, m.setTpdo n { t with cobId := c, queued := if c.msb then none else t.queued })
      | 2 =>
        if (1 ≤ v ∧ v ≤ 240) ∨ v = 0xFE then (0, m.setTpdo n { t with ttype := BitVec.ofNat 8 v, syncs := 0 })
        else (abValue, m)
      | 3 => (0, m.setTpdo n { t with inhibit := BitVec.ofNat 16 v })
      | _ => (0, m.setTpdo n { t with timer := BitVec.ofNat 16 v })
    else if s = 0 then m.setMapCount n v
    else m.setMapEntry n (s - 1) (BitVec.ofNat 32 v)

/-- RETIRE (R51). -/
def Mod.retire (m : Mod) (v : BitVec 16) : Nat × Mod :=
  let row := 48 * field v.toNat 12 1 + field v.toNat 6 6
  let col := field v.toNat 0 6
  let e := rowEntry m.plan.rowMap row
  if bitOf v.toNat 15 = false ∨ field v.toNat 13 2 ≠ 0 ∨ 47 < field v.toNat 6 6 ∨ 48 < col then (abValue, m)
  else if m.readyOrFenced = false ∨ m.plan.retire ≠ 0#16 ∨ isUsable m.plan (cellAt row col) = false
      ∨ shortRow e = true ∨ field e 12 2 ≠ 0 then (abState, m)
  else
    let m1 : Mod := { m with
      fuses := { m.fuses with retired := Map.set 0 m.fuses.retired row (col + 1) }
      plan := { m.plan with retire := v } }
    (0, m1.raise .retireAccepted (unitId 2 (cellAt row col)) (payload [i2 (cellAt row col)]))

/-- Objects 0x2000 to 0x27FF (R47, R399, R406, R412, R421). -/
def Mod.identityWrite (m : Mod) (i s v : Nat) (x : ObjIn) : Nat × Mod :=
  match i, s with
  | 0x2001, _ => inRange 0 127 v m (0, { m with can := { m.can with nodeIdOverride := BitVec.ofNat 8 v } })
  | 0x2010, _ => m.retire (BitVec.ofNat 16 v)
  | 0x2400, _ =>
    if unitExists (BitVec.ofNat 32 v) then (0, { m with units := { m.units with unitSelect := BitVec.ofNat 32 v } })
    else (abValue, m)
  | 0x2402, _ => onlyOne v m (0, m.mismatchClear)
  | 0x2480, 1 => m.resetCmd (BitVec.ofNat 16 v)
  | 0x2480, _ =>
    if unitExists (BitVec.ofNat 32 v) then (0, { m with boot := { m.boot with resetUnit := BitVec.ofNat 32 v } })
    else (abValue, m)
  | _, 1 => onlyOne v m (m.go (i - 0x220F) x.variants x.barrier.programs)
  | _, _ =>
    let n := i - 0x220F
    if n ≠ 4 ∧ n ≠ 6 ∧ v ≠ 0 then (abValue, m) else (0, m.setStep n { m.step n with param := BitVec.ofNat 64 v })

/-- Objects 0x2800 to 0x2FFF (R433, R437, R454). -/
def Mod.powerWrite (m : Mod) (i s v : Nat) : Nat × Mod :=
  let t := m.thermal
  match i, s with
  | 0x2820, _ =>
    inRange 35 160 v m (0, ({ m with power := { m.power with paceLimit := BitVec.ofNat 8 v } } : Mod).repace)
  | 0x2830, _ => inRange 650 3000 v m (0, { m with power := { m.power with capNext := some (BitVec.ofNat 16 v) } })
  | _, 1 => if 1 < v then (abValue, m) else (0, { m with thermal := { t with rotEnable := BitVec.ofNat 8 v } })
  | _, 2 => inRange 10 200 v m (0, { m with thermal := { t with rotSpread := BitVec.ofNat 8 v } })
  | _, _ => inRange 1 3600 v m (0, { m with thermal := { t with rotInterval := BitVec.ofNat 16 v } })

/-- Objects 0x3000 to 0x33FF (R185, R206, R207, R235). -/
def Mod.memoryWrite (m : Mod) (i s v : Nat) (bs : Bytes) : Nat × Mod :=
  let k := m.memStacks
  match i, s with
  | 0x3000, 1 => (0, { m with memStacks := { k with placeMode := BitVec.ofNat 128 v } })
  | 0x3000, _ => onlyOne v m m.placeCommit
  | 0x3030, _ => inRange 1 24 v m (0, { m with memStacks := { k with scrubPeriod := BitVec.ofNat 8 v } })
  | 0x3040, 1 => inRange 0 1 v m (m.setTest (v == 1))
  | 0x3040, 2 => (0, { m with memStacks := { k with testAddr := BitVec.ofNat 64 v } })
  | 0x3040, 3 => (0, { m with memStacks := { k with testData := bs } })
  | 0x3040, 4 => (0, { m with memStacks := { k with testCheck := bs } })
  | 0x3040, _ => inRange 1 3 v m (m.testCmd v)
  | _, _ => if 1 < v then (abValue, m) else (0, { m with gln := { m.gln with enable := BitVec.ofNat 8 v } })

/-- Every entry of a route table is a gate, 0 to 5, or none, 15 (R360). -/
def routeOk (bs : Bytes) : Bool :=
  bs.all (fun b => [b.toNat % 16, b.toNat / 16].all (fun e => decide (e ≤ 5 ∨ e = 15)))

/-- Objects 0x3400 to 0x3BFF (R252, R262, R351, R364, R372, R386, R478). -/
def Mod.fabricWrite (m : Mod) (i s v : Nat) (bs : Bytes) : Nat × Mod :=
  let h := m.hdg
  let n := m.inject
  match i, s with
  | 0x3401, _ =>
    if 2 < v then (abValue, m)
    else (0, { m with rick := { m.rick with policy := listSet m.rick.policy (s - 1) (BitVec.ofNat 8 v) } })
  | 0x3803, _ => if 35 < v then (abValue, m) else (0, m.portRetrainReq v)
  | 0x3810, _ =>
    let m1 : Mod := { m with hdg := { h with fleetId := BitVec.ofNat 16 v } }
    inRange 0 4095 v m (0, if h.fleetId = BitVec.ofNat 16 v then m else m1.identAll)
  | 0x3811, _ => if routeOk bs then (0, { m with hdg := { h with route := bs } }) else (abValue, m)
  | 0x3820, _ =>
    if inStacks v = true ∧ v % 4096 = 0 then
      (0, { m with hdg := { h with winBase := listSet h.winBase (s - 1) (BitVec.ofNat 64 v) } })
    else (abValue, m)
  | 0x3821, _ => (0, { m with hdg := { h with winLen := listSet h.winLen (s - 1) (BitVec.ofNat 32 v) } })
  | 0x3841, _ => onlyOne v m (0, m.jnlRetrainReq)
  | _, 1 =>
    if v ≤ 36 ∨ (40 ≤ v ∧ v ≤ 51) ∨ v = 60 then (0, { m with inject := { n with target := BitVec.ofNat 8 v } })
    else (abValue, m)
  | _, 2 => inRange 1 6 v m (0, { m with inject := { n with mode := BitVec.ofNat 8 v } })
  | _, 3 => (0, { m with inject := { n with count := BitVec.ofNat 16 v } })
  | _, 4 => (0, { m with inject := { n with param := BitVec.ofNat 64 v } })
  | _, _ => onlyOne v m (0, m.fiArm)

/-- Objects 0x3C00 to 0x43FF (R407, R470 to R474, R478). -/
def Mod.safetyWrite (m : Mod) (i s v : Nat) : Nat × Mod :=
  let f := m.fpr
  let l := m.log
  let c := m.cairn
  match i, s with
  | 0x3C00, _ => onlyOne v m (0, m.safeReq)
  | 0x3C10, _ =>
    inRange 0 1 v m (if m.running then (abState, m) else (0, { m with safe := { m.safe with fallowStrict := v == 1 } }))
  | 0x3C20, 1 =>
    let r := m.fpPlan (BitVec.ofNat 64 v)
    (if r.1 then 0 else abValue, r.2)
  | 0x3C20, 2 =>
    if inStacks v = true ∧ v % 64 = 0 then (0, { m with fpr := { f with outAddr := BitVec.ofNat 64 v } }) else (abValue, m)
  | 0x3C20, _ =>
    if 2 < field v 16 8 ∨ f.shards.length ≤ field v 0 16 then (abValue, m)
    else if m.passKnown (field v 32 32) = false then (abState, m)
    else (0, m.fpVerdict (BitVec.ofNat 64 v &&& 0xFFFFFFFF00FFFFFF#64))
  | 0x3E00, 3 => (0, { m with log := { l with select := BitVec.ofNat 64 v } })
  | 0x3E00, 5 => inRange 0 l.next.toNat v m (0, { m with log := { l with read := BitVec.ofNat 64 v } })
  | 0x3E00, _ =>
    if 1 ≤ v ∧ v ≤ 3 then (0, { m with log := { l with emcySeverity := BitVec.ofNat 8 v } }) else (abValue, m)
  | 0x4000, _ => (0, { m with cairn := { c with select := BitVec.ofNat 64 v } })
  | _, 2 => inRange 0 63 v m (0, { m with cairn := { c with ffSelect := BitVec.ofNat 8 v } })
  | _, _ => onlyOne v m (0, m.ffClear)

/-- Objects 0x4400 to 0x47FF (R487 to R500). -/
def Mod.securityWrite (m : Mod) (i s v : Nat) (bs : Bytes) : Nat × Mod :=
  match i, s with
  | 0x4400, 1 => if 7 < v then (abValue, m) else (0, m.setProfile (BitVec.ofNat 8 v))
  | 0x4400, _ => onlyOne v m (0, m.svnCommit)
  | 0x4401, _ => inRange 1 15 v m (m.fwRevoke (BitVec.ofNat 8 v))
  | 0x4410, 3 => (0, m.setOwnerKey bs)
  | 0x4410, _ => (0, m.setImageKey bs)
  | 0x4420, 1 => (0, { m with sec := { m.sec with attNonce := bs } })
  | 0x4420, _ => onlyOne v m m.attGo
  | 0x4430, 1 => m.authReq (BitVec.ofNat 32 v)
  | 0x4430, 3 => m.authResponse bs
  | 0x4430, _ => onlyOne v m (0, m.authClose)
  | 0x4440, 1 => inRange 0 1 v m (m.setFwSlot (BitVec.ofNat 8 v))
  | 0x4440, 2 => inRange 0 2097151 v m (0, { m with sec := { m.sec with fwOffset := BitVec.ofNat 32 v } })
  | 0x4440, 3 => m.fwChunk bs
  | 0x4440, _ => onlyOne v m m.fwCommit
  | _, 1 => inRange 0 1 v m (m.setDbgHalt (BitVec.ofNat 8 v))
  | _, _ => (0, { m with sec := { m.sec with dbgSel := BitVec.ofNat 32 (field v 0 24) } })

/-- The consistency checks of a lea COMMIT (R138): the status of the first that fails, 0 where none does. -/
def LeaCfg.status (c : LeaCfg) : BitVec 8 :=
  let e := c.ext
  if c.size = 0#16 then 0x30#8
  else if e.1 * e.2.1 * e.2.2 ≠ c.size.toNat then 0x31#8
  else if c.size.toNat ≤ c.index.toNat then 0x32#8
  else if 4096 < c.seqFirst.toNat + c.seqCount.toNat then 0x33#8
  else 0#8

/-- COMMIT of the lea configuration: the staged copy is locked until the swap (R138, R400). -/
def Mod.leaCommit (m : Mod) : Nat × Mod :=
  if m.lea.locked then (abState, m)
  else
    let st := if m.lea.st = .none ∨ m.lea.st = .stopped then m.lea.staged.status else 0x34#8
    if st = 0#8 then (0, { m with lea := { m.lea with locked := true, result := st } })
    else (abState, { m with lea := { m.lea with result := st } })

/-- A write of a staged subindex of the lea configuration, unless the copy is locked. -/
def Mod.leaStage (m : Mod) (f : LeaCfg → LeaCfg) : Nat × Mod :=
  if m.lea.locked then (abState, m) else (0, { m with lea := { m.lea with staged := f m.lea.staged } })

/-- LEA_SIZE: 0 is refused as ZERO_INVALID (R137, R161). -/
def Mod.setLeaSize (m : Mod) (v : BitVec 16) : Nat × Mod :=
  if v = 0#16 then (abLow, if m.lea.locked then m else { m with lea := { m.lea with result := stZeroInvalid } })
  else inRange 2 512 v.toNat m (m.leaStage (fun (c : LeaCfg) => { c with size := v }))

/-- Objects 0x4800 to 0x4BFF (R133, R137, R138, R157, R162). -/
def Mod.streamWrite (m : Mod) (i s v : Nat) (x : ObjIn) : Nat × Mod :=
  let w := BitVec.ofNat 16 v
  match i, s with
  | 0x4800, 1 => m.leaStage (fun (c : LeaCfg) => { c with id := BitVec.ofNat 32 v })
  | 0x4800, 2 => m.setLeaSize w
  | 0x4800, 3 => m.leaStage (fun (c : LeaCfg) => { c with dims := w &&& 0xFFF#16 })
  | 0x4800, 4 => inRange 0 511 v m (m.leaStage (fun (c : LeaCfg) => { c with index := w }))
  | 0x4800, 5 => inRange 0 4095 v m (m.leaStage (fun (c : LeaCfg) => { c with seqFirst := w }))
  | 0x4800, 6 => inRange 0 4096 v m (m.leaStage (fun (c : LeaCfg) => { c with seqCount := w }))
  | 0x4800, _ => onlyOne v m m.leaCommit
  | 0x4801, 1 => if v = 1 then (0, m.leaStart x.barrier) else if v = 2 then (0, m.leaLeave) else (abValue, m)
  | 0x4801, _ =>
    onlyOne v m (if m.lea.st = .running then (0, { m with lea := { m.lea with stopReq := true } }) else (abState, m))
  | _, _ => (0, { m with stream := { m.stream with slipLimit := BitVec.ofNat 32 v } })

/-- The effect of a write of an object whose length and access are right: the abort code, 0 where it is accepted. -/
def Mod.objEffect (m : Mod) (i s : Nat) (bs : Bytes) (x : ObjIn) : Nat × Mod :=
  let v := leNat bs
  if i < 0x2000 then m.commWrite i s v
  else if i < 0x2800 then m.identityWrite i s v x
  else if i < 0x3000 then m.powerWrite i s v
  else if i < 0x3400 then m.memoryWrite i s v bs
  else if i < 0x3C00 then m.fabricWrite i s v bs
  else if i < 0x4400 then m.safetyWrite i s v
  else if i < 0x4800 then m.securityWrite i s v bs
  else m.streamWrite i s v x

/-! ### The checks of R394 -/

/-- Recovery mode serves the index (R489). -/
def servedInRecovery (i : Nat) : Bool :=
  decide ((0x1000 ≤ i ∧ i ≤ 0x1018) ∨ i = 0x2000 ∨ i = 0x4400 ∨ i = 0x4401 ∨ i = 0x4410 ∨ i = 0x4440)

/-- The session may write the object. -/
def Mod.mayWrite (m : Mod) (i s : Nat) (r : ObjRow) : Bool :=
  r.acc != .auth || (if i = 0x4410 ∧ s = 3 then m.ownerMayWrite else m.hasRight r.right)

/-- A value of that many bytes suits the type; a chunk holds at most 4,096. -/
def ObjTy.takes (t : ObjTy) (n : Nat) : Bool := match t.len with | some k => k == n | none => decide (n ≤ 4096)

/-- Orders 2 to 6 of a write: the abort code, 0 where none applies. -/
def Mod.writeCheck (m : Mod) (i s len : Nat) : Nat :=
  if objExists i = false then abNoObject
  else match objRow i s with
    | none => abNoSub
    | some r =>
      if r.acc = .ro ∨ r.acc = .const then abReadOnly
      else if m.mayWrite i s r = false then abAuth
      else if r.ty.takes len = false then abLength
      else 0

/-- A write of an object (R394): the abort code, 0 where it takes effect; a refused write changes nothing but what its
chapter says a refusal leaves. In recovery mode an index that is not served is refused by state. -/
def Mod.objWrite (m : Mod) (i s : Nat) (bs : Bytes) (x : ObjIn) : Nat × Mod :=
  let c := m.writeCheck i s bs.length
  if c ≠ 0 then (c, m)
  else
    let r := m.objEffect i s bs x
    if m.sec.recovery = true ∧ servedInRecovery i = false then (if abEarly r.1 then r.1 else abState, m) else r

/-- Orders 2 to 5 and 8 of a read. -/
def Mod.readCheck (m : Mod) (i s : Nat) : Nat :=
  if objExists i = false then abNoObject
  else match objRow i s with
    | none => abNoSub
    | some r =>
      if r.acc = .wo then abWriteOnly
      else if i = 0x4450 ∧ s = 3 ∧ m.hasRight 1 = false then abAuth
      else if m.sec.recovery = true ∧ servedInRecovery i = false then abState
      else 0

/-- A read of an object: its value, or the abort code. DBG_ACC reads the accumulator that DBG_SEL names (R499). -/
def Mod.objRead (m : Mod) (i s : Nat) : Except Nat Bytes × Mod :=
  let c := m.readCheck i s
  if c ≠ 0 then (.error c, m)
  else if i = 0x4450 ∧ s = 3 then
    let m1 := m.debugRead m.sec.dbgSel
    (if m1.sec.dbgStatus = 0#8 then .ok (regBytes m1.sec.dbgAcc) else .error abNoData, m1)
  else match m.objValue i s with
    | some b => (.ok b, m)
    | none => (.error abNoData, m)

/-! ### The server (R389, R390) -/

/-- The node answers SDO and USDO requests: not while stopped (R392), bus-off (R388) or restarting (R460). -/
def Mod.serving (m : Mod) : Bool := m.can.nmt != .stopped && !m.can.busOff && !m.boot.mcDown

/-- An answer, unless an injection drops it. -/
def Mod.answer (m : Mod) (fd : Bool) (i s : Nat) (r : SdoResult) : Mod :=
  if m.serving = false then m
  else if m.dropsFrame true 2 then m.injected
  else { m with can := { m.can with answers := m.can.answers ++ [⟨fd, i, s, r⟩] } }

/-- A request that the node receives, unless it does not serve or an injection drops the frame. -/
def Mod.request (m : Mod) (go : Mod → Mod) : Mod :=
  if m.serving = false then m
  else if m.dropsFrame false 2 then m.injected
  else go m

/-- The answer to a write. -/
def sdoWritten (c : Nat) : SdoResult := if c = 0 then .done else .abort c

/-- While a transfer is open a new request is refused by state, after whatever is refused before that (R390, R394). -/
def Mod.whileOpen (m : Mod) (fd : Bool) (i s c : Nat) : Mod := m.answer fd i s (.abort (if abEarly c then c else abState))

/-- A write that stands for its whole transfer, in however many frames. -/
def Mod.sdoWhole (m : Mod) (fd : Bool) (i s : Nat) (bs : Bytes) (x : ObjIn) : Mod :=
  m.request (fun (m : Mod) =>
    let r := m.objWrite i s bs x
    if m.can.transfer.isSome then m.whileOpen fd i s r.1
    else r.2.answer fd i s (sdoWritten r.1))

/-- A write of a number. -/
def Mod.sdoPut {w : Nat} (m : Mod) (fd : Bool) (i s : Nat) (v : BitVec w) : Mod := m.sdoWhole fd i s (regBytes v) ObjIn.none

/-- The bytes that fit in the answer or request itself: 4 in a classic frame, 56 in an FD frame. -/
def sdoFits (fd : Bool) : Nat := if fd then 56 else 4

/-- The bytes of a segment. -/
def sdoSegment (fd : Bool) : Nat := if fd then 56 else 7

/-- SDO_DOWNLOAD: a write request, with its data where it fits, else with the announced length of a segmented one. -/
def Mod.sdoDownload (m : Mod) (valid fd : Bool) (i s size : Nat) (data : Option Bytes) (x : ObjIn) : Mod :=
  m.request (fun (m : Mod) =>
    if valid = false then m.answer fd i s (.abort abSpecifier)
    else match data with
      | some bs =>
        let r := m.objWrite i s bs x
        if m.can.transfer.isSome then m.whileOpen fd i s r.1 else r.2.answer fd i s (sdoWritten r.1)
      | none =>
        let c := m.writeCheck i s size
        if m.can.transfer.isSome then m.whileOpen fd i s c
        else if c ≠ 0 then m.answer fd i s (.abort c)
        else
          let t : SdoTransfer := ⟨true, i, s, fd, size, []⟩
          ({ m with can := { m.can with transfer := some t } } : Mod).answer fd i s (.opened size))

/-- SDO_UPLOAD: a read request; the snapshot is taken now. -/
def Mod.sdoUpload (m : Mod) (valid fd : Bool) (i s : Nat) : Mod :=
  m.request (fun (m : Mod) =>
    if valid = false then m.answer fd i s (.abort abSpecifier)
    else if m.can.transfer.isSome then m.whileOpen fd i s (m.readCheck i s)
    else match m.objRead i s with
      | (.error c, m1) => m1.answer fd i s (.abort c)
      | (.ok bs, m1) =>
        if bs.length ≤ sdoFits fd then m1.answer fd i s (.data bs)
        else
          let t : SdoTransfer := ⟨false, i, s, fd, bs.length, bs⟩
          ({ m1 with can := { m1.can with transfer := some t } } : Mod).answer fd i s (.opened bs.length))

/-- Close the open transfer. -/
def Mod.closeTransfer (m : Mod) : Mod := { m with can := { m.can with transfer := none } }

/-- A segment of a download: after the last one the write takes effect whole. -/
def Mod.downSegment (m : Mod) (t : SdoTransfer) (data : Bytes) (last : Bool) (x : ObjIn) : Mod :=
  let all := t.data ++ data
  if t.size < all.length ∨ (last = true ∧ all.length ≠ t.size) then
    m.closeTransfer.answer t.usdo t.index t.sub (.abort abLength)
  else if last then
    let r := m.closeTransfer.objWrite t.index t.sub all x
    r.2.answer t.usdo t.index t.sub (sdoWritten r.1)
  else
    let t1 : SdoTransfer := { t with data := all }
    ({ m with can := { m.can with transfer := some t1 } } : Mod).answer t.usdo t.index t.sub .more

/-- A segment of an upload: the next part of the snapshot. -/
def Mod.upSegment (m : Mod) (t : SdoTransfer) : Mod :=
  let n := sdoSegment t.usdo
  let last := decide (t.data.length ≤ n)
  let t1 : SdoTransfer := { t with data := t.data.drop n }
  let m1 : Mod := { m with can := { m.can with transfer := if last then none else some t1 } }
  m1.answer t.usdo t.index t.sub (.segment (t.data.take n) last)

/-- SDO_SEGMENT: a segment, or the request for one, of the open transfer; without one the specifier is invalid. -/
def Mod.sdoSegmentRow (m : Mod) (fd : Bool) (data : Bytes) (last : Bool) (x : ObjIn) : Mod :=
  m.request (fun (m : Mod) =>
    match m.can.transfer with
    | none => m.answer fd 0 0 (.abort abSpecifier)
    | some t =>
      if t.usdo ≠ fd then m.answer fd t.index t.sub (.abort abSpecifier)
      else if t.download then m.downSegment t data last x
      else m.upSegment t)

/-- SDO_SEGMENT_TIMEOUT (R390). -/
def Mod.sdoTimeout (m : Mod) : Mod :=
  match m.can.transfer with
  | none => m
  | some t => m.closeTransfer.answer t.usdo t.index t.sub (.abort abTimeout)

end Sys2Proof.Machine
end

