-- ==== Sys2Proof/Machine/Node.lean ====
section
/-!
DEFINITION. The CAN FD node's other services: NMT, heartbeats, SYNC, PDOs, bus-off and the error register (R388 to R396,
R523).
-/
namespace Sys2Proof.Machine

/-- Heartbeat codes (R392). -/
def Nmt.code : Nmt → Nat
  | .preOperational => 0x7F
  | .operational => 0x05
  | .stopped => 0x04

/-- The node takes part in the bus. -/
def Mod.onBus (m : Mod) : Bool := !m.can.busOff && !m.boot.mcDown

/-- A frame that is no heartbeat, SDO, PDO or EMCY frame arrives, unless an injection drops it (R477). -/
def Mod.otherFrame (m : Mod) (go : Mod → Mod) : Mod :=
  if m.onBus = false then m else if m.dropsFrame false 0 then m.injected else go m

/-- The NMT state changes: NMT_STATE carries the old and new heartbeat codes (R409). -/
def Mod.setNmt (m : Mod) (n : Nmt) : Mod :=
  if m.can.nmt = n then m
  else ({ m with can := { m.can with nmt := n } } : Mod).raise .nmtState noUnit (payload [i1 m.can.nmt.code, i1 n.code])

/-- NMT start, stop and enter pre-operational. -/
def Mod.nmtCommand (m : Mod) (n : Nmt) : Mod := m.otherFrame (fun (m : Mod) => m.setNmt n)

/-- NMT reset node and reset communication: the objects 0x1000 to 0x1FFF return to their defaults, the node-ID is chosen
again, and a boot-up message is sent (R391 to R393). -/
def Mod.resetComm (m : Mod) : Mod :=
  m.otherFrame (fun (m : Mod) =>
    let c := m.can
    let node := chooseNode c.strapNodeId c.nodeIdOverride
    let m1 := m.setNmt .preOperational
    let m2 : Mod := { m1 with can := m1.can.defaults (decide (m.effective 0 0 = .run)) node }
    let m3 := if c.strapNodeId = 0#7 ∧ c.nodeIdOverride = 0#8 then m2.raise .nodeIdDefault noUnit [] else m2
    m3.bootMessage)

/-- HEARTBEAT: every 100 ms; in recovery mode always with code 0x7F (R393, R489). -/
def Mod.heartbeat (m : Mod) : Mod :=
  let code := if m.sec.recovery then 0x7F else m.can.nmt.code
  m.sendFrame 1 ⟨0x700 + m.can.activeNodeId.toNat, leBytes 1 code⟩

/-- The node that CONSUMER_HB names; none where it is off. -/
def Mod.consumedNode (m : Mod) : Option Nat :=
  if m.can.consumerHb = 0#32 then none else some (field m.can.consumerHb.toNat 16 8)

/-- A heartbeat of a node arrives: the consumed node's ends a loss (R393, R464). -/
def Mod.heartbeatFrom (m : Mod) (node : Nat) : Mod :=
  if m.onBus = false then m
  else if m.dropsFrame false 1 then m.injected
  else if m.consumedNode ≠ some node then m
  else { m with can := { m.can with hbLost := false, hbBack := m.can.hbBack || m.can.hbLost } }

/-- MGMT_HEARTBEAT_LOST: once, until a heartbeat has arrived again; SAFE_CAUSE bit 5 (R393, R457). -/
def Mod.heartbeatLost (m : Mod) : Mod :=
  match m.consumedNode with
  | none => m
  | some node =>
    if m.can.hbLost || m.boot.mcDown then m
    else ({ m with can := { m.can with hbLost := true, hbBack := false } } : Mod).danger .mgmtHeartbeatLost noUnit
      (payload [i1 node]) 5

/-! ### PDOs (R395, R396) -/

/-- The PDO is valid. -/
def Tpdo.valid (t : Tpdo) : Bool := !t.cobId.msb

/-- The snapshot of the objects that a PDO maps. -/
def Mod.pdoData (m : Mod) (t : Tpdo) : Bytes :=
  ((t.map.take t.mapCount.toNat).map (fun e =>
    (m.objValue (field e.toNat 16 16) (field e.toNat 8 8)).getD [])).flatten

/-- An instance becomes due: queued from one snapshot; one that was not yet sent is replaced and counted. -/
def Mod.queuePdo (m : Mod) (n : Nat) : Mod :=
  let t := m.tpdo n
  let m1 := m.setTpdo n { t with queued := some (m.pdoData t), syncs := 0 }
  if t.queued = none then m1
  else
    let l : Log := { m1.log with pdoOverruns := satAdd m1.log.pdoOverruns 1 }
    if l.overrunRaised = m.second then { m1 with log := l }
    else ({ m1 with log := { l with overrunRaised := m.second } } : Mod).raise .pdoOverrun noUnit (payload [i1 (n + 1)])

/-- A SYNC reaches one PDO: types 1 to 240 become due after every nth. -/
def Mod.syncPdo (m : Mod) (n : Nat) : Mod :=
  let t := m.tpdo n
  if t.valid = false ∨ 240 < t.ttype.toNat ∨ t.ttype = 0#8 then m
  else if t.syncs + 1 < t.ttype.toNat then m.setTpdo n { t with syncs := t.syncs + 1 }
  else m.queuePdo n

/-- SYNC: a frame with the COB-ID of SYNC_COBID, while the node is operational. -/
def Mod.sync (m : Mod) (cob : Nat) : Mod :=
  m.otherFrame (fun (m : Mod) =>
    if m.can.nmt ≠ .operational ∨ m.can.syncCobId.toNat ≠ cob then m else (List.range 8).foldl Mod.syncPdo m)

/-- TPDO_EVENT_TIMER: a valid PDO of type 0xFE with a timer, while the node is operational. -/
def Mod.pdoTimer (m : Mod) (n : Nat) : Mod :=
  let t := m.tpdo n
  if m.can.nmt ≠ .operational ∨ m.boot.mcDown = true ∨ t.valid = false ∨ t.ttype ≠ 0xFE#8 ∨ t.timer = 0#16 then m
  else m.queuePdo n

/-- TPDO_SENT: the queued instance goes out on the bus. -/
def Mod.pdoSent (m : Mod) (n : Nat) : Mod :=
  let t := m.tpdo n
  match t.queued with
  | none => m
  | some d =>
    if m.can.nmt ≠ .operational ∨ m.onBus = false then m
    else (m.setTpdo n { t with queued := none }).sendFrame 3 ⟨field t.cobId.toNat 0 11, d⟩

/-! ### Bus-off and the error register (R388, R523) -/

/-- CAN_BUS_OFF. -/
def Mod.busOff (m : Mod) : Mod :=
  if m.can.busOff then m else ({ m with can := { m.can with busOff := true } } : Mod).raise .canBusOff noUnit []

/-- BUS_OFF_RECOVERY: 128 occurrences of 11 recessive bits have passed. -/
def Mod.busOn (m : Mod) : Mod := { m with can := { m.can with busOff := false } }

/-- Bit 2: a voltage condition. -/
def Mod.voltageBad (m : Mod) : Bool :=
  m.power.undervolt || m.power.railBad != 0#7
  || (List.range 16).any (fun b => !isDark m.plan b && decide (5 ≤ failedPhases m.fuses b))

/-- Bit 3: a temperature or coolant condition. -/
def Mod.heatBad (m : Mod) : Bool :=
  let t := m.thermal
  decide (t.limit.toNat < 160) || t.flowState != 0#8 || t.inletRaised || m.memStacks.ctl.any (fun c => c.selfRefresh)

/-- Bit 4: a communication condition. -/
def Mod.commBad (m : Mod) : Bool :=
  m.can.busOff || m.can.hbLost || (m.jnl.wasUp && m.jnl.train.st != .up)
  || m.hdg.ports.any (fun p => p.train.st == .failed)

/-- The levels of ERROR_REGISTER. -/
def Mod.errorLevels (m : Mod) : BitVec 8 :=
  BitVec.ofNat 8 (b2n (allUnits.any (fun u => m.inFault u.1 u.2)) + 4 * b2n m.voltageBad + 8 * b2n m.heatBad
    + 16 * b2n m.commBad + 128 * b2n m.safe.active)

/-- ERROR_REGISTER_UPDATE: the object is updated whole. -/
def Mod.errorUpdate (m : Mod) : Mod :=
  if m.boot.mcDown then m else { m with can := { m.can with errorRegister := m.errorLevels } }

end Sys2Proof.Machine
end

