-- ==== Sys2Proof/Machine/State.lean ====
section
/-!
DEFINITION. State: the module, and the commands that wait.
-/
namespace Sys2Proof.Machine

/-- The whole state: the module, and the queue of commands that wait, first in, first out. -/
structure State where
  m : Mod
  pending : List Instr
deriving DecidableEq, Repr

/-- Reasons to stop with a fault. There is none: no command of the module ends it, and no meaning raises one. -/
inductive Fault where
deriving DecidableEq, Repr

/-- Reasons to refuse a command. -/
inductive Refusal where
  /-- No meaning has been written for the command. Raised by an arm of `exec` that names the row; safe: nothing is claimed of
  the command. No arm raises it now. -/
  | notModelled (mnemonic : String)
deriving DecidableEq, Repr

/-- The module right after reset, with no command waiting (R411, R422). -/
def State.reset : State := ⟨Mod.reset, []⟩

end Sys2Proof.Machine
end

