-- ==== Sys2Proof/Machine/Window.lean ====
section
/-!
DEFINITION. The device window of the Jaeno link: its registers, mailboxes, the dictionary mirror and the sliding
aperture; host requests in their order; packets and flits that arrive (R366 to R385).
-/
namespace Sys2Proof.Machine

/-! ### The dictionary mirror (R382, R383) -/

/-- The CANopen data type of an object's descriptor. -/
def ObjTy.typeCode : ObjTy → Nat
  | .u8 => 0x05
  | .u16 => 0x06
  | .u32 => 0x07
  | .u64 => 0x1B
  | .i16 => 0x03
  | .vis _ => 0x09
  | .oct _ => 0x0A
  | .bytes => 0x0A

/-- The bytes that the mirror keeps for a value: those of its length, up to 4 KiB. -/
def ObjTy.room (t : ObjTy) : Nat :=
  match t.len with
  | some n => if 4096 < n then 0 else n
  | none => 4096

/-- Every index that has an object. -/
def objIndices : List Nat := (objRows.flatMap (fun r => (List.range r.idxs).map (fun k => r.idx + k))).eraseDups

/-- A number of bytes rounded up to a multiple of 8. -/
def up8 (n : Nat) : Nat := (n + 7) / 8 * 8

/-- The descriptors and values of some subindices of an object whose next value lies at offset `off`. -/
def Mod.mirrorSubs (m : Mod) (i off : Nat) (subs : List Nat) : Bytes × Bytes :=
  match subs with
  | [] => ([], [])
  | s :: rest =>
    match objRow i s with
    | none => let r := mirrorSubs m i off rest; (List.replicate 8 0#8 ++ r.1, r.2)
    | some row =>
      let room := if row.acc = .wo then 0 else row.ty.room
      let v := if room = 0 then [] else ((m.objValue i s).getD []).take room
      let d := (if room = 0 then 0 else off) + v.length % 4096 * 2 ^ 24 + row.ty.typeCode * 2 ^ 40
      let r := mirrorSubs m i (off + up8 room) rest
      (leBytes 8 d ++ r.1, padTo (up8 room) v ++ r.2)

/-- The record of an object that begins at an offset: its highest subindex, its descriptors, its values. -/
def Mod.mirrorRecord (m : Mod) (i off : Nat) : Bytes :=
  let n := highestSub i + 1
  let head := up8 (1 + 8 * n)
  let r := m.mirrorSubs i (off + head) (List.range n)
  padTo head (BitVec.ofNat 8 (highestSub i) :: r.1) ++ r.2

/-- The records one after the other, each with its index and offset. -/
def Mod.mirrorRecords (m : Mod) (off : Nat) (is : List Nat) : List (Nat × Nat) × Bytes :=
  match is with
  | [] => ([], [])
  | i :: rest =>
    let b := m.mirrorRecord i off
    let r := mirrorRecords m (off + b.length) rest
    ((i, off) :: r.1, b ++ r.2)

/-- The mirror from its header on. -/
def Mod.mirror (m : Mod) : Bytes :=
  let r := m.mirrorRecords 0x14100 objIndices
  let dir := (List.range 20480).flatMap (fun k =>
    leBytes 4 (match r.1.find? (fun e => e.1 == 0x1000 + k) with | some e => e.2 | none => 0))
  leBytes 4 0x4F444D31 ++ leBytes 2 1 ++ List.replicate 250 0#8 ++ dir ++ r.2

/-! ### The global registers (R375) -/

/-- The value of a global register; none at an unassigned offset. -/
def Mod.readGlobal (m : Mod) (off : Nat) : Option Nat :=
  let j := m.jnl
  match off / 8 * 8 with
  | 0x00 => some 0xA01536
  | 0x08 => some (j.train.st.code + b2n j.ready * 8 + (m.effective 0 0).code * 16)
  | 0x10 => some j.apertureBase.toNat
  | 0x18 => some j.hrmSrc.toNat
  | 0x20 => some j.hrmDst.toNat
  | 0x28 => some (b2n j.hrmEnable)
  | 0x30 => some (field j.intMask.toNat 0 64)
  | 0x38 => some (field j.intMask.toNat 64 18)
  | 0x40 => some (field j.intPend.toNat 0 64)
  | 0x48 => some (field j.intPend.toNat 64 18)
  | 0x50 => some j.unassigned.toNat
  | _ => none

/-- A new mask: each pending vector that it unmasks sends its interrupt (R381). -/
def Mod.setMask (m : Mod) (v : Nat) : Mod :=
  let old := m.jnl.intMask.toNat
  let m1 : Mod := { m with jnl := { m.jnl with intMask := BitVec.ofNat 82 v } }
  ((List.range 82).filter (fun k => bitOf old k && !bitOf v k && bitOf m.jnl.intPend.toNat k)).foldl Mod.sendInterrupt m1

/-- Clear pending vectors. -/
def Mod.clearPend (m : Mod) (v : Nat) : Mod :=
  { m with jnl := { m.jnl with intPend := m.jnl.intPend &&& ~~~(BitVec.ofNat 82 v) } }

/-- A write of a global register; none at an unassigned offset. -/
def Mod.writeGlobal (m : Mod) (off : Nat) (bs : Bytes) : Option Mod :=
  let j := m.jnl
  match m.readGlobal off with
  | none => none
  | some old =>
    let v := regMerge old off bs
    some (match off / 8 * 8 with
      | 0x10 => { m with jnl := { j with apertureBase := BitVec.ofNat 64 (field v 20 32 * 2 ^ 20) } }
      | 0x18 => { m with jnl := { j with hrmSrc := BitVec.ofNat 64 (field v 12 40 * 2 ^ 12) } }
      | 0x20 => { m with jnl := { j with hrmDst := BitVec.ofNat 64 (field v 12 52 * 2 ^ 12) } }
      | 0x28 => { m with jnl := { j with hrmEnable := bitOf v 0 } }
      | 0x30 => m.setMask (field j.intMask.toNat 64 18 * 2 ^ 64 + v)
      | 0x38 => m.setMask (field j.intMask.toNat 0 64 + field v 0 18 * 2 ^ 64)
      | 0x40 => m.clearPend (regMerge 0 off bs)
      | 0x48 => m.clearPend (field (regMerge 0 off bs) 0 18 * 2 ^ 64)
      | _ => m)

/-! ### The window (R373, R374, R376) -/

/-- A block of the window. -/
inductive WinBlock where
  | globals (off : Nat)
  | dma (q off : Nat)
  | mailbox (n off : Nat)
  | seqt (off : Nat)
  | fence (off : Nat)
  | mirror (off : Nat)
  | aperture (off : Nat)
  | none
deriving DecidableEq, Repr

/-- The block at an offset. -/
def winBlock (o : Nat) : WinBlock :=
  if o < 0x100 then .globals o
  else if 0x100000 ≤ o ∧ o < 0x140000 then .dma ((o - 0x100000) / 0x1000) (o % 0x1000)
  else if 0x200000 ≤ o ∧ o < 0x300000 then .mailbox ((o - 0x200000) / 0x10000) (o % 0x10000)
  else if 0x400000 ≤ o ∧ o < 0x500000 then .seqt (o - 0x400000)
  else if 0x500000 ≤ o ∧ o < 0x500010 then .fence (o - 0x500000)
  else if 0x800000 ≤ o ∧ o < 0x1000000 then .mirror (o - 0x800000)
  else if 0x1000000 ≤ o ∧ o < 0x4000000 then .aperture (o - 0x1000000)
  else .none

/-- The block answers: during a full reset of the Lower die only the global registers and the mirror do (R384). -/
def Mod.answers (m : Mod) : WinBlock → Bool
  | .globals _ => true
  | .mirror _ => true
  | _ => m.jnl.ready

/-- Count an unassigned window access. -/
def Mod.unassignedWin (m : Mod) : Mod := { m with jnl := { m.jnl with unassigned := satAdd m.jnl.unassigned 1 } }

/-- A range of device addresses lies in the stack region and touches no metadata chunk. -/
def stackRange (a n : Nat) : Bool := decide (a + n ≤ 0x18000000000) && !touchesMeta a n

/-- A write through the sliding aperture (R376). -/
def Mod.apertureWrite (m : Mod) (a : Nat) (bs : Bytes) (ep : Bool) (comps : Nat) : Mod :=
  if stackRange a bs.length then (m.writeStack a [(bs, ep)] 7 false reqHost).2
  else match regionAt a with
    | .core n o => if o + bs.length ≤ 0x100000 then m.writeCore n o bs else m.countDiscard 1 a
    | .register o => m.regStore o bs reqHost comps
    | _ => m.countDiscard 1 a

/-- A read through the sliding aperture: the bytes, and whether some word of them is marked. -/
def Mod.apertureRead (m : Mod) (a n : Nat) : (Bytes × Bool) × Mod :=
  let zeros : Bytes := List.replicate n 0#8
  if stackRange a n then
    let r := m.readStack a n 7 false reqHost
    ((pieceBytes r.1, piecePoison r.1), r.2)
  else match regionAt a with
    | .core k o => ((if o + n ≤ 0x100000 then m.readCore k o n else zeros, false), m)
    | .register o => (((m.regRead o n).getD zeros, false), m)
    | _ => ((zeros, false), m)

/-- A write of registers: it must be aligned, and what nothing takes is discarded and counted. -/
def Mod.winReg (m : Mod) (off : Nat) (bs : Bytes) (r : Option Mod) : Mod :=
  if regAligned off bs.length then r.getD m.unassignedWin else m.unassignedWin

/-- A write at an offset of the window. -/
def Mod.winWrite (m : Mod) (off : Nat) (bs : Bytes) (ep : Bool) (comps : Nat) : Mod :=
  if m.answers (winBlock off) = false then m.unassignedWin
  else match winBlock off with
    | .globals o => m.winReg o bs (m.writeGlobal o bs)
    | .dma q o => m.winReg o bs (m.writeDmaReg q o bs comps)
    | .mailbox n o =>
      if o < 0x1000 then m.winReg o bs (m.writeMailbox n o bs)
      else { m with jnl := { m.jnl with ccMem := memWrite m.jnl.ccMem (n * 0x100000 + o) bs } }
    | .seqt o => m.seqWriteAll 4098 o bs reqHost
    | .fence o => m.winReg o bs (m.writeFence o bs)
    | .mirror _ => m
    | .aperture o => m.apertureWrite (m.jnl.apertureBase.toNat + o) bs ep comps
    | .none => m.unassignedWin

/-- A read of registers. -/
def Mod.winRegRead (m : Mod) (off n : Nat) (r : Option Nat) : (Bytes × Bool) × Mod :=
  if regAligned off n then ((regSlice (r.getD 0) off n, false), m)
  else ((List.replicate n 0#8, false), m.unassignedWin)

/-- A read at an offset of the window. -/
def Mod.winRead (m : Mod) (off n : Nat) : (Bytes × Bool) × Mod :=
  let zeros : Bytes := List.replicate n 0#8
  if m.answers (winBlock off) = false then ((zeros, false), m)
  else match winBlock off with
    | .globals o => m.winRegRead o n (m.readGlobal o)
    | .dma q o => m.winRegRead o n (m.readDmaReg q o)
    | .mailbox k o =>
      if o < 0x1000 then m.winRegRead o n (m.readMailbox k o)
      else ((memRead m.jnl.ccMem (k * 0x100000 + o) n, false), m)
    | .seqt o => ((m.seqRead o n, false), m)
    | .fence o => m.winRegRead o n (m.readFence o)
    | .mirror o => ((padTo n ((m.mirror.drop o).take n), false), m)
    | .aperture o => m.apertureRead (m.jnl.apertureBase.toNat + o) n
    | .none => ((zeros, false), m)

/-- The parts of a request: it is divided where it crosses a 4 KiB boundary outside the aperture, so that every part lies in
one block. -/
def winParts (off n : Nat) : List (Nat × Nat) :=
  let first := 4096 - off % 4096
  match winBlock off with
  | .aperture _ => [(off, n)]
  | _ => if n ≤ first then [(off, n)] else [(off, first), (off + first, n - first)]

/-! ### Host requests in their order (R225, R374) -/

/-- A word of the stack region that a program holds from the request (R225). -/
def Mod.reqHeldAt (m : Mod) (q : HostReq) : Option Nat :=
  match winBlock q.off with
  | .aperture o =>
    let a := m.jnl.apertureBase.toNat + o
    let n := if q.write then q.data.length else q.len
    if m.jnl.ready && stackRange a n && m.rangeHeld a n q.write then m.heldWord a n q.write else none
  | _ => none

/-- A host write takes effect; a host read is answered with a completion. -/
def Mod.serveHost (m : Mod) (q : HostReq) : Mod :=
  if q.write then
    (winParts q.off q.data.length).foldl (fun (m : Mod) p =>
      m.winWrite p.1 ((q.data.drop (p.1 - q.off)).take p.2) q.ep q.comps) m
  else
    let r := (winParts q.off q.len).foldl (fun (x : (Bytes × Bool) × Mod) p =>
      let y := x.2.winRead p.1 p.2
      ((x.1.1 ++ y.1.1, x.1.2 || y.1.2), y.2)) (([], false), m)
    r.2.sendPacket ⟨packetHeader 3 true r.1.2 q.tag q.len 0 0, r.1.1⟩

/-- Serve host requests in order, until one meets a word that a program holds. -/
def Mod.hostPump (fuel : Nat) (m : Mod) : Mod :=
  match fuel with
  | 0 => m
  | fuel + 1 =>
    match m.jnl.hostQ with
    | [] => m
    | q :: rest =>
      match m.reqHeldAt q with
      | some w =>
        if q.heldAt.isSome then m
        else
          let g := m.glnOf (bankOf w)
          let m1 := m.setGln (bankOf w) { g with held := satAdd g.held 1 }
          { m1 with jnl := { m1.jnl with hostQ := { q with heldAt := some m.clock.timeUs } :: rest } }
      | none =>
        let m1 : Mod := { m with jnl := { m.jnl with hostQ := rest } }
        let m2 := match q.heldAt with | some t => m1.holdEnded t | none => m1
        hostPump fuel (m2.serveHost q)

/-- Serve whatever host requests can be served. -/
def Mod.pumpHost (m : Mod) : Mod := m.hostPump (m.jnl.hostQ.length + 1)

/-- A host request arrives while the link is UP. -/
def Mod.hostRequest (m : Mod) (q : HostReq) : Mod :=
  if m.jnl.train.st = .up then ({ m with jnl := { m.jnl with hostQ := m.jnl.hostQ ++ [q] } } : Mod).pumpHost else m

/-- MEMORY_WRITE: one of no bytes does nothing, one above 4,096 is discarded. -/
def Mod.memoryWritePacket (m : Mod) (off : Nat) (bs : Bytes) (ep : Bool) (comps : Nat) : Mod :=
  if bs = [] ∨ 4096 < bs.length then m else m.hostRequest ⟨true, off, bs, 0, ep, 0, comps, none⟩

/-- MEMORY_READ: one above 4,096 is answered with CST 2. -/
def Mod.memoryReadPacket (m : Mod) (off n tag : Nat) : Mod :=
  if 4096 < n then
    (if m.jnl.train.st = .up then m.sendPacket ⟨packetHeader 3 true false tag 0 2 0, []⟩ else m)
  else m.hostRequest ⟨false, off, [], n, false, tag, 0, none⟩

/-- A 4 or 8 byte write of the host to a register of the window. -/
def Mod.hostReg (m : Mod) (off : Nat) (bs : Bytes) : Mod := m.memoryWritePacket off bs false 0

/-- COMPLETION: the JA-2 answers a read request of the module, or a transfer's write with an error (R368, R379). -/
def Mod.hostCompletion (m : Mod) (tag : Nat) (data : Bytes) (ep : Bool) (cst : Nat) : Mod :=
  if m.jnl.train.st ≠ .up then m
  else match m.jnl.reads.find? (fun r => r.tag == tag) with
    | none => m.hostWriteError tag cst
    | some r =>
      match r.xfer, r.record with
      | some x, _ => m.hostData r x.1 x.2 data ep cst
      | _, some x => m.tokenData r x.1 x.2 data (ep || cst != 0)
      | _, _ => m

/-! ### Packets and flits that arrive (R368, R369) -/

/-- A packet as it has arrived. -/
structure RxPacket where
  kind : Nat
  ep : Bool
  tag : Nat
  len : Nat
  cst : Nat
  addr : Nat
  data : Bytes
deriving DecidableEq, Repr

/-- The bytes of data that follow a header: those of a write, and those of a completion that is OK. -/
def rxDataLen (kind cst len : Nat) : Nat := if kind = 1 ∨ (kind = 3 ∧ cst = 0) then len else 0

/-- The packets that are complete, and what is left. A header of KIND 0 is filler (log entry 20). -/
def takePackets (fuel : Nat) (bs : Bytes) : List RxPacket × Bytes :=
  match fuel with
  | 0 => ([], bs)
  | fuel + 1 =>
    if bs.length < 16 then ([], bs)
    else
      let h := leNat (bs.take 16)
      let kind := field h 0 4
      let len := field h 16 13
      let n := rxDataLen kind (field h 29 3) len
      let size := 16 + (n + 15) / 16 * 16
      if bs.length < size then ([], bs)
      else
        let r := takePackets fuel (bs.drop size)
        let p : RxPacket := ⟨kind, bitOf h 5, field h 6 10, len, field h 29 3, field h 32 64, (bs.drop 16).take n⟩
        (if kind = 0 then r.1 else p :: r.1, r.2)

/-- A packet takes effect. -/
def Mod.takePacket (m : Mod) (p : RxPacket) (comps : Nat) : Mod :=
  match p.kind with
  | 1 => m.memoryWritePacket p.addr p.data p.ep comps
  | 2 => m.memoryReadPacket p.addr p.len p.tag
  | 3 => m.hostCompletion p.tag p.data p.ep p.cst
  | _ => m

/-- Act on the ACK and NAK of a Jaeno flit (R344, R369; log entry 22). -/
def Mod.jnlAck (m : Mod) (ack : Nat) (nak : Bool) : Mod :=
  let l := m.jnl.lane
  let hit := l.replay.any (fun e => e.1 == ack)
  let l1 := if hit then { l with replay := dropThrough ack l.replay, timeouts := 0, replayed := false } else l
  let again := nak && !l1.replayed && decide (l1.replay ≠ [])
  let m1 : Mod := { m with jnl := { m.jnl with
    lane := { l1 with replayed := nak && (l1.replayed || again) }
    replays := if again then satAdd m.jnl.replays 1 else m.jnl.replays } }
  (if again then m1.jnlResend else m1).jnlPump 512

/-- The payload of a DATA flit accepted in its order: its packets take effect one after the other. `comps` gives, for each,
what DMAQ_HEAD asks of a ring in host memory. -/
def Mod.jnlPayload (m : Mod) (f : Bytes) (comps : List Nat) : Mod :=
  let first := (listGet 0#8 f 4).toNat
  let pl := (f.drop 12).take 240
  let bs := if m.jnl.rx = [] then (if first = 0xFF then [] else pl.drop (16 * first)) else m.jnl.rx ++ pl
  let r := takePackets (bs.length + 1) bs
  let m1 : Mod := { m with jnl := { m.jnl with rx := r.2 } }
  r.1.zipIdx.foldl (fun (m : Mod) e => m.takePacket e.1 (listGet 0 comps e.2)) m1

/-- JNL_FLIT: a DATA or IDLE flit arrives (R341, R344, R369). -/
def Mod.jnlData (m : Mod) (f : Bytes) (fecBad : Bool) (comps : List Nat) : Mod :=
  if m.jnl.train.st ≠ .up then m
  else if fecBad = true ∨ jnlIntact f = false then { m with jnl := { m.jnl with crcFail := satAdd m.jnl.crcFail 1 } }
  else
    let h := leNat (f.take 4)
    if 2 ≤ field h 0 4 then m
    else
      let m1 := (m.setJnl { m.jnl.train with ueRun := 0 }).jnlAck (field h 14 10) (bitOf h 24)
      let l := m1.jnl.lane
      if field h 0 4 = 0 then m1
      else if field h 4 10 = l.expect then
        let l1 := { l with expect := (l.expect + 1) % 1024, acked := some l.expect, nak := false }
        ({ m1 with jnl := { m1.jnl with lane := l1 } } : Mod).jnlPayload f comps
      else { m1 with jnl := { m1.jnl with lane := { l with nak := true }, crcFail := satAdd m1.jnl.crcFail 1 } }

/-! ### Rows over device addresses and the window -/

/-- REGISTER_WRITE: a register of the apertures at its device address, or one of the window, which the host writes. -/
def Mod.registerWrite (m : Mod) (window : Bool) (a : Nat) (bs : Bytes) (writer : BitVec 32) (comps : Nat) : Mod :=
  if window then m.memoryWritePacket a bs false comps
  else match regionAt a with
    | .register o => m.regStore o bs writer comps
    | .core n o => if o < 0x1000 then m.writeCore n o bs else m
    | _ => m

/-- UNASSIGNED_ACCESS: a read or a write where nothing lies (R10, R188): a read of `n` bytes, or a write. -/
def Mod.unassignedAccess (m : Mod) (window write : Bool) (a n : Nat) (bs : Bytes) : Mod :=
  if window then (if write then m.memoryWritePacket a bs false 0 else m.memoryReadPacket a n 0)
  else
    let zeros : Mod := { m with rick := { m.rick with answer := [(List.replicate n 0#8, false)] } }
    match regionAt a with
    | .unassigned => if write then m.countDiscard 1 a else zeros
    | .register o =>
      if write then (if (m.regWrite o bs noUnit 0).isNone then m.countDiscard 2 a else m)
      else if (m.regRead o n).isNone then zeros else m
    | _ => m

/-- HRM_COPY: a control core writes a line of the page that the host register mirror copies (R380). -/
def Mod.hrmLine (m : Mod) (core line : Nat) (bs : Bytes) : Mod :=
  let a := m.jnl.hrmSrc.toNat + 128 * line
  if m.jnl.hrmEnable && stackRange a 128 then m.coreWriteStack core a (bs.take 128) 3 else m

end Sys2Proof.Machine
end

