-- ==== Sys2Proof/Machine/Command.lean ====
section
/-!
DEFINITION. What the meanings of the commands share.
-/
namespace Sys2Proof.Machine

/-- A command takes effect on the module; without input power nothing does (R23). The queue stays as it is. -/
def State.on (s : State) (f : Mod → Mod) : Host.Outcome State Fault Refusal :=
  .next (if s.m.boot.powered then { s with m := f s.m } else s)

/-- A DM slot that does nothing. -/
def DmF.nop : DmF := dmF 0

/-- An SB slot that does nothing. -/
def SbF.nop : SbF := sbF 0

/-- The word of a VX slot with the MODE that reads the flags into the operand (R330). -/
def flagMode (w : BitVec 64) : BitVec 64 := w ||| 0x100000000000#64

/-- Count the rows that a softmax has found empty (R305). -/
def Mod.emptyRows (m : Mod) (n : Nat) : Mod :=
  { m with attn := { m.attn with emptyRow := satAdd m.attn.emptyRow n } }

/-- The value of a reset request: the kind, and whether contents are kept (R421). -/
def resetWord (kind : Nat) (save : Bool) : BitVec 16 := BitVec.ofNat 16 (kind + if save then 256 else 0)

/-- What happens in a microsecond with no command (log entry 1): the clock counts, host requests that no program holds any
longer are served, control cores empty their completion queues (R131), and with no stream running a committed lea
configuration comes into force (R138). Without input power nothing happens. -/
def Mod.idle (m : Mod) : Mod :=
  if m.boot.powered then
    let m1 : Mod := { m with
      clock := { m.clock with timeUs := m.clock.timeUs + 1 }
      chip := { m.chip with completions := [] } }
    (if m1.running then m1 else m1.leaSwap).pumpHost
  else m

end Sys2Proof.Machine
end

