-- ==== Sys2Proof/Machine/CmdAccess.lean ====
section
/-!
DEFINITION. Accesses to registers, to unassigned addresses and to the object dictionary: one meaning for each command.
-/
namespace Sys2Proof.Machine

/-- REGISTER_WRITE (R11): a write to a register that has no row of its own, applied under its access code. -/
def execRegisterWrite (window : Bool) (addr : BitVec 64) (data : Bytes) (writer : BitVec 32) (comps : Nat) (s : State)
    : Host.Outcome State Fault Refusal :=
  s.on (fun m => m.registerWrite window addr.toNat data writer comps)

/-- UNASSIGNED_ACCESS (R10): a read or write at an unassigned address or window offset: reads return zeros, writes are
discarded and counted. -/
def execUnassignedAccess (window write : Bool) (addr : BitVec 64) (len : Nat) (data : Bytes) (s : State) :
    Host.Outcome State Fault Refusal :=
  s.on (fun m => m.unassignedAccess window write addr.toNat len data)

/-- SDO_DOWNLOAD (R390): an SDO or USDO write request to an object that has no row of its own, checked in abort order
and applied whole. -/
def execSdoDownload (valid fd : Bool) (index : BitVec 16) (sub : BitVec 8) (size : Nat) (data : Option Bytes)
    (input : ObjIn) (s : State) : Host.Outcome State Fault Refusal :=
  s.on (fun m => m.sdoDownload valid fd index.toNat sub.toNat size data input)

/-- SDO_UPLOAD (R390): an SDO or USDO read request, served from one snapshot taken when the transfer begins. -/
def execSdoUpload (valid fd : Bool) (index : BitVec 16) (sub : BitVec 8) (s : State) :
    Host.Outcome State Fault Refusal :=
  s.on (fun m => m.sdoUpload valid fd index.toNat sub.toNat)

/-- SDO_SEGMENT (R390): a segment of an open segmented transfer arrives; after the last segment the write takes effect
whole. -/
def execSdoSegment (fd : Bool) (data : Bytes) (last : Bool) (input : ObjIn) (s : State) :
    Host.Outcome State Fault Refusal :=
  s.on (fun m => m.sdoSegmentRow fd data last input)

/-- SDO_SEGMENT_TIMEOUT (R390): a segmented transfer has waited 1 s for its next segment and is ended with abort
0x0504_0000. -/
def execSdoSegmentTimeout (s : State) : Host.Outcome State Fault Refusal :=
  s.on (fun m => m.sdoTimeout)

/-- INPUT_POWER_LOST (R23): input power is lost; the hold-up bank completes only a cairn record already started, and
volatile contents are lost. -/
def execInputPowerLost (s : State) : Host.Outcome State Fault Refusal :=
  s.on (fun m => m.powerLost)

/-- BOOT (R411): after input power has held 40 V for 1 ms, or after a beacon restart, the boot ROM verifies the
firmware, forms the floor plan record and sends the boot-up message. -/
def execBoot (straps : BitVec 7) (resetLow : Bool) (bootMs : BitVec 32) (s : State) : Host.Outcome State Fault Refusal
    :=
  .next { s with m := s.m.bootUp straps resetLow bootMs }

/-- RETIRE (R51): a write to 0x2010:07 requests retirement of one enabled position, and the field fuse is burned if
the request is accepted. -/
def execRetire (fd : Bool) (v : BitVec 16) (s : State) : Host.Outcome State Fault Refusal :=
  s.on (fun m => m.sdoPut fd 0x2010 7 v)

end Sys2Proof.Machine
end

