-- ==== Sys2Proof/Machine/CmdAttn.lean ====
section
/-!
DEFINITION. Attention: the sequence table, walks and submissions: one meaning for each command.
-/
namespace Sys2Proof.Machine

/-- PUBLISH_WRITE (R292): a 16 B write of a sequence entry's publish word, accepted only if its GEN advances by 1. -/
def execPublishWrite (entry : Fin 4096) (word : BitVec 128) (writer : BitVec 32) (s : State) :
    Host.Outcome State Fault Refusal :=
  s.on (fun m => m.seqWriteIn (256 * entry.val) (leBytes 16 word.toNat) writer)

/-- SEQT_FENCE (R295): a write that arms the walk-complete fence for an entry and generation. -/
def execSeqtFence (v : BitVec 64) (s : State) : Host.Outcome State Fault Refusal :=
  s.on (fun m => (m.fenceWrite v.toNat).settleFences)

/-- FENCE_CLEAR (R295): no walk of the old generation remains, so PENDING clears. -/
def execFenceClear (done : List Nat) (s : State) : Host.Outcome State Fault Refusal :=
  s.on (fun m => (m.walksDone done).settleFences)

/-- WALK (R299): a control core walks one work entry and sends the page descriptors. -/
def execWalk (cmdId entry : Nat) (s : State) : Host.Outcome State Fault Refusal :=
  s.on (fun m => m.walk cmdId entry)

/-- OPEN (R310): an OPEN submission makes an entry live and sets its sampler state. -/
def execOpenSub (core : Fin 16) (s : State) : Host.Outcome State Fault Refusal :=
  s.on (fun m => m.subRow core.val 1)

/-- PROMPT (R310): a PROMPT submission fetches token IDs and queues prefill. -/
def execPrompt (core : Fin 16) (s : State) : Host.Outcome State Fault Refusal :=
  s.on (fun m => m.subRow core.val 2)

/-- PUBLISH (R310): a PUBLISH submission applies a publish word and completes after its fence. -/
def execPublish (core : Fin 16) (s : State) : Host.Outcome State Fault Refusal :=
  s.on (fun m => m.subRow core.val 3)

/-- CANDIDATES (R310): a CANDIDATES submission sets the candidate chain or tree. -/
def execCandidates (core : Fin 16) (s : State) : Host.Outcome State Fault Refusal :=
  s.on (fun m => m.subRow core.val 4)

/-- CLOSE (R310): a CLOSE submission clears LIVE once the fence clears. -/
def execCloseSub (core : Fin 16) (s : State) : Host.Outcome State Fault Refusal :=
  s.on (fun m => m.subRow core.val 5)

end Sys2Proof.Machine
end

