-- ==== Sys2Proof/Machine/CmdBring.lean ====
section
/-!
DEFINITION. Bring-up and resets: one meaning for each command.
-/
namespace Sys2Proof.Machine

/-- RAILS (R414): GO to step 1: the rails are switched on and checked. -/
def execRails (fd : Bool) (v : BitVec 8) (s : State) : Host.Outcome State Fault Refusal :=
  s.on (fun m => m.sdoPut fd 0x2210 1 v)

/-- TRAIN (R415): GO to step 2: stacks, metadata, the Jaeno link and crossings are trained. -/
def execTrain (fd : Bool) (v : BitVec 8) (s : State) : Host.Outcome State Fault Refusal :=
  s.on (fun m => m.sdoPut fd 0x2211 1 v)

/-- HEADERS (R525): GO to step 3: the band headers are closed one band at a time. -/
def execHeaders (fd : Bool) (v : BitVec 8) (s : State) : Host.Outcome State Fault Refusal :=
  s.on (fun m => m.sdoPut fd 0x2212 1 v)

/-- FIRMWARE (R486): GO to step 4: the control-core package is verified and the cores are started. -/
def execFirmware (fd : Bool) (v : BitVec 8) (s : State) : Host.Outcome State Fault Refusal :=
  s.on (fun m => m.sdoPut fd 0x2213 1 v)

/-- SELF_TEST (R416): GO to step 5: known-answer and march tests. -/
def execSelfTest (fd : Bool) (v : BitVec 8) (s : State) : Host.Outcome State Fault Refusal :=
  s.on (fun m => m.sdoPut fd 0x2214 1 v)

/-- IMAGE_LOAD (R418): GO to step 6: an image part is checked and loaded. -/
def execImageLoad (fd : Bool) (v : BitVec 8) (variants : List PlantMap) (s : State) : Host.Outcome State Fault Refusal
    :=
  s.on (fun m => m.sdoWhole fd 0x2215 1 (regBytes v) { ObjIn.none with variants := variants })

/-- START (R420): GO to step 7: a loaded non-lea image starts. -/
def execStart (fd : Bool) (v : BitVec 8) (programs : List (Fin 512 × BitVec 64)) (s : State) :
    Host.Outcome State Fault Refusal :=
  s.on (fun m => m.sdoWhole fd 0x2216 1 (regBytes v) ⟨[], { ObjIn.none.barrier with programs := programs }⟩)

/-- STEP_COMPLETION (R413): a running bring-up step ends DONE or FAILED. -/
def execStepCompletion (found : StepEnd) (s : State) : Host.Outcome State Fault Refusal :=
  s.on (fun m => m.stepCompletion found)

/-- STEP_BOUND_EXPIRY (R413): a step passes its bound and ends FAILED with BU_TIMEOUT. -/
def execStepBoundExpiry (s : State) : Host.Outcome State Fault Refusal :=
  s.on (fun m => m.stepTimeout)

/-- COMPUTE_RESET (R422): RESET_CMD kind 1, 2 or 3: a compute reset of die L, die U or both, optionally with SAVE. -/
def execComputeReset (fd : Bool) (kind : Fin 3) (save : Bool) (s : State) : Host.Outcome State Fault Refusal :=
  s.on (fun m => m.sdoPut fd 0x2480 1 (resetWord (kind.val + 1) save))

/-- LOWER_DIE_FULL_RESET (R423): RESET_CMD kind 4: the full reset procedure of the Lower die. -/
def execLowerDieFullReset (fd : Bool) (s : State) : Host.Outcome State Fault Refusal :=
  s.on (fun m => m.sdoPut fd 0x2480 1 (resetWord 4 false))

/-- FULL_RESET (R422): RESET_CMD kind 5: a full reset of the module. -/
def execFullReset (fd : Bool) (s : State) : Host.Outcome State Fault Refusal :=
  s.on (fun m => m.sdoPut fd 0x2480 1 (resetWord 5 false))

/-- PARTIAL_RESET (R423): RESET_CMD kind 6: a partial reset of RESET_UNIT. -/
def execPartialReset (fd : Bool) (s : State) : Host.Outcome State Fault Refusal :=
  s.on (fun m => m.sdoPut fd 0x2480 1 (resetWord 6 false))

/-- RESET_COMPLETION (R421): a running reset ends, and RESET_RESULT is set. -/
def execResetCompletion (windows : List CrossWindow) (s : State) : Host.Outcome State Fault Refusal :=
  s.on (fun m => m.resetCompletion windows)

/-- RESET_N (R513): RESET_N held low for 10 µs or more starts a full reset. -/
def execResetN (s : State) : Host.Outcome State Fault Refusal :=
  s.on (fun m => m.resetPin)

end Sys2Proof.Machine
end

