-- ==== Sys2Proof/Machine/CmdCells.lean ====
section
/-!
DEFINITION. The operations of a slot at one cell, and of a row: one meaning for each command.
-/
namespace Sys2Proof.Machine

/-- ADV (R117): an MX ADV is issued: its operand addresses are formed, and the weight feed starts reading at its
declared share. -/
def execAdv (cell : Fin 4704) (word : BitVec 64) (s : State) : Host.Outcome State Fault Refusal :=
  s.on (fun m => m.runAdv cell.val word)

/-- ADVANCE (R69): once the staged feed bytes cover a full advance, the enabled arrays make one advance. -/
def execAdvance (cell : Fin 4704) (s : State) : Host.Outcome State Fault Refusal :=
  s.on (fun m => m.runAdvance cell.val)

/-- SWAP (R70): an MX SWAP reads out the accumulators with a residue check and writes the preload values. -/
def execSwap (cell : Fin 4704) (word : BitVec 64) (ups : List Upset) (s : State) : Host.Outcome State Fault Refusal :=
  s.on (fun m => m.runSwap cell.val word ups)

/-- SWAP_SAVED (R180): a SWAP with PRELOAD = SAVED drains the tile and restores the saved accumulator image from Loam.
-/
def execSwapSaved (cell : Fin 4704) (word : BitVec 64) (ups : List Upset) (s : State) :
    Host.Outcome State Fault Refusal :=
  s.on (fun m => m.runSwap cell.val (swapSaved word) ups)

/-- TILE_DRAIN (R70): the drain path converts and writes a tile's values, row statistics and status word, ending in
step s + 16. -/
def execTileDrain (cell : Fin 4704) (s : State) : Host.Outcome State Fault Refusal :=
  s.on (fun m => m.runDrain cell.val)

/-- CTX_SAVE (R98): the accumulators are copied into the cell's reserved Loam area over 90 steps. -/
def execCtxSave (cell : Fin 4704) (s : State) : Host.Outcome State Fault Refusal :=
  s.on (fun m => m.runCtx cell.val true)

/-- CTX_RESTORE (R98): the accumulators are restored from the reserved Loam area, and each residue is rebuilt. -/
def execCtxRestore (cell : Fin 4704) (s : State) : Host.Outcome State Fault Refusal :=
  s.on (fun m => m.runCtx cell.val false)

/-- ADD (R119): VX ADD. -/
def execAdd (cell : Fin 4704) (word : BitVec 64) (ups : List Upset) (s : State) : Host.Outcome State Fault Refusal :=
  s.on (fun m => m.runVx cell.val 1 word ups)

/-- MUL (R119): VX MUL. -/
def execMul (cell : Fin 4704) (word : BitVec 64) (ups : List Upset) (s : State) : Host.Outcome State Fault Refusal :=
  s.on (fun m => m.runVx cell.val 2 word ups)

/-- FMA (R119): VX fused multiply-add with one rounding. -/
def execFma (cell : Fin 4704) (word : BitVec 64) (ups : List Upset) (empty : Nat) (s : State) :
    Host.Outcome State Fault Refusal :=
  s.on (fun m => (m.runVx cell.val 3 word ups).emptyRows empty)

/-- MAX (R119): VX MAX. -/
def execMax (cell : Fin 4704) (word : BitVec 64) (ups : List Upset) (s : State) : Host.Outcome State Fault Refusal :=
  s.on (fun m => m.runVx cell.val 4 word ups)

/-- MIN (R119): VX MIN. -/
def execMin (cell : Fin 4704) (word : BitVec 64) (ups : List Upset) (s : State) : Host.Outcome State Fault Refusal :=
  s.on (fun m => m.runVx cell.val 5 word ups)

/-- CVT (R90): VX conversion from SFMT to DFMT. -/
def execCvt (cell : Fin 4704) (word : BitVec 64) (ups : List Upset) (s : State) : Host.Outcome State Fault Refusal :=
  s.on (fun m => m.runVx cell.val 6 word ups)

/-- QUANT (R91): VX MX quantise of blocks of 32 values. -/
def execQuant (cell : Fin 4704) (word : BitVec 64) (ups : List Upset) (s : State) : Host.Outcome State Fault Refusal
    :=
  s.on (fun m => m.runVx cell.val 7 word ups)

/-- EXP (R90): windrow exp. -/
def execExp (cell : Fin 4704) (word : BitVec 64) (ups : List Upset) (s : State) : Host.Outcome State Fault Refusal :=
  s.on (fun m => m.runVx cell.val 8 word ups)

/-- RCP (R90): windrow reciprocal. -/
def execRcp (cell : Fin 4704) (word : BitVec 64) (ups : List Upset) (s : State) : Host.Outcome State Fault Refusal :=
  s.on (fun m => m.runVx cell.val 9 word ups)

/-- RSQRT (R90): windrow reciprocal square root. -/
def execRsqrt (cell : Fin 4704) (word : BitVec 64) (ups : List Upset) (s : State) : Host.Outcome State Fault Refusal
    :=
  s.on (fun m => m.runVx cell.val 10 word ups)

/-- ROWSTAT (R322): row mean and reciprocal standard deviation, or RMS, written to side memory. -/
def execRowstat (cell : Fin 4704) (word : BitVec 64) (ups : List Upset) (s : State) : Host.Outcome State Fault Refusal
    :=
  s.on (fun m => m.runVx cell.val 11 word ups)

/-- NORM (R321): normalise rows by the side-memory statistics. -/
def execNorm (cell : Fin 4704) (word : BitVec 64) (ups : List Upset) (s : State) : Host.Outcome State Fault Refusal :=
  s.on (fun m => m.runVx cell.val 12 word ups)

/-- SOFTMAX (R303): normalise rows by the row statistics, masked as selected. -/
def execSoftmax (cell : Fin 4704) (word : BitVec 64) (ups : List Upset) (s : State) : Host.Outcome State Fault Refusal
    :=
  s.on (fun m => m.runVx cell.val 13 word ups)

/-- SOFTMAX_BWD (R322): backward of softmax, using the side memory entries. -/
def execSoftmaxBwd (cell : Fin 4704) (word : BitVec 64) (ups : List Upset) (s : State) :
    Host.Outcome State Fault Refusal :=
  s.on (fun m => m.runVx cell.val 14 word ups)

/-- NORM_BWD (R322): backward of normalisation. -/
def execNormBwd (cell : Fin 4704) (word : BitVec 64) (ups : List Upset) (s : State) : Host.Outcome State Fault Refusal
    :=
  s.on (fun m => m.runVx cell.val 15 word ups)

/-- ROWSUM (R321): row sums, which with MODE 1 also write a delta side entry. -/
def execRowsum (cell : Fin 4704) (word : BitVec 64) (ups : List Upset) (s : State) : Host.Outcome State Fault Refusal
    :=
  s.on (fun m => m.runVx cell.val 16 word ups)

/-- ROWMAX (R321): row maxima. -/
def execRowmax (cell : Fin 4704) (word : BitVec 64) (ups : List Upset) (s : State) : Host.Outcome State Fault Refusal
    :=
  s.on (fun m => m.runVx cell.val 17 word ups)

/-- FLAG_READ (R330): ROWMAX with MODE 1 writes GRAD_NF as 1.0 or +0 and clears it. -/
def execFlagRead (cell : Fin 4704) (word : BitVec 64) (ups : List Upset) (s : State) :
    Host.Outcome State Fault Refusal :=
  s.on (fun m => m.runVx cell.val 17 (flagMode word) ups)

/-- COPY (R120): MV copy from tile memory to tile memory. -/
def execCopy (cell : Fin 4704) (word : BitVec 64) (ups : List Upset) (s : State) : Host.Outcome State Fault Refusal :=
  s.on (fun m => m.runMv cell.val 1 word ups)

/-- LOAM_IN (R168): loam rows to tile memory, one per step. -/
def execLoamIn (cell : Fin 4704) (word : BitVec 64) (ups : List Upset) (s : State) : Host.Outcome State Fault Refusal
    :=
  s.on (fun m => m.runMv cell.val 2 word ups)

/-- LOAM_OUT (R168): tile memory rows to Loam, one per step. -/
def execLoamOut (cell : Fin 4704) (word : BitVec 64) (ups : List Upset) (s : State) : Host.Outcome State Fault Refusal
    :=
  s.on (fun m => m.runMv cell.val 3 word ups)

/-- LOAM_XCHG (R169): one row out to Loam and one row in from Loam per step. -/
def execLoamXchg (cell : Fin 4704) (word : BitVec 64) (ups : List Upset) (s : State) :
    Host.Outcome State Fault Refusal :=
  s.on (fun m => m.runMv cell.val 4 word ups)

/-- LINK (R120): send and receive 256 B units on the partner or neighbour links. -/
def execLink (cell : Fin 4704) (word : BitVec 64) (ups : List Upset) (s : State) : Host.Outcome State Fault Refusal :=
  s.on (fun m => m.runMv cell.val 5 word ups)

/-- MESH_TX (R120): send flits on a mesh route in reserved steps. -/
def execMeshTx (cell : Fin 4704) (word : BitVec 64) (ups : List Upset) (s : State) : Host.Outcome State Fault Refusal
    :=
  s.on (fun m => m.runMv cell.val 6 word ups)

/-- MESH_RX (R120): receive scheduled mesh flits into tile memory. -/
def execMeshRx (cell : Fin 4704) (word : BitVec 64) (ups : List Upset) (s : State) : Host.Outcome State Fault Refusal
    :=
  s.on (fun m => m.runMv cell.val 7 word ups)

/-- LANE_TX (R120): drive the row's data lane. -/
def execLaneTx (cell : Fin 4704) (word : BitVec 64) (ups : List Upset) (s : State) : Host.Outcome State Fault Refusal
    :=
  s.on (fun m => m.runMv cell.val 8 word ups)

/-- LANE_RX (R120): write the data lane's bytes into tile memory. -/
def execLaneRx (cell : Fin 4704) (word : BitVec 64) (ups : List Upset) (s : State) : Host.Outcome State Fault Refusal
    :=
  s.on (fun m => m.runMv cell.val 9 word ups)

/-- GATHER (R301): gather the 128 B items named by a descriptor through the cell L1. -/
def execGather (cell : Fin 4704) (word : BitVec 64) (ups : List Upset) (s : State) : Host.Outcome State Fault Refusal
    :=
  s.on (fun m => m.runMv cell.val 10 word ups)

/-- ISSUE (R273): a DM slot starts the next descriptor of a stream queue and binds it to a tag. -/
def execIssue (row : Fin 96) (dq : Fin 64) (tag : Fin 256) (xb : Bool) (dline : Fin 8192) (hostDesc : BitVec 512)
    (s : State) : Host.Outcome State Fault Refusal :=
  s.on (fun m => m.runRow row.val ⟨1, dq.val, tag.val, xb, dline.val⟩ SbF.nop hostDesc)

/-- ISSUE_D (R273): a DM slot starts the DMA descriptor held in a cell's descriptor register. -/
def execIssueD (row : Fin 96) (q : Fin 4) (tag : Fin 256) (xb : Bool) (dline : Fin 8192) (lsrc : Fin 8) (s : State) :
    Host.Outcome State Fault Refusal :=
  s.on (fun m => m.runRow row.val ⟨2, 0, tag.val, xb, dline.val⟩ { SbF.nop with q := q.val, lsrc := lsrc.val } 0#512)

/-- WAITQ (R128): pop a descriptor queue into a descriptor register, waiting if the queue is empty. -/
def execWaitq (row : Fin 96) (q : Fin 4) (s : State) : Host.Outcome State Fault Refusal :=
  s.on (fun m => m.runRow row.val DmF.nop { SbF.nop with op := 1, q := q.val } 0#512)

/-- POSTQ (R131): post a completion record to the band's control core. -/
def execPostq (row : Fin 96) (tag : Fin 256) (lsrc : Fin 8) (s : State) : Host.Outcome State Fault Refusal :=
  s.on (fun m => m.runRow row.val DmF.nop { SbF.nop with op := 2, tag := tag.val, lsrc := lsrc.val } 0#512)

/-- WAITTAG (R122): wait until no transfer holds the tag. -/
def execWaittag (row : Fin 96) (tag : Fin 256) (s : State) : Host.Outcome State Fault Refusal :=
  s.on (fun m => m.runRow row.val DmF.nop { SbF.nop with op := 3, tag := tag.val } 0#512)

/-- DEBUG_READ (R97): a debug read returns one accumulator while the cell is halted. -/
def execDebugRead (sel : BitVec 32) (s : State) : Host.Outcome State Fault Refusal :=
  s.on (fun m => m.debugRead sel)

end Sys2Proof.Machine
end

