-- ==== Sys2Proof/Machine/CmdDma.lean ====
section
/-!
DEFINITION. The DMA engines: one meaning for each command.
-/
namespace Sys2Proof.Machine

/-- DMAQ_HEAD (R268): a producer-index doorbell for a DMA queue. -/
def execDmaqHead (q : Fin 64) (v : BitVec 16) (hostComps : Nat) (s : State) : Host.Outcome State Fault Refusal :=
  s.on (fun m => m.dmaqHead q.val v.toNat hostComps)

/-- DMAQ_CTRL_ENABLE (R269): enables or disables a DMA queue. -/
def execDmaqCtrlEnable (q : Fin 64) (v : BitVec 64) (s : State) : Host.Outcome State Fault Refusal :=
  s.on (fun m => m.dmaqCtrl q.val v.toNat)

/-- DMA_COPY (R272): a DMA COPY descriptor starts on a channel after its checks. -/
def execDmaCopy (source : DmaSource) (early : Nat) (s : State) : Host.Outcome State Fault Refusal :=
  s.on (fun m => m.dmaStart 1 source early)

/-- TRANSPOSE (R276): a DMA TRANSPOSE descriptor starts. -/
def execTranspose (source : DmaSource) (early : Nat) (s : State) : Host.Outcome State Fault Refusal :=
  s.on (fun m => m.dmaStart 2 source early)

/-- SCATTER (R277): a DMA SCATTER descriptor starts. -/
def execScatter (source : DmaSource) (early : Nat) (s : State) : Host.Outcome State Fault Refusal :=
  s.on (fun m => m.dmaStart 3 source early)

/-- DMA_FALLOW (R272): a DMA FALLOW descriptor sends the fallow command to the slices. -/
def execDmaFallow (source : DmaSource) (early : Nat) (s : State) : Host.Outcome State Fault Refusal :=
  s.on (fun m => m.dmaStart 4 source early)

/-- TRANSFER_COMPLETION (R280): a transfer completes: its tag is released and its completion record is written. -/
def execTransferCompletion (transfer : Nat) (s : State) : Host.Outcome State Fault Refusal :=
  s.on (fun m => m.transferCompletion transfer Mod.xferHeld)

/-- DEADLINE_DUE (R275): a scheduled transfer's due step begins before it has completed. -/
def execDeadlineDue (row : Fin 96) (tag : Fin 256) (s : State) : Host.Outcome State Fault Refusal :=
  s.on (fun m => m.deadlineMiss row.val tag.val)

/-- RESET_QUIESCE_TIMEOUT (R284): the 100 µs wait of a Lower-die full reset ends, and running transfers are aborted.
-/
def execResetQuiesceTimeout (s : State) : Host.Outcome State Fault Refusal :=
  s.on (fun m => m.quiesceTimeout)

end Sys2Proof.Machine
end

