-- ==== Sys2Proof/Machine/CmdGleaners.lean ====
section
/-!
DEFINITION. The gleaners: launches, program stores, micro-instructions and completions: one meaning for each command.
-/
namespace Sys2Proof.Machine

/-- GLN_CTRL_GO (R217): a launch write, direct or broadcast, is checked and, if accepted, starts preparation. -/
def execGlnCtrlGo (target : GlnTarget) (v : BitVec 64) (s : State) : Host.Outcome State Fault Refusal :=
  s.on (fun m => m.glnGo target v)

/-- GLN_CTRL_ABORT (R230): ABORT ends the program with GLN_ABORTED and poisons the write window. -/
def execGlnCtrlAbort (target : GlnTarget) (v : BitVec 64) (s : State) : Host.Outcome State Fault Refusal :=
  s.on (fun m => m.glnCtrlAbort target v)

/-- PROGRAM_STORE_WRITE (R215): an aligned 8 B micro-instruction write to a program store. -/
def execProgramStoreWrite (target : GlnTarget) (word : Fin 512) (v : BitVec 64) (s : State) :
    Host.Outcome State Fault Refusal :=
  s.on (fun m => m.writeStores target (8 * word.val) (leBytes 8 v.toNat))

/-- PROGRAM_START (R218): preparation completes; STATE becomes RUNNING and the program starts at ENTRY. -/
def execProgramStart (g : Fin 12288) (s : State) : Host.Outcome State Fault Refusal :=
  s.on (fun m => m.glnStart g.val)

/-- GLN_NOP (R221): gleaner NOP. -/
def execGlnNop (g : Fin 12288) (s : State) : Host.Outcome State Fault Refusal :=
  s.on (fun m => m.glnRun 0x00 g.val)

/-- HALT (R221): ends the program with OK; held accesses are released. -/
def execHalt (g : Fin 12288) (s : State) : Host.Outcome State Fault Refusal :=
  s.on (fun m => m.glnRun 0x01 g.val)

/-- JMP (R221): gleaner jump. -/
def execJmp (g : Fin 12288) (s : State) : Host.Outcome State Fault Refusal :=
  s.on (fun m => m.glnRun 0x02 g.val)

/-- BZ (R221): gleaner branch if zero. -/
def execBz (g : Fin 12288) (s : State) : Host.Outcome State Fault Refusal :=
  s.on (fun m => m.glnRun 0x03 g.val)

/-- LOOP (R221): gleaner counted loop. -/
def execLoop (g : Fin 12288) (s : State) : Host.Outcome State Fault Refusal :=
  s.on (fun m => m.glnRun 0x04 g.val)

/-- MOVI (R221): move an immediate. -/
def execMovi (g : Fin 12288) (s : State) : Host.Outcome State Fault Refusal :=
  s.on (fun m => m.glnRun 0x08 g.val)

/-- MOVHI (R221): move an immediate into the high half. -/
def execMovhi (g : Fin 12288) (s : State) : Host.Outcome State Fault Refusal :=
  s.on (fun m => m.glnRun 0x09 g.val)

/-- MOVP (R221): move a parameter. -/
def execMovp (g : Fin 12288) (s : State) : Host.Outcome State Fault Refusal :=
  s.on (fun m => m.glnRun 0x0A g.val)

/-- ADDI (R221): add an immediate. -/
def execAddi (g : Fin 12288) (s : State) : Host.Outcome State Fault Refusal :=
  s.on (fun m => m.glnRun 0x0B g.val)

/-- GLN_ADD (R221): scalar add. -/
def execGlnAdd (g : Fin 12288) (s : State) : Host.Outcome State Fault Refusal :=
  s.on (fun m => m.glnRun 0x0C g.val)

/-- XORI (R221): XOR with an immediate. -/
def execXori (g : Fin 12288) (s : State) : Host.Outcome State Fault Refusal :=
  s.on (fun m => m.glnRun 0x0D g.val)

/-- SHLI (R221): shift left by an immediate. -/
def execShli (g : Fin 12288) (s : State) : Host.Outcome State Fault Refusal :=
  s.on (fun m => m.glnRun 0x0E g.val)

/-- PUTR (R221): write a result register. -/
def execPutr (g : Fin 12288) (s : State) : Host.Outcome State Fault Refusal :=
  s.on (fun m => m.glnRun 0x0F g.val)

/-- LD (R222): load bank data into a vector register. -/
def execLd (g : Fin 12288) (s : State) : Host.Outcome State Fault Refusal :=
  s.on (fun m => m.glnRun 0x10 g.val)

/-- ST (R228): store a vector register to the bank. -/
def execSt (g : Fin 12288) (s : State) : Host.Outcome State Fault Refusal :=
  s.on (fun m => m.glnRun 0x11 g.val)

/-- LDS (R221): load side-row data. -/
def execLds (g : Fin 12288) (s : State) : Host.Outcome State Fault Refusal :=
  s.on (fun m => m.glnRun 0x12 g.val)

/-- LDSA (R221): load 32 bits of the side row into a scalar. -/
def execLdsa (g : Fin 12288) (s : State) : Host.Outcome State Fault Refusal :=
  s.on (fun m => m.glnRun 0x13 g.val)

/-- LATCH (R221): copy a bank row into the side row. -/
def execLatch (g : Fin 12288) (s : State) : Host.Outcome State Fault Refusal :=
  s.on (fun m => m.glnRun 0x14 g.val)

/-- QST (R221): quantise a block and store it. -/
def execQst (g : Fin 12288) (s : State) : Host.Outcome State Fault Refusal :=
  s.on (fun m => m.glnRun 0x15 g.val)

/-- VINS (R221): insert a scalar into a vector element. -/
def execVins (g : Fin 12288) (s : State) : Host.Outcome State Fault Refusal :=
  s.on (fun m => m.glnRun 0x16 g.val)

/-- LDA (R221): load bank data into a scalar. -/
def execLda (g : Fin 12288) (s : State) : Host.Outcome State Fault Refusal :=
  s.on (fun m => m.glnRun 0x17 g.val)

/-- CRC (R223): CRC-64 update over 32 B. -/
def execCrc (g : Fin 12288) (s : State) : Host.Outcome State Fault Refusal :=
  s.on (fun m => m.glnRun 0x18 g.val)

/-- VADD (R221): vector add. -/
def execVadd (g : Fin 12288) (s : State) : Host.Outcome State Fault Refusal :=
  s.on (fun m => m.glnRun 0x20 g.val)

/-- VMUL (R221): vector multiply. -/
def execVmul (g : Fin 12288) (s : State) : Host.Outcome State Fault Refusal :=
  s.on (fun m => m.glnRun 0x21 g.val)

/-- VFMA (R221): vector fused multiply-add. -/
def execVfma (g : Fin 12288) (s : State) : Host.Outcome State Fault Refusal :=
  s.on (fun m => m.glnRun 0x22 g.val)

/-- VMAX (R221): vector max. -/
def execVmax (g : Fin 12288) (s : State) : Host.Outcome State Fault Refusal :=
  s.on (fun m => m.glnRun 0x23 g.val)

/-- VMIN (R221): vector min. -/
def execVmin (g : Fin 12288) (s : State) : Host.Outcome State Fault Refusal :=
  s.on (fun m => m.glnRun 0x24 g.val)

/-- VRCP (R223): vector reciprocal. -/
def execVrcp (g : Fin 12288) (s : State) : Host.Outcome State Fault Refusal :=
  s.on (fun m => m.glnRun 0x25 g.val)

/-- VRSQ (R223): vector reciprocal square root. -/
def execVrsq (g : Fin 12288) (s : State) : Host.Outcome State Fault Refusal :=
  s.on (fun m => m.glnRun 0x26 g.val)

/-- VSPLAT (R221): broadcast a scalar to every lane. -/
def execVsplat (g : Fin 12288) (s : State) : Host.Outcome State Fault Refusal :=
  s.on (fun m => m.glnRun 0x27 g.val)

/-- VSUM (R223): pairwise lane sum. -/
def execVsum (g : Fin 12288) (s : State) : Host.Outcome State Fault Refusal :=
  s.on (fun m => m.glnRun 0x28 g.val)

/-- VAMAX (R221): largest lane magnitude. -/
def execVamax (g : Fin 12288) (s : State) : Host.Outcome State Fault Refusal :=
  s.on (fun m => m.glnRun 0x29 g.val)

/-- GLN_WATCHDOG (R227): a program reaches 50 µs; it ends and the gleaner enters FAULT. -/
def execGlnWatchdog (g : Fin 12288) (s : State) : Host.Outcome State Fault Refusal :=
  s.on (fun m => m.glnWatchdog g.val)

/-- GLN_COMPLETION (R232): a completion record is delivered to the named control core when its queue has room. -/
def execGlnCompletion (done : GlnDone) (drained : Nat) (optimiser : Bool) (s : State) :
    Host.Outcome State Fault Refusal :=
  s.on (fun m => m.glnCompletion done drained optimiser)

end Sys2Proof.Machine
end

