-- ==== Sys2Proof/Machine/CmdHedgerow.lean ====
section
/-!
DEFINITION. The hedgerow ports: one meaning for each command.
-/
namespace Sys2Proof.Machine

/-- LEA_FLIT (R344): a LEA lane flit is received, accepted in order or discarded with NAK; ACK and NAK are processed.
-/
def execLeaFlit (port : Fin 36) (flit : Bytes) (fecBad : Bool) (input : BarrierIn) (s : State) :
    Host.Outcome State Fault Refusal :=
  s.on (fun m => m.leaFlit port.val flit fecBad input)

/-- IDLE_FLIT (R341): an IDLE flit is received, carrying ACK, NAK and the token region. -/
def execIdleFlit (port : Fin 36) (flit : Bytes) (fecBad : Bool) (input : BarrierIn) (s : State) :
    Host.Outcome State Fault Refusal :=
  s.on (fun m => m.idleFlit port.val flit fecBad input)

/-- IDENT (R352): a hedgerow LINK IDENT flit is received, stored in PEER and echoed. -/
def execIdent (port : Fin 36) (flit : Bytes) (fecBad : Bool) (s : State) : Host.Outcome State Fault Refusal :=
  s.on (fun m => m.linkFlit port.val 1 flit fecBad)

/-- LANE_RESET (R342): a LANE_RESET flit resets a lane's SEQ, ACK and replay buffer. -/
def execLaneReset (port : Fin 36) (flit : Bytes) (fecBad : Bool) (s : State) : Host.Outcome State Fault Refusal :=
  s.on (fun m => m.linkFlit port.val 2 flit fecBad)

/-- LINK_FLIT_REPEAT (R342): an unechoed LINK flit is repeated every 1 µs. -/
def execLinkFlitRepeat (link : Fin 37) (s : State) : Host.Outcome State Fault Refusal :=
  s.on (fun m => (if link.val = 36 then m.jnlRepeatLinks else m.repeatLinks link.val))

/-- IDENT_TIMER (R352): IDENT is sent every 100 ms. -/
def execIdentTimer (s : State) : Host.Outcome State Fault Refusal :=
  s.on (fun m => m.identAll)

/-- REPLAY_TIMEOUT (R344): 2 µs without ACK progress, so unacknowledged flits are resent. -/
def execReplayTimeout (port : Fin 36) (be : Bool) (s : State) : Host.Outcome State Fault Refusal :=
  s.on (fun m => m.portReplayTimeout port.val be)

/-- PORT_SIGNAL_DETECTED (R349): signal appears on all 4 lanes, and the port enters SIGNAL. -/
def execPortSignalDetected (port : Fin 36) (s : State) : Host.Outcome State Fault Refusal :=
  s.on (fun m => m.portSignal port.val)

/-- PORT_SIGNAL_DONE (R349): clock recovery and equalisation complete, and the port enters ALIGN. -/
def execPortSignalDone (port : Fin 36) (s : State) : Host.Outcome State Fault Refusal :=
  s.on (fun m => m.portSignalDone port.val)

/-- PORT_ALIGN_DONE (R349): codeword lock is achieved, and the port enters IDENT. -/
def execPortAlignDone (port : Fin 36) (s : State) : Host.Outcome State Fault Refusal :=
  s.on (fun m => m.portAlignDone port.val)

/-- PORT_STATE_TIMEOUT (R349): a training bound is exceeded; the port returns to DOWN or enters FAILED. -/
def execPortStateTimeout (port : Fin 36) (s : State) : Host.Outcome State Fault Refusal :=
  s.on (fun m => m.portTimeout port.val)

/-- PORT_CODEWORD_UE (R350): an uncorrectable codeword is received, possibly triggering RETRAIN. -/
def execPortCodewordUe (port : Fin 36) (s : State) : Host.Outcome State Fault Refusal :=
  s.on (fun m => m.portUe port.val)

/-- FEC_WINDOW (R350): the 1 s corrected-symbol ratio is evaluated. -/
def execFecWindow (port : Fin 36) (corrected received : Nat) (s : State) : Host.Outcome State Fault Refusal :=
  s.on (fun m => m.portFec port.val corrected received)

/-- RETRAIN_REQ (R351): acts on a hedgerow port according to its state. -/
def execRetrainReq (fd : Bool) (v : BitVec 8) (s : State) : Host.Outcome State Fault Refusal :=
  s.on (fun m => m.sdoPut fd 0x3803 0 v)

/-- LEA_TRANSFER_DUE (R354): a transfer list repeat falls due and takes its tag. -/
def execLeaTransferDue (port : Fin 36) (recv : Bool) (s : State) : Host.Outcome State Fault Refusal :=
  s.on (fun m => m.transferDue port.val recv)

/-- HDG_BEQ_HEAD (R361): a doorbell for a best-effort send queue. -/
def execHdgBeqHead (q : Fin 8) (v : BitVec 16) (s : State) : Host.Outcome State Fault Refusal :=
  s.on (fun m => m.beqHead q.val v)

/-- WRITE (R360): a best-effort WRITE message arrives: it is forwarded, dropped, or written into a receive window and
acknowledged. -/
def execBeWrite (port : Fin 36) (s : State) : Host.Outcome State Fault Refusal :=
  s.on (fun m => m.beArrive port.val 1)

/-- ACK (R363): a best-effort ACK message arrives and completes its send record. -/
def execBeAck (port : Fin 36) (s : State) : Host.Outcome State Fault Refusal :=
  s.on (fun m => m.beArrive port.val 2)

/-- ACK_TIMEOUT (R363): no ACK within 10 ms, so the message completes HDG_UNREACHABLE. -/
def execAckTimeout (msgId : Nat) (s : State) : Host.Outcome State Fault Refusal :=
  s.on (fun m => m.beSettle msgId 0xA0#8)

end Sys2Proof.Machine
end

