-- ==== Sys2Proof/Machine/CmdJaeno.lean ====
section
/-!
DEFINITION. The Jaeno link, its window and the mailboxes: one meaning for each command.
-/
namespace Sys2Proof.Machine

/-- JNL_IDENT (R370): a Jaeno LINK IDENT flit is received and checked. -/
def execJnlIdent (flit : Bytes) (fecBad : Bool) (s : State) : Host.Outcome State Fault Refusal :=
  s.on (fun m => m.jnlIdent flit fecBad)

/-- MEMORY_WRITE (R374): a host memory write packet is applied in arrival order. -/
def execMemoryWrite (addr : BitVec 64) (data : Bytes) (ep : Bool) (comps : Nat) (s : State) :
    Host.Outcome State Fault Refusal :=
  s.on (fun m => m.memoryWritePacket addr.toNat data ep comps)

/-- MEMORY_READ (R374): a host memory read packet is served after earlier writes and answered with a completion. -/
def execMemoryRead (addr : BitVec 64) (len : Nat) (tag : BitVec 10) (s : State) : Host.Outcome State Fault Refusal :=
  s.on (fun m => m.memoryReadPacket addr.toNat len tag.toNat)

/-- COMPLETION (R368): a completion packet from the JA-2 answers a module read request. -/
def execCompletion (tag : BitVec 10) (data : Bytes) (ep : Bool) (cst : BitVec 3) (s : State) :
    Host.Outcome State Fault Refusal :=
  s.on (fun m => m.hostCompletion tag.toNat data ep cst.toNat)

/-- JNL_REPLAY_TIMEOUT (R369): 5 µs without ACK progress, so Jaeno flits are replayed. -/
def execJnlReplayTimeout (s : State) : Host.Outcome State Fault Refusal :=
  s.on (fun m => m.jnlReplayTimeout)

/-- JNL_SIGNAL_DETECTED (R371): signal on all 16 lanes, and the link enters SIGNAL. -/
def execJnlSignalDetected (s : State) : Host.Outcome State Fault Refusal :=
  s.on (fun m => m.jnlSignal)

/-- JNL_SIGNAL_DONE (R371): equalisation completes, and the link enters ALIGN. -/
def execJnlSignalDone (s : State) : Host.Outcome State Fault Refusal :=
  s.on (fun m => m.jnlSignalDone)

/-- JNL_ALIGN_DONE (R371): codeword lock is achieved, and the link enters IDENT. -/
def execJnlAlignDone (s : State) : Host.Outcome State Fault Refusal :=
  s.on (fun m => m.jnlAlignDone)

/-- JNL_STATE_TIMEOUT (R371): a Jaeno training bound is exceeded. -/
def execJnlStateTimeout (s : State) : Host.Outcome State Fault Refusal :=
  s.on (fun m => m.jnlTimeout)

/-- JNL_CODEWORD_UE (R372): an uncorrectable Jaeno codeword, possibly triggering RETRAIN. -/
def execJnlCodewordUe (s : State) : Host.Outcome State Fault Refusal :=
  s.on (fun m => m.jnlUe)

/-- JNL_FEC_WINDOW (R372): the 1 s Jaeno corrected-symbol ratio is evaluated. -/
def execJnlFecWindow (corrected received : Nat) (s : State) : Host.Outcome State Fault Refusal :=
  s.on (fun m => m.jnlFec corrected received)

/-- JNL_RETRAIN_REQ (R372): acts on the Jaeno link according to its state. -/
def execJnlRetrainReq (fd : Bool) (v : BitVec 8) (s : State) : Host.Outcome State Fault Refusal :=
  s.on (fun m => m.sdoPut fd 0x3841 0 v)

/-- JNL_INT_PEND (R381): a w1c write clears pending interrupt vectors. -/
def execJnlIntPend (high : Bool) (v : BitVec 64) (s : State) : Host.Outcome State Fault Refusal :=
  s.on (fun m => m.hostReg (if high then 0x48 else 0x40) (regBytes v))

/-- JNL_INT_MASK (R381): a mask write; unmasking a pending vector sends its interrupt. -/
def execJnlIntMask (high : Bool) (v : BitVec 64) (s : State) : Host.Outcome State Fault Refusal :=
  s.on (fun m => m.hostReg (if high then 0x38 else 0x30) (regBytes v))

/-- HRM_COPY (R380): a control-core sheaf line write is copied to the host register mirror page. -/
def execHrmCopy (core : Fin 16) (line : Fin 32) (data : Bytes) (s : State) : Host.Outcome State Fault Refusal :=
  s.on (fun m => m.hrmLine core.val line.val data)

/-- CCMB_IN_HEAD (R378): a mailbox doorbell. -/
def execCcmbInHead (core : Fin 16) (v : BitVec 16) (s : State) : Host.Outcome State Fault Refusal :=
  s.on (fun m => m.hostReg (0x200000 + core.val * 0x10000) (leBytes 8 v.toNat))

/-- MAILBOX_RECORD (R378): a control core takes the next submission record and advances TAIL. -/
def execMailboxRecord (core : Fin 16) (s : State) : Host.Outcome State Fault Refusal :=
  s.on (fun m => m.mailboxRecord core.val)

/-- MAILBOX_COMPLETION (R378): a mailbox completion is written to the outbound ring once a slot is free. -/
def execMailboxCompletion (core : Fin 16) (s : State) : Host.Outcome State Fault Refusal :=
  s.on (fun m => m.mailboxCompletion core.val)

end Sys2Proof.Machine
end

