-- ==== Sys2Proof/Machine/CmdLea.lean ====
section
/-!
DEFINITION. The lea: configuration, formation, tokens and their timers: one meaning for each command.
-/
namespace Sys2Proof.Machine

/-- LEA_SIZE (R139): a write to the staged LEA_SIZE, with zero refused as ZERO_INVALID. -/
def execLeaSize (fd : Bool) (v : BitVec 16) (s : State) : Host.Outcome State Fault Refusal :=
  s.on (fun m => m.sdoPut fd 0x4800 2 v)

/-- LEA_COMMIT (R138): COMMIT of the staged lea configuration after its consistency checks. -/
def execLeaCommit (fd : Bool) (v : BitVec 8) (s : State) : Host.Outcome State Fault Refusal :=
  s.on (fun m => m.sdoPut fd 0x4800 7 v)

/-- LEA_START (R158): START written to 0x4801:01 sends the formation REPORT. -/
def execLeaStart (fd : Bool) (input : BarrierIn) (s : State) : Host.Outcome State Fault Refusal :=
  s.on (fun m => m.sdoWhole fd 0x4801 1 [1#8] ⟨[], input⟩)

/-- LEAVE (R159): LEAVE clears the active lea configuration. -/
def execLeave (fd : Bool) (s : State) : Host.Outcome State Fault Refusal :=
  s.on (fun m => m.sdoPut fd 0x4801 1 2#8)

/-- STOP_REQ (R157): requests a stop at the next lea barrier. -/
def execStopReq (fd : Bool) (v : BitVec 8) (s : State) : Host.Outcome State Fault Refusal :=
  s.on (fun m => m.sdoPut fd 0x4801 2 v)

/-- REPORT (R143): a REPORT token arrives from a child and is combined with the node's own values. -/
def execReport (gate : Fin 6) (token : Token) (input : BarrierIn) (s : State) : Host.Outcome State Fault Refusal :=
  s.on (fun m => m.takeToken gate.val { token with type := 1#8 } input)

/-- RELEASE (R143): a RELEASE token arrives; the barrier completes, held completions are delivered and the new pace
applies. -/
def execRelease (gate : Fin 6) (token : Token) (input : BarrierIn) (s : State) : Host.Outcome State Fault Refusal :=
  s.on (fun m => m.takeToken gate.val { token with type := 2#8 } input)

/-- ALIVE (R154): an ALIVE token arrives and is forwarded toward the leader if it carries a flag. -/
def execAlive (gate : Fin 6) (token : Token) (input : BarrierIn) (s : State) : Host.Outcome State Fault Refusal :=
  s.on (fun m => m.takeToken gate.val { token with type := 3#8 } input)

/-- ABORT (R156): an ABORT token arrives, and the member halts at its next lea barrier. -/
def execAbort (gate : Fin 6) (token : Token) (input : BarrierIn) (s : State) : Host.Outcome State Fault Refusal :=
  s.on (fun m => m.takeToken gate.val { token with type := 4#8 } input)

/-- ALIVE_TIMER (R154): every 20 µs a running member sends ALIVE to its tree neighbours. -/
def execAliveTimer (s : State) : Host.Outcome State Fault Refusal :=
  s.on (fun m => m.aliveTimer)

/-- NEIGHBOUR_LOST (R154): no token from a tree neighbour for 100 µs, so the neighbour is declared lost. -/
def execNeighbourLost (gate : Fin 6) (s : State) : Host.Outcome State Fault Refusal :=
  s.on (fun m => m.neighbourLost gate.val)

/-- FORMATION_TIMEOUT (R158): no release 1 s after START, so LEA_FORM_TIMEOUT is set. -/
def execFormationTimeout (s : State) : Host.Outcome State Fault Refusal :=
  s.on (fun m => m.formationTimeout)

/-- BARRIER_OVERDUE (R140): 65,536 program steps pass without a lea barrier; the stream halts in FAULT. -/
def execBarrierOverdue (s : State) : Host.Outcome State Fault Refusal :=
  s.on (fun m => m.barrierOverdue)

/-- TOKEN_RESEND (R348): a REPORT or ABORT is resent every 10 µs while unanswered. -/
def execTokenResend (s : State) : Host.Outcome State Fault Refusal :=
  s.on (fun m => m.resendTokens)

end Sys2Proof.Machine
end

