-- ==== Sys2Proof/Machine/CmdNode.lean ====
section
/-!
DEFINITION. The CAN FD node and the unit state table: one meaning for each command.
-/
namespace Sys2Proof.Machine

/-- NMT_START (R392): NMT start. -/
def execNmtStart (s : State) : Host.Outcome State Fault Refusal :=
  s.on (fun m => m.nmtCommand .operational)

/-- NMT_STOP (R392): NMT stop. -/
def execNmtStop (s : State) : Host.Outcome State Fault Refusal :=
  s.on (fun m => m.nmtCommand .stopped)

/-- ENTER_PRE_OPERATIONAL (R392): NMT enter pre-operational. -/
def execEnterPreOperational (s : State) : Host.Outcome State Fault Refusal :=
  s.on (fun m => m.nmtCommand .preOperational)

/-- RESET_NODE (R392): NMT reset node, carried out as reset communication. -/
def execResetNode (s : State) : Host.Outcome State Fault Refusal :=
  s.on (fun m => m.resetComm)

/-- RESET_COMMUNICATION (R392): communication objects return to their defaults, and a boot-up message is sent. -/
def execResetCommunication (s : State) : Host.Outcome State Fault Refusal :=
  s.on (fun m => m.resetComm)

/-- HEARTBEAT (R393): the node sends its heartbeat every 100 ms. -/
def execHeartbeat (s : State) : Host.Outcome State Fault Refusal :=
  s.on (fun m => m.heartbeat)

/-- CONSUMED_HEARTBEAT (R393): a heartbeat of the consumed host node arrives. -/
def execConsumedHeartbeat (node : BitVec 7) (s : State) : Host.Outcome State Fault Refusal :=
  s.on (fun m => m.heartbeatFrom node.toNat)

/-- MGMT_HEARTBEAT_LOST (R393): no heartbeat for the consumer time; the module enters the safe state. -/
def execMgmtHeartbeatLost (s : State) : Host.Outcome State Fault Refusal :=
  s.on (fun m => m.heartbeatLost)

/-- CONSUMER_HB (R393): a write to 0x1016:01, with 0 refused while RUN. -/
def execConsumerHb (fd : Bool) (v : BitVec 32) (s : State) : Host.Outcome State Fault Refusal :=
  s.on (fun m => m.sdoPut fd 0x1016 1 v)

/-- SYNC (R396): a SYNC frame triggers due TPDOs. -/
def execSync (cob : BitVec 11) (s : State) : Host.Outcome State Fault Refusal :=
  s.on (fun m => m.sync cob.toNat)

/-- TPDO_EVENT_TIMER (R396): a TPDO's event timer expires, and the PDO is queued from a snapshot. -/
def execTpdoEventTimer (n : Fin 8) (s : State) : Host.Outcome State Fault Refusal :=
  s.on (fun m => m.pdoTimer n.val)

/-- CAN_BUS_OFF (R388): the CAN FD controller went bus-off. -/
def execCanBusOff (s : State) : Host.Outcome State Fault Refusal :=
  s.on (fun m => m.busOff)

/-- BUS_OFF_RECOVERY (R388): after 128 occurrences of 11 recessive bits, the controller recovers from bus-off. -/
def execBusOffRecovery (s : State) : Host.Outcome State Fault Refusal :=
  s.on (fun m => m.busOn)

/-- STATE_COMPARISON (R404): every 100 µs the two views of every unit are compared. -/
def execStateComparison (reports : List (BitVec 32 × Option UState)) (s : State) : Host.Outcome State Fault Refusal :=
  s.on (fun m => m.compareStates reports)

/-- FORCE_TIMEOUT (R405): the barrier has not been reached 700 µs after a disagreement, so the unit is forced at once.
-/
def execForceTimeout (s : State) : Host.Outcome State Fault Refusal :=
  s.on (fun m => m.forceTimeout)

/-- MISMATCH_CLEAR (R406): clears the mismatch bits of units whose views agree. -/
def execMismatchClear (fd : Bool) (v : BitVec 8) (s : State) : Host.Outcome State Fault Refusal :=
  s.on (fun m => m.sdoPut fd 0x2402 0 v)

/-- ERROR_REGISTER_UPDATE (R523): the ERROR_REGISTER levels are evaluated at least every 1 ms. -/
def execErrorRegisterUpdate (s : State) : Host.Outcome State Fault Refusal :=
  s.on (fun m => m.errorUpdate)

end Sys2Proof.Machine
end

