-- ==== Sys2Proof/Machine/CmdPins.lean ====
section
/-!
DEFINITION. REFCLK and what the table adds to the families above: one meaning for each command.
-/
namespace Sys2Proof.Machine

/-- REFCLK_LOST (R510): REFCLK is judged lost, and every active link PHY returns to DOWN. -/
def execRefclkLost (s : State) : Host.Outcome State Fault Refusal :=
  s.on (fun m => m.refclkLost)

/-- REFCLK_RESTORED (R510): REFCLK has been within ±100 ppm for 1 ms, and the PHYs train again. -/
def execRefclkRestored (s : State) : Host.Outcome State Fault Refusal :=
  s.on (fun m => m.refclkBack)

/-- BE_FLIT (R344): a BE lane flit (TYPE 2) is received on a hedgerow port, accepted in SEQ order or discarded with
NAK_B, and its ACK and NAK fields are processed. -/
def execBeFlit (port : Fin 36) (flit : Bytes) (fecBad : Bool) (input : BarrierIn) (s : State) :
    Host.Outcome State Fault Refusal :=
  s.on (fun m => m.beFlit port.val flit fecBad input)

/-- JNL_FLIT (R369): a Jaeno DATA or IDLE flit is received, checked against its CRC and SEQ, and its ACK and NAK are
processed, with replay on NAK. -/
def execJnlFlit (flit : Bytes) (fecBad : Bool) (comps : List Nat) (s : State) : Host.Outcome State Fault Refusal :=
  s.on (fun m => m.jnlData flit fecBad comps)

/-- RESET_N_RELEASED (R513): RESET_N returns high; after 1 ms high, GO writes to step objects are accepted again and
ALERT_N is released if nothing else holds it low. -/
def execResetNReleased (s : State) : Host.Outcome State Fault Refusal :=
  s.on (fun m => m.resetPinHigh)

/-- FW_COMMIT_VERIFIED (R490): verification of the slot named by FW_COMMIT completes; on OK the slot is selected for
the next boot, and in recovery mode the committed slot is booted with a full reset. -/
def execFwCommitVerified (s : State) : Host.Outcome State Fault Refusal :=
  s.on (fun m => m.fwVerified)

/-- TPDO_SENT (R396): a queued TPDO instance is transmitted on the CAN FD bus after its inhibit time and bus access,
emptying its queue slot. -/
def execTpdoSent (n : Fin 8) (s : State) : Host.Outcome State Fault Refusal :=
  s.on (fun m => m.pdoSent n.val)

/-- CROSSING_STALL (R178): a band's droop exceeds 40 mV, and every crossing at that band stalls by handshake, holding
the module at its step boundary. -/
def execCrossingStall (band : Fin 16) (s : State) : Host.Outcome State Fault Refusal :=
  s.on (fun m => m.crossStall band.val)

end Sys2Proof.Machine
end

