-- ==== Sys2Proof/Machine/CmdPower.lean ====
section
/-!
DEFINITION. Power: phases, rails, telemetry, pace, droop and ageing: one meaning for each command.
-/
namespace Sys2Proof.Machine

/-- PHASE_OVERCURRENT (R429): a phase exceeds 18 A for 2 µs or reports a fault, and is switched off and fused. -/
def execPhaseOvercurrent (band : Fin 16) (phase : Fin 24) (s : State) : Host.Outcome State Fault Refusal :=
  s.on (fun m => m.phaseFailed band.val phase.val)

/-- PHASE_LIMIT_TIMEOUT (R429): the barrier has not been reached 1 ms after a 9-phase limit, so the stream halts and
the band goes dark. -/
def execPhaseLimitTimeout (s : State) : Host.Outcome State Fault Refusal :=
  s.on (fun m => m.phaseLimitTimeout)

/-- REGULATOR_OVERCURRENT (R430): a band's current exceeds its working phases' limit for 5 µs. -/
def execRegulatorOvercurrent (band : Fin 16) (current : BitVec 16) (s : State) : Host.Outcome State Fault Refusal :=
  s.on (fun m => m.overcurrent band.val current)

/-- RAIL_TOLERANCE_TIMEOUT (R427): a rail stays more than 5% off its setpoint for 100 µs. -/
def execRailToleranceTimeout (rail : Fin 7) (mv : BitVec 16) (s : State) : Host.Outcome State Fault Refusal :=
  s.on (fun m => m.railFault (rail.val + 1) mv)

/-- INPUT_UNDERVOLTAGE (R427): the input is below 40 V for 100 µs, and the pace allowance falls to the floor. -/
def execInputUndervoltage (s : State) : Host.Outcome State Fault Refusal :=
  s.on (fun m => m.undervolt)

/-- UNDERVOLT_RECOVERY (R427): the input has stayed at 40 V or above for 10 ms, and the limit lifts. -/
def execUndervoltRecovery (s : State) : Host.Outcome State Fault Refusal :=
  s.on (fun m => m.undervoltEnd)

/-- TELEMETRY_WINDOW (R437): at the end of each 1 ms window, measurements are published and the cap loop runs. -/
def execTelemetryWindow (measured : PowerWindow) (s : State) : Host.Outcome State Fault Refusal :=
  s.on (fun m => m.window measured)

/-- CAP_W (R437): a write of the power cap. -/
def execCapW (fd : Bool) (v : BitVec 16) (s : State) : Host.Outcome State Fault Refusal :=
  s.on (fun m => m.sdoPut fd 0x2830 1 v)

/-- PACE_LIMIT (R434): a write of the host pace limit. -/
def execPaceLimit (fd : Bool) (v : BitVec 8) (s : State) : Host.Outcome State Fault Refusal :=
  s.on (fun m => m.sdoPut fd 0x2820 1 v)

/-- SLEW_COMPLETE (R436): every band reaches its new voltage target, and the raised pace applies. -/
def execSlewComplete (s : State) : Host.Outcome State Fault Refusal :=
  s.on (fun m => m.slewDone)

/-- DROOP (R440): a band's droop exceeds 25 mV, and the droop response begins. -/
def execDroop (band : Fin 16) (s : State) : Host.Outcome State Fault Refusal :=
  s.on (fun m => m.droopStart band.val)

/-- SEVERE_DROOP (R440): droop above 60 mV for 5 µs reduces the allowance for 1 s. -/
def execSevereDroop (band : Fin 16) (peak : BitVec 16) (s : State) : Host.Outcome State Fault Refusal :=
  s.on (fun m => m.severeDroop band.val peak)

/-- DROOP_CLEARED (R440): every band has stayed at 10 mV or less for 2 µs; permits and deferred changes resume. -/
def execDroopCleared (s : State) : Host.Outcome State Fault Refusal :=
  s.on (fun m => m.droopEnd)

/-- DROOP_REDUCTION_END (R440): the 1 s severe-droop reduction ends. -/
def execDroopReductionEnd (s : State) : Host.Outcome State Fault Refusal :=
  s.on (fun m => m.severeEnd)

/-- CROSSING_STALL_END (R178): droop has stayed at or below 40 mV for 50 ns, and the crossing stall ends. -/
def execCrossingStallEnd (band : Fin 16) (windows : List CrossWindow) (s : State) : Host.Outcome State Fault Refusal
    :=
  s.on (fun m => m.crossStallEnd band.val windows)

/-- AGEING_CHECK (R441): each hour, at a barrier, the monitors are checked and the trim is raised. -/
def execAgeingCheck (lost : BitVec 16) (s : State) : Host.Outcome State Fault Refusal :=
  s.on (fun m => m.ageingCheck lost)

end Sys2Proof.Machine
end

