-- ==== Sys2Proof/Machine/CmdRicks.lean ====
section
/-!
DEFINITION. The caches: one meaning for each command.
-/
namespace Sys2Proof.Machine

/-- PIN (R255): pin the lines of a range, or fail with PIN_FULL. -/
def execPin (slice : Option (Fin 12)) (tag : BitVec 8) (requester : BitVec 32) (s : State) :
    Host.Outcome State Fault Refusal :=
  s.on (fun m => m.rickCmd slice 1#3 tag requester)

/-- UNPIN (R255): release the pins of a range. -/
def execUnpin (slice : Option (Fin 12)) (tag : BitVec 8) (requester : BitVec 32) (s : State) :
    Host.Outcome State Fault Refusal :=
  s.on (fun m => m.rickCmd slice 2#3 tag requester)

/-- FALLOW (R257): declare the lines of a range dead: drop, invalidate, filter and unsow. -/
def execFallow (slice : Option (Fin 12)) (tag : BitVec 8) (requester : BitVec 32) (s : State) :
    Host.Outcome State Fault Refusal :=
  s.on (fun m => m.rickCmd slice 3#3 tag requester)

/-- CLEAN (R253): write back dirty sectors and keep the lines. -/
def execClean (slice : Option (Fin 12)) (tag : BitVec 8) (requester : BitVec 32) (s : State) :
    Host.Outcome State Fault Refusal :=
  s.on (fun m => m.rickCmd slice 4#3 tag requester)

/-- CLEAN_DROP (R253): write back dirty sectors and drop the lines. -/
def execCleanDrop (slice : Option (Fin 12)) (tag : BitVec 8) (requester : BitVec 32) (s : State) :
    Host.Outcome State Fault Refusal :=
  s.on (fun m => m.rickCmd slice 5#3 tag requester)

/-- RICK_READ (R244): a read through a rick slice: a hit, a miss with allocation, or a bypass. -/
def execRickRead (addr : BitVec 52) (len : Nat) (cls : Fin 8) (sheaf : Bool) (requester : BitVec 32) (err : Bytes)
    (s : State) : Host.Outcome State Fault Refusal :=
  s.on (fun m => m.rickReadRow addr.toNat len cls.val sheaf requester err)

/-- RICK_WRITE (R244): a write through a rick slice, with L1 invalidation by the presence vector. -/
def execRickWrite (addr : BitVec 52) (data : Bytes) (poison : Bool) (cls : Fin 8) (sheaf : Bool)
    (requester : BitVec 32) (s : State) : Host.Outcome State Fault Refusal :=
  s.on (fun m => m.rickWriteRow addr.toNat data poison cls.val sheaf requester)

/-- MISS_FILL (R247): a miss register's fill arrives and is delivered to its waiters. -/
def execMissFill (slice : Fin 12) (region : Nat) (s : State) : Host.Outcome State Fault Refusal :=
  s.on (fun m => m.missFill slice.val region)

/-- STREAM_BYPASS_TIMEOUT (R250): 10 µs pass without a miss of the stream, so the stream detector re-arms. -/
def execStreamBypassTimeout (slice : Fin 12) (cls : Fin 8) (s : State) : Host.Outcome State Fault Refusal :=
  s.on (fun m => m.streamQuiet slice.val cls.val)

/-- RICK_INTERVAL (R256): at the end of each 1 ms interval, each class is evaluated for thrashing. -/
def execRickInterval (s : State) : Host.Outcome State Fault Refusal :=
  s.on (fun m => m.rickInterval)

end Sys2Proof.Machine
end

