-- ==== Sys2Proof/Machine/CmdSafety.lean ====
section
/-!
DEFINITION. The beacon, the cairn, fingerprints and fault injection: one meaning for each command.
-/
namespace Sys2Proof.Machine

/-- MC_SIGNAL (R459): the management controller signals the beacon every 1 ms. -/
def execMcSignal (s : State) : Host.Outcome State Fault Refusal :=
  s.on (fun m => m.mcSignal)

/-- MC_WATCHDOG (R459): 5 ms without a signal: the module enters the safe state and the management controller
restarts. -/
def execMcWatchdog (s : State) : Host.Outcome State Fault Refusal :=
  s.on (fun m => m.mcWatchdog)

/-- SAFE_REQ (R478): a write that enters the safe state with cause bit 8. -/
def execSafeReq (fd : Bool) (v : BitVec 8) (s : State) : Host.Outcome State Fault Refusal :=
  s.on (fun m => m.sdoPut fd 0x3C00 5 v)

/-- CAIRN_RECORD_WRITE (R466): a queued cairn record finishes writing, and the next record begins. -/
def execCairnRecordWrite (s : State) : Host.Outcome State Fault Refusal :=
  s.on (fun m => m.cairnWrite false)

/-- FF_CLEAR (R470): empties the first-fault area and writes a CLEAR record. -/
def execFfClear (fd : Bool) (v : BitVec 8) (s : State) : Host.Outcome State Fault Refusal :=
  s.on (fun m => m.sdoPut fd 0x4001 4 v)

/-- FP_PLAN_ADDR (R472): a write of the fingerprint plan address, checked at once. -/
def execFpPlanAddr (fd : Bool) (v : BitVec 64) (s : State) : Host.Outcome State Fault Refusal :=
  s.on (fun m => m.sdoPut fd 0x3C20 1 v)

/-- FINGERPRINT_PASS (R473): every 600 s a fingerprint pass of FP_ROWS runs over the shards. -/
def execFingerprintPass (s : State) : Host.Outcome State Fault Refusal :=
  s.on (fun m => m.fpPassRun)

/-- FP_PASS_LATE (R473): a pass did not complete within 600 s. -/
def execFpPassLate (s : State) : Host.Outcome State Fault Refusal :=
  s.on (fun m => m.fpLate)

/-- FP_VERDICT (R474): a fingerprint verdict write; a non-zero verdict enters the safe state. -/
def execFpVerdict (fd : Bool) (v : BitVec 64) (s : State) : Host.Outcome State Fault Refusal :=
  s.on (fun m => m.sdoPut fd 0x3C20 4 v)

/-- FI_ARM (R476): arms one fault injection. -/
def execFiArm (fd : Bool) (v : BitVec 8) (s : State) : Host.Outcome State Fault Refusal :=
  s.on (fun m => m.sdoPut fd 0x3880 5 v)

end Sys2Proof.Machine
end

