-- ==== Sys2Proof/Machine/CmdSecurity.lean ====
section
/-!
DEFINITION. Attestation, sessions, keys, firmware and debug: one meaning for each command.
-/
namespace Sys2Proof.Machine

/-- ATT_GO (R492): takes an attestation snapshot and starts signing. -/
def execAttGo (fd : Bool) (v : BitVec 8) (s : State) : Host.Outcome State Fault Refusal :=
  s.on (fun m => m.sdoPut fd 0x4420 2 v)

/-- ATTEST_SIGNED (R492): signing completes, and the report is ready. -/
def execAttestSigned (s : State) : Host.Outcome State Fault Refusal :=
  s.on (fun m => m.attestSigned)

/-- AUTH_REQ (R497): requests a session and draws a new challenge. -/
def execAuthReq (fd : Bool) (v : BitVec 32) (s : State) : Host.Outcome State Fault Refusal :=
  s.on (fun m => m.sdoPut fd 0x4430 1 v)

/-- AUTH_RESPONSE (R497): writes a signed response to the challenge and starts verification. -/
def execAuthResponse (fd : Bool) (v : BitVec 512) (s : State) : Host.Outcome State Fault Refusal :=
  s.on (fun m => m.sdoPut fd 0x4430 3 v)

/-- RESPONSE_VERIFIED (R498): verification of the response completes, and the session opens or is rejected. -/
def execResponseVerified (svcKey : Bytes) (s : State) : Host.Outcome State Fault Refusal :=
  s.on (fun m => m.responseVerified svcKey)

/-- AUTH_CLOSE (R498): ends the open session, or discards an unused challenge. -/
def execAuthClose (fd : Bool) (v : BitVec 8) (s : State) : Host.Outcome State Fault Refusal :=
  s.on (fun m => m.sdoPut fd 0x4430 5 v)

/-- DURATION_END (R498): the session's DURATION expires, and the session ends. -/
def execDurationEnd (s : State) : Host.Outcome State Fault Refusal :=
  s.on (fun m => m.endSession (some 2))

/-- CHALLENGE_EXPIRY (R497): a challenge expires after 60 s. -/
def execChallengeExpiry (s : State) : Host.Outcome State Fault Refusal :=
  s.on (fun m => m.challengeExpired)

/-- LOCKOUT_END (R498): the 60 s lockout ends. -/
def execLockoutEnd (s : State) : Host.Outcome State Fault Refusal :=
  s.on (fun m => m.lockoutEnd)

/-- SEC_PROFILE (R500): a write of the security profile, which may withdraw session rights. -/
def execSecProfile (fd : Bool) (v : BitVec 8) (s : State) : Host.Outcome State Fault Refusal :=
  s.on (fun m => m.sdoPut fd 0x4400 1 v)

/-- SVN_COMMIT (R488): raises the SVN fuses to the running packages. -/
def execSvnCommit (fd : Bool) (v : BitVec 8) (s : State) : Host.Outcome State Fault Refusal :=
  s.on (fun m => m.sdoPut fd 0x4400 5 v)

/-- FW_REVOKE (R496): burns firmware key revocation fuses. -/
def execFwRevoke (fd : Bool) (v : BitVec 8) (s : State) : Host.Outcome State Fault Refusal :=
  s.on (fun m => m.sdoPut fd 0x4401 7 v)

/-- OWNER_KEY (R497): enrols or withdraws the owner key. -/
def execOwnerKey (fd : Bool) (v : BitVec 512) (s : State) : Host.Outcome State Fault Refusal :=
  s.on (fun m => m.sdoPut fd 0x4410 3 v)

/-- IMAGE_KEY (R487): enrols or withdraws the image key. -/
def execImageKey (fd : Bool) (v : BitVec 512) (s : State) : Host.Outcome State Fault Refusal :=
  s.on (fun m => m.sdoPut fd 0x4410 4 v)

/-- FW_CHUNK (R490): stores a firmware chunk at FW_OFFSET and advances the offset. -/
def execFwChunk (fd : Bool) (data : Bytes) (s : State) : Host.Outcome State Fault Refusal :=
  s.on (fun m => m.sdoWhole fd 0x4440 3 data ObjIn.none)

/-- FW_COMMIT (R490): verifies the slot and selects it for the next boot. -/
def execFwCommit (fd : Bool) (v : BitVec 8) (s : State) : Host.Outcome State Fault Refusal :=
  s.on (fun m => m.sdoPut fd 0x4440 4 v)

/-- DBG_HALT (R499): halts or resumes the stream for debug. -/
def execDbgHalt (fd : Bool) (v : BitVec 8) (s : State) : Host.Outcome State Fault Refusal :=
  s.on (fun m => m.sdoPut fd 0x4450 1 v)

/-- DBG_ACC (R499): reads the accumulator named by DBG_SEL while halted. -/
def execDbgAcc (fd : Bool) (s : State) : Host.Outcome State Fault Refusal :=
  s.on (fun m => m.sdoUpload true fd 0x4450 3)

end Sys2Proof.Machine
end

