-- ==== Sys2Proof/Machine/CmdStacks.lean ====
section
/-!
DEFINITION. Placement, the stack controllers, the scrubber, refresh and the checker: one meaning for each command.
-/
namespace Sys2Proof.Machine

/-- PLACE_COMMIT (R185): COMMIT of the placement modes; fields whose mode changes become unsown. -/
def execPlaceCommit (fd : Bool) (v : BitVec 8) (s : State) : Host.Outcome State Fault Refusal :=
  s.on (fun m => m.sdoPut fd 0x3000 2 v)

/-- STACK_READ (R196): a controller read of a 32 B word is decoded and delivered, corrected or poisoned. -/
def execStackRead (addr : BitVec 52) (requester : BitVec 32) (err : Bytes) (s : State) :
    Host.Outcome State Fault Refusal :=
  s.on (fun m => m.stackRead addr.toNat requester err)

/-- STACK_WRITE (R197): a controller write: whole words are written, narrow writes merge, and unsown blocks are
zero-filled. -/
def execStackWrite (addr : BitVec 52) (data : Bytes) (poison : Bool) (requester : BitVec 32) (s : State) :
    Host.Outcome State Fault Refusal :=
  s.on (fun m => m.stackWrite addr.toNat data poison requester)

/-- MERGE_TIMER_EXPIRY (R197): a merge entry's 256 ns timer expires with an incomplete mask, and a read-modify-write
follows. -/
def execMergeTimerExpiry (stack : Fin 12) (s : State) : Host.Outcome State Fault Refusal :=
  s.on (fun m => m.mergeExpired stack.val)

/-- UNSOW_REQUEST (R202): the rick hands a fallow line to the controller to unsow or poison under the policy. -/
def execUnsowRequest (addr : BitVec 52) (whole : Bool) (s : State) : Host.Outcome State Fault Refusal :=
  s.on (fun m => m.unsowRequest addr.toNat whole)

/-- SCRUB_READ (R205): the scrubber reads a word in its claimed slot, correcting or poisoning it. -/
def execScrubRead (stack : Fin 12) (err : Bytes) (s : State) : Host.Outcome State Fault Refusal :=
  s.on (fun m => m.scrubRead stack.val err)

/-- SCRUB_OVERDUE (R206): a scrub pass has not completed 24 h after it began. -/
def execScrubOverdue (stack : Fin 12) (s : State) : Host.Outcome State Fault Refusal :=
  s.on (fun m => m.scrubOverdue stack.val)

/-- REFRESH (R192): the base die refreshes a bank, postponed by at most 4 intervals. -/
def execRefresh (bank : Fin 12288) (postpone : Bool) (s : State) : Host.Outcome State Fault Refusal :=
  s.on (fun m => m.refresh bank.val postpone)

/-- TEST_ENABLE (R207): enters or leaves checker test mode. -/
def execTestEnable (fd : Bool) (v : BitVec 8) (s : State) : Host.Outcome State Fault Refusal :=
  s.on (fun m => m.sdoPut fd 0x3040 1 v)

/-- RAW_WRITE (R207): store TEST_DATA and TEST_CHECK unchanged. -/
def execRawWrite (fd : Bool) (s : State) : Host.Outcome State Fault Refusal :=
  s.on (fun m => m.sdoPut fd 0x3040 5 1#8)

/-- RAW_READ (R207): load the data and check symbols without decoding. -/
def execRawRead (fd : Bool) (s : State) : Host.Outcome State Fault Refusal :=
  s.on (fun m => m.sdoPut fd 0x3040 5 2#8)

/-- DECODE_READ (R207): read through the decoder into TEST_DATA, reporting the syndromes and class. -/
def execDecodeRead (fd : Bool) (s : State) : Host.Outcome State Fault Refusal :=
  s.on (fun m => m.sdoPut fd 0x3040 5 3#8)

end Sys2Proof.Machine
end

