-- ==== Sys2Proof/Machine/CmdStream.lean ====
section
/-!
DEFINITION. The instruction stream and its bundles: one meaning for each command.
-/
namespace Sys2Proof.Machine

/-- PERMIT_PERIOD (R102): a pacer permit period ends as a program step, a rest step or a slip step. -/
def execPermitPeriod (causes : BitVec 11) (s : State) : Host.Outcome State Fault Refusal :=
  s.on (fun m => m.permitPeriod causes)

/-- PROGRAM_STEP (R101): once every active unit has acknowledged and a permit is granted, the module advances one step
and executes the row words of the current bundle. -/
def execProgramStep (ups : List Upset) (hosts : List (Fin 96 × BitVec 512)) (emptyRows : Nat) (s : State) :
    Host.Outcome State Fault Refusal :=
  s.on (fun m => m.programStep ups (hosts.map (fun h => (h.1.val, h.2))) emptyRows)

/-- BUNDLE_FETCH (R105): the fetch unit completes a read of stream bundles from the memory stacks into the bundle
buffer. -/
def execBundleFetch (unit count : Nat) (s : State) : Host.Outcome State Fault Refusal :=
  s.on (fun m => m.bundleFetch unit count)

/-- NOP (R114): a slot opcode 0, which has no effect. -/
def execNop (s : State) : Host.Outcome State Fault Refusal :=
  s.on (fun m => m)

/-- LOOP_BEGIN (R111): a bundle's LOOP_BEGIN pushes a loop counter, or skips the body when LOOP_COUNT is 0. -/
def execLoopBegin (s : State) : Host.Outcome State Fault Refusal :=
  s.on (fun m => m.loopBegin)

/-- LOOP_END (R111): a bundle's LOOP_END either returns to the start of the body or pops the counter. -/
def execLoopEnd (s : State) : Host.Outcome State Fault Refusal :=
  s.on (fun m => m.loopEnd)

/-- END (R109): after the bundle and its barrier, the stream stops and the module returns to READY. -/
def execStreamEnd (s : State) : Host.Outcome State Fault Refusal :=
  s.on (fun m => m.endStream)

/-- RESTART (R109): after the bundle and its barrier, the stream continues at offset 0. -/
def execRestart (s : State) : Host.Outcome State Fault Refusal :=
  s.on (fun m => m.restart)

/-- HEAVY_PHASE_HINT (R439): a bundle with a non-zero HINT_LEVEL announces a heavy phase at S0. -/
def execHeavyPhaseHint (s : State) : Host.Outcome State Fault Refusal :=
  s.on (fun m => m.hintNow)

/-- HINT_RAMP (R439): when 20 µs or less remain before S0, the pacer starts raising V_set by the hint boost. -/
def execHintRamp (s : State) : Host.Outcome State Fault Refusal :=
  s.on (fun m => m.hintRamp)

/-- BOOST_END (R439): 65,536 program steps after S0, the hint boost ends. -/
def execBoostEnd (s : State) : Host.Outcome State Fault Refusal :=
  s.on (fun m => m.boostEnd)

/-- LOCAL_BARRIER (R113): a kind-1 barrier is taken once every earlier operation has completed, and the barrier-time
changes are applied. -/
def execLocalBarrier (input : BarrierIn) (s : State) : Host.Outcome State Fault Refusal :=
  s.on (fun m => m.takeBarrier 1 input)

/-- LEA_BARRIER (R141): a kind-2 barrier is taken locally, and the REPORT is sent once the reports of all children
have arrived. -/
def execLeaBarrier (input : BarrierIn) (s : State) : Host.Outcome State Fault Refusal :=
  s.on (fun m => m.takeBarrier 2 input)

/-- LEA_PHASE_BOUNDARY (R140): a kind-3 lea barrier at a schedule phase boundary is taken and reported. -/
def execLeaPhaseBoundary (input : BarrierIn) (s : State) : Host.Outcome State Fault Refusal :=
  s.on (fun m => m.takeBarrier 3 input)

/-- DESCRIPTOR_ARRIVAL (R128): a 64 B descriptor flit from a control core arrives at a cell's descriptor queue. -/
def execDescriptorArrival (cell : Fin 4704) (queue : Fin 4) (desc : Option (BitVec 512)) (s : State) :
    Host.Outcome State Fault Refusal :=
  s.on (fun m => m.descArrive cell.val queue.val desc)

end Sys2Proof.Machine
end

