-- ==== Sys2Proof/Machine/CmdThermal.lean ====
section
/-!
DEFINITION. Temperatures and coolant: one meaning for each command.
-/
namespace Sys2Proof.Machine

/-- HOT_SPOT_SAMPLE (R446): every 100 µs the hot-spot pairs are sampled and the control values formed. -/
def execHotSpotSample (pairs : List (BitVec 16 × BitVec 16)) (s : State) : Host.Outcome State Fault Refusal :=
  s.on (fun m => m.hotSpots pairs)

/-- SENSOR_SCAN (R445): every 1 ms the cell, Loam, cap and stack diodes are sampled. -/
def execSensorScan (readings : SensorReadings) (s : State) : Host.Outcome State Fault Refusal :=
  s.on (fun m => m.scan readings)

/-- CROSS_LAYER_ESTIMATE (R447): every 1 ms each band's temperature is estimated from the neighbouring layers. -/
def execCrossLayerEstimate (s : State) : Host.Outcome State Fault Refusal :=
  s.on (fun m => m.estimates)

/-- THERMAL_WINDOW (R450): at the end of each 1 ms window, the thermal limit is adjusted. -/
def execThermalWindow (s : State) : Host.Outcome State Fault Refusal :=
  s.on (fun m => m.thermalWindow)

/-- FLOW_SAMPLE (R452): every 200 µs flow and pressure are sampled, and loss is judged. -/
def execFlowSample (flowA flowB pIn pOut : BitVec 16) (s : State) : Host.Outcome State Fault Refusal :=
  s.on (fun m => m.flowSample flowA flowB pIn pOut)

/-- FLOW_AVERAGE (R451): every 100 ms the average flow sets the LOW state and the coolant limit. -/
def execFlowAverage (s : State) : Host.Outcome State Fault Refusal :=
  s.on (fun m => m.flowAverage)

/-- LOW_HELD (R451): LOW has held for 10 s, and the module enters FAULT. -/
def execLowHeld (s : State) : Host.Outcome State Fault Refusal :=
  s.on (fun m => m.lowHeld)

/-- COOLANT_TEMP_SAMPLE (R451): every 100 ms the inlet and outlet temperatures are sampled. -/
def execCoolantTempSample (tIn tOut : BitVec 16) (s : State) : Host.Outcome State Fault Refusal :=
  s.on (fun m => m.coolantTemps tIn tOut)

/-- LOSS_COMPARISON (R452): every 1 ms after a coolant loss, the beacon compares temperatures and may open every
header. -/
def execLossComparison (s : State) : Host.Outcome State Fault Refusal :=
  s.on (fun m => m.lossCompare)

end Sys2Proof.Machine
end

