-- ==== Sys2Proof/Machine/Dispatch.lean ====
section
/-!
DEFINITION. Which meaning each command has.
-/
namespace Sys2Proof.Machine

def exec (i : Instr) (s : State) : Host.Outcome State Fault Refusal :=
  match i with
  -- Accesses to registers, to unassigned addresses and to the object dictionary
  | .registerWrite window addr data writer comps => Sys2Proof.Machine.execRegisterWrite window addr data writer comps s
  | .unassignedAccess window write addr len data => Sys2Proof.Machine.execUnassignedAccess window write addr len data s
  | .sdoDownload valid fd index sub size data input => Sys2Proof.Machine.execSdoDownload valid fd index sub size data input s
  | .sdoUpload valid fd index sub => Sys2Proof.Machine.execSdoUpload valid fd index sub s
  | .sdoSegment fd data last input => Sys2Proof.Machine.execSdoSegment fd data last input s
  | .sdoSegmentTimeout => Sys2Proof.Machine.execSdoSegmentTimeout s
  | .inputPowerLost => Sys2Proof.Machine.execInputPowerLost s
  | .boot straps resetLow bootMs => Sys2Proof.Machine.execBoot straps resetLow bootMs s
  | .retire fd v => Sys2Proof.Machine.execRetire fd v s
  -- The instruction stream and its bundles
  | .permitPeriod causes => Sys2Proof.Machine.execPermitPeriod causes s
  | .programStep ups hosts emptyRows => Sys2Proof.Machine.execProgramStep ups hosts emptyRows s
  | .bundleFetch unit count => Sys2Proof.Machine.execBundleFetch unit count s
  | .nop => Sys2Proof.Machine.execNop s
  | .loopBegin => Sys2Proof.Machine.execLoopBegin s
  | .loopEnd => Sys2Proof.Machine.execLoopEnd s
  | .streamEnd => Sys2Proof.Machine.execStreamEnd s
  | .restart => Sys2Proof.Machine.execRestart s
  | .heavyPhaseHint => Sys2Proof.Machine.execHeavyPhaseHint s
  | .hintRamp => Sys2Proof.Machine.execHintRamp s
  | .boostEnd => Sys2Proof.Machine.execBoostEnd s
  | .localBarrier input => Sys2Proof.Machine.execLocalBarrier input s
  | .leaBarrier input => Sys2Proof.Machine.execLeaBarrier input s
  | .leaPhaseBoundary input => Sys2Proof.Machine.execLeaPhaseBoundary input s
  | .descriptorArrival cell queue desc => Sys2Proof.Machine.execDescriptorArrival cell queue desc s
  -- The operations of a slot at one cell, and of a row
  | .adv cell word => Sys2Proof.Machine.execAdv cell word s
  | .advance cell => Sys2Proof.Machine.execAdvance cell s
  | .swap cell word ups => Sys2Proof.Machine.execSwap cell word ups s
  | .swapSaved cell word ups => Sys2Proof.Machine.execSwapSaved cell word ups s
  | .tileDrain cell => Sys2Proof.Machine.execTileDrain cell s
  | .ctxSave cell => Sys2Proof.Machine.execCtxSave cell s
  | .ctxRestore cell => Sys2Proof.Machine.execCtxRestore cell s
  | .add cell word ups => Sys2Proof.Machine.execAdd cell word ups s
  | .mul cell word ups => Sys2Proof.Machine.execMul cell word ups s
  | .fma cell word ups empty => Sys2Proof.Machine.execFma cell word ups empty s
  | .max cell word ups => Sys2Proof.Machine.execMax cell word ups s
  | .min cell word ups => Sys2Proof.Machine.execMin cell word ups s
  | .cvt cell word ups => Sys2Proof.Machine.execCvt cell word ups s
  | .quant cell word ups => Sys2Proof.Machine.execQuant cell word ups s
  | .exp cell word ups => Sys2Proof.Machine.execExp cell word ups s
  | .rcp cell word ups => Sys2Proof.Machine.execRcp cell word ups s
  | .rsqrt cell word ups => Sys2Proof.Machine.execRsqrt cell word ups s
  | .rowstat cell word ups => Sys2Proof.Machine.execRowstat cell word ups s
  | .norm cell word ups => Sys2Proof.Machine.execNorm cell word ups s
  | .softmax cell word ups => Sys2Proof.Machine.execSoftmax cell word ups s
  | .softmaxBwd cell word ups => Sys2Proof.Machine.execSoftmaxBwd cell word ups s
  | .normBwd cell word ups => Sys2Proof.Machine.execNormBwd cell word ups s
  | .rowsum cell word ups => Sys2Proof.Machine.execRowsum cell word ups s
  | .rowmax cell word ups => Sys2Proof.Machine.execRowmax cell word ups s
  | .flagRead cell word ups => Sys2Proof.Machine.execFlagRead cell word ups s
  | .copy cell word ups => Sys2Proof.Machine.execCopy cell word ups s
  | .loamIn cell word ups => Sys2Proof.Machine.execLoamIn cell word ups s
  | .loamOut cell word ups => Sys2Proof.Machine.execLoamOut cell word ups s
  | .loamXchg cell word ups => Sys2Proof.Machine.execLoamXchg cell word ups s
  | .link cell word ups => Sys2Proof.Machine.execLink cell word ups s
  | .meshTx cell word ups => Sys2Proof.Machine.execMeshTx cell word ups s
  | .meshRx cell word ups => Sys2Proof.Machine.execMeshRx cell word ups s
  | .laneTx cell word ups => Sys2Proof.Machine.execLaneTx cell word ups s
  | .laneRx cell word ups => Sys2Proof.Machine.execLaneRx cell word ups s
  | .gather cell word ups => Sys2Proof.Machine.execGather cell word ups s
  | .issue row dq tag xb dline hostDesc => Sys2Proof.Machine.execIssue row dq tag xb dline hostDesc s
  | .issueD row q tag xb dline lsrc => Sys2Proof.Machine.execIssueD row q tag xb dline lsrc s
  | .waitq row q => Sys2Proof.Machine.execWaitq row q s
  | .postq row tag lsrc => Sys2Proof.Machine.execPostq row tag lsrc s
  | .waittag row tag => Sys2Proof.Machine.execWaittag row tag s
  | .debugRead sel => Sys2Proof.Machine.execDebugRead sel s
  -- The lea: configuration, formation, tokens and their timers
  | .leaSize fd v => Sys2Proof.Machine.execLeaSize fd v s
  | .leaCommit fd v => Sys2Proof.Machine.execLeaCommit fd v s
  | .leaStart fd input => Sys2Proof.Machine.execLeaStart fd input s
  | .leave fd => Sys2Proof.Machine.execLeave fd s
  | .stopReq fd v => Sys2Proof.Machine.execStopReq fd v s
  | .report gate token input => Sys2Proof.Machine.execReport gate token input s
  | .release gate token input => Sys2Proof.Machine.execRelease gate token input s
  | .alive gate token input => Sys2Proof.Machine.execAlive gate token input s
  | .abort gate token input => Sys2Proof.Machine.execAbort gate token input s
  | .aliveTimer => Sys2Proof.Machine.execAliveTimer s
  | .neighbourLost gate => Sys2Proof.Machine.execNeighbourLost gate s
  | .formationTimeout => Sys2Proof.Machine.execFormationTimeout s
  | .barrierOverdue => Sys2Proof.Machine.execBarrierOverdue s
  | .tokenResend => Sys2Proof.Machine.execTokenResend s
  -- Placement, the stack controllers, the scrubber, refresh and the checker
  | .placeCommit fd v => Sys2Proof.Machine.execPlaceCommit fd v s
  | .stackRead addr requester err => Sys2Proof.Machine.execStackRead addr requester err s
  | .stackWrite addr data poison requester => Sys2Proof.Machine.execStackWrite addr data poison requester s
  | .mergeTimerExpiry stack => Sys2Proof.Machine.execMergeTimerExpiry stack s
  | .unsowRequest addr whole => Sys2Proof.Machine.execUnsowRequest addr whole s
  | .scrubRead stack err => Sys2Proof.Machine.execScrubRead stack err s
  | .scrubOverdue stack => Sys2Proof.Machine.execScrubOverdue stack s
  | .refresh bank postpone => Sys2Proof.Machine.execRefresh bank postpone s
  | .testEnable fd v => Sys2Proof.Machine.execTestEnable fd v s
  | .rawWrite fd => Sys2Proof.Machine.execRawWrite fd s
  | .rawRead fd => Sys2Proof.Machine.execRawRead fd s
  | .decodeRead fd => Sys2Proof.Machine.execDecodeRead fd s
  -- The gleaners: launches, program stores, micro-instructions and completions
  | .glnCtrlGo target v => Sys2Proof.Machine.execGlnCtrlGo target v s
  | .glnCtrlAbort target v => Sys2Proof.Machine.execGlnCtrlAbort target v s
  | .programStoreWrite target word v => Sys2Proof.Machine.execProgramStoreWrite target word v s
  | .programStart g => Sys2Proof.Machine.execProgramStart g s
  | .glnNop g => Sys2Proof.Machine.execGlnNop g s
  | .halt g => Sys2Proof.Machine.execHalt g s
  | .jmp g => Sys2Proof.Machine.execJmp g s
  | .bz g => Sys2Proof.Machine.execBz g s
  | .loop g => Sys2Proof.Machine.execLoop g s
  | .movi g => Sys2Proof.Machine.execMovi g s
  | .movhi g => Sys2Proof.Machine.execMovhi g s
  | .movp g => Sys2Proof.Machine.execMovp g s
  | .addi g => Sys2Proof.Machine.execAddi g s
  | .glnAdd g => Sys2Proof.Machine.execGlnAdd g s
  | .xori g => Sys2Proof.Machine.execXori g s
  | .shli g => Sys2Proof.Machine.execShli g s
  | .putr g => Sys2Proof.Machine.execPutr g s
  | .ld g => Sys2Proof.Machine.execLd g s
  | .st g => Sys2Proof.Machine.execSt g s
  | .lds g => Sys2Proof.Machine.execLds g s
  | .ldsa g => Sys2Proof.Machine.execLdsa g s
  | .latch g => Sys2Proof.Machine.execLatch g s
  | .qst g => Sys2Proof.Machine.execQst g s
  | .vins g => Sys2Proof.Machine.execVins g s
  | .lda g => Sys2Proof.Machine.execLda g s
  | .crc g => Sys2Proof.Machine.execCrc g s
  | .vadd g => Sys2Proof.Machine.execVadd g s
  | .vmul g => Sys2Proof.Machine.execVmul g s
  | .vfma g => Sys2Proof.Machine.execVfma g s
  | .vmax g => Sys2Proof.Machine.execVmax g s
  | .vmin g => Sys2Proof.Machine.execVmin g s
  | .vrcp g => Sys2Proof.Machine.execVrcp g s
  | .vrsq g => Sys2Proof.Machine.execVrsq g s
  | .vsplat g => Sys2Proof.Machine.execVsplat g s
  | .vsum g => Sys2Proof.Machine.execVsum g s
  | .vamax g => Sys2Proof.Machine.execVamax g s
  | .glnWatchdog g => Sys2Proof.Machine.execGlnWatchdog g s
  | .glnCompletion done drained optimiser => Sys2Proof.Machine.execGlnCompletion done drained optimiser s
  -- The caches
  | .pin slice tag requester => Sys2Proof.Machine.execPin slice tag requester s
  | .unpin slice tag requester => Sys2Proof.Machine.execUnpin slice tag requester s
  | .fallow slice tag requester => Sys2Proof.Machine.execFallow slice tag requester s
  | .clean slice tag requester => Sys2Proof.Machine.execClean slice tag requester s
  | .cleanDrop slice tag requester => Sys2Proof.Machine.execCleanDrop slice tag requester s
  | .rickRead addr len cls sheaf requester err => Sys2Proof.Machine.execRickRead addr len cls sheaf requester err s
  | .rickWrite addr data poison cls sheaf requester => Sys2Proof.Machine.execRickWrite addr data poison cls sheaf requester s
  | .missFill slice region => Sys2Proof.Machine.execMissFill slice region s
  | .streamBypassTimeout slice cls => Sys2Proof.Machine.execStreamBypassTimeout slice cls s
  | .rickInterval => Sys2Proof.Machine.execRickInterval s
  -- The DMA engines
  | .dmaqHead q v hostComps => Sys2Proof.Machine.execDmaqHead q v hostComps s
  | .dmaqCtrlEnable q v => Sys2Proof.Machine.execDmaqCtrlEnable q v s
  | .dmaCopy source early => Sys2Proof.Machine.execDmaCopy source early s
  | .transpose source early => Sys2Proof.Machine.execTranspose source early s
  | .scatter source early => Sys2Proof.Machine.execScatter source early s
  | .dmaFallow source early => Sys2Proof.Machine.execDmaFallow source early s
  | .transferCompletion transfer => Sys2Proof.Machine.execTransferCompletion transfer s
  | .deadlineDue row tag => Sys2Proof.Machine.execDeadlineDue row tag s
  | .resetQuiesceTimeout => Sys2Proof.Machine.execResetQuiesceTimeout s
  -- Attention: the sequence table, walks and submissions
  | .publishWrite entry word writer => Sys2Proof.Machine.execPublishWrite entry word writer s
  | .seqtFence v => Sys2Proof.Machine.execSeqtFence v s
  | .fenceClear done => Sys2Proof.Machine.execFenceClear done s
  | .walk cmdId entry => Sys2Proof.Machine.execWalk cmdId entry s
  | .openSub core => Sys2Proof.Machine.execOpenSub core s
  | .prompt core => Sys2Proof.Machine.execPrompt core s
  | .publish core => Sys2Proof.Machine.execPublish core s
  | .candidates core => Sys2Proof.Machine.execCandidates core s
  | .closeSub core => Sys2Proof.Machine.execCloseSub core s
  -- The hedgerow ports
  | .leaFlit port flit fecBad input => Sys2Proof.Machine.execLeaFlit port flit fecBad input s
  | .idleFlit port flit fecBad input => Sys2Proof.Machine.execIdleFlit port flit fecBad input s
  | .ident port flit fecBad => Sys2Proof.Machine.execIdent port flit fecBad s
  | .laneReset port flit fecBad => Sys2Proof.Machine.execLaneReset port flit fecBad s
  | .linkFlitRepeat link => Sys2Proof.Machine.execLinkFlitRepeat link s
  | .identTimer => Sys2Proof.Machine.execIdentTimer s
  | .replayTimeout port be => Sys2Proof.Machine.execReplayTimeout port be s
  | .portSignalDetected port => Sys2Proof.Machine.execPortSignalDetected port s
  | .portSignalDone port => Sys2Proof.Machine.execPortSignalDone port s
  | .portAlignDone port => Sys2Proof.Machine.execPortAlignDone port s
  | .portStateTimeout port => Sys2Proof.Machine.execPortStateTimeout port s
  | .portCodewordUe port => Sys2Proof.Machine.execPortCodewordUe port s
  | .fecWindow port corrected received => Sys2Proof.Machine.execFecWindow port corrected received s
  | .retrainReq fd v => Sys2Proof.Machine.execRetrainReq fd v s
  | .leaTransferDue port recv => Sys2Proof.Machine.execLeaTransferDue port recv s
  | .hdgBeqHead q v => Sys2Proof.Machine.execHdgBeqHead q v s
  | .beWrite port => Sys2Proof.Machine.execBeWrite port s
  | .beAck port => Sys2Proof.Machine.execBeAck port s
  | .ackTimeout msgId => Sys2Proof.Machine.execAckTimeout msgId s
  -- The Jaeno link, its window and the mailboxes
  | .jnlIdent flit fecBad => Sys2Proof.Machine.execJnlIdent flit fecBad s
  | .memoryWrite addr data ep comps => Sys2Proof.Machine.execMemoryWrite addr data ep comps s
  | .memoryRead addr len tag => Sys2Proof.Machine.execMemoryRead addr len tag s
  | .completion tag data ep cst => Sys2Proof.Machine.execCompletion tag data ep cst s
  | .jnlReplayTimeout => Sys2Proof.Machine.execJnlReplayTimeout s
  | .jnlSignalDetected => Sys2Proof.Machine.execJnlSignalDetected s
  | .jnlSignalDone => Sys2Proof.Machine.execJnlSignalDone s
  | .jnlAlignDone => Sys2Proof.Machine.execJnlAlignDone s
  | .jnlStateTimeout => Sys2Proof.Machine.execJnlStateTimeout s
  | .jnlCodewordUe => Sys2Proof.Machine.execJnlCodewordUe s
  | .jnlFecWindow corrected received => Sys2Proof.Machine.execJnlFecWindow corrected received s
  | .jnlRetrainReq fd v => Sys2Proof.Machine.execJnlRetrainReq fd v s
  | .jnlIntPend high v => Sys2Proof.Machine.execJnlIntPend high v s
  | .jnlIntMask high v => Sys2Proof.Machine.execJnlIntMask high v s
  | .hrmCopy core line data => Sys2Proof.Machine.execHrmCopy core line data s
  | .ccmbInHead core v => Sys2Proof.Machine.execCcmbInHead core v s
  | .mailboxRecord core => Sys2Proof.Machine.execMailboxRecord core s
  | .mailboxCompletion core => Sys2Proof.Machine.execMailboxCompletion core s
  -- The CAN FD node and the unit state table
  | .nmtStart => Sys2Proof.Machine.execNmtStart s
  | .nmtStop => Sys2Proof.Machine.execNmtStop s
  | .enterPreOperational => Sys2Proof.Machine.execEnterPreOperational s
  | .resetNode => Sys2Proof.Machine.execResetNode s
  | .resetCommunication => Sys2Proof.Machine.execResetCommunication s
  | .heartbeat => Sys2Proof.Machine.execHeartbeat s
  | .consumedHeartbeat node => Sys2Proof.Machine.execConsumedHeartbeat node s
  | .mgmtHeartbeatLost => Sys2Proof.Machine.execMgmtHeartbeatLost s
  | .consumerHb fd v => Sys2Proof.Machine.execConsumerHb fd v s
  | .sync cob => Sys2Proof.Machine.execSync cob s
  | .tpdoEventTimer n => Sys2Proof.Machine.execTpdoEventTimer n s
  | .canBusOff => Sys2Proof.Machine.execCanBusOff s
  | .busOffRecovery => Sys2Proof.Machine.execBusOffRecovery s
  | .stateComparison reports => Sys2Proof.Machine.execStateComparison reports s
  | .forceTimeout => Sys2Proof.Machine.execForceTimeout s
  | .mismatchClear fd v => Sys2Proof.Machine.execMismatchClear fd v s
  | .errorRegisterUpdate => Sys2Proof.Machine.execErrorRegisterUpdate s
  -- Bring-up and resets
  | .rails fd v => Sys2Proof.Machine.execRails fd v s
  | .train fd v => Sys2Proof.Machine.execTrain fd v s
  | .headers fd v => Sys2Proof.Machine.execHeaders fd v s
  | .firmware fd v => Sys2Proof.Machine.execFirmware fd v s
  | .selfTest fd v => Sys2Proof.Machine.execSelfTest fd v s
  | .imageLoad fd v variants => Sys2Proof.Machine.execImageLoad fd v variants s
  | .start fd v programs => Sys2Proof.Machine.execStart fd v programs s
  | .stepCompletion found => Sys2Proof.Machine.execStepCompletion found s
  | .stepBoundExpiry => Sys2Proof.Machine.execStepBoundExpiry s
  | .computeReset fd kind save => Sys2Proof.Machine.execComputeReset fd kind save s
  | .lowerDieFullReset fd => Sys2Proof.Machine.execLowerDieFullReset fd s
  | .fullReset fd => Sys2Proof.Machine.execFullReset fd s
  | .partialReset fd => Sys2Proof.Machine.execPartialReset fd s
  | .resetCompletion windows => Sys2Proof.Machine.execResetCompletion windows s
  | .resetN => Sys2Proof.Machine.execResetN s
  -- Power: phases, rails, telemetry, pace, droop and ageing
  | .phaseOvercurrent band phase => Sys2Proof.Machine.execPhaseOvercurrent band phase s
  | .phaseLimitTimeout => Sys2Proof.Machine.execPhaseLimitTimeout s
  | .regulatorOvercurrent band current => Sys2Proof.Machine.execRegulatorOvercurrent band current s
  | .railToleranceTimeout rail mv => Sys2Proof.Machine.execRailToleranceTimeout rail mv s
  | .inputUndervoltage => Sys2Proof.Machine.execInputUndervoltage s
  | .undervoltRecovery => Sys2Proof.Machine.execUndervoltRecovery s
  | .telemetryWindow measured => Sys2Proof.Machine.execTelemetryWindow measured s
  | .capW fd v => Sys2Proof.Machine.execCapW fd v s
  | .paceLimit fd v => Sys2Proof.Machine.execPaceLimit fd v s
  | .slewComplete => Sys2Proof.Machine.execSlewComplete s
  | .droop band => Sys2Proof.Machine.execDroop band s
  | .severeDroop band peak => Sys2Proof.Machine.execSevereDroop band peak s
  | .droopCleared => Sys2Proof.Machine.execDroopCleared s
  | .droopReductionEnd => Sys2Proof.Machine.execDroopReductionEnd s
  | .crossingStallEnd band windows => Sys2Proof.Machine.execCrossingStallEnd band windows s
  | .ageingCheck lost => Sys2Proof.Machine.execAgeingCheck lost s
  -- Temperatures and coolant
  | .hotSpotSample pairs => Sys2Proof.Machine.execHotSpotSample pairs s
  | .sensorScan readings => Sys2Proof.Machine.execSensorScan readings s
  | .crossLayerEstimate => Sys2Proof.Machine.execCrossLayerEstimate s
  | .thermalWindow => Sys2Proof.Machine.execThermalWindow s
  | .flowSample flowA flowB pIn pOut => Sys2Proof.Machine.execFlowSample flowA flowB pIn pOut s
  | .flowAverage => Sys2Proof.Machine.execFlowAverage s
  | .lowHeld => Sys2Proof.Machine.execLowHeld s
  | .coolantTempSample tIn tOut => Sys2Proof.Machine.execCoolantTempSample tIn tOut s
  | .lossComparison => Sys2Proof.Machine.execLossComparison s
  -- The beacon, the cairn, fingerprints and fault injection
  | .mcSignal => Sys2Proof.Machine.execMcSignal s
  | .mcWatchdog => Sys2Proof.Machine.execMcWatchdog s
  | .safeReq fd v => Sys2Proof.Machine.execSafeReq fd v s
  | .cairnRecordWrite => Sys2Proof.Machine.execCairnRecordWrite s
  | .ffClear fd v => Sys2Proof.Machine.execFfClear fd v s
  | .fpPlanAddr fd v => Sys2Proof.Machine.execFpPlanAddr fd v s
  | .fingerprintPass => Sys2Proof.Machine.execFingerprintPass s
  | .fpPassLate => Sys2Proof.Machine.execFpPassLate s
  | .fpVerdict fd v => Sys2Proof.Machine.execFpVerdict fd v s
  | .fiArm fd v => Sys2Proof.Machine.execFiArm fd v s
  -- Attestation, sessions, keys, firmware and debug
  | .attGo fd v => Sys2Proof.Machine.execAttGo fd v s
  | .attestSigned => Sys2Proof.Machine.execAttestSigned s
  | .authReq fd v => Sys2Proof.Machine.execAuthReq fd v s
  | .authResponse fd v => Sys2Proof.Machine.execAuthResponse fd v s
  | .responseVerified svcKey => Sys2Proof.Machine.execResponseVerified svcKey s
  | .authClose fd v => Sys2Proof.Machine.execAuthClose fd v s
  | .durationEnd => Sys2Proof.Machine.execDurationEnd s
  | .challengeExpiry => Sys2Proof.Machine.execChallengeExpiry s
  | .lockoutEnd => Sys2Proof.Machine.execLockoutEnd s
  | .secProfile fd v => Sys2Proof.Machine.execSecProfile fd v s
  | .svnCommit fd v => Sys2Proof.Machine.execSvnCommit fd v s
  | .fwRevoke fd v => Sys2Proof.Machine.execFwRevoke fd v s
  | .ownerKey fd v => Sys2Proof.Machine.execOwnerKey fd v s
  | .imageKey fd v => Sys2Proof.Machine.execImageKey fd v s
  | .fwChunk fd data => Sys2Proof.Machine.execFwChunk fd data s
  | .fwCommit fd v => Sys2Proof.Machine.execFwCommit fd v s
  | .dbgHalt fd v => Sys2Proof.Machine.execDbgHalt fd v s
  | .dbgAcc fd => Sys2Proof.Machine.execDbgAcc fd s
  -- REFCLK and what the table adds to the families above
  | .refclkLost => Sys2Proof.Machine.execRefclkLost s
  | .refclkRestored => Sys2Proof.Machine.execRefclkRestored s
  | .beFlit port flit fecBad input => Sys2Proof.Machine.execBeFlit port flit fecBad input s
  | .jnlFlit flit fecBad comps => Sys2Proof.Machine.execJnlFlit flit fecBad comps s
  | .resetNReleased => Sys2Proof.Machine.execResetNReleased s
  | .fwCommitVerified => Sys2Proof.Machine.execFwCommitVerified s
  | .tpdoSent n => Sys2Proof.Machine.execTpdoSent n s
  | .crossingStall band => Sys2Proof.Machine.execCrossingStall band s

end Sys2Proof.Machine
end

