-- ==== Sys2Proof/Machine/Step.lean ====
section
/-!
DEFINITION. One step: the command at the front of the queue, or a microsecond with none.
-/
namespace Sys2Proof.Machine

/-- Take the command at the front of the queue and carry it out with the queue's rest; with no command a microsecond passes
(log entry 1). -/
def step (s : State) : Host.Outcome State Fault Refusal :=
  match s.pending with
  | [] => .next { s with m := s.m.idle }
  | c :: rest => exec c { s with pending := rest }

/-- The state with the command that a word of the table spells in front of its queue; unchanged where it spells none. -/
def State.withFetchWord (s : State) (nbits w : Nat) : State :=
  match decodeTableWord nbits w with
  | some c => { s with pending := c :: s.pending }
  | none => s

end Sys2Proof.Machine
end

