-- ==== Sys2Proof/Safety.lean ====
section
/-!
DEFINITION. What a safe run is, and the invariants that claims are stated in.
-/
namespace Sys2Proof.Safety

open Machine

/-- A command completes on the module `m`, whatever waits in the queue: the module is then exactly `n`, and the queue as it
was. Whatever `n` does not name is unchanged. -/
def Turns (m : Mod) (c : Instr) (n : Mod) : Prop := ∀ q, exec c ⟨m, q⟩ = .next ⟨n, q⟩

/-- A command completes on the module `m`, whatever waits in the queue, and the module that it leaves has the property. -/
def Leaves (m : Mod) (c : Instr) (P : Mod → Prop) : Prop := ∃ n, Turns m c n ∧ P n

/-- The node serves a request over its objects: it is not stopped, bus-off or restarting, no injection is armed that could
drop a frame, no other transfer is open, and the module is not in recovery mode (R388 to R394, R477, R489). -/
structure Serves (m : Mod) : Prop where
  serving : m.serving = true
  calm : m.inject.armed = false
  closed : m.can.transfer = none
  normal : m.sec.recovery = false

/-- The module with one more answer of the node to its client. -/
def answered (m : Mod) (fd : Bool) (index sub : Nat) (r : SdoResult) : Mod :=
  { m with can := { m.can with answers := m.can.answers ++ [⟨fd, index, sub, r⟩] } }

/-- The module with the answer to a write that has taken effect. -/
def accepted (m : Mod) (fd : Bool) (index sub : Nat) : Mod := answered m fd index sub .done

/-- The module with the answer to a request that is refused with an abort code (R394). -/
def refused (m : Mod) (fd : Bool) (index sub code : Nat) : Mod := answered m fd index sub (.abort code)

/-- A report is all that sets `n` apart from `m`: the log, frames that the node has sent, the cairn's queue, the Jaeno link's
packets and pending vectors, and an armed injection may differ, and nothing else. -/
def OnlyReports (m n : Mod) : Prop :=
  n = { m with log := n.log, can := { m.can with out := n.can.out }, cairn := n.cairn, jnl := n.jnl, inject := n.inject }

/-- Fuses only burn: what `f` holds as burned, the later fuses `g` hold too, and what manufacture set is as it was (R51:
retirement cannot be undone; R429: a failed phase never runs again; R488: the SVN fuses never fall). -/
structure FusesBurned (f g : Fuses) : Prop where
  rows : g.rows = f.rows
  retired : ∀ row, Map.get 0 f.retired row ≠ 0 → Map.get 0 g.retired row ≠ 0
  phases : ∀ band p, (Map.get 0#24 f.phases band).getLsbD p = true → (Map.get 0#24 g.phases band).getLsbD p = true
  revoked : ∀ k, f.revoked.getLsbD k = true → g.revoked.getLsbD k = true
  mcSvn : f.mcSvn.toNat ≤ g.mcSvn.toNat
  ccSvn : f.ccSvn.toNat ≤ g.ccSvn.toNat
  serial : g.serial = f.serial
  mfgWeek : g.mfgWeek = f.mfgWeek
  bootRom : g.bootRom = f.bootRom
  fwKeys : g.fwKeys = f.fwKeys
  svcKey : g.svcKey = f.svcKey
  idPub : g.idPub = f.idPub
  devCert : g.devCert = f.devCert

/-- Every setting that has a range stands in it: PACE_LIMIT and CAP_W (R443), a cap that waits for its window among them,
the band trims (R441), ROT_ENABLE, ROT_SPREAD and ROT_INTERVAL (R455), and the JA-2's MAX_READ (R370). -/
structure SettingsInRange (m : Mod) : Prop where
  paceLimit : 35 ≤ m.power.paceLimit.toNat ∧ m.power.paceLimit.toNat ≤ 160
  capW : 650 ≤ m.power.capW.toNat ∧ m.power.capW.toNat ≤ 3000
  capNext : ∀ v, m.power.capNext = some v → 650 ≤ v.toNat ∧ v.toNat ≤ 3000
  trims : ∀ band, Map.get 0 m.power.trims band ≤ 400
  rotEnable : m.thermal.rotEnable.toNat ≤ 1
  rotSpread : 10 ≤ m.thermal.rotSpread.toNat ∧ m.thermal.rotSpread.toNat ≤ 200
  rotInterval : 1 ≤ m.thermal.rotInterval.toNat ∧ m.thermal.rotInterval.toNat ≤ 3600
  maxRead : m.jnl.maxRead % 64 = 0 ∧ 64 ≤ m.jnl.maxRead ∧ m.jnl.maxRead ≤ 4096

end Sys2Proof.Safety
end

