-- ==== Sys2Proof/Certificates/Slice0/Obligations.lean ====
section
/-!
DEFINITION. The statements about the model. Each says under which conditions on the state and the operands a command
completes and what it leaves; `Safety.Gives c s m` says that the queue stays and that the module is then exactly `m`, so
that everything not written there is unchanged.
-/
open Sys2Proof Sys2Proof.Machine

/-- A step with a command at the front of the queue is `exec` of that command on the queue's rest: the block's way of
taking commands, first in, first out. -/
def Obligations.StepRunsFrontCommand : Prop :=
  ∀ (c : Instr) (rest : List Instr) (m : Mod), Machine.step ⟨m, c :: rest⟩ = Machine.exec c ⟨m, rest⟩

/-- The model's choice (log entry 1): with no command waiting a microsecond passes. The clock counts it and control cores
empty their completion queues; with no host request held and no lea configuration waiting for its swap, nothing else
changes. Without input power nothing does. -/
def Obligations.StepIdlesOnEmptyQueue : Prop :=
  ∀ (m : Mod),
    (m.boot.powered = false → Machine.step ⟨m, []⟩ = .next ⟨m, []⟩)
    ∧ (m.boot.powered = true → m.jnl.hostQ = [] → m.lea.locked = false →
        Machine.step ⟨m, []⟩ = .next ⟨{ m with
          clock := { m.clock with timeUs := m.clock.timeUs + 1 }
          chip := { m.chip with completions := [] } }, []⟩)

/-- Without input power no command but BOOT has an effect (R23). -/
def Obligations.NothingHappensWithoutPower : Prop :=
  ∀ (c : Instr) (s : State), s.m.boot.powered = false → (∀ straps low ms, c ≠ .boot straps low ms) →
    exec c s = .next s

/-- Every command completes, whatever the state and its operands, and leaves the commands that wait behind it as they
are. -/
def Obligations.EveryCommandCompletesKeepingQueue : Prop :=
  ∀ (c : Instr) (s : State), ∃ t, exec c s = .next t ∧ t.pending = s.pending

/-- Every step keeps what the fuses of a module hold as burned: retired rows stay retired, failed phases stay failed,
revoked keys stay revoked, the SVN fuses never fall, and what manufacture set stays (R51, R429, R488, R496). -/
def Obligations.StepsOnlyBurnFuses : Prop :=
  ∀ (f : Fuses) (s t : State), Safety.FusesBurned f s.m.fuses → Machine.step s = .next t →
    Safety.FusesBurned f t.m.fuses

/-- The trim of a band is never lowered by a step (R441). -/
def Obligations.StepsNeverLowerTrim : Prop :=
  ∀ (s t : State) (band : Nat), Machine.step s = .next t →
    Map.get 0 s.m.power.trims band ≤ Map.get 0 t.m.power.trims band

/-- Every step keeps each setting that has a range inside it (R370, R441, R443, R455). -/
def Obligations.StepsKeepSettingsInRange : Prop :=
  ∀ (s t : State), Safety.SettingsInRange s.m → Machine.step s = .next t → Safety.SettingsInRange t.m

/-- What reset leaves (R392, R411, R412, R422, R443, R478): the node is pre-operational, no
step of bring-up is done, every band is OFF, no image is loaded, no stream runs, the lea and every link are down, the log,
the cells and the memory are empty, and the limits stand at their defaults; and the state meets both invariants: its settings stand in
their ranges, and its fuses are those of its own module. -/
def Obligations.ResetMeetsInvariants : Prop :=
  let m := State.reset.m
  State.reset.pending = [] ∧ m.boot.powered = true ∧ m.can.nmt = .preOperational ∧ m.effective 0 0 = .fenced
  ∧ m.boot.steps.length = 7 ∧ (∀ x ∈ m.boot.steps, x.st = .notDone ∧ x.status = 0#8) ∧ m.boot.run = none ∧ m.boot.rst = none
  ∧ (∀ b, b < 16 → (m.band b).closed = false) ∧ m.boot.image = none ∧ m.boot.coreFw = none
  ∧ m.stream.running = false ∧ m.lea.st = .none ∧ (∀ p, p < 36 → (m.port p).train.st = .down) ∧ m.jnl.train.st = .down
  ∧ m.log.ring = [] ∧ m.cells = [] ∧ m.memStacks.dram = [] ∧ m.sec.session = none
  ∧ m.safe.active = false ∧ m.safe.cause = 0#16 ∧ m.power.paceLimit = 160#8 ∧ m.power.capW = 3000#16
  ∧ m.inject.armed = false ∧ m.fpr.planAddr = 0#64
  ∧ Safety.SettingsInRange m ∧ Safety.FusesBurned Fuses.healthy m.fuses


/-- REGISTER_WRITE (R11, R267, R375, R376): what a write of a register of the apertures or of the window leaves: a DMA
queue's ring base, without its reserved bits; its ring size, which takes 4 to 16 and discards other values; its read-only
status, which takes nothing; an access that is not 4 or 8 aligned bytes, which is discarded and counted (R188); and the
window's aperture base, which takes its whole MiB while the Jaeno link is UP with no request held, and nothing while it is
down. -/
def Obligations.RegisterWriteGivesFieldsTheirValues : Prop :=
  ∀ (m : Mod) (writer : BitVec 32) (comps : Nat) (q : Fin 64), m.boot.powered = true →
    (∀ v : BitVec 64,
      Safety.Turns m (.registerWrite false (BitVec.ofNat 64 (0x8000302000008 + q.val * 0x1000)) (regBytes v) writer comps)
        (m.setDmaq q.val { m.dmaq q.val with ringBase := BitVec.ofNat 64 (v.toNat / 64 * 64) })
      ∧ Safety.Turns m (.registerWrite false (BitVec.ofNat 64 (0x8000302000010 + q.val * 0x1000)) (regBytes v) writer comps)
        (if 4 ≤ v.toNat % 32 ∧ v.toNat % 32 ≤ 16 then m.setDmaq q.val { m.dmaq q.val with ringSize := v.setWidth 5 } else m)
      ∧ Safety.Turns m (.registerWrite false (BitVec.ofNat 64 (0x8000302000040 + q.val * 0x1000)) (regBytes v) writer comps) m
      ∧ (m.jnl.train.st = .up → m.jnl.hostQ = [] → Safety.Turns m (.registerWrite true 0x10#64 (regBytes v) writer comps)
        { m with jnl := { m.jnl with apertureBase := BitVec.ofNat 64 (v.toNat / 2 ^ 20 % 2 ^ 32 * 2 ^ 20) } })
      ∧ (m.jnl.train.st ≠ .up → Safety.Turns m (.registerWrite true 0x10#64 (regBytes v) writer comps) m))
    ∧ (∀ (bs : Bytes) (a : BitVec 64), 0x8000302000000 ≤ a.toNat → a.toNat < 0x8000302040000 →
        ¬ ((bs.length = 4 ∨ bs.length = 8) ∧ a.toNat % bs.length = 0) →
        Safety.Turns m (.registerWrite false a bs writer comps)
          { m with memStacks := { m.memStacks with
            regUnassigned := satAdd m.memStacks.regUnassigned 1
            firstUnassigned :=
              if m.memStacks.mapUnassigned = 0#32 ∧ m.memStacks.regUnassigned = 0#32 ∧ m.memStacks.authDiscards = 0#32 then
                a + 0x20000000000000#64
              else m.memStacks.firstUnassigned } })

/-- UNASSIGNED_ACCESS (R10, R188): at a device address above every region a write is discarded and counted in
MAP_UNASSIGNED, the first one with its address, and a read returns zeros and leaves everything else; at an unassigned
offset of the window, with the Jaeno link UP and no request held, a write counts in JNL_UNASSIGNED only. -/
def Obligations.UnassignedAccessIsDiscardedAndCounted : Prop :=
  ∀ (m : Mod) (a : BitVec 64) (len : Nat) (data : Bytes), m.boot.powered = true →
    (0x8000310000000 ≤ a.toNat → a.toNat < 2 ^ 52 →
      Safety.Turns m (.unassignedAccess false true a len data)
        { m with memStacks := { m.memStacks with
          mapUnassigned := satAdd m.memStacks.mapUnassigned 1
          firstUnassigned :=
            if m.memStacks.mapUnassigned = 0#32 ∧ m.memStacks.regUnassigned = 0#32 ∧ m.memStacks.authDiscards = 0#32 then
              a + 0x10000000000000#64
            else m.memStacks.firstUnassigned } }
      ∧ Safety.Turns m (.unassignedAccess false false a len data)
        { m with rick := { m.rick with answer := [(List.replicate len 0#8, false)] } })
    ∧ (0x600000 ≤ a.toNat → a.toNat < 0x700000 → m.jnl.train.st = .up → m.jnl.ready = true → m.jnl.hostQ = [] →
      0 < data.length → data.length ≤ 4096 →
      Safety.Turns m (.unassignedAccess true true a len data)
        { m with jnl := { m.jnl with unassigned := satAdd m.jnl.unassigned (if a.toNat % 4096 + data.length ≤ 4096 then 1 else 2) } })


/-- SDO_DOWNLOAD (R390, R394): the aborts in their order, and the object written whole; objects without a row of their own
take a value in its range whole, and refuse one above or below it; nothing else changes but the answer. -/
def Obligations.DownloadsAreCheckedInAbortOrder : Prop :=
  (∀ (m : Mod) (fd : Bool) (index : BitVec 16) (sub : BitVec 8) (size : Nat) (data : Option Bytes) (x : ObjIn) (r : ObjRow),
     let i := index.toNat
     let k := sub.toNat
     let len := match data with | some bs => bs.length | none => size
     m.boot.powered = true → Safety.Serves m →
     Safety.Turns m (.sdoDownload false fd index sub size data x) (Safety.refused m fd i k 0x05040001)
     ∧ (objExists i = false → Safety.Turns m (.sdoDownload true fd index sub size data x) (Safety.refused m fd i k 0x06020000))
     ∧ (objExists i = true → objRow i k = none →
         Safety.Turns m (.sdoDownload true fd index sub size data x) (Safety.refused m fd i k 0x06090011))
     ∧ (objExists i = true → objRow i k = some r → r.acc = .ro ∨ r.acc = .const →
         Safety.Turns m (.sdoDownload true fd index sub size data x) (Safety.refused m fd i k 0x06010002))
     ∧ (objExists i = true → objRow i k = some r → r.acc = .auth → m.mayWrite i k r = false →
         Safety.Turns m (.sdoDownload true fd index sub size data x) (Safety.refused m fd i k 0x08000020))
     ∧ (objExists i = true → objRow i k = some r → r.acc ≠ .ro → r.acc ≠ .const → m.mayWrite i k r = true →
         (r.ty.takes len = false →
           Safety.Turns m (.sdoDownload true fd index sub size data x) (Safety.refused m fd i k 0x06070010))
         ∧ (data = none → r.ty.takes size = true →
           Safety.Turns m (.sdoDownload true fd index sub size data x)
             (Safety.answered { m with can := { m.can with transfer := some ⟨true, i, k, fd, size, []⟩ } } fd i k
               (.opened size)))))
  ∧ (∀ (m : Mod) (fd : Bool) (x : ObjIn), m.boot.powered = true → Safety.Serves m →
       (∀ v : BitVec 8,
         Safety.Turns m (.sdoDownload true fd 0x3030#16 1#8 1 (some (regBytes v)) x)
           (if v.toNat = 0 then Safety.refused m fd 0x3030 1 0x06090032
            else if 24 < v.toNat then Safety.refused m fd 0x3030 1 0x06090031
            else Safety.accepted { m with memStacks := { m.memStacks with scrubPeriod := v } } fd 0x3030 1)
         ∧ Safety.Turns m (.sdoDownload true fd 0x2001#16 2#8 1 (some (regBytes v)) x)
           (if 127 < v.toNat then Safety.refused m fd 0x2001 2 0x06090031
            else Safety.accepted { m with can := { m.can with nodeIdOverride := v } } fd 0x2001 2))
       ∧ (∀ v : BitVec 64,
         Safety.Turns m (.sdoDownload true fd 0x3E00#16 3#8 8 (some (regBytes v)) x)
           (Safety.accepted { m with log := { m.log with select := v } } fd 0x3E00 3)
         ∧ Safety.Turns m (.sdoDownload true fd 0x3E00#16 5#8 8 (some (regBytes v)) x)
           (if m.log.next.toNat < v.toNat then Safety.refused m fd 0x3E00 5 0x06090031
            else Safety.accepted { m with log := { m.log with read := v } } fd 0x3E00 5))
       ∧ (∀ v : BitVec 32,
         Safety.Turns m (.sdoDownload true fd 0x2400#16 1#8 4 (some (regBytes v)) x)
           (if unitExists v then Safety.accepted { m with units := { m.units with unitSelect := v } } fd 0x2400 1
            else Safety.refused m fd 0x2400 1 0x06090030)))

/-- SDO_UPLOAD (R390, R394): the aborts of a read in their order; a value that fits the answer comes in it, a longer one
opens a segmented transfer that holds its snapshot; nothing else changes. -/
def Obligations.UploadServesOneSnapshot : Prop :=
  ∀ (m : Mod) (fd : Bool) (index : BitVec 16) (sub : BitVec 8) (r : ObjRow) (bs : Bytes),
    let i := index.toNat
    let k := sub.toNat
    m.boot.powered = true → Safety.Serves m →
    Safety.Turns m (.sdoUpload false fd index sub) (Safety.refused m fd i k 0x05040001)
    ∧ (objExists i = false → Safety.Turns m (.sdoUpload true fd index sub) (Safety.refused m fd i k 0x06020000))
    ∧ (objExists i = true → objRow i k = none → Safety.Turns m (.sdoUpload true fd index sub) (Safety.refused m fd i k 0x06090011))
    ∧ (objExists i = true → objRow i k = some r →
        (r.acc = .wo → Safety.Turns m (.sdoUpload true fd index sub) (Safety.refused m fd i k 0x06010001))
        ∧ (r.acc ≠ .wo → i ≠ 0x4450 →
          (m.objValue i k = none → Safety.Turns m (.sdoUpload true fd index sub) (Safety.refused m fd i k 0x08000024))
          ∧ (m.objValue i k = some bs → Safety.Turns m (.sdoUpload true fd index sub)
              (if bs.length ≤ (if fd then 56 else 4) then Safety.answered m fd i k (.data bs)
               else Safety.answered { m with can := { m.can with transfer := some ⟨false, i, k, fd, bs.length, bs⟩ } } fd i k
                (.opened bs.length)))))

/-- SDO_SEGMENT and SDO_SEGMENT_TIMEOUT (R390): without an open transfer a segment is refused; a segment of an upload is
the next part of the snapshot, 7 bytes classic or 56 in FD, and the last one closes the transfer; a segment of a download
is kept; the last one must complete the announced size, and then acts as the whole write would with the transfer
closed; a timeout ends the transfer with abort 0x0504_0000. -/
def Obligations.SegmentsCarryOneTransfer : Prop :=
  ∀ (m : Mod) (fd last : Bool) (data : Bytes) (x : ObjIn) (t : SdoTransfer) (index : BitVec 16) (sub : BitVec 8),
    m.boot.powered = true → m.serving = true → m.inject.armed = false → m.sec.recovery = false →
    let closed : Mod := { m with can := { m.can with transfer := none } }
    let n := if fd then 56 else 7
    (m.can.transfer = none → Safety.Turns m (.sdoSegment fd data last x) (Safety.refused m fd 0 0 0x05040001)
      ∧ Safety.Turns m .sdoSegmentTimeout m)
    ∧ (m.can.transfer = some t →
        Safety.Turns m .sdoSegmentTimeout (Safety.refused closed t.usdo t.index t.sub 0x05040000)
        ∧ (t.usdo = fd → t.download = false → Safety.Turns m (.sdoSegment fd data last x)
            (Safety.answered { m with can := { m.can with
                transfer := if t.data.length ≤ n then none else some { t with data := t.data.drop n } } }
              fd t.index t.sub (.segment (t.data.take n) (decide (t.data.length ≤ n)))))
        ∧ (t.usdo = fd → t.download = true →
            (t.size < t.data.length + data.length ∨ (last = true ∧ t.data.length + data.length ≠ t.size) →
              Safety.Turns m (.sdoSegment fd data last x) (Safety.refused closed fd t.index t.sub 0x06070010))
            ∧ (last = false → t.data.length + data.length ≤ t.size →
              Safety.Turns m (.sdoSegment fd data last x)
                (Safety.answered { m with can := { m.can with transfer := some { t with data := t.data ++ data } } }
                  fd t.index t.sub .more))
            ∧ (last = true → t.data.length + data.length = t.size → t.index = index.toNat → t.sub = sub.toNat →
              ∀ w, Safety.Turns closed (.sdoDownload true fd index sub t.size (some (t.data ++ data)) x) w →
                Safety.Turns m (.sdoSegment fd data last x) w)))


/-- An event that is raised (R18, R407, R465, R469): its record, with the next index, is appended to the ring, followed by
at most one record that reports a dropped cairn record; vector 80 is pending; a dangerous event waits for the cairn
whatever its queue holds, and one below severity fault leaves the cairn alone; with no injection armed the injection
objects stay; nothing but reports changes. -/
def Obligations.RaisingAppendsOneRecord : Prop :=
  ∀ (m : Mod) (e : Event) (unit : BitVec 32) (p : Bytes),
    let n := m.raise e unit p
    let r : EventRec := ⟨e, m.testing, decide (2 ≤ e.severity.code), unit, m.log.next, m.clock.timeUs,
      m.stream.stepCount.setWidth 48, m.lea.barSeq.setWidth 48, m.effective 0 0, p⟩
    Safety.OnlyReports m n
    ∧ n.jnl.intPend.getLsbD 80 = true
    ∧ (m.log.ring.length ≤ 1022 → ∃ more, more.length ≤ 1 ∧ n.log.ring = m.log.ring ++ r :: more
        ∧ (∀ d ∈ more, d.event = .cairnDropped) ∧ n.log.next = m.log.next + 1 + BitVec.ofNat 64 more.length)
    ∧ (e.severity.code < 2 → n.cairn = m.cairn)
    ∧ (e.severity = .dangerous →
        n.cairn.queue ++ n.cairn.waiting
          = m.cairn.queue ++ m.cairn.waiting ++ [⟨.event, m.testing, some r, [], m.clock.timeUs, false⟩])
    ∧ (m.inject.armed = false → n.inject = m.inject)

/-- The EMCY frame of an event below severity fault (R408): one frame at 0x80 + node-ID with the error code 0xFF00, the
error register, the event's code, its severity and its index, where the severity reaches EMCY_SEVERITY, the node is not
stopped and it takes part in the bus; otherwise the node sends nothing. -/
def Obligations.RaisingSendsEmcy : Prop :=
  ∀ (m : Mod) (e : Event) (unit : BitVec 32) (p : Bytes), e.severity.code < 2 → m.log.ring.length ≤ 1023 →
    m.inject.armed = false →
    (m.raise e unit p).can.out = m.can.out ++
      (if m.log.emcySeverity.toNat ≤ e.severity.code ∧ m.can.nmt ≠ .stopped ∧ m.can.busOff = false ∧ m.boot.mcDown = false
        then [⟨0x80 + m.can.activeNodeId.toNat, [0x00#8, 0xFF#8, m.can.errorRegister] ++ leBytes 2 e.code
          ++ [BitVec.ofNat 8 e.severity.code] ++ leBytes 8 m.log.next.toNat⟩]
        else [])

/-- Entering the safe state (R458, R462, R463): in it already, a cause only sets its bit; else the cause's bit is set, the
state is counted and its time noted, the error register shows it, no stream runs and no pace is granted. Said where the
module is in no running lea, no gleaner is busy and no band waits to go dark. -/
def Obligations.EnteringSafeStateStopsTheModule : Prop :=
  ∀ (m : Mod) (bit : Fin 16),
    (m.safe.active = true →
      m.enterSafe bit.val = { m with safe := { m.safe with cause := m.safe.cause ||| BitVec.ofNat 16 (2 ^ bit.val) } })
    ∧ (m.safe.active = false → m.lea.st ≠ .running → m.gln.cells = [] → (∀ b, (m.band b).dyingAt = none) →
        let n := m.enterSafe bit.val
        n.safe = { m.safe with
          active := true, cause := m.safe.cause ||| BitVec.ofNat 16 (2 ^ bit.val), count := satAdd m.safe.count 1
          entryMs := BitVec.ofNat 32 ((m.clock.timeUs - m.clock.resetUs) / 1000) }
        ∧ n.can = { m.can with errorRegister := m.can.errorRegister ||| 0x80#8, out := n.can.out }
        ∧ n.stream = { m.stream with running := false, permit := false }
        ∧ n.power.paceNow = 0#8 ∧ n.boot.work ≠ .run ∧ n.boot.run = none
        ∧ n.fuses = m.fuses ∧ n.cells = m.cells ∧ n.memStacks.dram = m.memStacks.dram ∧ n.rick = m.rick ∧ n.sec = m.sec
        ∧ n.attn = m.attn ∧ n.dma = m.dma ∧ n.lea = m.lea ∧ n.hdg = m.hdg ∧ n.thermal = m.thermal)

/-- The answer to a request (R388, R392, R460): appended while the node serves and no injection is armed; a node that is
stopped, bus-off or restarting answers nothing. -/
def Obligations.AnswersAreSentWhileServing : Prop :=
  ∀ (m : Mod) (fd : Bool) (index sub : Nat) (r : SdoResult),
    (m.can.nmt ≠ .stopped → m.can.busOff = false → m.boot.mcDown = false → m.inject.armed = false →
      m.answer fd index sub r = Safety.answered m fd index sub r)
    ∧ (m.can.nmt = .stopped ∨ m.can.busOff = true ∨ m.boot.mcDown = true → m.answer fd index sub r = m)


/-- NMT_START, NMT_STOP, ENTER_PRE_OPERATIONAL, RESET_NODE and RESET_COMMUNICATION (R391 to R393): on the bus the first
three change the NMT state and report a change with the old and new heartbeat codes; the resets return the communication
objects to their defaults under the node-ID chosen again, keep CONSUMER_HB only where the module is in RUN, and end with
the boot-up message; off the bus none has an effect. -/
def Obligations.NmtCommandsSetNodeState : Prop :=
  ∀ (m : Mod), m.boot.powered = true →
    (m.can.busOff = true ∨ m.boot.mcDown = true → ∀ c ∈ [Instr.nmtStart, .nmtStop, .enterPreOperational, .resetNode,
      .resetCommunication], Safety.Turns m c m)
    ∧ (m.can.busOff = false → m.boot.mcDown = false → m.inject.armed = false →
      (∀ e ∈ [(Instr.nmtStart, Nmt.operational, 0x05), (.nmtStop, .stopped, 0x04), (.enterPreOperational, .preOperational, 0x7F)],
        Safety.Turns m e.1 (if m.can.nmt = e.2.1 then m
          else ({ m with can := { m.can with nmt := e.2.1 } } : Mod).raise .nmtState noUnit
            (payload [i1 (match m.can.nmt with | .preOperational => 0x7F | .operational => 0x05 | .stopped => 0x04), i1 e.2.2])))
      ∧ (∀ c ∈ [Instr.resetNode, .resetCommunication], Safety.Leaves m c (fun n =>
          let node := if m.can.nodeIdOverride ≠ 0#8 then m.can.nodeIdOverride.toNat
            else if m.can.strapNodeId ≠ 0#7 then m.can.strapNodeId.toNat else 127
          n = { m with log := n.log, cairn := n.cairn, jnl := n.jnl, inject := n.inject
                       can := { nmt := .preOperational, strapNodeId := m.can.strapNodeId
                                nodeIdOverride := m.can.nodeIdOverride, activeNodeId := BitVec.ofNat 8 node
                                errorRegister := m.can.errorRegister, syncCobId := 0x80#32
                                consumerHb := if m.effective 0 0 = .run then m.can.consumerHb else 0#32
                                hbLost := m.can.hbLost, hbBack := m.can.hbBack, busOff := false
                                tpdos := (List.range 8).map (Tpdo.reset node), transfer := none, out := n.can.out
                                answers := m.can.answers } }
          ∧ ∃ before, n.can.out = before ++ [⟨0x700 + node, [0#8]⟩])))

/-- HEARTBEAT, CONSUMED_HEARTBEAT and MGMT_HEARTBEAT_LOST (R392, R393, R457, R489): the node's own heartbeat with its code,
which stays 0x7F in recovery mode; the consumed node's, which ends a loss; and the loss, raised once, which enters the
safe state with cause bit 5. -/
def Obligations.HeartbeatsAreSentAndWatched : Prop :=
  ∀ (m : Mod) (node : BitVec 7), m.boot.powered = true → m.can.busOff = false → m.boot.mcDown = false →
    m.inject.armed = false →
    Safety.Turns m .heartbeat { m with can := { m.can with out := m.can.out ++ [⟨0x700 + m.can.activeNodeId.toNat,
      [if m.sec.recovery then 0x7F#8 else match m.can.nmt with
        | .preOperational => 0x7F#8 | .operational => 0x05#8 | .stopped => 0x04#8]⟩] } }
    ∧ Safety.Turns m (.consumedHeartbeat node)
        (if m.can.consumerHb ≠ 0#32 ∧ m.can.consumerHb.toNat / 65536 % 256 = node.toNat then
          { m with can := { m.can with hbLost := false, hbBack := m.can.hbBack || m.can.hbLost } } else m)
    ∧ Safety.Turns m .mgmtHeartbeatLost
        (if m.can.consumerHb = 0#32 ∨ m.can.hbLost = true then m
         else (({ m with can := { m.can with hbLost := true, hbBack := false } } : Mod).raise .mgmtHeartbeatLost noUnit
          (payload [i1 (m.can.consumerHb.toNat / 65536 % 256)])).enterSafe 5)

/-- CONSUMER_HB (R393, R397): 0 switches the consumer off, but not while the module is in RUN; any other value names a
node of 1 to 127 that is not the module's own, with bits [31:24] zero, and a time of 100 to 300 ms. -/
def Obligations.ConsumerHeartbeatIsChecked : Prop :=
  ∀ (m : Mod) (fd : Bool) (v : BitVec 32), m.boot.powered = true → Safety.Serves m →
    let node := v.toNat / 65536 % 256
    let time := v.toNat % 65536
    let set := Safety.accepted { m with can := { m.can with consumerHb := v } } fd 0x1016 1
    Safety.Turns m (.consumerHb fd v)
      (if v = 0#32 then (if m.effective 0 0 = .run then Safety.refused m fd 0x1016 1 0x08000022 else set)
       else if v.toNat / 2 ^ 24 ≠ 0 ∨ node = 0 ∨ 127 < node ∨ node = m.can.activeNodeId.toNat then
        Safety.refused m fd 0x1016 1 0x06090030
       else if time < 100 then Safety.refused m fd 0x1016 1 0x06090032
       else if 300 < time then Safety.refused m fd 0x1016 1 0x06090031
       else set)

/-- SYNC, TPDO_EVENT_TIMER and TPDO_SENT (R395, R396): a PDO becomes due after every nth SYNC or at its event timer, and
is queued from one snapshot; it leaves its queue as a frame. SYNC is said where one PDO at most is synchronous. -/
def Obligations.PdosAreQueuedAndSent : Prop :=
  ∀ (m : Mod) (k : Fin 8) (cob : BitVec 11), m.boot.powered = true → m.can.busOff = false → m.boot.mcDown = false →
    m.inject.armed = false →
    let t := m.tpdo k.val
    let due := m.setTpdo k.val { t with queued := some (m.pdoData t), syncs := 0 }
    (m.can.nmt ≠ .operational ∨ m.can.syncCobId.toNat ≠ cob.toNat → Safety.Turns m (.sync cob) m)
    ∧ (m.can.nmt = .operational → m.can.syncCobId.toNat = cob.toNat → t.queued = none →
        (∀ j, j ≠ k.val → (m.tpdo j).cobId.msb = true) →
        Safety.Turns m (.sync cob)
          (if t.cobId.msb = true ∨ 240 < t.ttype.toNat ∨ t.ttype = 0#8 then m
           else if t.syncs + 1 < t.ttype.toNat then m.setTpdo k.val { t with syncs := t.syncs + 1 } else due))
    ∧ Safety.Turns m (.tpdoEventTimer k)
        (if m.can.nmt ≠ .operational ∨ t.cobId.msb = true ∨ t.ttype ≠ 0xFE#8 ∨ t.timer = 0#16 then m
         else if t.queued = none then due
         else
          let l : Log := { m.log with pdoOverruns := satAdd m.log.pdoOverruns 1 }
          let s := m.clock.timeUs / 1000000 + 1
          if m.log.overrunRaised = s then { due with log := l }
          else ({ due with log := { l with overrunRaised := s } } : Mod).raise .pdoOverrun noUnit (payload [i1 (k.val + 1)]))
    ∧ (t.queued = none ∨ m.can.nmt ≠ .operational → Safety.Turns m (.tpdoSent k) m)
    ∧ (∀ d, t.queued = some d → m.can.nmt = .operational →
        let n := m.setTpdo k.val { t with queued := none }
        Safety.Turns m (.tpdoSent k) { n with can := { n.can with out := n.can.out ++ [⟨t.cobId.toNat % 2048, d⟩] } })

/-- CAN_BUS_OFF, BUS_OFF_RECOVERY and ERROR_REGISTER_UPDATE (R388, R523): bus-off is reported once; recovery ends it; the
error register is formed whole, with bit 7 for the safe state, bit 4 for communication, bit 3 for heat, bit 2 for voltage
and bit 0 for a unit in FAULT. -/
def Obligations.BusOffAndErrorRegisterAreTracked : Prop :=
  ∀ (m : Mod), m.boot.powered = true →
    Safety.Turns m .canBusOff (if m.can.busOff then m
      else ({ m with can := { m.can with busOff := true } } : Mod).raise .canBusOff noUnit [])
    ∧ Safety.Turns m .busOffRecovery { m with can := { m.can with busOff := false } }
    ∧ (m.boot.mcDown = true → Safety.Turns m .errorRegisterUpdate m)
    ∧ (m.boot.mcDown = false → Safety.Leaves m .errorRegisterUpdate (fun n =>
        let e := n.can.errorRegister
        n = { m with can := { m.can with errorRegister := e } }
        ∧ e.getLsbD 7 = m.safe.active ∧ e.getLsbD 6 = false ∧ e.getLsbD 5 = false ∧ e.getLsbD 1 = false
        ∧ e.getLsbD 4 = (m.can.busOff || m.can.hbLost || (m.jnl.wasUp && m.jnl.train.st != .up)
            || m.hdg.ports.any (fun p => p.train.st == .failed))
        ∧ e.getLsbD 3 = m.heatBad ∧ e.getLsbD 2 = m.voltageBad
        ∧ e.getLsbD 0 = allUnits.any (fun u => m.effective u.1 u.2 == .fault)))

/-- STATE_COMPARISON, MISMATCH_CLEAR and FORCE_TIMEOUT (R404 to R406), for one unit about which something is recorded: a data view less
conservative than the management view is seen once, and at the second comparison it is latched, counted, kept as the first
mismatch, forced at the next barrier where the unit is active in a running stream, reported and noted in the cairn; a unit
whose views agree is seen no longer; the clear drops the bit of a unit whose views agree, and no other; at FORCE_TIMEOUT, with a
stream running and a force waiting, the module enters FAULT, no force waits any longer and the stream halts. -/
def Obligations.MismatchesAreLatchedAndForced : Prop :=
  (∀ (m : Mod) (cls : Fin 10) (inst : Nat) (r : UnitRec), m.boot.powered = true → inst < classSize cls.val →
     let u := unitId cls.val inst
     let only (r : UnitRec) : Map UnitRec := if r = UnitRec.none then [] else [(u.toNat, r)]
     r ≠ UnitRec.none → m.units.recs = [(u.toNat, r)] →
     (r.lag.isSome = true ∨ r.seen ≠ 0 →
       (m.disagrees cls.val inst = false →
         Safety.Turns m (.stateComparison []) { m with units := { m.units with recs := only { r with seen := 0 } } })
       ∧ (m.disagrees cls.val inst = true → r.seen = 0 →
         Safety.Turns m (.stateComparison []) { m with units := { m.units with recs := only { r with seen := 1 } } })
       ∧ (m.disagrees cls.val inst = true → 1 < r.seen → Safety.Turns m (.stateComparison []) m)
       ∧ (m.disagrees cls.val inst = true → r.seen = 1 → Safety.Leaves m (.stateComparison []) (fun n =>
           n = { m with log := n.log, can := { m.can with out := n.can.out }, cairn := n.cairn, jnl := n.jnl, inject := n.inject
                        units := { m.units with
                         recs := [(u.toNat, { r with
                           seen := 2, mismatch := true
                           forceAt := if m.activeUnit cls.val inst then some m.clock.timeUs else none })]
                         mismatchCount := satAdd m.units.mismatchCount 1
                         firstMismatch := if m.units.firstMismatch = 0#64 then m.mismatchWord cls.val inst
                           else m.units.firstMismatch } })))
     ∧ (∀ st n, Safety.Turns (m.setUnit u (fun x => { x with lag := st })) (.stateComparison []) n →
         Safety.Turns m (.stateComparison [(u, st)]) n)
     ∧ (∀ fd, Safety.Serves m → Safety.Turns m (.mismatchClear fd 1#8)
         (Safety.accepted { m with units := { m.units with
           recs := if r.mismatch = true ∧ m.disagrees cls.val inst = false then only { r with mismatch := false }
             else m.units.recs } } fd 0x2402 0))
     ∧ (∀ fd v, v ≠ 1#8 → Safety.Serves m → Safety.Turns m (.mismatchClear fd v) (Safety.refused m fd 0x2402 0 0x06090030)))
  ∧ (∀ (m : Mod), m.boot.powered = true → m.lea.st ≠ .running → (∀ b, (m.band b).dyingAt = none) →
       Safety.Turns m .forceTimeout
         (if m.stream.running = true ∧ m.units.recs.any (fun e => e.2.forceAt.isSome) = true then
           { m with
             units := { m.units with
               recs := ((Map.modify UnitRec.none m.units.recs 0 (fun r => { r with mgmtFault := true })).map
                 (fun e => (e.1, ({ e.2 with forceAt := none } : UnitRec)))).filter (fun e => decide (e.2 ≠ UnitRec.none)) }
             stream := { m.stream with running := false, permit := false }
             boot := { m.boot with work := if m.boot.work = .run then .ready else m.boot.work }
             memStacks := { m.memStacks with ctl := m.memStacks.ctl.zipIdx.map (fun e => { e.1 with slots := idleSlots e.2 }) }
             power := { m.power with paceNow := 0#8, rest := 0#8, hint := none, slewTo := none, deferred := none } }
          else m))


/-- PERMIT_PERIOD (R102, R132, R133, R434): while a stream runs, a permit still unused expires as a slip: it is counted in
the total and under each of its causes, cause 11 where there is none, and the first slip since the counter was cleared is
recorded with its lowest cause. Then the next permit is granted, or withheld and counted as a rest step under a debug
halt, on every other period of droop, and by the rest fraction. A stream that stands still gets no permit. -/
def Obligations.UnusedPermitsExpireAsSlips : Prop :=
  ∀ (m : Mod) (seen : BitVec 11), m.boot.powered = true → m.settled = m →
    let p := m.power
    let s := m.stream
    let held := m.sec.dbgHalt = 1#8 ∨ (p.droop = true ∧ p.droopSkip = true)
      ∨ p.permitIdx * p.rest.toNat / 64 < (p.permitIdx + 1) * p.rest.toNat / 64
    let next (k : Mod) : Mod := { k with
      power := { p with permitIdx := (p.permitIdx + 1) % 64, droopSkip := p.droop && !p.droopSkip }
      stream := { k.stream with
        permit := decide (¬held), restSteps := if held then satAdd s.restSteps 1 else s.restSteps } }
    let found := (m.holdCauses ++ (List.range 11).filterMap (fun i => if seen.getLsbD i then some (i + 1) else none)).eraseDups
    let causes := if found = [] then [11] else found
    let low := causes.foldl min 11
    let slipped : Stream := { s with
      slipTotal := satAdd s.slipTotal 1
      slipCause := s.slipCause.zipIdx.map (fun e => if causes.contains (e.2 + 1) then satAdd e.1 1 else e.1)
      firstSlip := if s.slipTotal = 0#64 then BitVec.ofNat 64 (s.stepCount.toNat % 2 ^ 48 + low * 2 ^ 48) else s.firstSlip
      slips := s.slips + 1, slipLow := if s.slips = 0 then low else min s.slipLow low }
    (s.running = false → Safety.Turns m (.permitPeriod seen) m)
    ∧ (s.running = true → s.permit = false → Safety.Turns m (.permitPeriod seen) (next m))
    ∧ (s.running = true → s.permit = true →
        (s.slipLimit = 0#32 ∨ s.slips + 1 ≤ s.slipLimit.toNat ∨ s.slipRaised = true →
          Safety.Turns m (.permitPeriod seen) (next { m with stream := slipped }))
        ∧ (s.slipLimit ≠ 0#32 → s.slipLimit.toNat < s.slips + 1 → s.slipRaised = false →
          Safety.Turns m (.permitPeriod seen) (next (({ m with stream := { slipped with slipRaised := true } } : Mod).raise
            .slipLimit noUnit (payload [i8 (s.slips + 1), i1 slipped.slipLow])))))

/-- PROGRAM_STEP and NOP (R101, R110, R115): a step is taken whole once a permit is there, the bundle's rows are in the
buffer with even parity and nothing holds a row; a bundle whose rows are all NOP advances the step count, its own
repetition and the paths between cells, and nothing else; a row of odd parity halts the stream in FAULT; a NOP slot has
no effect. -/
def Obligations.StepsAreTakenByTheWholeModule : Prop :=
  ∀ (m : Mod) (h : Hdr) (ups : List Upset) (hosts : List (Fin 96 × BitVec 512)) (empty : Nat), m.boot.powered = true →
    Safety.Turns m .nop m
    ∧ (m.lea.locked = false → m.settled = m →
      (m.stream.running = false ∨ m.stream.permit = false ∨ m.stream.phase ≠ .run →
        Safety.Turns m (.programStep ups hosts empty) m)
      ∧ (m.stream.running = true → m.stream.permit = true → m.stream.phase = .run → m.header = some h →
          m.bundleIn h = true → m.tl.stalled = 0#16 →
        (∀ e, (m.rowsOf h).find? (fun e => onesIn 256 e.2.toNat % 2 == 1) = some e →
          Safety.Turns m (.programStep ups hosts empty)
            (m.streamFault .streamParity (payload [i8 m.bundlePos.toNat, i1 e.1])))
        ∧ (h.mask = 0 → (∀ e ∈ m.cells, cellBusy e.2 = false) → ups = [] →
          Safety.Turns m (.programStep ups hosts empty) ({ m with
            power := if m.stream.rep = 0 ∧ h.level ≠ 0 then
                { m.power with hint := some ⟨m.stream.stepCount.toNat + 1024 * h.lead, h.level, false⟩ }
              else m.power
            chip := { m.chip with
              lanes := (m.chip.lanes.filter (fun x => decide (x.left ≠ 0))).map (fun x => { x with left := x.left - 1 })
              mesh := m.chip.mesh.map (fun x => { x with left := x.left - 1 }) }
            stream := { m.stream with
              permit := false, stepCount := satAdd m.stream.stepCount 1, rep := m.stream.rep + 1
              sinceLea := m.stream.sinceLea + 1 }
            attn := { m.attn with emptyRow := satAdd m.attn.emptyRow empty } } : Mod).settled)))

/-- BUNDLE_FETCH (R104 to R106): units of 16 B of the stream, as its section holds them, are added to the bundle buffer;
beyond the section, or with no stream running, nothing is fetched. -/
def Obligations.BundlesAreFetchedIntoTheBuffer : Prop :=
  ∀ (m : Mod) (off n : Nat), m.boot.powered = true →
    (m.stream.running = false ∨ m.boot.image = none → Safety.Turns m (.bundleFetch off n) m)
    ∧ ∀ (im : Image) (sec : Section) (rest : List Section), m.boot.image = some im → im.sections = sec :: rest →
      (sec.len / 16 < off + n → Safety.Turns m (.bundleFetch off n) m)
      ∧ (m.stream.running = true → off + n ≤ sec.len / 16 →
          let r := m.withStacks reqFetch (fun s => readMem s (sec.addr + 16 * off) (16 * n) reqFetch 0)
          (∀ p ∈ r.1, p.2 = false) → r.2.stream.buffer.length + n ≤ 131072 →
          (∀ e ∈ r.2.stream.buffer, e.1 < off ∨ off + n ≤ e.1) →
          Safety.Turns m (.bundleFetch off n) ({ r.2 with stream := { r.2.stream with
            buffer := r.2.stream.buffer ++ (List.range n).map (fun i =>
              (off + i, BitVec.ofNat 128 (leNat (((pieceBytes r.1).drop (16 * i)).take 16)))) } } : Mod).settled)

/-- LOOP_BEGIN, LOOP_END, END, RESTART, HEAVY_PHASE_HINT, HINT_RAMP and BOOST_END (R109 to R112, R157, R439): a loop of
count 0 is skipped, another is pushed unless its counter is in use or eight loops are open; LOOP_END of the innermost loop
at its end goes back to the start of the body or pops it; a broken rule halts the stream with LOOP_FAULT; END stops the
stream, RESTART goes on at offset 0; the hint of a bundle is taken up at its first step. Elsewhere in a bundle the
operation is not there and nothing happens. -/
def Obligations.BundleOperationsFollowTheHeader : Prop :=
  ∀ (m : Mod) (h : Hdr), m.boot.powered = true → m.settled = m →
    let s := m.stream
    let stop := s.pos + h.units
    let go (loops : List LoopEntry) (next : Option Nat) : Mod :=
      if (h.fin = true ∨ h.restart = true) ∧ loops ≠ [] then m.loopFault
      else ({ m with stream := { s with phase := .barrier, loops := loops, next := next } } : Mod).settled
    (s.running = false → ∀ c ∈ [Instr.loopBegin, .loopEnd, .streamEnd, .restart, .heavyPhaseHint], Safety.Turns m c m)
    ∧ (s.running = true → m.header = some h →
      (s.phase ≠ .loop → Safety.Turns m .loopBegin m ∧ Safety.Turns m .loopEnd m)
      ∧ (s.phase = .loop → h.loopOp ≠ 1 → Safety.Turns m .loopBegin m)
      ∧ (s.phase = .loop → h.loopOp = 1 → Safety.Turns m .loopBegin
          (if s.loops.any (fun l => l.ctr == h.ctr) = true then m.loopFault
           else if h.count = 0 then go s.loops (some (stop + h.body))
           else if 8 ≤ s.loops.length then m.loopFault
           else go (⟨h.ctr, 0, h.count, stop, stop + h.body⟩ :: s.loops) none))
      ∧ (s.phase = .loop → h.loopOp ≠ 2 → Safety.Turns m .loopEnd m)
      ∧ (s.phase = .loop → h.loopOp = 2 → s.loops = [] → Safety.Turns m .loopEnd m.loopFault)
      ∧ (∀ l rest, s.phase = .loop → h.loopOp = 2 → s.loops = l :: rest → Safety.Turns m .loopEnd
          (if l.ctr ≠ h.ctr ∨ stop ≠ l.stop then m.loopFault
           else if l.index + 1 < l.count then go ({ l with index := l.index + 1 } :: rest) (some l.start)
           else go rest none))
      ∧ (s.phase ≠ .fin → Safety.Turns m .streamEnd m ∧ Safety.Turns m .restart m)
      ∧ (s.phase = .fin → Safety.Turns m .streamEnd (if h.fin = true then m.haltStream.leaSignal else m)
          ∧ Safety.Turns m .restart (if h.restart = true then
              ({ m with stream := { s with phase := .run, rep := 0, pos := 0, next := none } } : Mod).settled else m))
      ∧ Safety.Turns m .heavyPhaseHint (if s.phase = .run ∧ s.rep = 0 ∧ h.level ≠ 0 then
          { m with power := { m.power with hint := some ⟨s.stepCount.toNat + 1024 * h.lead, h.level, false⟩ } } else m))
    ∧ Safety.Turns m .hintRamp { m with power := { m.power with
        hint := m.power.hint.map (fun x => { x with active := true }) } }
    ∧ Safety.Turns m .boostEnd { m with power := { m.power with hint := none } }

/-- LOCAL_BARRIER, LEA_BARRIER and LEA_PHASE_BOUNDARY (R113, R140, R141, R156): a barrier is taken only where the current
bundle has one of its kind, once the cells are idle and every transfer without XB is done. A local one inside a calm
module starts a new barrier interval: the L1 caches are empty, the once-per-interval marks and the slip count of the
interval cleared. A lea barrier of a running member is taken locally: its own REPORT waits for its children's, or, with an
ABORT pending, the member halts there. -/
def Obligations.BarriersAreTakenAtTheirKind : Prop :=
  ∀ (m : Mod) (h : Hdr) (x : BarrierIn), m.boot.powered = true → m.settled = m →
    let s := m.stream
    let fresh (e : Nat × CellState) : Nat × CellState := (e.1, { e.2 with l1 := [], nfRaised := false, tlRaised := false })
    let start : Mod := { m with cells := (m.cells.map fresh).filter (fun e => decide (e.2 ≠ CellState.reset)) }
    ∀ e ∈ [(Instr.localBarrier x, 1), (.leaBarrier x, 2), (.leaPhaseBoundary x, 3)],
      (s.running = false ∨ s.phase ≠ .barrier ∨ m.lea.wait.isSome = true → Safety.Turns m e.1 m)
      ∧ (s.running = true → m.header = some h → h.barKind ≠ e.2 → Safety.Turns m e.1 m)
      ∧ (s.running = true → s.phase = .barrier → m.header = some h → h.barKind = e.2 → m.lea.wait = none →
          m.cellsIdle = true →
        (m.dma.tags.any (fun t => !t.xb) = true ∨ m.dma.waiting.any (fun w => !w.xb) = true ∨ m.tl.stalled ≠ 0#16 →
          Safety.Turns m e.1 m)
        ∧ (m.dma.tags.all (fun t => t.xb) = true → m.dma.waiting.all (fun w => w.xb) = true → m.tl.stalled = 0#16 →
          (e.2 = 1 → m.lea.st = .running → (∀ b, (m.band b).dyingAt = none ∧ (m.band b).trimPending = 0) →
            m.tl.crossings = [] → m.recalDue = false → m.planting.staged = none →
            Safety.Turns m e.1 ({ start with
              stream := { s with slips := 0, slipLow := 0, slipRaised := false, barriers := s.barriers + 1, phase := .fin }
              dma := { m.dma with deadlineRaised := false } } : Mod).settled)
          ∧ (e.2 = 1 ∨ m.lea.st ≠ .running →
            let n := m.atBarrier e.2 h.barId (decide (m.lea.st ≠ .running)) x
            Safety.Turns m e.1
              ({ n with stream := { n.stream with phase := if n.running then .fin else n.stream.phase } } : Mod).settled)
          ∧ (e.2 ≠ 1 → m.lea.st = .running →
            (∀ t, m.lea.abort = some t → Safety.Turns m e.1 (m.abortNow t))
            ∧ (m.lea.abort = none → (∃ c ∈ m.leaChildren, ∀ r ∈ m.lea.reports, r.1 ≠ c.1) →
              let own : Token := ⟨1#8, m.lea.stopReq || (m.lea.ending || h.fin) || m.lea.leaveAfter, false, false, false,
                m.anyFault, BitVec.ofNat 16 h.barId, m.lea.active.id, BitVec.ofNat 48 (m.lea.barSeq.toNat + 1),
                m.power.paceAllow, BitVec.ofNat 8 e.2, m.barChecksum h.barId e.2 (m.lea.barSeq.toNat + 1),
                if m.anyFault then BitVec.ofNat 16 m.member else 0xFFFF#16, 1#10⟩
              Safety.Turns m e.1 { m with
                stream := { s with sinceLea := 0 }
                lea := { m.lea with ending := m.lea.ending || h.fin, wait := some ⟨own, m.clock.timeUs, none⟩ } }))))

/-- DESCRIPTOR_ARRIVAL (R128, R130): a descriptor from a running control core joins the end of a usable cell's queue while
that has room for it, and the core's next SEQ follows; one that a walk has formed leaves the core's outbox. -/
def Obligations.DescriptorsJoinACellsQueue : Prop :=
  ∀ (m : Mod) (cell : Fin 4704) (queue : Fin 4) (d : BitVec 512) (rest : List (BitVec 512)), m.boot.powered = true →
    let k := cell.val * 4 + queue.val
    let c := m.cell cell.val
    let q := listGet [] c.queues queue.val
    let join : Mod := m.setCell cell.val { c with queues := listSet c.queues queue.val (q ++ [d]) }
    let open_ := isUsable m.plan cell.val = true ∧ bitOf m.boot.coresHeld.toNat (bandOf cell.val) = false ∧ q.length < 8
    (¬open_ → ∀ o, Safety.Turns m (.descriptorArrival cell queue o) m)
    ∧ (open_ → Safety.Turns m (.descriptorArrival cell queue (some d)) { join with
        chip := { m.chip with sendSeq := Map.set 0 m.chip.sendSeq k ((field d.toNat 16 16 + 1) % 65536) } })
    ∧ (Map.get [] m.chip.outbox k = [] → Safety.Turns m (.descriptorArrival cell queue none) m)
    ∧ (open_ → Map.get [] m.chip.outbox k = d :: rest → Safety.Turns m (.descriptorArrival cell queue none) { join with
        chip := { m.chip with outbox := Map.set [] m.chip.outbox k rest } })

/-- LEA_SIZE, LEA_COMMIT, LEAVE and STOP_REQ (R137 to R139, R157, R159, R161, R400): the staged size is 2 to 512 and 0 is
refused as ZERO_INVALID; nothing staged changes while a COMMIT waits for its swap; COMMIT is taken where the lea is
neither forming, running nor diverged and its checks pass, and what refused it is shown; LEAVE clears the active
configuration of a lea that does not run; STOP_REQ is for a running lea. -/
def Obligations.LeaConfigurationIsStagedAndCommitted : Prop :=
  ∀ (m : Mod) (fd : Bool) (size : BitVec 16) (v : BitVec 8), m.boot.powered = true → Safety.Serves m →
    let with_ (st : BitVec 8) : Mod := { m with lea := { m.lea with result := st } }
    let st := if m.lea.st = .none ∨ m.lea.st = .stopped then m.lea.staged.status else 0x34#8
    Safety.Turns m (.leaSize fd size)
      (if size = 0#16 then Safety.refused (if m.lea.locked then m else with_ stZeroInvalid) fd 0x4800 2 0x06090032
       else if size.toNat < 2 then Safety.refused m fd 0x4800 2 0x06090032
       else if 512 < size.toNat then Safety.refused m fd 0x4800 2 0x06090031
       else if m.lea.locked then Safety.refused m fd 0x4800 2 0x08000022
       else Safety.accepted { m with lea := { m.lea with staged := { m.lea.staged with size := size } } } fd 0x4800 2)
    ∧ Safety.Turns m (.leaCommit fd v)
        (if v ≠ 1#8 then Safety.refused m fd 0x4800 7 0x06090030
         else if m.lea.locked then Safety.refused m fd 0x4800 7 0x08000022
         else if st = 0#8 then Safety.accepted { m with lea := { m.lea with locked := true, result := 0#8 } } fd 0x4800 7
         else Safety.refused (with_ st) fd 0x4800 7 0x08000022)
    ∧ Safety.Turns m (.stopReq fd v)
        (if v ≠ 1#8 then Safety.refused m fd 0x4801 2 0x06090030
         else if m.lea.st = .running then Safety.accepted { m with lea := { m.lea with stopReq := true } } fd 0x4801 2
         else Safety.refused m fd 0x4801 2 0x08000022)
    ∧ (m.lea.st = .forming ∨ m.lea.st = .running → Safety.Turns m (.leave fd) (Safety.accepted (with_ 0x34#8) fd 0x4801 1))
    ∧ (m.lea.st ≠ .forming → m.lea.st ≠ .running → m.lea.active = LeaCfg.zero →
        Safety.Turns m (.leave fd) (Safety.accepted { m with lea := { m.lea with st := .none, result := 0#8 } } fd 0x4801 1))
    ∧ (m.lea.st ≠ .forming → m.lea.st ≠ .running → Safety.Leaves m (.leave fd) (fun n =>
        n.lea.st = .none ∧ n.lea.result = 0#8 ∧ n.lea.active = LeaCfg.zero ∧ n.lea.staged = m.lea.staged
        ∧ n.cells = m.cells ∧ n.stream = m.stream ∧ n.power = m.power ∧ n.memStacks = m.memStacks ∧ n.units = m.units))

/-- LEA_START and FORMATION_TIMEOUT (R158): START needs a ready module with the lea part of an image that fits the active
configuration, loaded again after a divergence, and is refused with LEA_STATE_INVALID otherwise; the checks of a start
apply; the formation REPORT then waits for the children's, or goes to the parent; after 1 s without a release the
formation is given up, with LEA_FORM_TIMEOUT. -/
def Obligations.LeaFormsOrTimesOut : Prop :=
  ∀ (m : Mod) (fd : Bool) (x : BarrierIn), m.boot.powered = true → m.lea.locked = false →
    let fits := ∃ im, m.boot.image = some im ∧ m.isReady = true ∧ m.lea.active.size ≠ 0#16 ∧ im.lea = true
      ∧ im.partIndex = m.lea.active.index ∧ im.leaSize = m.lea.active.size
    let able := fits ∧ m.stream.running = false ∧ m.lea.reload = false ∧ m.lea.st ≠ .forming ∧ m.lea.st ≠ .running
    let own : Token := ⟨1#8, m.lea.leaveAfter, !m.identOk, false, false, false, 0#16, m.lea.active.id, 0#48,
      m.power.paceAllow, 3#8, m.barChecksum m.lea.active.size.toNat 3 0,
      if m.identOk then 0xFFFF#16 else BitVec.ofNat 16 m.member, 1#10⟩
    let forming (sent : Option Token) : Mod := { m with lea := { m.lea with
      before := m.lea.st, st := .forming, result := 0#8, reports := [], stopReq := false, ending := false
      abort := none, aborting := none, lastRelease := none, wait := some ⟨own, m.clock.timeUs, sent⟩ } }
    (Safety.Serves m →
      (¬able → Safety.Turns m (.leaStart fd x)
        (Safety.accepted { m with lea := { m.lea with result := 0x34#8 } } fd 0x4801 1))
      ∧ (able → m.startChecks ≠ 0#8 → Safety.Turns m (.leaStart fd x) (Safety.accepted { m with
          lea := { m.lea with result := 0x34#8 }
          boot := { m.boot with
            steps := listSet m.boot.steps 6 { listGet StepObj.reset m.boot.steps 6 with status := m.startChecks } } } fd 0x4801 1))
      ∧ (able → m.startChecks = 0#8 → m.leaChildren ≠ [] →
          Safety.Turns m (.leaStart fd x) (Safety.accepted (forming none) fd 0x4801 1))
      ∧ (able → m.startChecks = 0#8 → m.leaChildren = [] → ∀ p, m.leaParent = some p → m.upPorts p.2 = [] →
          Safety.Turns m (.leaStart fd x) (Safety.accepted (forming (some own)) fd 0x4801 1)))
    ∧ Safety.Turns m .formationTimeout (if m.lea.st = .forming then
        { m with lea := { m.lea with result := 0x36#8, st := m.lea.before, wait := none, reports := [] } } else m)

/-- REPORT, RELEASE, ALIVE and ABORT (R141 to R143, R154 to R158): a token of another lea is discarded and counted; a
child's REPORT is kept until the member's barrier, and one that completes the barrier is combined and sent up; a RELEASE
from the parent ends a formation with LEA_MISMATCH, or completes the barrier at which the member waits; an ALIVE without
a flag tells nothing more, one with a flag goes toward the leader; an ABORT waits for the next lea barrier, or halts a
member that waits at one. -/
def Obligations.TokensDriveTheMember : Prop :=
  ∀ (m : Mod) (gate : Fin 6) (t : Token) (x : BarrierIn), m.boot.powered = true →
    let own := m.lea.active.size ≠ 0#16 ∧ t.leaId = m.lea.active.id
    let r : Token := { t with type := 1#8 }
    (¬own → ∀ c ∈ [Instr.report gate t x, .release gate t x, .alive gate t x, .abort gate t x],
      Safety.Turns m c { m with lea := { m.lea with foreign := satAdd m.lea.foreign 1 } })
    ∧ (own → (∀ c, m.neighbourAt gate.val ≠ some (c, false)) → Safety.Turns m (.report gate t x) m)
    ∧ (own → ∀ c, m.neighbourAt gate.val = some (c, false) → m.lea.lastRelease = none →
        (m.lea.wait = none → Safety.Turns m (.report gate t x) { m with lea := { m.lea with
          reports := m.lea.reports.filter (fun e => e.1 != c) ++ [(c, r)] } })
        ∧ (∀ w, m.lea.wait = some w → w.sent = none → m.leaChildren.map (fun e => e.1) = [c] → m.isLeader = false →
            let all := Token.combine w.own w.own c r
            Safety.Turns m (.report gate t x) (({ m with lea := { m.lea with
              wait := some { w with sent := some all }, reports := [] } } : Mod).sendUp all)))
    ∧ (own → (∀ p, m.neighbourAt gate.val ≠ some (p, true)) → Safety.Turns m (.release gate t x) m)
    ∧ (own → m.lea.wait = none → Safety.Turns m (.release gate t x) m)
    ∧ (∀ p w, own → m.neighbourAt gate.val = some (p, true) → m.lea.wait = some w → w.own.barSeq = t.barSeq →
        w.sent.isSome = true → m.leaChildren = [] →
        let rel : Token := { t with type := 2#8 }
        (m.lea.st = .forming → t.mismatch = true → Safety.Turns m (.release gate t x) { m with lea := { m.lea with
          result := 0x35#8, st := .stopped, wait := none, reports := [], firstBad := t.firstBad } })
        ∧ (m.lea.st = .running → t.mismatch = false → t.stop = false →
            let wait := BitVec.ofNat 32 (min ((m.clock.timeUs - w.since) * 1000) (2 ^ 32 - 1))
            let m1 : Mod := { m with lea := { m.lea with
              barSeq := t.barSeq.setWidth 64, lastChecksum := w.own.checksum
              waitMax := if m.lea.waitMax < wait then wait else m.lea.waitMax, wait := none, lastRelease := some rel } }
            let m2 := (m1.deliverHeld t.barSeq.toNat none).atBarrier w.own.kind.toNat w.own.barId.toNat true x
            let m3 : Mod := { m2 with lea := { m2.lea with pace := t.pace } }
            let m4 := if m2.lea.pace = t.pace then m3
              else m3.raise .leaPaceChanged noUnit (payload [i1 m2.lea.pace.toNat, i1 t.pace.toNat])
            let m5 := m4.releasePace t.pace.toNat
            Safety.Turns m (.release gate t x) ({ m5 with
              stream := { m5.stream with phase := if m5.running then .fin else m5.stream.phase } } : Mod).settled)
        ∧ (m.lea.st = .running → t.mismatch = true →
            Safety.Leaves m (.release gate t x) (fun n => n.lea.firstBad = t.firstBad ∧ n.lea.reload = true
              ∧ n.lea.lastChecksum = w.own.checksum ∧ n.stream.running = false ∧ n.lea.wait = none
              ∧ n.safe.active = true)))
    ∧ (own → t.paused = false → t.lost = false → t.fault = false → Safety.Turns m (.alive gate t x) m)
    ∧ (own → m.lea.st ≠ .running → Safety.Turns m (.alive gate t x) m ∧ Safety.Turns m (.abort gate t x) m)
    ∧ (own → (t.paused = true ∨ t.lost = true ∨ t.fault = true) → m.lea.st = .running → m.isLeader = false →
        Safety.Turns m (.alive gate t x) (m.sendUp { t with type := 3#8 }))
    ∧ (own → m.lea.st = .running → m.leaChildren = [] →
        let a : Token := { t with type := 4#8 }
        (m.lea.wait = none → m.stream.running = true → Safety.Turns m (.abort gate t x)
          { m with lea := { m.lea with aborting := some a, abort := some a } })
        ∧ (m.lea.wait.isSome = true ∨ m.stream.running = false → Safety.Turns m (.abort gate t x)
          (({ m with lea := { m.lea with aborting := some a } } : Mod).abortNow a)))

/-- ALIVE_TIMER, NEIGHBOUR_LOST, BARRIER_OVERDUE and TOKEN_RESEND (R140, R154 to R156, R348): a running member that waits
at no barrier sends its ALIVE to its neighbours; a parent that is silent aborts the member, a silent child is reported
toward the leader; 65,536 steps without a lea barrier halt the stream in FAULT; what is unanswered is sent again. Outside
a running lea none of these has an effect. -/
def Obligations.LeaTimersAct : Prop :=
  ∀ (m : Mod) (gate : Fin 6), m.boot.powered = true →
    let flags (type : BitVec 8) (stop lost : Bool) (bad : BitVec 16) : Token := ⟨type, stop, false, false, lost, false, 0#16,
      m.lea.active.id, m.lea.barSeq.setWidth 48, 0#8, 0#8, 0#64, bad, 0#10⟩
    (m.lea.st ≠ .running → ∀ c ∈ [Instr.aliveTimer, .neighbourLost gate, .barrierOverdue], Safety.Turns m c m)
    ∧ (m.lea.wait.isSome = true → Safety.Turns m .aliveTimer m)
    ∧ (m.lea.st = .running → m.lea.wait = none → m.lea.paused = false → m.stream.running = true → m.leaChildren = [] →
        Safety.Turns m .aliveTimer (m.sendUp (flags 3#8 false false 0xFFFF#16)))
    ∧ (m.neighbourAt gate.val = none → Safety.Turns m (.neighbourLost gate) m)
    ∧ (∀ k, m.lea.st = .running → m.neighbourAt gate.val = some (k, true) →
        Safety.Turns m (.neighbourLost gate) (m.takeAbort (flags 4#8 true true (BitVec.ofNat 16 k))))
    ∧ (∀ k, m.lea.st = .running → m.neighbourAt gate.val = some (k, false) → m.isLeader = false →
        Safety.Turns m (.neighbourLost gate) (m.sendUp (flags 3#8 false true (BitVec.ofNat 16 k))))
    ∧ (m.stream.running = false ∨ m.stream.sinceLea < 65536 → Safety.Turns m .barrierOverdue m)
    ∧ (m.lea.st = .running → m.stream.running = true → 65536 ≤ m.stream.sinceLea →
        Safety.Turns m .barrierOverdue ((m.raise .barrierOverdue noUnit []).dataFault 0 0).haltStream.leaSignal)
    ∧ (m.lea.aborting = none → (∀ w, m.lea.wait = some w → w.sent = none) → Safety.Turns m .tokenResend m)
    ∧ (∀ w a, m.lea.aborting = none → m.lea.wait = some w → w.sent = some a → Safety.Turns m .tokenResend (m.sendUp a))
    ∧ (∀ a, m.lea.aborting = some a → m.lea.wait = none → Safety.Turns m .tokenResend (m.sendDown a))

/-- ADV, ADVANCE, SWAP, SWAP_SAVED, TILE_DRAIN, CTX_SAVE, CTX_RESTORE and DEBUG_READ (R66 to R70, R97, R98, R117): a cell
that is stopped executes none of them; a legal ADV starts its feed and marks its arrays; an advance is made once its
bytes are staged; a SWAP without a report hands the masked accumulators to the drain and leaves the unit free; the drain
of a clean tile of finite values writes the values, then the status word; a context is saved to and restored from Loam
unless a K block is open; the accumulator is read back only under a debug halt. -/
def Obligations.MatrixOperationsActOnTheirCell : Prop :=
  ∀ (m : Mod) (cell : Fin 4704) (w : BitVec 64), m.boot.powered = true → Map.wf CellState.reset m.cells = true →
    let c := m.cell cell.val
    let env := m.cellEnv cell.val
    (m.cellRuns cell.val = false → ∀ i ∈ [Instr.adv cell w, .advance cell, .swap cell w [], .swapSaved cell w [],
      .tileDrain cell, .ctxSave cell, .ctxRestore cell], Safety.Turns m i m)
    ∧ (c.adv.isSome = true ∨ c.mxBusy ≠ 0 → Safety.Turns m (.adv cell w) m)
    ∧ (∀ wa aa, m.cellRuns cell.val = true → c.adv = none → c.mxBusy = 0 →
        let v := withOp 4 1 w
        let f := advF v
        f.asrc ≤ 4 → f.afmt ≤ 8 → f.wfmt ≤ 8 → field v.toNat 43 21 = 0 → (pairP f.afmt f.wfmt).isSome = true →
        (f.count = 0 ∨ f.mask = 0 → Safety.Turns m (.adv cell w) m)
        ∧ (f.count ≠ 0 → f.mask ≠ 0 → formTile env c f.wag (some f.wfmt) = .ok wa →
            (if f.asrc = 1 then formTile env c f.aag (some f.afmt) else .ok ⟨0, 0, 0⟩) = .ok aa →
          Safety.Turns m (.adv cell w) (m.setCell cell.val { c with
            adv := some ⟨v, aa, wa, 0, 0, [], 0⟩, arrays := c.arrays ||| BitVec.ofNat 4 f.mask })))
    ∧ (c.adv = none → Safety.Turns m (.advance cell) m)
    ∧ (∀ r, m.cellRuns cell.val = true → c.adv = some r → cellBusy { c with adv := none } = false →
        let f := advF r.word
        let x := advance c.tile c { r with steps := r.steps + 1, act := [] }
        f.asrc = 1 → x.2 = [] → (x.1.adv = none ∨ madeBy x.1 ≠ r.made) →
          Safety.Turns m (.advance cell) (m.setCell cell.val x.1))
    ∧ (m.cellRuns cell.val = true → cellBusy c = false →
        (∀ e ∈ [(Instr.swap cell w [], withOp 4 2 w), (.swapSaved cell w [], withOp 4 2 (swapSaved w))],
          let x := swapIssue env c.tile c e.2 []
          x.2 = [] → Safety.Turns m e.1 (m.setCell cell.val { x.1 with mxBusy := 0 })
            ∧ ∃ dr, x.1.drain = some dr ∧ dr.word = e.2 ∧ dr.mode = c.mode
              ∧ dr.acc = c.acc.filter (fun a => bitOf (swapF e.2).mask (a.1 / 512)) ∧ x.1.mode = (swapF e.2).mode)
        ∧ (blockOpen c = true → Safety.Turns m (.ctxSave cell)
            { m with chip := { m.chip with status := Map.set 0#8 m.chip.status cell.val 0x22#8 } })
        ∧ (blockOpen c = false → Safety.Turns m (.ctxSave cell)
            { m.setCell cell.val { c with loam := storeWords c.loam ctxBase (toWords (ctxImage c)) } with
              chip := { m.chip with status := Map.set 0#8 m.chip.status cell.val 0#8 } })
        ∧ ((ctxLoad c).2 = [] → Safety.Turns m (.ctxRestore cell) (m.setCell cell.val (ctxLoad c).1)))
    ∧ (c.drain = none → Safety.Turns m (.tileDrain cell) m)
    ∧ (∀ dr, m.cellRuns cell.val = true → c.drain = some dr → dr.poison = false → dr.residue = false → dr.illegal = false →
        let f := swapF dr.word
        let dv := drainValues dr f c.lfsr
        f.stats = false → (∀ e ∈ dv.1, (((drainFmt f.drain).getD fmtF32).decode e).nonfinite = false) →
        Safety.Turns m (.tileDrain cell) (m.setCell cell.val { c with
          drain := none, lfsr := dv.2
          tile := writeTile (writeTile c.tile dr.d.addr (dv.1.map (leBytes (drainBytes f.drain))).flatten false) dr.s.addr
            (leBytes 8 (statusBase false false false false dr.mode f.mask f.drain)) false }))
    ∧ ∀ sel : BitVec 32, Safety.Turns m (.debugRead sel) (if m.sec.dbgHalt = 1#8 then
        { m with sec := { m.sec with
          dbgStatus := 0#8
          dbgAcc := debugWord (m.cell (field sel.toNat 0 13)) (field sel.toNat 13 2) (field sel.toNat 15 4)
            (field sel.toNat 19 5) } }
      else { m with sec := { m.sec with dbgStatus := 0x21#8 } })

/-- The VX rows (R90, R91, R119, R303, R321, R322, R330): each is the VX operation of its opcode at one cell. A stopped cell
executes none; a slot that breaks a rule puts the cell in FAULT with SLOT_ILLEGAL; a COUNT of 0 does nothing; otherwise
the operation runs unit by unit to its end, and where no unit has anything to report, only that cell has changed. -/
def Obligations.VectorOperationsRunUnitByUnit : Prop :=
  ∀ (m : Mod) (cell : Fin 4704) (w : BitVec 64), m.boot.powered = true → Map.wf CellState.reset m.cells = true →
    let c := m.cell cell.val
    let env := m.cellEnv cell.val
    ∀ e ∈ [(Instr.add cell w [], 1, w), (.mul cell w [], 2, w), (.fma cell w [] 0, 3, w), (.max cell w [], 4, w),
        (.min cell w [], 5, w), (.cvt cell w [], 6, w), (.quant cell w [], 7, w), (.exp cell w [], 8, w),
        (.rcp cell w [], 9, w), (.rsqrt cell w [], 10, w), (.rowstat cell w [], 11, w), (.norm cell w [], 12, w),
        (.softmax cell w [], 13, w), (.softmaxBwd cell w [], 14, w), (.normBwd cell w [], 15, w),
        (.rowsum cell w [], 16, w), (.rowmax cell w [], 17, w), (.flagRead cell w [], 17, flagMode w)],
      let v := withOp 6 e.2.1 e.2.2
      let f := vxF v
      (m.cellRuns cell.val = false → Safety.Turns m e.1 m)
      ∧ (m.cellRuns cell.val = true → cellBusy c = false →
        (vxIllegal c env.training v = true → Safety.Turns m e.1 ((m.dataFault 2 cell.val).raise .slotIllegal
          (unitId 2 cell.val) (payload [i1 1, i1 (rowOf cell.val), i8 m.bundlePos.toNat])))
        ∧ (vxIllegal c env.training v = false →
          (f.count = 0 ∨ (isRowOp f.vop = true ∧ f.imm = 0) → Safety.Turns m e.1 m)
          ∧ (∀ a b cc d, f.count ≠ 0 → ¬(isRowOp f.vop = true ∧ f.imm = 0) → vxAddrs env c f = .ok (a, b, cc, d) →
            let start : CellState := { c with vx := some ⟨v, a, b, cc, d, 0, lfsrSeed env.seed, false⟩ }
            let run := (List.range f.count).foldl (fun (x : CellState × List Fx) _ =>
              let y := vxStep env x.1.tile x.1
              (y.1, x.2 ++ y.2)) (start, [])
            run.2 = [] → Safety.Turns m e.1 (m.setCell cell.val run.1))))

/-- What a unit of 64 elements and a row of a VX operation compute (R90, R119, R303, R321, R322, R330), from operands that
lie in tile memory: ADD, MUL, FMA, MAX, MIN, CVT, QUANT, EXP, RCP and RSQRT element by element, with IMM in place of SRC_B
where that is 31; the statistics of ROWSTAT, the values of NORM, SOFTMAX and the backward rows from their side entries,
the sum and the maximum of a row, and the flag. -/
def Obligations.VectorUnitsComputeTheirOperation : Prop :=
  ∀ (env : CellEnv) (old : Mem) (c : CellState) (r : VxRun) (k : Nat),
    let f := vxF r.word
    let i := 64 * r.unit
    let a := readElems old r.a f.sfmt i 64
    let b := if usesB f.vop then
        (if f.srcB = 31 then (List.replicate 64 (toF32 (fmtBf16.decode f.imm)), false, []) else readElems old r.b f.sfmt i 64)
      else (List.replicate 64 0#32, false, [])
    let cc := if f.vop = 3 then readElems old r.c f.sfmt i 64 else (List.replicate 64 0#32, false, [])
    (elemsInTile r.a f.sfmt i 64 = true → elemsInTile r.d f.dfmt i 64 = true →
      ∀ e ∈ [(1, fun x y _ => f32Add x y), (2, fun x y _ => f32Mul x y), (3, fun x y z => f32Fma x y z),
          (4, fun x y _ => f32Max x y), (5, fun x y _ => f32Min x y), (6, fun x _ _ => x), (7, fun x _ _ => x),
          (8, fun x _ _ => f32Exp x), (9, fun x _ _ => f32Rcp x), (10, fun x _ _ => f32Rsqrt x)],
        f.vop = e.1 →
        let put := putElems env c r.d f.dfmt f.sr (r.bad || a.2.1 || b.2.1 || cc.2.1) r.lfsr i
          (List.zipWith (fun xy z => e.2 xy.1 xy.2 z) (a.1.zip b.1) cc.1)
        vxElems env old c r = ({ put.1 with vx := some { r with
          lfsr := put.2, bad := r.bad || a.2.1 || b.2.1 || cc.2.1 } }, a.2.2 ++ b.2.2 ++ cc.2.2, true))
    ∧ (let x := (readElems old r.a f.sfmt (k * f.imm) f.imm).1
       let y := (readElems old r.b f.sfmt (k * f.imm) f.imm).1
       let ms := (readElems old r.b 0 (2 * k) 2).1
       let s := (readSide c (f.sideBase * 256 + k)).1
       let t := (readSide c (f.sideBase * 256 + k + 1024)).1
       let o := vxRow old c r k
       (f.vop = 11 → o.vals = [] ∧ o.side = some ((rowStat x (listGet 0#32 (readElems old r.b 0 0 1).1 0) f.mode1).1,
          (rowStat x (listGet 0#32 (readElems old r.b 0 0 1).1 0) f.mode1).2, if f.mode1 then 3 else 2))
       ∧ (f.vop = 12 → (s.2.2 = 2 ∨ s.2.2 = 3) → o.vals = x.map (fun v => f32Mul (f32Sub v s.1) s.2.1) ∧ o.side = none)
       ∧ (f.vop = 12 ∨ f.vop = 15 → s.2.2 ≠ 2 → s.2.2 ≠ 3 → o.wrong = some (f.sideBase * 256 + k))
       ∧ (f.vop = 13 → o.vals = x.zipIdx.map (fun v =>
            if listGet 0#32 ms 0 = f32NegInf || vxMasked c f.mask k v.2 then f32Zero
            else
              let p := f32Exp (f32Sub v.1 (listGet 0#32 ms 0))
              if f.mode1 then f32Mul p (f32Rcp (listGet 0#32 ms 1)) else p)
          ∧ o.side = (if f.mask then none else some (listGet 0#32 ms 0, listGet 0#32 ms 1, 1)))
       ∧ (f.vop = 14 → s.2.2 ≠ 1 → o.wrong = some (f.sideBase * 256 + k))
       ∧ (f.vop = 14 → s.2.2 = 1 → (f.mode1 = false ∨ t.2.2 = 4) →
            o.vals = softmaxBwd x y s.1 s.2.1 (if f.mode1 then some t.1 else none) (vxMasked c f.mask k))
       ∧ (f.vop = 15 → (s.2.2 = 2 ∨ s.2.2 = 3) → o.vals = normBwd x y s.1 s.2.1 (s.2.2 = 3))
       ∧ (f.vop = 16 → o.vals = [x.foldl f32Add f32Zero]
          ∧ o.side = if f.mode1 then some (x.foldl f32Add f32Zero, f32Zero, 4) else none)
       ∧ (f.vop = 17 → f.mode1 = false → ∀ v xs, x = v :: xs → o.vals = [xs.foldl f32Max v])
       ∧ (f.vop = 17 → f.mode1 = true → o.vals = List.replicate f.imm (if c.gradNf then f32One else f32Zero)))

/-- The MV rows (R54, R120, R168, R169, R171, R173): a stopped cell executes none and a COUNT of 0 does nothing. COPY,
LOAM_IN, LOAM_OUT and LOAM_XCHG run unit by unit inside the cell, and what is on its way into tile memory lands. One
aligned unit of clean words is sent by LINK to its peer, by MESH_TX on its route and by LANE_TX on the row's lane, and
taken by LINK, MESH_RX and LANE_RX into tile memory. GATHER brings in its items, one after the other. -/
def Obligations.MovesReachTheirDestination : Prop :=
  ∀ (m : Mod) (cell : Fin 4704) (w : BitVec 64), m.boot.powered = true → Map.wf CellState.reset m.cells = true →
    let c := m.cell cell.val
    let env := m.cellEnv cell.val
    let idle := m.cellRuns cell.val = true ∧ cellBusy c = false
    let row := rowOf cell.val
    (∀ e ∈ [(Instr.copy cell w [], 1), (.loamIn cell w [], 2), (.loamOut cell w [], 3), (.loamXchg cell w [], 4),
        (.link cell w [], 5), (.meshTx cell w [], 6), (.meshRx cell w [], 7), (.laneTx cell w [], 8),
        (.laneRx cell w [], 9), (.gather cell w [], 10)],
      let v := withOp 4 e.2 w
      let f := mvF v
      (m.cellRuns cell.val = false → Safety.Turns m e.1 m)
      ∧ (idle → f.txl ≤ 5 → f.rxl ≤ 5 → field v.toNat 40 24 = 0 → f.count = 0 → Safety.Turns m e.1 m)
      ∧ (idle → 5 < f.txl ∨ 5 < f.rxl ∨ field v.toNat 40 24 ≠ 0 → Safety.Turns m e.1 ((m.dataFault 2 cell.val).raise
          .slotIllegal (unitId 2 cell.val) (payload [i1 2, i1 row, i8 m.bundlePos.toNat])))
      ∧ (∀ s d, idle → f.txl ≤ 5 → f.rxl ≤ 5 → field v.toNat 40 24 = 0 → f.count ≠ 0 → mvAddrs env c f = .ok (s, d) →
        let start : CellState := { c with mv := some ⟨v, s, d, 0, 0⟩ }
        let words (n : Nat) := loadWords c.tile 0 (s.addr / 8) n
        let took (ts : List TWord) : CellState := { c with tile := storeWords c.tile (d.addr / 8) ts }
        (e.2 ≤ 4 →
          let run := (List.range f.count).foldl (fun (x : CellState × List Fx) _ =>
            let y := mvStep x.1 x.1 (m.mvInput cell.val v [])
            (cellTick y.1, x.2 ++ y.2)) (start, [])
          run.2 = [] → Safety.Turns m e.1 (m.setCell cell.val (landAll run.1)))
        ∧ (e.2 = 5 → f.count = 1 → f.rxl = 0 → ∀ p, linkPeer m.plan cell.val f.txl = some p →
            (Map.get [] m.chip.links (p * 8 + linkBack f.txl)).length < 2 →
            s.addr % 8 = 0 → inTile s.addr 256 = true → (words 32).2 = [] →
            Safety.Turns m e.1 { m with chip := { m.chip with
              links := Map.modify [] m.chip.links (p * 8 + linkBack f.txl) (fun q => q ++ [(words 32).1]) } })
        ∧ (e.2 = 5 → f.count = 1 → f.txl = 0 → (linkPeer m.plan cell.val f.rxl).isSome = true → ∀ ts rest,
            Map.get [] m.chip.links (cell.val * 8 + f.rxl) = ts :: rest → d.addr % 8 = 0 → inTile d.addr 256 = true →
            Safety.Turns m e.1 { m.setCell cell.val (took ts) with
              chip := { m.chip with links := Map.set [] m.chip.links (cell.val * 8 + f.rxl) rest } })
        ∧ (e.2 = 6 → f.count = 1 → s.addr % 8 = 0 → inTile s.addr 64 = true → (words 8).2 = [] →
            Safety.Turns m e.1 (m.sendFlit cell.val f.route (words 8).1))
        ∧ (e.2 = 7 → f.count = 1 → d.addr % 8 = 0 → inTile d.addr 64 = true → ∀ x,
            m.chip.mesh.find? (fun x => x.dst == cell.val && x.left == 0) = some x →
            Safety.Turns m e.1 { m.setCell cell.val (took x.data) with chip := { m.chip with
              mesh := dropFirst (fun (x : MeshFlit) => x.dst == cell.val && x.left == 0) m.chip.mesh } })
        ∧ (e.2 = 8 → f.count = 1 → s.addr % 8 = 0 → inTile s.addr 128 = true → (words 16).2 = [] →
            Safety.Turns m e.1 { m with chip := { m.chip with lanes := m.chip.lanes ++ [⟨row, 2, (words 16).1⟩] } })
        ∧ (e.2 = 9 → f.count = 1 → d.addr % 8 = 0 → inTile d.addr 128 = true → ∀ x,
            m.chip.lanes.find? (fun x => x.row == row && x.left == 0) = some x →
            Safety.Turns m e.1 (m.setCell cell.val (took x.data)))
        ∧ (e.2 = 10 →
            let desc := listGet 0#512 c.regs f.q
            (m.gatherItems desc = none → Safety.Turns m e.1 ((m.dataFault 2 cell.val).raise .descKind
              (unitId 2 cell.val) []))
            ∧ (∀ items, m.gatherItems desc = some items → (∀ x ∈ items, inTile (d.addr + x.2) 128 = true) →
                let n := items.foldl (fun (n : Mod) x =>
                  let g := n.gatherItem cell.val x.1
                  g.2.writeTilePieces cell.val (d.addr + x.2) g.1) m
                (n.cell cell.val).landing = [] → Map.wf CellState.reset n.cells = true → Safety.Turns m e.1 n))))

/-- ISSUE, ISSUE_D, WAITQ, POSTQ and WAITTAG (R121, R122, R128 to R131, R273, R274): a row of a dark band, or one that has to
wait, does nothing; else, with its cells idle, ISSUE binds the next descriptor of its queue to the tag, or faults where the
queue cannot serve the stream; ISSUE_D binds the DMA descriptor in the selected cell's register; WAITQ pops each cell's
queue, and loads a descriptor of the expected SEQ; POSTQ posts a completion record to the band's control core; WAITTAG
only waits. -/
def Obligations.RowSlotsBindQueueAndPost : Prop :=
  ∀ (m : Mod) (row : Fin 96) (dq : Fin 64) (q : Fin 4) (tag : Fin 256) (xb : Bool) (line : Fin 8192) (lsrc : Fin 8)
      (host : BitVec 512), m.boot.powered = true → (∀ c ∈ m.rowCells row.val, cellBusy (m.cell c) = false) →
    let lit := isDark m.plan (bandOfRow row.val) = false
    let cells := m.rowCells row.val
    let due := if line.val = 0 then none else some (m.stream.stepCount.toNat + 256 * line.val)
    let bind (n : Mod) (from_ : Nat) (d : BitVec 512) (index : Option Nat) : Mod := { n with dma := { n.dma with
      tags := n.dma.tags ++ [⟨row.val, tag.val, xb⟩]
      waiting := n.dma.waiting ++ [⟨row.val, tag.val, xb, due, from_, d, index⟩] } }
    (¬lit ∨ cells = [] → ∀ i ∈ [Instr.issue row dq tag xb line host, .issueD row q tag xb line lsrc, .waitq row q,
      .postq row tag lsrc, .waittag row tag], Safety.Turns m i m)
    ∧ Safety.Turns m (.waittag row tag) m
    ∧ (m.tagHeld row.val tag.val = true → Safety.Turns m (.issue row dq tag xb line host) m
        ∧ Safety.Turns m (.issueD row q tag xb line lsrc) m)
    ∧ (lit → cells ≠ [] → m.tagHeld row.val tag.val = false →
        (m.queueRefuses dq.val = false → m.queueReady dq.val false = true →
          let r := m.takeDesc dq.val host
          Safety.Turns m (.issue row dq tag xb line host) (bind r.2.2 dq.val r.2.1 (some r.1)))
        ∧ (m.queueRefuses dq.val = true → Safety.Turns m (.issue row dq tag xb line host)
            (({ m with clock := { m.clock with freeCtr := m.clock.freeCtr + 1 } } : Mod).issueFault row.val tag.val dq.val
              (Config.freeByte m.clock.freeCtr)))
        ∧ (m.lsrcCell row.val lsrc.val = none → Safety.Turns m (.issueD row q tag xb line lsrc) m)
        ∧ (∀ c, m.lsrcCell row.val lsrc.val = some c →
            let d := listGet 0#512 (m.cell c).regs q.val
            Safety.Turns m (.issueD row q tag xb line lsrc) (if field d.toNat 0 8 = 0x20 then bind m q.val d none
              else (m.dataFault 2 c).raise .descKind (unitId 2 c) (payload [i2 c, i1 q.val, i1 (field d.toNat 0 8)]))))
    ∧ (lit → (∃ c ∈ cells, listGet [] (m.cell c).queues q.val = []) → Safety.Turns m (.waitq row q) m)
    ∧ (lit → (∀ c ∈ cells, listGet [] (m.cell c).queues q.val ≠ []) →
        Safety.Turns m (.waitq row q) (cells.foldl (fun n c => n.waitq c q.val) m))
    ∧ (∀ c d rest, listGet [] (m.cell c).queues q.val = d :: rest →
        field d.toNat 16 16 = (listGet 0#16 (m.cell c).seq q.val).toNat → (field d.toNat 0 8 = 1 ∨ field d.toNat 0 8 = 2) →
        Map.wf CellState.reset m.cells = true →
        m.waitq c q.val = m.setCell c { m.cell c with
          queues := listSet (m.cell c).queues q.val rest
          seq := listSet (m.cell c).seq q.val (BitVec.ofNat 16 ((listGet 0#16 (m.cell c).seq q.val).toNat + 1))
          regs := listSet (m.cell c).regs q.val d })
    ∧ (∀ c, lit → cells ≠ [] → m.lsrcCell row.val lsrc.val = some c →
        let done := m.completionsOf (bandOfRow row.val)
        Safety.Turns m (.postq row tag lsrc) (if 256 ≤ done.length then m else { m with chip := { m.chip with
          completions := Map.set [] m.chip.completions (bandOfRow (rowOf c)) (m.completionsOf (bandOfRow (rowOf c))
            ++ [completionRecord tag.val (rowOf c) (logicalOf m.plan c) m.stream.stepCount.toNat]) } }))

/-- STACK_READ, STACK_WRITE, MERGE_TIMER_EXPIRY, UNSOW_REQUEST, SCRUB_READ, SCRUB_OVERDUE and REFRESH (R186, R192, R196, R197,
R202, R205, R206, R225): an access outside the stacks finds nothing, a metadata chunk reads as zeros, an access to words
that a running program has is held, any other goes to the controller; the oldest merge entry is carried out when its time
is over; the scrubber passes over unsown blocks and otherwise scrubs one word, pausing in self-refresh, in FAULT and where
a program has the word; an overdue pass is reported once; a refresh is postponed at most four times in a row. -/
def Obligations.StackAccessesReachTheController : Prop :=
  ∀ (m : Mod) (a : BitVec 52) (bs : Bytes) (poison whole postpone : Bool) (req : BitVec 32) (err : Bytes) (st : Fin 12)
      (bank : Fin 12288), m.boot.powered = true →
    let b := a.toNat / 32 * 32
    let free := m.gln.cells.any (fun e => e.2.active) = false
    let place := m.memStacks.placeActive
    let ctl := ctlOf m.memStacks st.val
    let n := if whole then 2048 else 1024
    let hold (x : Nat) (h : HeldAccess) (i : Instr) : Prop :=
      m.rangeHeld x h.len h.write = true → ∀ w, m.heldWord x h.len h.write = some w → Safety.Turns m i (m.hold w h)
    (inStacks b = false → Safety.Turns m (.stackRead a req err) m)
    ∧ (inStacks b = true → inMeta b = true → Safety.Turns m (.stackRead a req err)
        { m with rick := { m.rick with answer := [(List.replicate 32 0#8, false)] } })
    ∧ (inStacks b = true → inMeta b = false →
        hold b ⟨b, false, [], false, 32, req, 7, false, .direct, m.clock.timeUs⟩ (.stackRead a req err)
        ∧ (free →
          let r := m.withStacks req (fun s => readWord s (decodeAddr place b).1 b req 0 err)
          Safety.Turns m (.stackRead a req err) { r.2 with rick := { r.2.rick with answer := [r.1] } }))
    ∧ (inStacks a.toNat = false → Safety.Turns m (.stackWrite a bs poison req) m)
    ∧ (inStacks a.toNat = true →
        hold a.toNat ⟨a.toNat, true, bs, poison, bs.length, req, 7, false, .direct, m.clock.timeUs⟩
          (.stackWrite a bs poison req)
        ∧ (free → Safety.Turns m (.stackWrite a bs poison req)
            (m.onStacks req (fun s => writeMem s a.toNat bs poison req))))
    ∧ (ctl.merge = [] → Safety.Turns m (.mergeTimerExpiry st) m)
    ∧ (∀ e rest, ctl.merge = e :: rest →
        Safety.Turns m (.mergeTimerExpiry st) (m.onStacks e.writer (fun s => flushWord s e.word)))
    ∧ hold a.toNat ⟨a.toNat, true, [], false, n, noUnit, 7, false, .unsow whole m.safe.fallowStrict, m.clock.timeUs⟩
        (.unsowRequest a whole)
    ∧ (free → Safety.Turns m (.unsowRequest a whole)
        (if a.toNat % n ≠ 0 ∨ stackRangeOk a.toNat n = false
            ∨ m.memStacks.locks.any (fun r => decide (r.1 < a.toNat + n ∧ a.toNat ≤ r.2)) = true
            ∨ (ctlOf m.memStacks (stackOf (decodeAddr place a.toNat).1)).fault = true then m
         else m.onStacks noUnit (fun s => unsow s (blockOf (decodeAddr place a.toNat).1) whole (a.toNat / 1024 % 2)
           m.safe.fallowStrict)))
    ∧ (ctl.selfRefresh = true ∨ ctl.fault = true → Safety.Turns m (.scrubRead st err) m)
    ∧ (ctl.selfRefresh = false → ctl.fault = false →
        let w := st.val * 2 ^ 32 + ctl.scrub.pos
        let v := m.withStacks reqMgmt (fun s => isSown s (blockOf w))
        (v.1 = false → Safety.Turns m (.scrubRead st err) (v.2.scrubTo st.val ((ctl.scrub.pos / 64 + 1) * 64)))
        ∧ (v.1 = true → free → (∀ g, (v.2.glnOf g).active = false) → Safety.Turns m (.scrubRead st err)
            ((v.2.onStacks reqMgmt (fun s => scrubWord s w (encodeAddr s.s.placeActive w) err)).scrubTo st.val
              (ctl.scrub.pos + 1)))
        ∧ (v.1 = true → v.2.wordHeld w false = true → Safety.Turns m (.scrubRead st err) v.2))
    ∧ Safety.Turns m (.scrubOverdue st) (if ctl.scrub.overdue then m
        else ({ m with memStacks := setCtl m.memStacks st.val { ctl with scrub := { ctl.scrub with overdue := true } } }
          : Mod).raise .scrubOverdue (unitId 4 st.val) (payload [i1 st.val]))
    ∧ (let k := Map.get 0 m.memStacks.postponed bank.val
       Safety.Turns m (.refresh bank postpone) { m with memStacks := { m.memStacks with
         postponed := Map.set 0 m.memStacks.postponed bank.val (if postpone = true ∧ k < 4 then k + 1 else 0) } })

/-- What the controller does to a word (R194 to R199, R203, R204): a stack in FAULT answers poison; an unsown block reads
as zeros and is counted; a clean or corrected word is delivered, and the correction counted; stored poison is delivered
as poison and counted; an uncorrectable word is counted, latched in FIRST_UE, delivered as poison and stored as such. A
write of a whole word discards its merge entry, sows its block and stores it, as poison where it is marked. -/
def Obligations.WordsAreDecodedByTheController : Prop :=
  ∀ (s : MS) (w addr src : Nat) (req : BitVec 32) (err : Bytes) (d : Bytes) (mark : Bool),
    let st := stackOf w
    let v := isSown (flushWord s w) (blockOf w)
    let b := busRead v.2 w err
    let x := rsDecode b.1
    let data := x.2.take 32
    ((ctlOf s.s st).fault = true → readWord s w addr req src err = ((List.replicate 32 0#8, true), s))
    ∧ ((ctlOf s.s st).fault = false →
      (v.1 = false → readWord s w addr req src err = ((List.replicate 32 0#8, false),
        { v.2 with s := { v.2.s with unsownReads := satAdd v.2.s.unsownReads 1 } }))
      ∧ (v.1 = true → x.1 = .clean → readWord s w addr req src err = ((data, false), b.2))
      ∧ (v.1 = true → x.1 = .single → readWord s w addr req src err = ((data, false), countCe b.2 st addr))
      ∧ (v.1 = true → x.1 = .poison → readWord s w addr req src err = ((data, true),
          ({ b.2 with s := { b.2.s with poisonReads := satAdd b.2.s.poisonReads 1 } }).emit (.poisonRead st)))
      ∧ (v.1 = true → x.1 = .uncorrectable → readWord s w addr req src err = ((data, true),
          storeData ((countUe b.2 st addr src).emit (.uncorrectable addr req)) w data true)))
    ∧ (countUe s st addr src).s.ueTotal = satAdd s.s.ueTotal 1
    ∧ (s.s.ueTotal = 0#64 → (countUe s st addr src).s.firstUe = BitVec.ofNat 64 (addr % 2 ^ 52 + src * 2 ^ 52))
    ∧ writeWhole s w d mark = storeData (ensureSown (takeEntry s w).2 w) w d mark
    ∧ storeData s w d true = (let n := busWrite s w (rsPoison d)
        { n with s := { n.s with poisonWrites := satAdd n.s.poisonWrites 1 } })
    ∧ storeData s w d false = busWrite s w (rsEncode d)

/-- PLACE_COMMIT, TEST_ENABLE, RAW_WRITE, RAW_READ and DECODE_READ (R185, R207): a placement needs field 127 in bank-local
mode and a module that is READY or FENCED with no transfer, and shows what refused it; checker test mode needs the TEST
right, is entered only then, and is reported; its commands need test mode and an aligned word of the stack region, and are
held while a program has the word's bank. -/
def Obligations.PlacementAndCheckerAreGuarded : Prop :=
  ∀ (m : Mod) (fd : Bool) (v : BitVec 8), m.boot.powered = true → Safety.Serves m →
    let s := m.memStacks
    let ready := m.effective 0 0 = .ready ∨ m.effective 0 0 = .fenced
    let changed (f : Nat) : Bool := bitOf (s.placeMode ^^^ s.placeActive).toNat f
    let refusePlace (st : BitVec 8) : Mod :=
      Safety.refused { m with memStacks := { s with placeResult := st } } fd 0x3000 2 0x08000022
    let place (n : Mod) : Mod := Safety.accepted { n with memStacks := { unsowFields n.memStacks changed with
      placeActive := s.placeMode, placeResult := 0#8 } } fd 0x3000 2
    let setTest := if s.testEnable = v then m
      else ({ m with memStacks := { s with testEnable := v } } : Mod).raise .checkerTest noUnit []
    (v ≠ 1#8 → Safety.Turns m (.placeCommit fd v) (Safety.refused m fd 0x3000 2 0x06090030))
    ∧ (s.placeMode.getLsbD 127 = false → Safety.Turns m (.placeCommit fd 1#8) (refusePlace 0x42#8))
    ∧ (s.placeMode.getLsbD 127 = true → (¬ready ∨ m.dma.xfers ≠ [] ∨ m.dma.waiting ≠ []) →
        Safety.Turns m (.placeCommit fd 1#8) (refusePlace 0x43#8))
    ∧ (s.placeMode.getLsbD 127 = true → ready → m.dma.xfers = [] → m.dma.waiting = [] →
        (∀ k ∈ m.rick.slices, k.sets = []) → s.inject = none → Safety.Turns m (.placeCommit fd 1#8) (place m))
    ∧ (m.hasRight 2 = false → Safety.Turns m (.testEnable fd v) (Safety.refused m fd 0x3040 1 0x08000020))
    ∧ (m.hasRight 2 = true →
        (1 < v.toNat → Safety.Turns m (.testEnable fd v) (Safety.refused m fd 0x3040 1 0x06090031))
        ∧ (v = 1#8 → ¬ready → Safety.Turns m (.testEnable fd v) (Safety.refused m fd 0x3040 1 0x08000022))
        ∧ (v = 0#8 ∨ (v = 1#8 ∧ ready) → Safety.Turns m (.testEnable fd v) (setTest.answer fd 0x3040 1 .done)))
    ∧ ∀ e ∈ [(Instr.rawWrite fd, 1), (.rawRead fd, 2), (.decodeRead fd, 3)],
        let a := s.testAddr.toNat
        let w := (decodeAddr s.placeActive a).1
        let bs := s.testData ++ s.testCheck
        (s.testEnable = 0#8 → Safety.Turns m e.1
          (Safety.refused { m with memStacks := { s with testResult := 0x45#8 } } fd 0x3040 5 0x08000022))
        ∧ (s.testEnable ≠ 0#8 → (a % 32 ≠ 0 ∨ stackRangeOk a 32 = false) → Safety.Turns m e.1
            (Safety.accepted { m with memStacks := { s with testResult := 0x46#8 } } fd 0x3040 5))
        ∧ (s.testEnable ≠ 0#8 → a % 32 = 0 → stackRangeOk a 32 = true → (m.glnOf (bankOf w)).active = true →
            Safety.Turns m e.1 (Safety.accepted
              (m.hold w ⟨a, true, bs, false, 32, reqMgmt, 7, false, .test e.2, m.clock.timeUs⟩) fd 0x3040 5))
        ∧ (s.testEnable ≠ 0#8 → a % 32 = 0 → stackRangeOk a 32 = true → (m.glnOf (bankOf w)).active = false →
            Safety.Turns m e.1 ((m.testRun e.2 a bs).answer fd 0x3040 5 .done))

/-- PIN, UNPIN, FALLOW, CLEAN, CLEAN_DROP, RICK_READ, RICK_WRITE, MISS_FILL, STREAM_BYPASS_TIMEOUT and RICK_INTERVAL (R244,
R247, R250, R253 to R257): a command row acts at its slice, or at every one in turn; a busy slice rejects it; the checks
come in the order of R254; a PIN that would not fit is refused and counted; an UNPIN releases the frames the slice holds;
a command of length 0 ends at once. An access is held where a program has its words, else it is its slice's; a read that
misses takes a miss register and waits for its fill. -/
def Obligations.RicksServeAccessesAndCommands : Prop :=
  ∀ (m : Mod) (slice : Fin 12) (tag : BitVec 8) (req : BitVec 32) (a : BitVec 52) (len region : Nat) (cls : Fin 8)
      (sheaf poison : Bool) (bs err : Bytes), m.boot.powered = true →
    let strict := m.safe.fallowStrict
    let free := m.gln.cells.any (fun e => e.2.active) = false
    let one (len : Nat) : Prop := a.toNat % 1024 + len ≤ 1024 ∧ stackRangeOk a.toNat len = true
    (∀ e ∈ [((fun s => Instr.pin s tag req), 1#3), ((fun s => .unpin s tag req), 2#3), ((fun s => .fallow s tag req), 3#3),
        ((fun s => .clean s tag req), 4#3), ((fun s => .cleanDrop s tag req), 5#3)],
      Safety.Turns m (e.1 (some slice)) (m.onRick req (fun x => rickCommand x slice.val e.2 tag req strict))
      ∧ Safety.Turns m (e.1 none) ((List.range 12).foldl (fun (n : Mod) k =>
          n.onRick req (fun x => rickCommand x k e.2 tag req n.safe.fallowStrict)) m))
    ∧ (∀ (x : RM) (n : Nat) (op : BitVec 3),
        let s := sliceOf x n
        let c : RickCmd := ⟨op, tag, s.base.toNat, s.len.toNat, req⟩
        let rs := regionsOf x n c.base c.len
        let held := rs.filter (fun r => (frameOf (sliceOf x n) (setOfRegion x r) r).isSome)
        let ends (st : BitVec 8) := endCmd x n tag st 0
        let runs := rickCommand x n op tag req strict
        (s.busy.isSome = true → runs = { x with r := { x.r with rejected := satAdd x.r.rejected 1 } })
        ∧ (s.busy = none →
          (s.fault = true → runs = ends 0x65#8)
          ∧ (s.fault = false → (op = 0#3 ∨ op = 6#3 ∨ op = 7#3) → runs = ends 0x63#8)
          ∧ (s.fault = false → 1 ≤ op.toNat → op.toNat ≤ 5 →
            (s.len = 0#25 → runs = ends 0#8)
            ∧ (s.len ≠ 0#25 → c.base % 1024 ≠ 0 → runs = ends 0x61#8)
            ∧ (s.len ≠ 0#25 → c.base % 1024 = 0 → (16777216 < c.len ∨ stackRangeOk c.base (c.len * 1024) = false) →
                runs = ends 0x62#8)
            ∧ (s.len ≠ 0#25 → c.base % 1024 = 0 → c.len ≤ 16777216 → stackRangeOk c.base (c.len * 1024) = true →
              ((op = 1#3 ∨ op = 3#3) → cmdWaits x n c = true → runs = setSlice x n { s with busy := some c })
              ∧ (op = 1#3 → cmdWaits x n c = false → pinFits x n rs = false →
                  runs = endCmd { x with r := { x.r with pinFails := satAdd x.r.pinFails 1 } } n tag 0x60#8 0)
              ∧ (op = 1#3 → cmdWaits x n c = false → pinFits x n rs = true → runs = endCmd (rs.foldl (fun x r =>
                  pinLine x n r (if (coreOf req).isSome then 3 else 7)) x) n tag 0#8 rs.length)
              ∧ (op = 2#3 → runs = endCmd (held.foldl (fun x r =>
                  onFrame x n r (fun x f => ({ f with pinned := false }, x))) x) n tag 0#8 held.length)
              ∧ (op = 3#3 → cmdWaits x n c = false →
                  runs = endCmd (fallowRange x n c.base c.len strict) n tag 0#8 rs.length)
              ∧ (op = 4#3 → runs = endCmd (held.foldl (fun x r => onFrame x n r (fun x f => writeBackFrame x f)) x) n tag
                  0#8 held.length)
              ∧ (op = 5#3 → runs = endCmd (held.foldl (fun x r => dropLine x n r) (held.foldl (fun x r =>
                  onFrame x n r (fun x f => writeBackFrame x f)) x)) n tag 0#8 held.length)))))
    ∧ (∀ w, m.rangeHeld a.toNat len false = true → m.heldWord a.toNat len false = some w →
        Safety.Turns m (.rickRead a len cls sheaf req err)
          (m.hold w ⟨a.toNat, false, [], false, len, req, cls.val, sheaf, .access, m.clock.timeUs⟩))
    ∧ (free → one len → Safety.Turns m (.rickRead a len cls sheaf req err)
        (m.onRick req (fun x => readAccess x (sliceAt x a.toNat) a.toNat len cls.val sheaf req err)))
    ∧ (free → ¬one len → Safety.Turns m (.rickRead a len cls sheaf req err)
        (let r := m.readStack a.toNat len cls.val sheaf req
         { r.2 with rick := { r.2.rick with answer := r.1 } }))
    ∧ (∀ (x : RM) (n : Nat), missOf (sliceOf x n) (a.toNat / 1024) = none →
        isHit x n a.toNat len sheaf = true →
        let r := readLine x n a.toNat len cls.val sheaf req err
        readAccess x n a.toNat len cls.val sheaf req err = { r.2 with r := { r.2.r with answer := r.1 } })
    ∧ (∀ (x : RM) (n : Nat), missOf (sliceOf x n) (a.toNat / 1024) = none → isHit x n a.toNat len sheaf = false →
        (allocates (noteAccess (filterRead x n (a.toNat / 1024)) n cls.val) n cls.val (a.toNat / 1024) sheaf).1 = true →
        sheaf = true →
        let x1 := countMiss (noteAccess (filterRead x n (a.toNat / 1024)) n cls.val) n cls.val
          (setOfRegion x (a.toNat / 1024))
        (sliceOf x1 n).miss.length < 64 →
        readAccess x n a.toNat len cls.val sheaf req err = setSlice x1 n { sliceOf x1 n with
          miss := (sliceOf x1 n).miss ++ [⟨a.toNat / 1024, sheaf, sectorMask (a.toNat % 1024) len, cls.val,
            [⟨a.toNat, false, sheaf, cls.val, req, [], len⟩]⟩] })
    ∧ (free → coreReq req = none → Safety.Turns m (.rickWrite a bs poison cls sheaf req)
        (if a.toNat % 1024 + bs.length ≤ 1024 ∧ stackRangeOk a.toNat bs.length = true then
          m.onRick req (fun x => writeAccess x (sliceAt x a.toNat) a.toNat [(bs, poison)] cls.val sheaf req)
         else (m.writeStack a.toNat [(bs, poison)] cls.val sheaf req).2))
    ∧ (free → Safety.Turns m (.missFill slice region)
        (m.onRick (rickRequester slice.val) (fun x => afterFill (fillMiss x slice.val region) slice.val strict)))
    ∧ Safety.Turns m (.streamBypassTimeout slice cls) (m.onRick noUnit (fun x =>
        if (detectorOf (sliceOf x slice.val) cls.val).bypass then
          setSlice x slice.val (setDetector (sliceOf x slice.val) cls.val Detector.reset) else x))
    ∧ Safety.Turns m .rickInterval (m.onRick noUnit (fun x =>
        (List.range 12).foldl (fun x n => (List.range 8).foldl (fun x c => endInterval x n c) x) x))

/-- GLN_CTRL_GO, GLN_CTRL_ABORT, PROGRAM_STORE_WRITE, PROGRAM_START, GLN_WATCHDOG and GLN_COMPLETION (R213, R215, R217,
R218, R227, R230 to R233): a launch is refused whole while the gleaner is active or a record of it waits; else its fields
are applied, and the checks of R217 refuse it with their status or start its preparation; a store of an active gleaner is
not written; a prepared program starts at ENTRY on registers of zero; only a running or preparing program is ended; a
record waits for room in its core's queue, and is lost where the core is held in reset. -/
def Obligations.GleanersAreLaunchedAndEnded : Prop :=
  ∀ (m : Mod) (g : Fin 12288) (t : GlnTarget) (v : BitVec 64) (word : Fin 512) (drained : Nat) (opt : Bool) (st : Fin 12),
    m.boot.powered = true →
    let x := m.glnOf g.val
    let gi := g.val
    let busy := x.active = true ∨ x.waiting.isSome = true
    let y : Gleaner := { x with
      entry := BitVec.ofNat 9 (field v.toNat 8 9), tag := BitVec.ofNat 8 (field v.toNat 24 8)
      cc := BitVec.ofNat 5 (field v.toNat 32 5), held := 0#16, elapsed := 0#16, group := false }
    let refuse (code : BitVec 8) : Mod := ({ m with gln := { m.gln with
      endedNotOk := satAdd m.gln.endedNotOk 1 } } : Mod).glnDone gi { y with state := .done, status := code } false
    let go (n : Mod) := Safety.Turns m (.glnCtrlGo (.one g) v) n
    let drain (cc : Nat) : Mod := { m with gln := { m.gln with
      queues := Map.modify [] m.gln.queues cc (fun l => l.drop drained) } }
    let held (cc : Nat) := bitOf m.boot.coresHeld.toNat cc
    (busy → go { m with gln := { m.gln with
      rejectedWrites := satAdd m.gln.rejectedWrites 1, endedNotOk := satAdd m.gln.endedNotOk 1 } })
    ∧ (¬busy → m.glnUnavailable gi = true → go (refuse 0x58#8))
    ∧ (¬busy → m.glnUnavailable gi = false → x.faulted = true → go (refuse 0x57#8))
    ∧ (¬busy → m.glnUnavailable gi = false → x.faulted = false → launchValid gi y = false → go (refuse 0x51#8))
    ∧ (¬busy → m.glnUnavailable gi = false → x.faulted = false → launchValid gi y = true →
        let n := m.setGln gi { y with state := .preparing, timeNs := 0, locked := false, openRow := none }
        go { n with gln := { n.gln with launches := satAdd n.gln.launches 1 } })
    ∧ (t.isGroup = true →
        let hit := (List.range 12).filter (fun s => t.list.any (fun g => g / 1024 = s))
        let new : List GlnGroup := hit.map (fun s => ⟨s, BitVec.ofNat 5 (field v.toNat 32 5),
          BitVec.ofNat 8 (field v.toNat 24 8), t.list.filter (fun g => g / 1024 = s), 0, 0, none, 0#16⟩)
        Safety.Turns m (.glnCtrlGo t v) (t.list.foldl (fun (n : Mod) g => n.glnLaunch g v true)
          { m with gln := { m.gln with groups := m.gln.groups ++ new } }))
    ∧ (x.state = .running → Safety.Turns m (.glnCtrlAbort (.one g) v) (m.glnFinish gi x 0x56#8 false true))
    ∧ (x.state = .preparing → Safety.Turns m (.glnCtrlAbort (.one g) v) (m.glnFinish gi x 0x56#8 false false))
    ∧ (x.active = false → Safety.Turns m (.glnCtrlAbort (.one g) v) (m.setGln gi { x with
        entry := BitVec.ofNat 9 (field v.toNat 8 9), tag := BitVec.ofNat 8 (field v.toNat 24 8)
        cc := BitVec.ofNat 5 (field v.toNat 32 5) }))
    ∧ Safety.Turns m (.glnCtrlAbort t v) (t.list.foldl (fun (n : Mod) g =>
        if (n.glnOf g).active then n.glnAbort g else n.glnCtrlFields v g) m)
    ∧ Safety.Turns m (.programStoreWrite t word v) (t.list.foldl (fun (n : Mod) g =>
        if (n.glnOf g).active then { n with gln := { n.gln with rejectedWrites := satAdd n.gln.rejectedWrites 1 } }
        else n.setGln g { n.glnOf g with store := storeWord (n.glnOf g).store word.val ⟨v, false⟩ }) m)
    ∧ (x.state ≠ .preparing → Safety.Turns m (.programStart g) m)
    ∧ (x.state = .preparing → Safety.Turns m (.programStart g)
        (((m.onRick (reqGln gi) (fun r => glnPrepareSlice r (gi / 1024) (glnInWindows gi x) (inWriteWindow gi x))).onStacks
          (reqGln gi) (prepareBank gi x)).setGln gi { x with
            state := .running, a := [], v := [], side := [], res := [], pc := x.entry.toNat, timeNs := 0, openRow := none }))
    ∧ (x.state ≠ .running → Safety.Turns m (.glnWatchdog g) m)
    ∧ (x.state = .running → Safety.Turns m (.glnWatchdog g) (m.glnFinish gi x 0x55#8 false true))
    ∧ (x.waiting = none → Safety.Turns m (.glnCompletion (.one g) drained opt) m)
    ∧ (∀ rec, x.waiting = some rec →
        let cc := x.cc.toNat
        let n := (drain cc).setGln gi { x with waiting := none }
        (64 ≤ (Map.get [] (drain cc).gln.queues cc).length → held cc = false →
          Safety.Turns m (.glnCompletion (.one g) drained opt) (drain cc))
        ∧ (held cc = true → opt = false ∨ x.status = 0#8 → Safety.Turns m (.glnCompletion (.one g) drained opt)
            (n.raise .glnCompletionLost (unitId 6 (gi / 1024)) (payload [i2 gi, i1 x.tag.toNat])))
        ∧ ((Map.get [] (drain cc).gln.queues cc).length < 64 → held cc = false → opt = false ∨ x.status = 0#8 →
            Safety.Turns m (.glnCompletion (.one g) drained opt)
              { n with gln := { n.gln with queues := Map.modify [] n.gln.queues cc (fun l => l ++ [rec]) } }))
    ∧ (m.gln.groups.find? (fun z => z.stack = st.val && z.pending.isEmpty) = none →
        Safety.Turns m (.glnCompletion (.group st) drained opt) m)
    ∧ (∀ z, m.gln.groups.find? (fun z => z.stack = st.val && z.pending.isEmpty) = some z → z.cc ≠ 0x1F#5 →
        held z.cc.toNat = false → (Map.get [] (drain z.cc.toNat).gln.queues z.cc.toNat).length < 64 →
        let n := drain z.cc.toNat
        Safety.Turns m (.glnCompletion (.group st) drained opt) { n with gln := { n.gln with
          groups := n.gln.groups.filter (fun y => decide (y ≠ z))
          queues := Map.modify [] n.gln.queues z.cc.toNat (fun l => l ++ [groupRecord z]) } })

/-- The micro-instructions (R213, R219 to R223, R228 to R231), each run by its command on a gleaner that runs and whose next
word names it: registers, the branch target, lanes, side row and result registers as R221 says, with the program's time;
loads and stores inside the windows through the bank's code; a reserved word, an access out of its windows or alignment and
an uncorrectable or poisoned word end the program, HALT ends it with OK. Any other command changes nothing. -/
def Obligations.MicroInstructionsRunOnTheirGleaner : Prop :=
  ∀ (m : Mod) (g : Fin 12288), m.boot.powered = true →
    let gi := g.val
    let x := m.glnOf gi
    let q := m.settleInject
    let ends (n : Mod) (y : Gleaner) (st : BitVec 8) : Mod := (n.setGln gi y).glnFinish gi y st false true
    let ops : List (Instr × Nat) := [(.glnNop g, 0x00), (.halt g, 0x01), (.jmp g, 0x02), (.bz g, 0x03), (.loop g, 0x04),
      (.movi g, 0x08), (.movhi g, 0x09), (.movp g, 0x0A), (.addi g, 0x0B), (.glnAdd g, 0x0C), (.xori g, 0x0D), (.shli g, 0x0E),
      (.putr g, 0x0F), (.ld g, 0x10), (.st g, 0x11), (.lds g, 0x12), (.ldsa g, 0x13), (.latch g, 0x14), (.qst g, 0x15),
      (.vins g, 0x16), (.lda g, 0x17), (.crc g, 0x18), (.vadd g, 0x20), (.vmul g, 0x21), (.vfma g, 0x22), (.vmax g, 0x23),
      (.vmin g, 0x24), (.vrcp g, 0x25), (.vrsq g, 0x26), (.vsplat g, 0x27), (.vsum g, 0x28), (.vamax g, 0x29)]
    (∀ e ∈ ops,
      (x.state ≠ .running → Safety.Turns m e.1 m)
      ∧ (x.state = .running → 511 < x.pc → Safety.Turns m e.1 (ends q { x with lastPc := 511#9 } 0x52#8))
      ∧ (x.state = .running → x.pc ≤ 511 → glnFetch x = none →
          let y : Gleaner := { x with lastPc := BitVec.ofNat 9 x.pc, faultAddr := BitVec.ofNat 27 x.faultAddr.toNat }
          Safety.Turns m e.1 (ends q y 0x54#8))
      ∧ ∀ w, x.state = .running → x.pc ≤ 511 → glnFetch x = some w →
          (glnIllegal (glnF w) = true → Safety.Turns m e.1
            (ends q { x with lastPc := BitVec.ofNat 9 x.pc, pc := x.pc + 1 } 0x52#8))
          ∧ (glnIllegal (glnF w) = false → (glnF w).op ≠ e.2 → Safety.Turns m e.1 m))
    ∧ ∀ w, x.state = .running → x.pc ≤ 511 → glnFetch x = some w → glnIllegal (glnF w) = false →
      let f := glnF w
      let y : Gleaner := { x with lastPc := BitVec.ofNat 9 x.pc, pc := x.pc + 1 }
      let jump : Gleaner := { y with pc := field f.imm 0 9 }
      let imm := ((signed f.imm 32).emod (2 ^ 64)).toNat
      let a := lanes (x.getV f.a)
      let b := glnB x f
      let vec (op : BitVec 32 → BitVec 32 → BitVec 32) : Gleaner := y.setV f.d (ofLanes (List.zipWith op a b))
      let side := (x.getA f.a + f.imm) % 4096
      let n := (glnFmtBytes f.fmt).getD 32
      let load (ea n : Nat) (i : Instr) (fin : Gleaner → Bytes → Gleaner) : Prop :=
        let r := m.withStacks (reqGln gi) (fun s => bankRead 3 s gi ea n)
        let t := y.touch (ea / 4096) (max 1 ((n + 31) / 32))
        (ea % n ≠ 0 → Safety.Turns m i (ends q y 0x52#8))
        ∧ (ea % n = 0 → (2 ^ 27 ≤ ea ∨ x.mayRead (ea / 4096) = false) →
            Safety.Turns m i (ends q { y with faultAddr := BitVec.ofNat 27 ea } 0x53#8))
        ∧ (ea % n = 0 → ea < 2 ^ 27 → x.mayRead (ea / 4096) = true →
            (r.1 = none → Safety.Turns m i (ends r.2 { t with faultAddr := BitVec.ofNat 27 ea } 0x54#8))
            ∧ ∀ bs, r.1 = some bs → Safety.Turns m i (r.2.setGln gi (fin t bs)))
      let store (ea : Nat) (bs : Bytes) (i : Instr) (fin : Gleaner → Gleaner) : Prop :=
        let r := m.withStacks (reqGln gi) (fun s => let t := bankWrite 3 s gi ea bs; ((t.1, t.2.2), t.2.1))
        let t := y.touch (ea / 4096) (max 1 ((bs.length + 31) / 32) + if bs.length % 32 = 0 then 0 else 2)
        (ea % bs.length ≠ 0 → Safety.Turns m i (ends q y 0x52#8))
        ∧ (ea % bs.length = 0 → (2 ^ 27 ≤ ea ∨ x.wwin.has (ea / 4096) = false) →
            Safety.Turns m i (ends q { y with faultAddr := BitVec.ofNat 27 ea } 0x53#8))
        ∧ (ea % bs.length = 0 → ea < 2 ^ 27 → x.wwin.has (ea / 4096) = true →
            (r.1.1 = false → Safety.Turns m i (ends r.2 { t with faultAddr := BitVec.ofNat 27 ea } 0x54#8))
            ∧ (r.1.1 = true → Safety.Turns m i (r.2.setGln gi (fin { t with locked := t.locked || r.1.2 }))))
      (∀ e ∈ [(Instr.glnNop g, 0x00, 1, y), (.jmp g, 0x02, 1, jump), (.bz g, 0x03, 1, if x.getA f.a = 0 then jump else y),
          (.loop g, 0x04, 1, if x.getA f.d = 0 then y
            else if x.getA f.d = 1 then y.setA f.d 0 else jump.setA f.d (x.getA f.d - 1)),
          (.movi g, 0x08, 1, y.setA f.d imm), (.movhi g, 0x09, 1, y.setA f.d (x.getA f.d % 2 ^ 32 + f.imm * 2 ^ 32)),
          (.movp g, 0x0A, 1, y.setA f.d (Map.get 0#64 x.param (field f.imm 0 3)).toNat),
          (.addi g, 0x0B, 1, y.setA f.d (glnEa x f.a f.imm)), (.glnAdd g, 0x0C, 1, y.setA f.d (x.getA f.a + x.getA f.b)),
          (.xori g, 0x0D, 1, y.setA f.d (x.getA f.a ^^^ imm)),
          (.shli g, 0x0E, 1, y.setA f.d (x.getA f.a * 2 ^ field f.imm 0 6)),
          (.putr g, 0x0F, 1, { y with res := Map.set 0#64 x.res (field f.imm 0 3) (BitVec.ofNat 64 (x.getA f.a)) }),
          (.vins g, 0x16, 1, y.setV f.d (vinsAt (x.getV f.d) (field f.imm 0 6) (2 ^ (3 + field f.imm 6 2)) (x.getA f.a))),
          (.vadd g, 0x20, 1, vec f32Add), (.vmul g, 0x21, 1, vec f32Mul),
          (.vfma g, 0x22, 1, y.setV f.d (ofLanes (List.zipWith (fun p z => f32Fma p.1 p.2 z) (a.zip b) (lanes (x.getV f.c))))),
          (.vmax g, 0x23, 1, vec f32Max), (.vmin g, 0x24, 1, vec f32Min), (.vrcp g, 0x25, 4, vec (fun u _ => f32Rcp u)),
          (.vrsq g, 0x26, 4, vec (fun u _ => f32Rsqrt u)),
          (.vsplat g, 0x27, 1, y.setV f.d (ofLanes (List.replicate 16 (BitVec.ofNat 32 (x.getA f.a))))),
          (.vsum g, 0x28, 4, y.setA f.d (pairSum 4 a).toNat),
          (.vamax g, 0x29, 4, y.setA f.d (a.foldl (fun u l => f32Max u (f32Abs l)) f32Zero).toNat)],
        f.op = e.2.1 → Safety.Turns m e.1 (q.setGln gi { e.2.2.2 with timeNs := x.timeNs + e.2.2.1 }))
      ∧ (f.op = 0x01 →
          let z : Gleaner := { y with timeNs := x.timeNs + 1 }
          Safety.Turns m (.halt g) ((q.setGln gi z).glnFinish gi z (if x.locked then 0x77#8 else 0#8) true true))
      ∧ (f.op = 0x12 → (side % n ≠ 0 → Safety.Turns m (.lds g) (ends q y 0x52#8))
          ∧ (side % n = 0 → Safety.Turns m (.lds g) (q.setGln gi { y.setV f.d
              (glnUnpack f.fmt (field (x.getA f.b) 0 8) (memRead x.side side n)) with timeNs := x.timeNs + (n + 31) / 32 })))
      ∧ (f.op = 0x13 → (side % 4 ≠ 0 → Safety.Turns m (.ldsa g) (ends q y 0x52#8))
          ∧ (side % 4 = 0 → Safety.Turns m (.ldsa g)
              (q.setGln gi { y.setA f.d (leNat (memRead x.side side 4)) with timeNs := x.timeNs + 1 })))
      ∧ (f.op = 0x14 →
          let row := x.getA f.a / 4096
          let r := m.withStacks (reqGln gi) (fun s => bankRead 129 s gi (row * 4096) 4096)
          let t : Gleaner := { y with timeNs := x.timeNs + 176, openRow := some row }
          (2 ^ 27 ≤ x.getA f.a ∨ x.mayRead row = false →
            Safety.Turns m (.latch g) (ends q { y with faultAddr := BitVec.ofNat 27 (x.getA f.a) } 0x53#8))
          ∧ (x.getA f.a < 2 ^ 27 → x.mayRead row = true →
            (r.1 = none → Safety.Turns m (.latch g) (ends r.2 { t with faultAddr := BitVec.ofNat 27 (row * 4096) } 0x54#8))
            ∧ ∀ bs, r.1 = some bs → Safety.Turns m (.latch g) (r.2.setGln gi { t with side := memWrite [] 0 bs })))
      ∧ (f.op = 0x10 → load (glnEa x f.a f.imm) n (.ld g) (fun t bs =>
          t.setV f.d (glnUnpack f.fmt (field (x.getA f.b) 0 8) bs)))
      ∧ (f.op = 0x17 → load (glnEa x f.a f.imm) (if f.fmt = 9 then 1 else if f.fmt = 0 then 4 else 8) (.lda g)
          (fun t bs => t.setA f.d (leNat bs)))
      ∧ (f.op = 0x18 → load (glnEa x f.a f.imm) 32 (.crc g) (fun t bs => t.setA f.d (crc64Update (x.getA f.d) bs)))
      ∧ (f.op = 0x11 → store (glnEa x f.b f.imm) (glnPack f.fmt (x.getV f.a)) (.st g) id)
      ∧ (f.op = 0x15 →
          let v := mxQuant (fmtOf f.fmt) (a ++ lanes (x.getV (f.a + 1)))
          store (glnEa x f.b f.imm) (packElems (fmtBits f.fmt) v.2) (.qst g) (fun t => t.setA f.d v.1))

/-- DMAQ_HEAD, DMAQ_CTRL_ENABLE, DMA_COPY, TRANSPOSE, SCATTER, DMA_FALLOW, TRANSFER_COMPLETION, DEADLINE_DUE and
RESET_QUIESCE_TIMEOUT (R265 to R275, R280, R281, R284): a HEAD that would overrun is only counted; enabling empties a
disabled queue and skips the failed descriptor of a halted one; the next descriptor is taken once a channel is free and its
fence open, completes at once with the status of its first failed check, and otherwise starts; a transfer completes when
all its bytes have come; a late transfer is counted once, and reported once in a barrier interval. -/
def Obligations.DescriptorsMoveTheirBytes : Prop :=
  ∀ (m : Mod) (q : Fin 64) (v : BitVec 16) (ctrl : BitVec 64) (comps : Nat) (host : BitVec 512) (row : Fin 96)
      (tag : Fin 256) (early id : Nat), m.boot.powered = true →
    let x := m.dmaq q.val
    let n := (v.toNat + 65536 - x.tail.toNat) % 65536
    let past := 2 ^ x.ringSize.toNat < n ∨ n < (x.head - x.tail).toNat
      ∨ 2 ^ x.cqSize.toNat < m.cqNeed q.val v.toNat comps
    let enb := bitOf ctrl.toNat 0
    let y : DmaQueue := { x with
      mode := if x.state = 0#2 then bitOf ctrl.toNat 1 else x.mode
      ringHost := bitOf ctrl.toNat 2, cqHost := bitOf ctrl.toNat 3, enable := enb }
    (past → Safety.Turns m (.dmaqHead q v comps)
      { m with dma := { m.dma with headOverruns := satAdd m.dma.headOverruns 1 } })
    ∧ (¬past → Safety.Turns m (.dmaqHead q v comps) ((m.setDmaq q.val { x with head := v }).settleQueue q.val))
    ∧ (enb = true → x.state = 0#2 → Safety.Turns m (.dmaqCtrlEnable q ctrl) ((m.setDmaq q.val { y with
        tail := x.head, cqHead := x.head, cqRead := x.head, state := 1#2, done := 0#48, order := [] }).settleQueue q.val))
    ∧ (enb = true → x.state = 3#2 → Safety.Turns m (.dmaqCtrlEnable q ctrl)
        ((m.setDmaq q.val { y with tail := x.errIndex + 1, state := 1#2 }).settleQueue q.val))
    ∧ (enb = false ∨ (x.state ≠ 0#2 ∧ x.state ≠ 3#2) →
        Safety.Turns m (.dmaqCtrlEnable q ctrl) ((m.setDmaq q.val y).settleQueue q.val))
    ∧ (∀ e ∈ [(Instr.dmaCopy (.queue q host) early, 1), (.transpose (.queue q host) early, 2),
        (.scatter (.queue q host) early, 3), (.dmaFallow (.queue q host) early, 4)],
        let t := m.takeDesc q.val host
        let f := dmaF t.2.1
        let st := m.dmaCheck f (some t.1)
        let k : Mod := { t.2.2 with dma := { t.2.2.dma with turn := (q.val + 1) % 64 } }
        let takes := m.dma.quiesce = false ∧ m.queueReady q.val true = true
          ∧ m.dma.xfers.length + m.dma.waiting.length < 32 ∧ m.queueTurn q.val = true
          ∧ (f.fence = true → m.queueXfers q.val = []) ∧ opMatches e.2 f = true
        (¬takes → Safety.Turns m e.1 m)
        ∧ (takes → st ≠ 0#8 → Safety.Turns m e.1
            (k.endXfer { Xfer.new k.dma.nextId t.2.1 (.queue q.val t.1) with early := st } st))
        ∧ (takes → st = 0#8 → Safety.Turns m e.1 (k.beginXfer t.2.1 (.queue q.val t.1) early)))
    ∧ (∀ e ∈ [(Instr.dmaCopy (.stream row) early, 1), (.transpose (.stream row) early, 2), (.scatter (.stream row) early, 3),
        (.dmaFallow (.stream row) early, 4)],
        (m.dma.waiting.find? (fun w => w.row == row.val) = none → Safety.Turns m e.1 m)
        ∧ ∀ w, m.dma.waiting.find? (fun w => w.row == row.val) = some w →
          let f := dmaF w.desc
          let st := m.dmaCheck f w.index
          let k : Mod := { m with dma := { m.dma with waiting := m.dma.waiting.erase w } }
          let takes := m.dma.quiesce = false ∧ m.dma.xfers.length < 32 ∧ opMatches e.2 f = true
            ∧ (f.fence = true → w.index.isSome = true → m.queueXfers w.dq = [])
          (¬takes → Safety.Turns m e.1 m)
          ∧ (takes → st ≠ 0#8 → w.index = none → Safety.Turns m e.1 (k.issueFault w.row w.tag w.dq st))
          ∧ (takes → st ≠ 0#8 → ∀ i, w.index = some i → Safety.Turns m e.1
              ((k.issueFault w.row w.tag w.dq st).queueDone w.dq i f st 0 none))
          ∧ (takes → st = 0#8 → Safety.Turns m e.1
              (k.beginXfer w.desc (.stream (w.row, w.tag) w.xb w.due w.dq w.index) early)))
    ∧ (∀ (d : BitVec 512) (o : XferOwner), (dmaF d).dsp ≠ 2 →
        let f := dmaF d
        let i := m.dma.freshId
        let k : Mod := { m with dma := { m.dma with nextId := i + 1 } }
        let join (k : Mod) (z : Xfer) : Mod := { k with dma := { k.dma with xfers := k.dma.xfers ++ [z] } }
        (f.empty = true ∨ (f.op ≠ 4 ∧ f.ssp = 1) → m.beginXfer d o 0 = (join k (Xfer.new i d o)).pumpReads)
        ∧ (f.empty = false → f.op = 4 →
            let r := k.dmaFallow f (reqDma i)
            m.beginXfer d o 0 = (join r.2 { Xfer.new i d o with
              early := r.1, done := if r.1 = 0#8 then f.len else 0 }).pumpReads)
        ∧ (f.empty = false → f.op = 1 → f.ssp = 0 → f.dsp = 0 →
            let r := k.dmaRead f.src f.len f.cls (reqDma i)
            m.beginXfer d o 0 = (join r.2 { Xfer.new i d o with plan := planPieces (some f.src) f.dst r.1 }).pumpReads))
    ∧ (∀ k : Mod, k.dma.xfers.find? (fun z => z.id == id) = none → k.boot.powered = true →
        Safety.Turns k (.transferCompletion id) k)
    ∧ (∀ z, m.dma.xfers.find? (fun z => z.id == id) = some z →
        (z.ready = false ∨ m.xferHeld z = true → Safety.Turns m (.transferCompletion id) m)
        ∧ (z.ready = true → m.xferHeld z = false → z.plan = [] → (dmaF z.desc).dsp ≠ 2 →
            let r := m.settleMerges (reqDma z.id)
            let done : Xfer := { z with
              made := 0, merge := z.merge || fxMerge r.1 (reqDma z.id)
              firstBad := firstOf z.firstBad ((fxMergeAt r.1 (reqDma z.id)).bind z.offsetOf) }
            Safety.Turns m (.transferCompletion id) (r.2.endXfer done (r.2.xferStatus done))))
    ∧ (let now := m.stream.stepCount.toNat
       let d := m.dma
       let hit := (∃ z ∈ d.xfers, z.late (row.val, tag.val) now = true) ∨ (∃ w ∈ d.waiting, w.late (row.val, tag.val) now = true)
       let k : Mod := { m with dma := { d with
         xfers := d.xfers.map (fun z => if z.late (row.val, tag.val) now then z.counted else z)
         waiting := d.waiting.map (fun w => if w.late (row.val, tag.val) now then { w with due := none } else w)
         deadlineMisses := satAdd d.deadlineMisses 1
         firstMiss := if d.deadlineMisses = 0#64 then
           BitVec.ofNat 64 (now % 2 ^ 48 + row.val * 2 ^ 48 + tag.val * 2 ^ 55) else d.firstMiss
         deadlineRaised := true } }
       (¬hit → Safety.Turns m (.deadlineDue row tag) m)
       ∧ (hit → d.deadlineRaised = true → Safety.Turns m (.deadlineDue row tag) k)
       ∧ (hit → d.deadlineRaised = false → Safety.Turns m (.deadlineDue row tag)
           (k.raise .dmaDeadline noUnit (payload [i8 k.dma.firstMiss.toNat]))))
    ∧ (m.dma.quiesce = false → Safety.Turns m .resetQuiesceTimeout m)
    ∧ (m.dma.quiesce = true → m.dma.xfers = [] → Safety.Turns m .resetQuiesceTimeout { m with dma := { m.dma with
        resetAborts := satAdd m.dma.resetAborts 0, notices := List.replicate 8 0#32 } })
    ∧ (m.dma.quiesce = true → m.dma.xfers ≠ [] →
        let k := m.dma.xfers.foldl (fun (k : Mod) z => k.endXfer z 0x70#8) m
        let l := m.dma.xfers.length
        Safety.Turns m .resetQuiesceTimeout (({ k with dma := { k.dma with
          resetAborts := satAdd k.dma.resetAborts l, notices := List.replicate 8 (BitVec.ofNat 32 l) } } : Mod).raise
          .dmaResetAbort noUnit (payload [i8 l])))

/-- PUBLISH_WRITE, SEQT_FENCE, FENCE_CLEAR and WALK (R291, R292, R294, R295, R298 to R300): a publish word is stored whole if
its GEN advances by one and its reserved bits are 0, and else refused, counted and reported; the host does not write a
shared entry while the lea runs; a fence is armed unless one is pending and clears once no walk of another GEN remains;
the walk of an entry that is not live sends one empty descriptor, that of a live one a descriptor for each selected page. -/
def Obligations.SequencesArePublishedAndWalked : Prop :=
  ∀ (m : Mod) (entry : Fin 4096) (w : BitVec 128) (writer : BitVec 32) (v : BitVec 64) (done : List Nat) (cmd k : Nat),
    m.boot.powered = true →
    let e := entry.val
    let a := m.attn
    let shut := writer = reqHost ∧ m.seqShared e = true
    let good := field w.toNat 0 16 = (m.seqGen e + 1) % 65536 ∧ field w.toNat 62 2 = 0 ∧ field w.toNat 112 16 = 0
    let fence (n : Mod) : Mod := n.settleFences
    (shut → Safety.Turns m (.publishWrite entry w writer)
      { m with attn := { a with seqtDiscards := satAdd a.seqtDiscards 1 } })
    ∧ (¬shut → good → Safety.Turns m (.publishWrite entry w writer)
        { m with attn := { a with seqt := memWrite a.seqt (256 * e) (leBytes 16 w.toNat) } })
    ∧ (¬shut → ¬good → Safety.Turns m (.publishWrite entry w writer)
        (({ m with attn := { a with publishRefused := satAdd a.publishRefused 1 } } : Mod).raise .publishRefused noUnit
          (payload [i2 e, i4 writer.toNat])))
    ∧ (a.fencePending = true → Safety.Turns m (.seqtFence v) (fence m))
    ∧ (a.fencePending = false → Safety.Turns m (.seqtFence v) (fence { m with attn := { a with
        fencePending := true, fenceEntry := field v.toNat 0 12, fenceGen := field v.toNat 16 16, fenceStatus := 0#8 } }))
    ∧ (∀ n : Mod, n.settleFences = (if n.attn.fencePending = true
          ∧ (∀ x ∈ n.attn.walks, x.entry = n.attn.fenceEntry → x.gen = n.attn.fenceGen)
        then ({ n with attn := { n.attn with fencePending := false } } : Mod).settleSubs else n.settleSubs))
    ∧ Safety.Turns m (.fenceClear done) (fence ({ m with attn := { a with
        walks := a.walks.filter (fun x => !(done.contains x.cmdId)) } } : Mod).fenceClear)
    ∧ (m.boot.image = none → Safety.Turns m (.walk cmd k) m)
    ∧ ∀ (im : Image) (cw : BitVec 1024), m.boot.image = some im →
      (im.attn[cmd]? = none → Safety.Turns m (.walk cmd k) m)
      ∧ (im.attn[cmd]? = some cw →
        let c := attnF cw
        let at_ := c.addr + 8 * k
        let runs := m.running = true ∧ c.qh ≠ 0 ∧ k < c.count ∧ stackRangeOk at_ 8 = true
        let u := workF (leNat (pieceBytes (m.readStack at_ 8 2 true (reqCore 0)).1))
        (¬runs → Safety.Turns m (.walk cmd k) m)
        ∧ (runs → m.roleCell u.role = none → Safety.Turns m (.walk cmd k) m)
        ∧ ∀ cell, runs → m.roleCell u.role = some cell →
          let core := bandOf cell
          let n := (m.walkRead core at_ 8 2).2
          let snap := leNat (n.seqRead (256 * u.entry) 32)
          let nc := if c.mode = 2 then u.pcount else field snap 162 5
          let x : WalkCtx := ⟨c, cmd, u, snap, nc⟩
          let counted (n : Mod) (i : Nat) : Mod := { n with attn := { n.attn with
            nWalks := satAdd n.attn.nWalks 1, pageDescs := satAdd n.attn.pageDescs i
            walks := n.attn.walks ++ [⟨u.entry, field snap 0 16, cell, cmd⟩] } }
          let empty (bad : Bool) : Nat := pageDesc x 0 true true bad ⟨0, 0, 0, tokensPerPage c.fmt c.dim⟩
          (isUsable m.plan cell = false ∨ bitOf m.boot.coresHeld.toNat core = true → Safety.Turns m (.walk cmd k) m)
          ∧ (isUsable m.plan cell = true → bitOf m.boot.coresHeld.toNat core = false →
            (bitOf snap 160 = false → Safety.Turns m (.walk cmd k) (counted (n.queueDesc cell c.q (empty false)) 1))
            ∧ (bitOf snap 160 = true →
              let pages := field snap 96 16
              let r := n.walkRead core (field snap 16 46 * 64) (4 * pages) 2
              let crcBad := r.1.2 || decide (crc32 r.1.1 ≠ field snap 64 32)
              let table := (chunks (pages + 1) 4 r.1.1).map leNat
              let z := (splitPages u (selectPages c (field snap 128 32) nc)).foldl
                (fun (s : WalkAcc × Mod) p => s.2.walkPage core x table s.1 p) (⟨[], none, 0⟩, r.2)
              let bad := crcBad || z.1.bad.isSome
              let told := z.2.walkFailed x crcBad z.1
              (z.1.descs = [] → Safety.Turns m (.walk cmd k) (counted (told.queueDesc cell c.q (empty bad)) 1))
              ∧ (z.1.descs ≠ [] → Safety.Turns m (.walk cmd k) (counted (z.1.descs.zipIdx.foldl (fun (n : Mod) d =>
                  let last := decide (d.2 + 1 = z.1.descs.length)
                  n.queueDesc cell c.q (pageDesc x d.1.1 false last (last && bad) d.1.2)) told) z.1.descs.length)))))

/-- CCMB_IN_HEAD, MAILBOX_RECORD, OPEN, PROMPT, PUBLISH, CANDIDATES, CLOSE and MAILBOX_COMPLETION (R147, R148, R310, R372,
R378): a mailbox's HEAD within its ring is taken; the core takes the next record, refuses a reserved OP or bit, a duplicate
and one for a barrier already past, and keeps the others; with no stream running it applies the oldest, which makes an entry
live, queues a prompt, publishes, sets candidates or clears LIVE; a completion is written to a free slot of the host's ring
once it is not held and the link is UP, and its interrupt follows. -/
def Obligations.SubmissionsAreTakenAppliedAndAnswered : Prop :=
  ∀ (m : Mod) (core : Fin 16) (v : BitVec 16), m.boot.powered = true →
    let b := m.mailbox core.val
    let shut := b.inHead = b.inTail ∨ b.blocked = true ∨ bitOf m.boot.coresHeld.toNat core.val = true
      ∨ m.supplied 3 core.val = false
    let word := BitVec.ofNat 1024 (leNat (m.readCore core.val (0x1000 + b.inTail.toNat % 256 * 128) 128))
    let s : Submission := ⟨core.val, b.inTail.toNat, word, [], 0, 0, none, false, 0#8⟩
    let n := m.setMailbox core.val { b with inTail := b.inTail + 1 }
    let add (s : Submission) : Mod := { n with attn := { n.attn with subs := n.attn.subs ++ [s] } }
    let twice := ∃ x ∈ m.attn.subs, x.applied = false ∧ x.op = s.op ∧ x.entry = s.entry ∧ x.admitBarrier = s.admitBarrier
    (shut → Safety.Turns m (.mailboxRecord core) m)
    ∧ (¬shut → submitBad word.toNat = true → Safety.Turns m (.mailboxRecord core)
        ((add { s with applied := true, status := 0x88#8 }).postSubs 256 core.val))
    ∧ (¬shut → submitBad word.toNat = false →
      (twice → Safety.Turns m (.mailboxRecord core) ((add { s with applied := true, status := 0x89#8 }).postSubs 256 core.val))
      ∧ (¬twice → m.lea.st = .running → s.admitBarrier ≤ m.lea.barSeq.toNat →
          Safety.Turns m (.mailboxRecord core) (((add s).refuseLate s).postSubs 256 core.val))
      ∧ (¬twice → (m.lea.st ≠ .running ∨ m.lea.barSeq.toNat < s.admitBarrier) →
          Safety.Turns m (.mailboxRecord core) (add s)))
    ∧ (∀ e ∈ [(Instr.openSub core, 1), (.prompt core, 2), (.publish core, 3), (.candidates core, 4), (.closeSub core, 5)],
        (m.running = true ∨ m.lea.st = .running → Safety.Turns m e.1 m)
        ∧ (m.attn.subs.find? (fun s => s.core == core.val && !s.applied) = none → Safety.Turns m e.1 m)
        ∧ ∀ x, m.attn.subs.find? (fun s => s.core == core.val && !s.applied) = some x →
          (x.op ≠ e.2 → Safety.Turns m e.1 m)
          ∧ (m.running = false → m.lea.st ≠ .running → x.op = e.2 → Safety.Turns m e.1 ((m.applySub x).postSubs 256 core.val)))
    ∧ (∀ x : Submission, x.core < 16 →
        let u := x.word.toNat
        let e := x.entry
        let arg := field u 128 128
        let ends (n : Mod) (st : BitVec 8) (f : Option (Nat × Nat)) : Mod :=
          n.setSub { x with applied := true, status := st, fence := f }
        (x.op = 1 → m.seqLive e = true → m.applySub x = ends m 0x86#8 none)
        ∧ (x.op = 1 → m.seqLive e = false → m.applySub x = ends (((((m.setSeqField e 160 1 1).setSeqField e 128 32 0).setSeqField
            e 162 5 0).setSeqField e 768 64 (field u 128 64)).setSeqField e 960 576 (field u 256 576)) 0#8 none)
        ∧ (x.op = 2 → field u 192 32 ≠ 0 → (m.seqLive e = false ∨ m.seqLen e ≠ 0) → m.applySub x = ends m 0x86#8 none)
        ∧ (x.op = 2 → field u 192 32 ≠ 0 → m.seqLive e = true → m.seqLen e = 0 →
            let n := m.setSeqField e 928 32 (field u 192 32)
            m.applySub x = (ends { n with attn := { n.attn with
              prefill := n.attn.prefill ++ [⟨e, field u 192 32, []⟩] } } 0#8 none).pumpTokens x)
        ∧ (x.op = 3 → m.publishOk e arg = false → m.applySub x = ends (m.publishRefuse e (reqCore x.core)) 0x87#8 none)
        ∧ (x.op = 3 → m.publishOk e arg = true → m.applySub x = ends
            { m with attn := { m.attn with seqt := memWrite m.attn.seqt (256 * e) (leBytes 16 arg) } } 0#8
            (some (e, field arg 0 16)))
        ∧ (x.op = 4 → field arg 0 5 ≠ 0 → m.seqLive e = false → m.applySub x = ends m 0x86#8 none)
        ∧ (x.op = 4 → field arg 0 5 ≠ 0 → m.seqLive e = true → candidatesOk arg = false → m.applySub x = ends m 0x84#8 none)
        ∧ (x.op = 4 → field arg 0 5 ≠ 0 → m.seqLive e = true → candidatesOk arg = true → m.applySub x = ends
            ((((m.setSeqField e 162 5 (field arg 0 5)).setSeqField e 161 1 (field arg 5 1)).setSeqField e 192 64
              (field arg 64 64)).setSeqField e 256 512 (field u 256 512)) 0#8 none)
        ∧ (x.op = 2 → field u 192 32 = 0 → m.applySub x = ends m 0#8 none)
        ∧ (x.op = 4 → field arg 0 5 = 0 → m.applySub x = ends m 0#8 none)
        ∧ (x.op = 5 →
            let n := m.setSeqField e 160 1 0
            m.applySub x = ends { n with attn := { n.attn with
              prefill := n.attn.prefill.filter (fun p => p.entry != e) } } 0#8 (some (e, n.seqGen e))))
    ∧ (b.waiting = [] → Safety.Turns m (.mailboxCompletion core) m)
    ∧ (∀ rec held rest, b.waiting = (rec, held) :: rest →
        (held.isSome = true ∨ b.room = false ∨ m.jnl.train.st ≠ .up → Safety.Turns m (.mailboxCompletion core) m)
        ∧ (held = none → b.room = true → m.jnl.train.st = .up → Safety.Turns m (.mailboxCompletion core)
            (((m.setMailbox core.val { b with waiting := rest, outHead := b.outHead + 1 }).hostWrite
              (b.outBase.toNat + 16 * (b.outHead.toNat % 2 ^ b.outSize.toNat)) rec false).interrupt (64 + core.val))))
    ∧ (let fits := (v - b.inHead).toNat < 0x8000 ∧ (v - b.inTail).toNat ≤ 256
       let q : HostReq := ⟨true, 0x200000 + core.val * 0x10000, leBytes 8 v.toNat, 0, false, 0, 0, none⟩
       (m.jnl.train.st ≠ .up → Safety.Turns m (.ccmbInHead core v) m)
       ∧ (m.jnl.train.st = .up → Safety.Turns m (.ccmbInHead core v)
           ({ m with jnl := { m.jnl with hostQ := m.jnl.hostQ ++ [q] } } : Mod).pumpHost)
       ∧ (m.jnl.train.st = .up → m.jnl.hostQ = [] → m.jnl.ready = false → Safety.Turns m (.ccmbInHead core v)
           { m with jnl := { m.jnl with unassigned := satAdd m.jnl.unassigned 1 } })
       ∧ (m.jnl.train.st = .up → m.jnl.hostQ = [] → m.jnl.ready = true →
           (fits → Safety.Turns m (.ccmbInHead core v) (m.setMailbox core.val { b with inHead := v }))
           ∧ (¬fits → Safety.Turns m (.ccmbInHead core v)
               (m.setMailbox core.val { b with overruns := satAdd b.overruns 1 }))))

/-- LEA_FLIT, BE_FLIT, IDLE_FLIT, IDENT, LANE_RESET, LINK_FLIT_REPEAT, IDENT_TIMER and REPLAY_TIMEOUT (R341, R342, R344, R348,
R352): a flit of a port that is not up does nothing, a damaged one is counted; a flit's acknowledgements act on both lanes
and its token at its gate; a lane takes the flit of the SEQ it expects and else sets its NAK; a LINK flit is acted on once
and echoed each time; what is not echoed is repeated; without progress a lane is resent, and the third time in a row the
port retrains. -/
def Obligations.FlitsAreTakenByTheirLanes : Prop :=
  ∀ (m : Mod) (port : Fin 36) (f : Bytes) (fec be : Bool) (x : BarrierIn), m.boot.powered = true →
    let p := port.val
    let t := (m.port p).train
    let good := fec = false ∧ hdgIntact f = true
    let seen : Mod := ((m.setPort p { m.port p with train := { t with ueRun := 0 } }).ackLane p false
      (listGet 0#8 f 2).toNat (bitOf (listGet 0#8 f 0).toNat 6)).ackLane p true (listGet 0#8 f 3).toNat
      (bitOf (listGet 0#8 f 0).toNat 7)
    let bad : Mod := { m with hdg := { m.hdg with crcFail := satAdd m.hdg.crcFail 1 } }
    let lea := (seen.flitToken p f x).laneTakes p false (hdgSeq f)
    let got := (seen.flitToken p f x).laneTakes p true (hdgSeq f)
    let y := lea.2.port p
    let pl := hdgPayload f
    let h := linkF pl
    (∀ e ∈ [(Instr.idleFlit port f fec x, 0), (.leaFlit port f fec x, 1), (.beFlit port f fec x, 2)],
        (t.st ≠ .up → Safety.Turns m e.1 m)
        ∧ (t.st = .up → ¬good → Safety.Turns m e.1 bad)
        ∧ (t.st = .up → good → hdgType f ≠ e.2 → Safety.Turns m e.1 m))
    ∧ (t.st = .up → good → hdgType f = 0 → Safety.Turns m (.idleFlit port f fec x) ((seen.flitToken p f x).sendSettled p))
    ∧ (t.st = .up → good → hdgType f = 1 →
        (lea.1 = false → Safety.Turns m (.leaFlit port f fec x) (lea.2.sendSettled p))
        ∧ (lea.1 = true → Safety.Turns m (.leaFlit port f fec x) (((lea.2.setPort p { y with
            leaIn := y.leaIn ++ [(pl, BitVec.ofNat 62 (hdgMark f), hdgLast f)] }).drainRecv (y.leaIn.length + 2) p).sendSettled p)))
    ∧ (t.st = .up → good → hdgType f = 2 →
        (got.1 = false → Safety.Turns m (.beFlit port f fec x) (got.2.sendSettled p))
        ∧ (got.1 = true → Safety.Turns m (.beFlit port f fec x) ((got.2.takeBe p f).sendSettled p)))
    ∧ (∀ n : Mod, (hdgTok f = false → n.flitToken p f x = n)
        ∧ (hdgTok f = true → readToken (hdgTokenRegion f) = none → n.flitToken p f x = n)
        ∧ ∀ k, hdgTok f = true → readToken (hdgTokenRegion f) = some k → n.flitToken p f x = n.takeToken (gateOf p) k x)
    ∧ (∀ (n : Mod) (seq : Nat),
        let z := n.port p
        let l := z.lane be
        (l.resetting = true → n.laneTakes p be seq = (false, n))
        ∧ (l.resetting = false → seq = l.expect → n.laneTakes p be seq = (true, n.setPort p (z.setLane be
            { l with expect := (l.expect + 1) % 256, acked := some seq, nak := false })))
        ∧ (l.resetting = false → seq ≠ l.expect →
            let k := n.setPort p (z.setLane be { l with nak := true })
            n.laneTakes p be seq = (false, { k with hdg := { k.hdg with crcFail := satAdd k.hdg.crcFail 1 } })))
    ∧ (∀ e ∈ [(Instr.ident port f fec, 1), (.laneReset port f fec, 2)],
        (t.linkOpen = false → Safety.Turns m e.1 m)
        ∧ (t.linkOpen = true → (¬good ∨ (hdgType f = 3 ∧ linkPayloadOk pl = false)) → Safety.Turns m e.1 bad)
        ∧ (t.linkOpen = true → good → hdgType f ≠ 3 → Safety.Turns m e.1 m)
        ∧ (t.linkOpen = true → good → hdgType f = 3 → linkPayloadOk pl = true →
            (h.subtype ≠ e.2 → Safety.Turns m e.1 seen)
            ∧ (h.subtype = e.2 → Safety.Turns m e.1
                (if e.2 = 1 then (seen.portIdent p pl).sendSettled p else seen.portLaneReset p pl))))
    ∧ (∀ n : Mod,
        let z := n.port p
        let body := (pl.drop 8).take 16
        let lane := bitOf (leNat ((pl.drop 8).take 1)) 0
        (h.echo = true → z.train.waitsFor 1 h.serial = true → n.portIdent p pl = (((n.setPort p { z with
          train := { z.train.echoed 1 h.serial with identEchoed := true } }).storePeer p body).portIdentDone p))
        ∧ (h.echo = true → z.train.waitsFor 1 h.serial = false → n.portIdent p pl = n)
        ∧ (h.echo = false → z.train.acted.contains (1, h.serial) = true →
            n.portIdent p pl = n.emitLink p 1 true h.serial (n.identBody p))
        ∧ (h.echo = false → z.train.acted.contains (1, h.serial) = false →
            let k := (n.setPort p { z with train := { z.train.act 1 h.serial with identIn := true } }).storePeer p body
            n.portIdent p pl = (k.emitLink p 1 true h.serial (k.identBody p)).portIdentDone p)
        ∧ (h.echo = true → z.train.waitsFor 2 h.serial = true →
            let w := z.setLane lane { z.lane lane with resetting := false }
            n.portLaneReset p pl = (n.setPort p { w with train := z.train.echoed 2 h.serial }).pumpLane 64 p lane)
        ∧ (h.echo = true → z.train.waitsFor 2 h.serial = false → n.portLaneReset p pl = n)
        ∧ (h.echo = false → z.train.acted.contains (2, h.serial) = false →
            let w := z.setLane lane ((z.lane lane).cleared (z.lane lane).resetting)
            n.portLaneReset p pl = ((n.setPort p { w with train := z.train.act 2 h.serial }).emitLink p 2 true h.serial
              [BitVec.ofNat 8 (b2n lane)]).sendSettled p)
        ∧ (h.echo = false → z.train.acted.contains (2, h.serial) = true →
            n.portLaneReset p pl = n.emitLink p 2 true h.serial [BitVec.ofNat 8 (b2n lane)]))
    ∧ (∀ link : Fin 37, Safety.Turns m (.linkFlitRepeat link)
        (if link.val = 36 then m.jnl.train.waits.foldl (fun (n : Mod) w => n.jnlSendLink false w.serial) m
         else (m.port link.val).train.waits.foldl (fun (n : Mod) w => n.emitLink link.val w.subtype false w.serial w.body) m))
    ∧ Safety.Turns m .identTimer ((List.range 36).foldl (fun (n : Mod) p =>
        if (n.port p).train.st = .up then n.sendLink p 1 (n.identBody p) else n) m)
    ∧ (let l := (m.port p).lane be
       let k : Mod := m.setPort p ((m.port p).setLane be { l with timeouts := l.timeouts + 1 })
       let again := ({ k with hdg := { k.hdg with replays := satAdd k.hdg.replays 1 } } : Mod).resendLane p be
       (t.st ≠ .up ∨ l.replay = [] → Safety.Turns m (.replayTimeout port be) m)
       ∧ (t.st = .up → l.replay ≠ [] → l.timeouts < 2 → Safety.Turns m (.replayTimeout port be) again)
       ∧ (t.st = .up → l.replay ≠ [] → 2 ≤ l.timeouts → Safety.Turns m (.replayTimeout port be) (again.portRetrain p 3 true)))

/-- The training of a port: PORT_SIGNAL_DETECTED, PORT_SIGNAL_DONE, PORT_ALIGN_DONE, PORT_STATE_TIMEOUT, PORT_CODEWORD_UE,
FEC_WINDOW and RETRAIN_REQ (R349 to R351): each event leads from its state to the next and does nothing in any other; a
bound exceeded is a failed attempt, and the third in a row is FAILED; the fourth uncorrectable codeword in a row or the
eighth within 1 ms retrains the port, but a 16th counted retrain within 60 s fails it; the degraded report follows the
ratio; RETRAIN_REQ acts by the port's state. -/
def Obligations.PortsTrainAndRetrain : Prop :=
  ∀ (m : Mod) (port : Fin 36) (fd : Bool) (v : BitVec 8) (corrected received : Nat), m.boot.powered = true →
    let p := port.val
    let x := m.port p
    let t := x.train
    let set (u : LinkTrain) : Mod := m.setPort p { x with train := u }
    let down (u : LinkTrain) (cause : Nat) : Mod :=
      let n := m.setPort p { x with train := u.down }
      if t.st = .up then n.raise .hdgPortDown (unitId 7 p) (payload [i1 p, i1 cause]) else n
    let failed (u : LinkTrain) : Mod :=
      let n := m.setPort p { x with train := { u.down with st := .failed } }
      (if t.st = .up then n.raise .hdgPortDown (unitId 7 p) (payload [i1 p, i1 7]) else n).raise .hdgPortFailed (unitId 7 p) []
    let ready := m.power.railsOn = true ∧ m.boot.refclk = true ∧ (m.step 2).st ≠ .notDone
    (ready → t.st = .down → Safety.Turns m (.portSignalDetected port) (set { t with st := .signal }))
    ∧ (¬ready ∨ t.st ≠ .down → Safety.Turns m (.portSignalDetected port) m)
    ∧ (t.st = .signal → Safety.Turns m (.portSignalDone port) (set { t with st := .align }))
    ∧ (t.st = .retrain → t.sub = 0 → Safety.Turns m (.portSignalDone port) (set { t with sub := 1 }))
    ∧ (t.st ≠ .signal → ¬(t.st = .retrain ∧ t.sub = 0) → Safety.Turns m (.portSignalDone port) m)
    ∧ (t.st = .align → Safety.Turns m (.portAlignDone port) ((set { t with st := .ident }).sendIdent p))
    ∧ (t.st = .retrain → t.sub = 1 → Safety.Turns m (.portAlignDone port) ((set { t with sub := 2 }).sendIdent p))
    ∧ (t.st ≠ .align → ¬(t.st = .retrain ∧ t.sub = 1) → Safety.Turns m (.portAlignDone port) m)
    ∧ (t.st = .down ∨ t.st = .up ∨ t.st = .failed → Safety.Turns m (.portStateTimeout port) m)
    ∧ (t.st = .signal ∨ t.st = .align ∨ t.st = .ident ∨ t.st = .retrain →
        (t.attempts < 2 → m.hdg.ports.length = 36 → Safety.Turns m (.portStateTimeout port)
          (down { t with attempts := t.attempts + 1 } 6))
        ∧ (2 ≤ t.attempts → m.hdg.ports.length = 36 → Safety.Turns m (.portStateTimeout port)
          (failed { t with attempts := t.attempts + 1 })))
    ∧ (let u := t.oneUe m.clock.timeUs
       let n : Mod := { set u with hdg := { (set u).hdg with fecUncorr := satAdd m.hdg.fecUncorr 1 } }
       (t.st ≠ .up → Safety.Turns m (.portCodewordUe port) m)
       ∧ (t.st = .up → u.ueRun < 4 → u.ueTimes.length < 8 → Safety.Turns m (.portCodewordUe port) n)
       ∧ (t.st = .up → 8 ≤ u.ueTimes.length → Safety.Turns m (.portCodewordUe port) (n.portRetrain p 1 true))
       ∧ (t.st = .up → 4 ≤ u.ueRun → u.ueTimes.length < 8 → Safety.Turns m (.portCodewordUe port) (n.portRetrain p 2 true)))
    ∧ (∀ (trigger : Nat) (counted : Bool),
        let rs := t.recent m.clock.timeUs
        (t.st ≠ .up → m.portRetrain p trigger counted = m)
        ∧ (t.st = .up → counted = true → 15 ≤ rs.length → m.portRetrain p trigger counted = failed t)
        ∧ (t.st = .up → counted = false ∨ rs.length < 15 →
            let n := m.setPort p { x with
              train := { t with
                st := .retrain, sub := 0, ueRun := 0, ueTimes := [], identIn := false, identEchoed := false
                waits := t.waits.filter (fun w => w.subtype != 1)
                retrains := if counted then rs ++ [m.clock.timeUs] else rs }
              lea := { x.lea with timeouts := 0 }, be := { x.be with timeouts := 0 } }
            m.portRetrain p trigger counted = ({ n with hdg := { n.hdg with retrains := satAdd n.hdg.retrains 1 } } : Mod).raise
              .hdgPortDown (unitId 7 p) (payload [i1 p, i1 trigger])))
    ∧ (let d := if t.degraded then decide (received ≤ 200000 * corrected) else decide (received < 100000 * corrected)
       let k := set { t with degraded := d }
       let n : Mod := { k with hdg := { k.hdg with fecCorrected := satAdd k.hdg.fecCorrected corrected } }
       (d = true → t.degraded = false →
          Safety.Turns m (.fecWindow port corrected received) (n.raise .hdgFecDegraded (unitId 7 p) []))
       ∧ (d = false ∨ t.degraded = true → Safety.Turns m (.fecWindow port corrected received) n))
    ∧ (Safety.Serves m → 35 < v.toNat →
        Safety.Turns m (.retrainReq fd v) (Safety.refused m fd 0x3803 0 0x06090030))
    ∧ (Safety.Serves m →
        let req := Instr.retrainReq fd (BitVec.ofNat 8 p)
        let told (n : Mod) : Mod := n.answer fd 0x3803 0 .done
        (t.st = .up → Safety.Turns m req (told (m.portRetrain p 4 false)))
        ∧ (t.st = .signal ∨ t.st = .align ∨ t.st = .ident → Safety.Turns m req (told (set t.down)))
        ∧ (t.st = .down ∨ t.st = .retrain → Safety.Turns m req (told m))
        ∧ (t.st = .failed → Safety.Turns m req (told ((m.setPort p { x with
            train := { t.down with attempts := 0, retrains := [] }, fault := false }).clearFault 7 p))))

/-- LEA_TRANSFER_DUE, HDG_BEQ_HEAD, WRITE, ACK and ACK_TIMEOUT (R353, R354, R359 to R363): a repeat whose step has come and whose
tag is free takes the tag, and a send repeat sends its bytes with their marks; a HEAD beyond the ring is only counted, any
other lets the queue send; a message that has arrived whole is dropped at HOPS 0, forwarded to another module, written into
an open window and answered, or settles the message it acknowledges. -/
def Obligations.TransfersAndMessagesMove : Prop :=
  ∀ (m : Mod) (port : Fin 36) (recv : Bool) (q : Fin 8) (v : BitVec 16) (id : Nat), m.boot.powered = true →
    let p := port.val
    let x := m.port p
    let l := (if recv then x.recv else x.send).skip 4096
    let b := m.beq q.val
    (l.current = none → Safety.Turns m (.leaTransferDue port recv) m)
    ∧ (∀ e, l.current = some e →
        let due := m.running = true ∧ l.busy = false ∧ e.start + l.rep * e.period ≤ m.stream.stepCount.toNat
          ∧ m.tagFree e.row e.tag = true ∧ ¬(recv = true ∧ x.fault = true)
        let l1 : XferList := { l with busy := true, done := 0 }
        let n := (m.setPort p (if recv then { x with recv := l1 } else { x with send := l1 })).holdTag e.row e.tag false
        (¬due → Safety.Turns m (.leaTransferDue port recv) m)
        ∧ (due → recv = true → Safety.Turns m (.leaTransferDue port recv) (n.drainRecv (x.leaIn.length + 1) p))
        ∧ (due → recv = false →
            let a := e.addrAt l.rep
            let r := n.deviceRead a e.len e.cls (reqPort p)
            let ws := r.2.sentMarks (toMarked r.1)
            Safety.Turns m (.leaTransferDue port recv)
              (((r.2.noteMarks p true a ws).queueLane p false (dataFlits 1 ws)).sendSettled p)))
    ∧ (2 ^ b.ringSize.toNat < (v - b.tail).toNat → Safety.Turns m (.hdgBeqHead q v)
        { m with dma := { m.dma with headOverruns := satAdd m.dma.headOverruns 1 } })
    ∧ ((v - b.tail).toNat ≤ 2 ^ b.ringSize.toNat → Safety.Turns m (.hdgBeqHead q v)
        ((m.setBeq q.val { b with head := v }).beqPump 65536 q.val))
    ∧ (∀ e ∈ [(Instr.beWrite port, 1), (.beAck port, 2)],
        (x.inbox = [] → Safety.Turns m e.1 m)
        ∧ ∀ msg rest, x.inbox = msg :: rest →
          let h := beHdr msg.data
          let marks := msg.marks.zipIdx.foldl (fun v i => if i.1 = true ∧ 4 ≤ i.2 then v + 2 ^ (i.2 - 4) else v) 0
          let ws := payloadWords (msg.data.drop 32) marks
          let n := m.setPort p { x with inbox := rest }
          (h.op ≠ 1 → h.op ≠ 2 → Safety.Turns m e.1 n)
          ∧ (h.op = 1 ∨ h.op = 2 → h.op ≠ e.2 → Safety.Turns m e.1 m)
          ∧ (h.op = e.2 → h.hops = 0 → Safety.Turns m e.1 n.beDrop)
          ∧ (h.op = e.2 → h.hops ≠ 0 → h.dest ≠ m.hdg.fleetId.toNat →
              Safety.Turns m e.1 (n.beForward h (ws.take (h.len / 8))))
          ∧ (h.op = e.2 → h.hops ≠ 0 → h.dest = m.hdg.fleetId.toNat → e.2 = 2 →
              Safety.Turns m e.1 (n.beSettle h.id (BitVec.ofNat 8 h.status)))
          ∧ (h.op = e.2 → h.hops ≠ 0 → h.dest = m.hdg.fleetId.toNat → e.2 = 1 →
              let k := n.noteMarks p false 0 ws
              let data := ws.take (h.len / 8)
              let ack (k : Mod) (st : Nat) : Mod := k.beForward ⟨h.src, h.dest, h.cls, 0, 0, 64, 2, st, h.id⟩ []
              (k.inWindows h.addr h.len = false → Safety.Turns m e.1 (ack k 0xA1))
              ∧ (k.inWindows h.addr h.len = true → h.len ≠ 0 → Safety.Turns m e.1
                  (ack (k.writeStack h.addr data h.cls false (reqPort 0)).2
                    (if data.any (fun w => w.2) then 0x40 else 0)))))
    ∧ (∀ (h : BeHdr) (ws : List (Bytes × Bool)),
        let gate := m.routeOf h.dest
        let ups := m.upPorts gate
        (h.hops = 0 ∨ 5 < gate ∨ ups = [] → m.beForward h ws = m.beDrop)
        ∧ (h.hops ≠ 0 → gate ≤ 5 → ups ≠ [] →
            let way := listGet 0 ups (h.id % ups.length)
            let sent := m.sentMarks ws
            m.beForward h ws = (m.noteMarks way false 0 sent).queueLane way true
              (dataFlits 2 (payloadWords ({ h with hops := h.hops - 1 } : BeHdr).bytes 0 ++ sent))))
    ∧ (m.hdg.msgs.find? (fun e => e.msgId == id && e.status.isNone) = none → Safety.Turns m (.ackTimeout id) m)
    ∧ (∀ e, m.hdg.msgs.find? (fun e => e.msgId == id && e.status.isNone) = some e →
        Safety.Turns m (.ackTimeout id) ((({ m with hdg := { m.hdg with
          msgs := m.hdg.msgs.map (fun z => if z = e then { z with status := some 0xA0#8 } else z) } } : Mod).beFlush 65536
          e.queue).beqPump 65536 e.queue))

/-- The Jaeno link: JNL_FLIT, JNL_IDENT, JNL_REPLAY_TIMEOUT, JNL_SIGNAL_DETECTED, JNL_SIGNAL_DONE, JNL_ALIGN_DONE,
JNL_STATE_TIMEOUT, JNL_CODEWORD_UE, JNL_FEC_WINDOW and JNL_RETRAIN_REQ (R341, R342, R344, R350, R368 to R372): DATA flits are
taken in order, their packets take effect, a gap is answered with NAK; training follows the events; an IDENT with an
impossible MAX_READ is a failed attempt, and the third in a row is FAILED; retrains, the degraded report and RETRAIN_REQ
follow the link's state. -/
def Obligations.JaenoLinkTrainsAndCarriesFlits : Prop :=
  ∀ (m : Mod) (f : Bytes) (fec fd : Bool) (comps : List Nat) (v : BitVec 8) (corrected received : Nat),
    m.boot.powered = true →
    let j := m.jnl
    let t := j.train
    let good := fec = false ∧ jnlIntact f = true
    let kind := field (leNat (f.take 1)) 0 4
    let bad : Mod := { m with jnl := { j with crcFail := satAdd j.crcFail 1 } }
    let head := leNat (f.take 4)
    let seen := (m.setJnl { t with ueRun := 0 }).jnlAck (field head 14 10) (bitOf head 24)
    let sl := seen.jnl.lane
    let pl := (f.drop 12).take 240
    let h := linkF pl
    let rd := leNat ((((pl.drop 8).take 16).drop 14).take 2)
    let store (n : Mod) : Mod := { n with jnl := { n.jnl with
      peerPart := ((pl.drop 8).take 16).take 13, peerRev := listGet 0#8 ((pl.drop 8).take 16) 13, maxRead := rd } }
    let ready := m.power.railsOn = true ∧ m.boot.refclk = true ∧ (m.step 2).st ≠ .notDone
    let timed := t.st = .signal ∨ t.st = .align ∨ t.st = .ident ∨ t.st = .retrain
    let attempt := m.jnlAttemptFailed
    (t.st ≠ .up → Safety.Turns m (.jnlFlit f fec comps) m)
    ∧ (t.st = .up → ¬good → Safety.Turns m (.jnlFlit f fec comps) bad)
    ∧ (t.st = .up → good → 2 ≤ field head 0 4 → Safety.Turns m (.jnlFlit f fec comps) m)
    ∧ (t.st = .up → good → field head 0 4 = 0 → Safety.Turns m (.jnlFlit f fec comps) seen)
    ∧ (t.st = .up → good → field head 0 4 = 1 →
        (field head 4 10 = sl.expect → Safety.Turns m (.jnlFlit f fec comps) (({ seen with jnl := { seen.jnl with
          lane := { sl with expect := (sl.expect + 1) % 1024, acked := some sl.expect, nak := false } } } : Mod).jnlPayload
            f comps))
        ∧ (field head 4 10 ≠ sl.expect → Safety.Turns m (.jnlFlit f fec comps) { seen with jnl := { seen.jnl with
            lane := { sl with nak := true }, crcFail := satAdd seen.jnl.crcFail 1 } }))
    ∧ (t.linkOpen = false → Safety.Turns m (.jnlIdent f fec) m)
    ∧ (t.linkOpen = true → (¬good ∨ (kind = 2 ∧ jnlLinkOk pl = false)) → Safety.Turns m (.jnlIdent f fec) bad)
    ∧ (t.linkOpen = true → good → kind ≠ 2 → Safety.Turns m (.jnlIdent f fec) m)
    ∧ (t.linkOpen = true → good → kind = 2 → jnlLinkOk pl = true →
        let fits := rd % 64 = 0 ∧ 64 ≤ rd ∧ rd ≤ 4096
        (¬fits → timed → Safety.Turns m (.jnlIdent f fec) attempt)
        ∧ (¬fits → ¬timed → Safety.Turns m (.jnlIdent f fec) m)
        ∧ (fits → h.echo = true → t.waitsFor 1 h.serial = false → Safety.Turns m (.jnlIdent f fec) m)
        ∧ (fits → h.echo = true → t.waitsFor 1 h.serial = true → Safety.Turns m (.jnlIdent f fec)
            ((store (m.setJnl { t.echoed 1 h.serial with identEchoed := true })).jnlIdentDone))
        ∧ (fits → h.echo = false → t.acted.contains (1, h.serial) = true →
            Safety.Turns m (.jnlIdent f fec) (m.jnlSendLink true h.serial))
        ∧ (fits → h.echo = false → t.acted.contains (1, h.serial) = false → Safety.Turns m (.jnlIdent f fec)
            (((store (m.setJnl { t.act 1 h.serial with identIn := true })).jnlSendLink true h.serial).jnlIdentDone)))
    ∧ (let n : Mod := { m with jnl := { j with
         lane := { j.lane with timeouts := j.lane.timeouts + 1 }, replays := satAdd j.replays 1 } }
       let again := j.lane.replay.foldl (fun (n : Mod) e => n.jnlEmit true e.1 e.2) n
       (t.st ≠ .up ∨ j.lane.replay = [] → Safety.Turns m .jnlReplayTimeout m)
       ∧ (t.st = .up → j.lane.replay ≠ [] → j.lane.timeouts < 2 → Safety.Turns m .jnlReplayTimeout again)
       ∧ (t.st = .up → j.lane.replay ≠ [] → 2 ≤ j.lane.timeouts → Safety.Turns m .jnlReplayTimeout (again.jnlRetrain true)))
    ∧ (ready → t.st = .down → Safety.Turns m .jnlSignalDetected (m.setJnl { t with st := .signal }))
    ∧ (¬ready ∨ t.st ≠ .down → Safety.Turns m .jnlSignalDetected m)
    ∧ (t.st = .signal → Safety.Turns m .jnlSignalDone (m.setJnl { t with st := .align }))
    ∧ (t.st = .retrain → t.sub = 0 → Safety.Turns m .jnlSignalDone (m.setJnl { t with sub := 1 }))
    ∧ (t.st ≠ .signal → ¬(t.st = .retrain ∧ t.sub = 0) → Safety.Turns m .jnlSignalDone m)
    ∧ (t.st = .align → Safety.Turns m .jnlAlignDone (m.setJnl { t with st := .ident }).jnlSendIdent)
    ∧ (t.st = .retrain → t.sub = 1 → Safety.Turns m .jnlAlignDone (m.setJnl { t with sub := 2 }).jnlSendIdent)
    ∧ (t.st ≠ .align → ¬(t.st = .retrain ∧ t.sub = 1) → Safety.Turns m .jnlAlignDone m)
    ∧ (¬timed → Safety.Turns m .jnlStateTimeout m)
    ∧ (timed → Safety.Turns m .jnlStateTimeout attempt)
    ∧ (let n := m.setJnl { t with attempts := t.attempts + 1 }
       (t.attempts < 2 → attempt = n.jnlLost 6 .down)
       ∧ (2 ≤ t.attempts → attempt = (n.jnlLost 7 .failed).raise .jnlLinkFailed (unitId 8 0) []))
    ∧ (∀ (n : Mod) (counted : Bool),
        let u := n.jnl.train
        let rs := u.recent n.clock.timeUs
        (u.st ≠ .up → n.jnlRetrain counted = n)
        ∧ (u.st = .up → counted = true → 15 ≤ rs.length →
            n.jnlRetrain counted = (n.jnlLost 7 .failed).raise .jnlLinkFailed (unitId 8 0) [])
        ∧ (u.st = .up → counted = false ∨ rs.length < 15 →
            let k := n.setJnl { u with
              st := .retrain, sub := 0, ueRun := 0, ueTimes := [], identIn := false, identEchoed := false, waits := []
              retrains := if counted then rs ++ [n.clock.timeUs] else rs }
            n.jnlRetrain counted = { k with jnl := { k.jnl with
              retrains := satAdd k.jnl.retrains 1, lane := { k.jnl.lane with timeouts := 0 } } }))
    ∧ (let u := t.oneUe m.clock.timeUs
       let n : Mod := { m with jnl := { j with train := u, fecUncorr := satAdd j.fecUncorr 1 } }
       (t.st ≠ .up → Safety.Turns m .jnlCodewordUe m)
       ∧ (t.st = .up → u.ueRun < 4 → u.ueTimes.length < 8 → Safety.Turns m .jnlCodewordUe n)
       ∧ (t.st = .up → 4 ≤ u.ueRun ∨ 8 ≤ u.ueTimes.length → Safety.Turns m .jnlCodewordUe (n.jnlRetrain true)))
    ∧ (let d := if t.degraded then decide (received ≤ 200000 * corrected) else decide (received < 100000 * corrected)
       let n : Mod := { m with jnl := { j with
         train := { t with degraded := d }, fecCorrected := satAdd j.fecCorrected corrected } }
       (d = true → t.degraded = false →
          Safety.Turns m (.jnlFecWindow corrected received) (n.raise .jnlFecDegraded (unitId 8 0) []))
       ∧ (d = false ∨ t.degraded = true → Safety.Turns m (.jnlFecWindow corrected received) n))
    ∧ (Safety.Serves m →
        let told (n : Mod) : Mod := n.answer fd 0x3841 0 .done
        (v ≠ 1#8 → Safety.Turns m (.jnlRetrainReq fd v) (Safety.refused m fd 0x3841 0 0x06090030))
        ∧ (t.st = .up → Safety.Turns m (.jnlRetrainReq fd 1#8) (told (m.jnlRetrain false)))
        ∧ (t.st = .signal ∨ t.st = .align ∨ t.st = .ident → Safety.Turns m (.jnlRetrainReq fd 1#8) (told (m.setJnl t.down)))
        ∧ (t.st = .down ∨ t.st = .retrain → Safety.Turns m (.jnlRetrainReq fd 1#8) (told m))
        ∧ (t.st = .failed → Safety.Turns m (.jnlRetrainReq fd 1#8)
            (told ((m.setJnl { t.down with attempts := 0, retrains := [] }).clearFault 8 0))))

/-- MEMORY_WRITE, MEMORY_READ, COMPLETION, JNL_INT_PEND, JNL_INT_MASK and HRM_COPY (R368, R373 to R376, R379 to R381, R384): a
host request takes effect in its order: one at a time, once no program holds its words; a block that does not answer
takes nothing and counts; a read is answered with a completion, one that is too long with CST 2; a completion reaches the
transfer or the submission that asked; clearing and unmasking act on the vectors named; a line that a core writes to the
mirror's page is copied. -/
def Obligations.HostRequestsTakeEffectInOrder : Prop :=
  ∀ (m : Mod) (a v : BitVec 64) (bs : Bytes) (ep high : Bool) (comps len : Nat) (tag : BitVec 10) (cst : BitVec 3)
      (core : Fin 16) (line : Fin 32), m.boot.powered = true →
    let j := m.jnl
    let up := j.train.st = .up
    let w : HostReq := ⟨true, a.toNat, bs, 0, ep, 0, comps, none⟩
    let r : HostReq := ⟨false, a.toNat, [], len, false, tag.toNat, 0, none⟩
    let queue (q : HostReq) : Mod := { m with jnl := { j with hostQ := j.hostQ ++ [q] } }
    let stalled (q : HostReq) (c : Instr) : Prop := ∀ h rest, j.hostQ = h :: rest → h.heldAt.isSome = true →
      (m.reqHeldAt h).isSome = true → Safety.Turns m c (queue q)
    (¬up → ∀ c ∈ [Instr.memoryWrite a bs ep comps, .memoryRead a len tag, .completion tag bs ep cst, .jnlIntPend high v,
        .jnlIntMask high v], Safety.Turns m c m)
    ∧ (bs = [] ∨ 4096 < bs.length → Safety.Turns m (.memoryWrite a bs ep comps) m)
    ∧ (up → bs ≠ [] → bs.length ≤ 4096 → stalled w (.memoryWrite a bs ep comps))
    ∧ (up → len ≤ 4096 → stalled r (.memoryRead a len tag))
    ∧ (up → bs ≠ [] → bs.length ≤ 4096 → j.hostQ = [] → m.reqHeldAt w = none →
        (winParts a.toNat bs.length = [(a.toNat, bs.length)] →
          Safety.Turns m (.memoryWrite a bs ep comps) ((m.winWrite a.toNat bs ep comps).hostPump 1))
        ∧ Safety.Turns m (.memoryWrite a bs ep comps) ((m.serveHost w).hostPump 1))
    ∧ (∀ n : Mod, n.jnl.hostQ = [] → n.hostPump 1 = n)
    ∧ (let lost : Mod := { m with jnl := { j with unassigned := satAdd j.unassigned 1 } }
       let reg (o : Nat) (n : Option Mod) (k : Mod) : Prop :=
         k = if regAligned o bs.length then n.getD lost else lost
       (m.answers (winBlock a.toNat) = false → m.winWrite a.toNat bs ep comps = lost)
       ∧ (winBlock a.toNat = .none → m.winWrite a.toNat bs ep comps = lost)
       ∧ (∀ o, winBlock a.toNat = .mirror o → m.winWrite a.toNat bs ep comps = m)
       ∧ (∀ o, winBlock a.toNat = .globals o → reg o (m.writeGlobal o bs) (m.winWrite a.toNat bs ep comps))
       ∧ (j.ready = true →
          (∀ q o, winBlock a.toNat = .dma q o → reg o (m.writeDmaReg q o bs comps) (m.winWrite a.toNat bs ep comps))
          ∧ (∀ n o, winBlock a.toNat = .mailbox n o → o < 0x1000 →
              reg o (m.writeMailbox n o bs) (m.winWrite a.toNat bs ep comps))
          ∧ (∀ n o, winBlock a.toNat = .mailbox n o → 0x1000 ≤ o → m.winWrite a.toNat bs ep comps =
              { m with jnl := { j with ccMem := memWrite j.ccMem (n * 0x100000 + o) bs } })
          ∧ (∀ o, winBlock a.toNat = .fence o → reg o (m.writeFence o bs) (m.winWrite a.toNat bs ep comps))
          ∧ (∀ o, winBlock a.toNat = .seqt o → m.winWrite a.toNat bs ep comps = m.seqWriteAll 4098 o bs reqHost)
          ∧ (∀ o, winBlock a.toNat = .aperture o →
              let d := j.apertureBase.toNat + o
              (stackRange d bs.length = true →
                m.winWrite a.toNat bs ep comps = (m.writeStack d [(bs, ep)] 7 false reqHost).2)
              ∧ (stackRange d bs.length = false →
                (∀ k, regionAt d = .register k → m.winWrite a.toNat bs ep comps = m.regStore k bs reqHost comps)
                ∧ (∀ n k, regionAt d = .core n k → m.winWrite a.toNat bs ep comps =
                    if k + bs.length ≤ 0x100000 then m.writeCore n k bs else m.countDiscard 1 d)))))
    ∧ (4096 < len → up → Safety.Turns m (.memoryRead a len tag)
        (m.sendPacket ⟨packetHeader 3 true false tag.toNat 0 2 0, []⟩))
    ∧ (len ≤ 4096 → up → j.hostQ = [] → m.reqHeldAt r = none → winParts a.toNat len = [(a.toNat, len)] →
        let x := m.winRead a.toNat len
        Safety.Turns m (.memoryRead a len tag)
          ((x.2.sendPacket ⟨packetHeader 3 true x.1.2 tag.toNat len 0 0, x.1.1⟩).hostPump 1))
    ∧ (up → j.reads.find? (fun r => r.tag == tag.toNat) = none →
        Safety.Turns m (.completion tag bs ep cst) (m.hostWriteError tag.toNat cst.toNat))
    ∧ (∀ q, up → j.reads.find? (fun r => r.tag == tag.toNat) = some q →
        (∀ x, q.xfer = some x → Safety.Turns m (.completion tag bs ep cst) (m.hostData q x.1 x.2 bs ep cst.toNat))
        ∧ (∀ x, q.xfer = none → q.record = some x →
            Safety.Turns m (.completion tag bs ep cst) (m.tokenData q x.1 x.2 bs (ep || cst.toNat != 0))))
    ∧ (up → j.hostQ = [] →
        let k := if high then field v.toNat 0 18 * 2 ^ 64 else v.toNat
        let mask := if high then field j.intMask.toNat 0 64 + field v.toNat 0 18 * 2 ^ 64
          else field j.intMask.toNat 64 18 * 2 ^ 64 + v.toNat
        Safety.Turns m (.jnlIntPend high v) { m with jnl := { j with intPend := j.intPend &&& ~~~(BitVec.ofNat 82 k) } }
        ∧ Safety.Turns m (.jnlIntMask high v)
            ((((List.range 82).filter (fun i => bitOf j.intMask.toNat i && !bitOf mask i && bitOf j.intPend.toNat i)).foldl
              (fun (n : Mod) i => n.sendPacket ⟨packetHeader 4 true false i 0 0 0, []⟩)
              { m with jnl := { j with intMask := BitVec.ofNat 82 mask } }).hostPump 1))
    ∧ (let d := j.hrmSrc.toNat + 128 * line.val
       (j.hrmEnable = false ∨ stackRange d 128 = false → Safety.Turns m (.hrmCopy core line bs) m)
       ∧ (j.hrmEnable = true → stackRange d 128 = true → Safety.Turns m (.hrmCopy core line bs)
           ((m.onRick (reqCore core.val) (fun x => coreWrite x core.val d (bs.take 128) 3)).hrmCopy core.val d
             (bs.take 128).length))
       ∧ (j.hrmEnable = true → m.hrmCopy core.val d 128 =
           (let p := (m.coreReadStack core.val d 128 3).1
            m.hostWrite (j.hrmDst.toNat + 128 * line.val) (pieceBytes p) (piecePoison p))))

/-- RAILS, TRAIN, HEADERS, FIRMWARE, SELF_TEST, IMAGE_LOAD, START, STEP_COMPLETION and STEP_BOUND_EXPIRY (R412 to R416,
R418, R420, R525): a GO is refused while a step or a reset runs, out of order or with another value; an accepted one is
answered at once, RAILS after its checks of the input and the coolant, START after its own checks; the step then ends DONE or
FAILED with its status, its duration and its event, a FAILED RAILS with its rails off. -/
def Obligations.BringUpStepsRunInOrder : Prop :=
  ∀ (m : Mod) (fd : Bool) (v : BitVec 8) (variants : List PlantMap) (programs : List (Fin 512 × BitVec 64))
      (found : StepEnd), m.boot.powered = true →
    let order (n : Nat) : Prop :=
      if n = 1 then (m.step 1).st ≠ .done
      else if n ≤ 5 then (m.step (n - 1)).st = .done ∧ (m.step n).st ≠ .done
      else if n = 6 then (m.step 5).st = .done ∨ (m.step 5).st = .failed
      else (m.step 6).st = .done
    let busy : Prop := m.boot.run.isSome = true ∨ m.boot.rst.isSome = true ∨ m.boot.resetHeld = true
    let begun (n : Nat) (maps : List PlantMap) : Mod :=
      let k := m.setStep n { m.step n with st := .running, since := m.clock.timeUs }
      { k with boot := { k.boot with run := some ⟨n, (m.step n).param.toNat, maps⟩ } }
    let told (n : Nat) (k : Mod) : Mod := k.answer fd (0x220F + n) 1 .done
    (Safety.Serves m →
      (∀ e ∈ [(1, Instr.rails fd v), (2, .train fd v), (3, .headers fd v), (4, .firmware fd v), (5, .selfTest fd v),
          (6, .imageLoad fd v variants), (7, .start fd v programs)],
        (v ≠ 1#8 → Safety.Turns m e.2 (Safety.refused m fd (0x220F + e.1) 1 0x06090030))
        ∧ (v = 1#8 → busy → Safety.Turns m e.2 (Safety.refused m fd (0x220F + e.1) 1 0x08000022))
        ∧ (v = 1#8 → ¬busy → ¬order e.1 → Safety.Turns m e.2
            (Safety.refused (m.setStep e.1 { m.step e.1 with status := 0xC0#8 }) fd (0x220F + e.1) 1 0x08000022)))
      ∧ (¬busy → order 1 →
          let k := begun 1 []
          let t := m.thermal
          let dry := min t.flowA.toNat t.flowB.toNat < 3600 ∨ t.tIn = noTemp ∨ t.tIn.toInt < 200 ∨ 450 < t.tIn.toInt
          let badInput := m.power.inputMv.toNat < 40000 ∨ 60000 < m.power.inputMv.toNat
          (badInput → Safety.Turns m (.rails fd 1#8) (told 1 (k.failStep 0xC2#8)))
          ∧ (¬badInput → dry → Safety.Turns m (.rails fd 1#8) (told 1 (k.failStep 0xC3#8)))
          ∧ (¬badInput → ¬dry → Safety.Turns m (.rails fd 1#8)
              (told 1 { k with power := { k.power with railsOn := true } })))
      ∧ (¬busy → order 2 →
          let k := begun 2 []
          let clear : Mod := { k with memStacks := { k.memStacks with
            dram := k.memStacks.dram.filter (fun e => !blockIsMeta (blockOf (e.1 / 36)))
            ctl := k.memStacks.ctl.map (fun c => { c with cache := [] }) } }
          (m.jnl.train.st ≠ .failed → Safety.Turns m (.train fd 1#8) (told 2 clear))
          ∧ (m.jnl.train.st = .failed → Safety.Turns m (.train fd 1#8) (told 2 clear.jnlRetrainReq)))
      ∧ (¬busy → order 3 → Safety.Turns m (.headers fd 1#8) (told 3 (begun 3 [])))
      ∧ (¬busy → order 4 → Safety.Turns m (.firmware fd 1#8) (told 4 (begun 4 [])))
      ∧ (¬busy → order 5 → Safety.Turns m (.selfTest fd 1#8) (told 5 (begun 5 [])))
      ∧ (¬busy → order 6 → Safety.Turns m (.imageLoad fd 1#8 variants) (told 6 (begun 6 variants)))
      ∧ (¬busy → order 7 →
          let k := begun 7 []
          let stop (st : BitVec 8) : Prop := Safety.Turns m (.start fd 1#8 programs) (told 7 (k.failStep st))
          (k.isReady = false ∨ k.stream.running = true → stop 0xC8#8)
          ∧ (k.isReady = true → k.stream.running = false →
            (k.boot.image = none → stop 0xCB#8)
            ∧ ∀ im, k.boot.image = some im →
              (im.lea = true → stop 0xCC#8)
              ∧ (im.lea = false →
                (m.memStacks.testEnable ≠ 0#8 → stop 0xCD#8)
                ∧ (m.memStacks.testEnable = 0#8 → m.can.consumerHb = 0#32 → stop 0xB5#8)
                ∧ (m.memStacks.testEnable = 0#8 → m.can.consumerHb ≠ 0#32 → k.imageUnitFault = true → stop 0xCE#8)
                ∧ (m.memStacks.testEnable = 0#8 → m.can.consumerHb ≠ 0#32 → k.imageUnitFault = false →
                    Safety.Turns m (.start fd 1#8 programs) (told 7 (k.startImage programs k.allowance)))))))
    ∧ (m.boot.run = none → Safety.Turns m (.stepCompletion found) m)
    ∧ (∀ w, m.boot.run = some w →
        let ends (n : Mod) : Prop := Safety.Turns m (.stepCompletion found) n
        (w.step = 1 → ends (if found.railBad then m.failStep 0xC2#8 else m.endStep 0#8))
        ∧ (w.step = 2 →
            let k := found.memStacks.foldl (fun (n : Mod) s => n.dataFault 4 s.val) (m.calibrateAll found.windows)
            (k.jnl.train.st = .up → found.memStacks = [] → ends (k.endStep 0#8))
            ∧ (k.jnl.train.st = .up → found.memStacks ≠ [] → ends (k.failStep 0xC4#8))
            ∧ (k.jnl.train.st = .failed → ends (k.failStep 0xC4#8))
            ∧ (k.jnl.train.st ≠ .up → k.jnl.train.st ≠ .failed →
                ends (((k.jnlLost 7 .failed).raise .jnlLinkFailed (unitId 8 0) []).failStep 0xC4#8)))
        ∧ (w.step = 3 →
            let r := m.bringBands (List.range 16) (found.band.map (fun b => b.val))
            ends (if r.1 then r.2.endStep 0#8 else r.2.failStep 0xC5#8))
        ∧ (w.step = 4 →
            (∀ k, m.readPackage w.addr = (none, k) → ends (k.failStep 0xC6#8))
            ∧ (∀ k hdr body, m.readPackage w.addr = (some (hdr, body), k) →
                let st := packageStatus k.fuses 2 hdr body
                let n := k.verified 2 st
                let fw : CoreFw := ⟨w.addr, pkgLength hdr, BitVec.ofNat 6 (pkgSvn hdr), BitVec.ofNat 32 (pkgVersion hdr),
                  BitVec.ofNat 2 (pkgKey hdr), sm3 (hdr.take 448 ++ body)⟩
                (st ≠ 0#8 → ends (n.failStep 0xC6#8))
                ∧ (st = 0#8 → ends (({ n with boot := { n.boot with
                    coreFw := some fw, coresHeld := n.boot.coresHeld &&& ~~~(~~~n.plan.darkBands) } } : Mod).setLocks.endStep
                      0#8))))
        ∧ (w.step = 5 →
            let k : Mod := { m.emptyRicks.unsowTested with cells := [] }
            let n := found.units.foldl (fun (n : Mod) u =>
              (n.dataFault (u.1.toNat / 65536) (u.1.toNat % 65536)).raise .selftestUnitFail u.1
                (payload [i4 u.1.toNat, i1 u.2.toNat])) k
            let o : Mod := { n with boot := { n.boot with selftestFails := satAdd 0#16 found.units.length } }
            ends (if found.units = [] then o.endStep 0#8 else o.failStep 0xC7#8))
        ∧ (w.step = 6 → ∀ st k, m.loadImage w.addr w.variants = (st, k) → ends (if st = 0#8 then k.endStep 0#8 else k.failStep st))
        ∧ (w.step = 7 → ends (m.endStep 0#8)))
    ∧ (∀ (n : Mod) (fail : Option Nat), n.bringBands [] fail = (true, n))
    ∧ (∀ (n : Mod) (b : Nat) (bs : List Nat) (fail : Option Nat),
        (isDark n.plan b = true ∨ (n.band b).closed = true → n.bringBands (b :: bs) fail = n.bringBands bs fail)
        ∧ (isDark n.plan b = false → (n.band b).closed = false →
          ((n.band b).held = true → n.bringBands (b :: bs) fail = (false, n))
          ∧ ((n.band b).held = false → fail = some b → n.bringBands (b :: bs) fail = (false, (n.openHeaders b).mgmtFault 1 b))
          ∧ ((n.band b).held = false → fail ≠ some b → n.bringBands (b :: bs) fail =
              (({ n with cells := n.cells.filter (fun e => bandOf e.1 != b) } : Mod).setBand b
                { n.band b with closed := true }).bringBands bs fail)))
    ∧ (∀ (n : Mod) (st : BitVec 8), n.boot.run = none → n.failStep st = n ∧ n.endStep st = n)
    ∧ (∀ (n : Mod) (st : BitVec 8) (w : StepWork), n.boot.run = some w →
        let us := BitVec.ofNat 32 (n.clock.timeUs - (n.step w.step).since)
        let past (e : StepSt) : Mod :=
          let k := n.setStep w.step { n.step w.step with st := e, status := st, elapsedUs := us }
          { k with boot := { k.boot with run := none } }
        let dark : Mod := { past .failed with power := { n.power with railsOn := false } }
        n.endStep st = (past .done).raise .buStepDone noUnit (payload [i1 w.step, i4 us.toNat])
        ∧ n.failStep st = (if w.step = 1 then dark else past .failed).raise .buStepFailed noUnit (payload [i1 w.step, i1 st.toNat]))
    ∧ Safety.Turns m .stepBoundExpiry (m.failStep 0xC1#8)


/-- COMPUTE_RESET, LOWER_DIE_FULL_RESET, FULL_RESET, PARTIAL_RESET, RESET_COMPLETION, RESET_N, RESET_N_RELEASED, BOOT,
INPUT_POWER_LOST, MC_SIGNAL, MC_WATCHDOG, RETIRE, REFCLK_LOST and REFCLK_RESTORED (R23, R51, R411, R413, R421 to R423, R459,
R460, R463, R464, R489, R510, R513): a reset command is refused while a reset runs, but for a full reset, which ends it; what
each reset keeps and clears; the result it ends with; boot, restart and the loss of power. -/
def Obligations.ResetsKeepAndClearState : Prop :=
  ∀ (m : Mod) (fd save low : Bool) (kind : Fin 3) (v : BitVec 16) (straps : BitVec 7) (ms : BitVec 32)
      (windows : List CrossWindow), m.boot.powered = true →
    let ended (n : Mod) (st : BitVec 8) : Mod := match n.boot.rst with
      | none => n
      | some r => ({ n with
          boot := { n.boot with rst := none, resetResult := st }
          lea := { n.lea with paused := false } } : Mod).raise .resetDone noUnit (payload [i1 r.kind, i1 st.toNat])
    let mark (n : Mod) (k : Nat) (st : BitVec 8) : Mod := { n with boot := { n.boot with rst := some ⟨k, st⟩ } }
    let told (n : Mod) : Mod := n.answer fd 0x2480 1 .done
    let k := m.failStep 0x70#8
    let full (n : Mod) : Mod :=
      let f := n.freshAfter
      (if f.sec.nextSlot = f.sec.mcSlot ∨ f.sec.recovery = true then f else f.bootFirmware).checkPlan
    (Safety.Serves m →
      (m.boot.rst.isSome = true → ∀ c ∈ [Instr.computeReset fd kind save, .lowerDieFullReset fd, .partialReset fd],
        Safety.Turns m c (Safety.refused m fd 0x2480 1 0x08000022))
      ∧ (m.boot.rst = none →
          (let dies (d : Nat) : Bool := if kind.val = 2 then true else d == kind.val
           let q : Mod := { k with lea := { k.lea with paused := true } }
           let r := ((if save then q.haltStream.saveCells dies else q).clearStream.resetDies dies).leaSignal
           Safety.Turns m (.computeReset fd kind save) (told (mark (if dies 0 then r.emptyRicks else r) (kind.val + 1) 0#8)))
          ∧ (let q : Mod := { k with
               lea := { k.lea with paused := true }
               jnl := { k.jnl with ready := false }
               dma := { k.dma with quiesce := true } }
             Safety.Turns m (.lowerDieFullReset fd) (told (mark q.clearStream.dropTransfers.leaSignal 4 0#8)))
          ∧ (let cls := k.boot.resetUnit.toNat / 65536
             let n := k.boot.resetUnit.toNat % 65536
             (cls = 7 → Safety.Turns m (.partialReset fd) (told (mark (k.portRetrainReq n) 6 0#8)))
             ∧ (cls = 8 → Safety.Turns m (.partialReset fd) (told (mark k.jnlRetrainReq 6 0#8)))
             ∧ (cls = 3 → k.effective 0 0 ≠ .run →
                 let one (s : Submission) : Submission :=
                   if s.core = n then
                     { s with applied := true, status := 0x70#8, fence := none, asked := s.total, got := s.total }
                   else s
                 let q : Mod := { k with
                   rick := dropCoreL1s k.rick (fun c => c == n)
                   attn := { k.attn with subs := k.attn.subs.map one }
                   chip := { k.chip with
                     completions := Map.keep k.chip.completions (fun x => x != n)
                     outbox := Map.keep k.chip.outbox (fun x => bandOf (x / 4) != n) }
                   gln := { k.gln with queues := Map.keep k.gln.queues (fun x => x != n) } }
                 Safety.Turns m (.partialReset fd) (told (mark ((q.clearFault 3 n).postSubs 256 n) 6 0#8)))
             ∧ (cls ≠ 7 → cls ≠ 8 → (cls ≠ 3 ∨ k.effective 0 0 = .run) →
                 Safety.Turns m (.partialReset fd) (told (mark k 6 0xCF#8)))))
      ∧ Safety.Turns m (.fullReset fd) (told (mark (full ((ended m 0x70#8).failStep 0x70#8)) 5 0#8))
      ∧ (let row := 48 * (v.toNat / 4096 % 2) + v.toNat / 64 % 64
         let col := v.toNat % 64
         let e := rowEntry m.plan.rowMap row
         let sound : Prop := 32768 ≤ v.toNat ∧ v.toNat / 8192 % 4 = 0 ∧ v.toNat / 64 % 64 ≤ 47 ∧ col ≤ 48
         let fits : Prop := m.readyOrFenced = true ∧ m.plan.retire = 0#16 ∧ isUsable m.plan (cellAt row col) = true
           ∧ shortRow e = false ∧ field e 12 2 = 0
         (m.hasRight 0 = false → Safety.Turns m (.retire fd v) (Safety.refused m fd 0x2010 7 0x08000020))
         ∧ (m.hasRight 0 = true → ¬sound → Safety.Turns m (.retire fd v) (Safety.refused m fd 0x2010 7 0x06090030))
         ∧ (m.hasRight 0 = true → sound → ¬fits → Safety.Turns m (.retire fd v) (Safety.refused m fd 0x2010 7 0x08000022))
         ∧ (m.hasRight 0 = true → sound → fits → Safety.Turns m (.retire fd v)
             ((({ m with
               fuses := { m.fuses with retired := Map.set 0 m.fuses.retired row (col + 1) }
               plan := { m.plan with retire := v } } : Mod).raise .retireAccepted (unitId 2 (cellAt row col))
                 (payload [i2 (cellAt row col)])).answer fd 0x2010 7 .done))))
    ∧ (∀ n : Mod, let f := n.freshAfter
        f.fuses = n.fuses ∧ f.plan = formPlan n.fuses ∧ f.cells = [] ∧ f.stream = Stream.reset ∧ f.lea = Lea.reset
        ∧ f.dma = Dma.reset ∧ f.gln = Gleaners.reset ∧ f.rick = Rick.reset ∧ f.planting = Planting.reset ∧ f.tl = TileLoam.reset
        ∧ f.log = Log.reset ∧ f.units = Units.reset ∧ f.inject = Inject.reset ∧ f.attn = Attn.reset ∧ f.fpr = Fingerprint.reset
        ∧ f.hdg = { Hedgerow.reset with out := n.hdg.out } ∧ f.jnl = { Jaeno.reset with out := n.jnl.out, flits := n.jnl.flits }
        ∧ f.memStacks = Stacks.reset n.clock.timeUs ∧ f.power = Power.reset n.power.trims
        ∧ f.can = { n.can with errorRegister := n.can.errorRegister &&& 0x80#8 }
        ∧ f.cairn = { n.cairn with dropped := 0#32, select := 0#64, ffSelect := 0#8 }
        ∧ f.sec.session = none ∧ f.sec.challenge = none ∧ f.sec.verifying = none ∧ f.sec.dbgHalt = 0#8
        ∧ f.sec.profile = n.sec.profile ∧ f.sec.ownerKey = n.sec.ownerKey ∧ f.sec.imageKey = n.sec.imageKey
        ∧ f.sec.slotA = n.sec.slotA ∧ f.sec.slotB = n.sec.slotB ∧ f.sec.lockout = n.sec.lockout
        ∧ f.boot.image = none ∧ f.boot.coreFw = none ∧ (∀ x ∈ f.boot.steps, x.st = .notDone)
        ∧ f.safe.active = n.safe.active ∧ f.safe.cause = n.safe.cause)
    ∧ (m.boot.rst = none → Safety.Turns m (.resetCompletion windows) m)
    ∧ (∀ r, m.boot.rst = some r →
        let ends (n : Mod) : Prop := Safety.Turns m (.resetCompletion windows)
          (ended n (if r.status ≠ 0#8 then r.status else if n.safe.active then 0xD1#8 else 0#8))
        (r.kind = 1 → ends (m.restartCores (fun d => d == 0)))
        ∧ (r.kind = 2 → ends (m.restartCores (fun d => d == 1)))
        ∧ (r.kind = 3 →
            let n := m.restartCores (fun _ => true)
            let cause := n.safe.cause
            let cool := match n.thermal.hotAt with | some t => decide (t + 10000000 ≤ n.clock.timeUs) | none => true
            let free : Prop := (∀ b : Nat, cause.getLsbD b = true → b = 2 ∨ b = 4 ∨ b = 5 ∨ b = 7 ∨ b = 8)
              ∧ (cause.getLsbD 2 = true → cool = true) ∧ (cause.getLsbD 5 = true → n.can.hbBack = true)
            (n.safe.active = true → free → ends (n.leaveSafe 3))
            ∧ (n.safe.active = false ∨ ¬free → ends n))
        ∧ (r.kind = 4 → ends (m.lowerResetEnd windows))
        ∧ (r.kind = 5 → ends (if m.safe.active then m.leaveSafe 5 else m))
        ∧ (r.kind = 6 → ends m))
    ∧ (∀ (n : Mod) (c : Nat), n.leaveSafe c = (({ n with
        safe := { n.safe with active := false, cause := 0#16 }
        can := { n.can with errorRegister := n.can.errorRegister &&& 0x7F#8 }
        boot := { n.boot with work := if n.boot.image.isSome then .ready else .fenced } } : Mod).repace).raise
          .safeStateLeft noUnit (payload [i1 c]))
    ∧ (let n := mark (full ((ended m 0x70#8).failStep 0x70#8)) 5 0#8
       Safety.Turns m .resetN { n with boot := { n.boot with resetHeld := true } })
    ∧ Safety.Turns m .resetNReleased { m with boot := { m.boot with resetHeld := false } }
    ∧ Safety.Turns m .mcSignal { m with safe := { m.safe with mcSignal := m.clock.timeUs } }
    ∧ (m.boot.mcDown = true → Safety.Turns m .mcWatchdog m)
    ∧ (m.boot.mcDown = false →
        let can : Can := { Can.reset m.can.strapNodeId m.can.nodeIdOverride m.can.activeNodeId.toNat with
          consumerHb := m.can.consumerHb, hbLost := m.can.hbLost, hbBack := m.can.hbBack, busOff := m.can.busOff
          out := m.can.out, answers := m.can.answers, errorRegister := m.can.errorRegister }
        let n : Mod := { m with
          log := Log.reset
          can := can
          lea := { m.lea with
            staged := m.lea.active, locked := false, result := if m.lea.locked then 0x70#8 else m.lea.result }
          memStacks := { m.memStacks with placeMode := m.memStacks.placeActive }
          boot := { m.boot with mcDown := true }
          sec := { m.sec with challenge := none, verifying := none, committing := none } }
        Safety.Turns m .mcWatchdog
          (((ended ((n.raise .mcWatchdog noUnit []).failStep 0x70#8) 0x70#8).endSession (some 4)).enterSafe 6))
    ∧ (m.boot.mcDown = false → Safety.Turns m (.boot straps low ms) m)
    ∧ (m.boot.mcDown = true →
        let n := m.bootFirmware
        let up : Mod := { n with boot := { n.boot with mcDown := false } }
        let said := n.log.ring.foldl Mod.emcy up.announce
        Safety.Turns m (.boot straps low ms) { said with safe := { said.safe with mcSignal := said.clock.timeUs } })
    ∧ (∀ n : Mod, n.boot.powered = false →
        let node := if straps ≠ 0#7 then straps.toNat else 127
        let a := Mod.afterReset n.fuses 0 (Can.reset straps 0#8 node) n.cairn n.sec.afterReset n.power.trims [] ms
          { n.clock with timeUs := 0, resetUs := 0 }
        let b : Mod := { a with
          can := { a.can with out := n.can.out, answers := n.can.answers }
          boot := { a.boot with resetHeld := low }
          hdg := { a.hdg with out := n.hdg.out }
          jnl := { a.jnl with out := n.jnl.out, flits := n.jnl.flits } }
        let c := b.cairnPowerUp.bootFirmware.checkPlan
        Safety.Turns n (.boot straps low ms) (if straps = 0#7 then c.raise .nodeIdDefault noUnit [] else c).announce)
    ∧ (∀ n : Mod,
        (n.sec.recovery = true → n.announce = n.bootMessage)
        ∧ (n.sec.recovery = false → n.announce = n.bootMessage.raise .buBoot noUnit (payload [i4 n.boot.bootMs.toNat])))
    ∧ Safety.Leaves m .inputPowerLost (fun n =>
        let w := m.cairnWrite true
        n.boot.powered = false ∧ n.fuses = w.fuses ∧ n.cairn = { w.cairn with queue := [], waiting := [] }
        ∧ n.memStacks = Stacks.reset 0 ∧ n.cells = [] ∧ n.rick = Rick.reset ∧ n.boot.image = none ∧ n.clock.timeUs = 0
        ∧ n.sec.slotA = w.sec.slotA ∧ n.sec.slotB = w.sec.slotB ∧ n.sec.ownerKey = w.sec.ownerKey
        ∧ n.sec.imageKey = w.sec.imageKey ∧ n.sec.profile = w.sec.profile ∧ n.sec.session = none)
    ∧ (let lost (x : LinkSt) : Prop := x = .down ∨ x = .failed
       let a : Mod := { m with boot := { m.boot with refclk := false } }
       let b := (List.range 36).foldl (fun (n : Mod) p =>
         if (n.port p).train.st = .down ∨ (n.port p).train.st = .failed then n else n.portDown p 5) a
       (lost b.jnl.train.st → Safety.Turns m .refclkLost b)
       ∧ (¬lost b.jnl.train.st → Safety.Turns m .refclkLost (b.jnlLost 5 .down)))
    ∧ Safety.Turns m .refclkRestored { m with boot := { m.boot with refclk := true } }


/-- PHASE_OVERCURRENT, PHASE_LIMIT_TIMEOUT, REGULATOR_OVERCURRENT, RAIL_TOLERANCE_TIMEOUT, INPUT_UNDERVOLTAGE,
UNDERVOLT_RECOVERY, TELEMETRY_WINDOW, CAP_W, PACE_LIMIT, SLEW_COMPLETE, DROOP, SEVERE_DROOP, DROOP_CLEARED,
DROOP_REDUCTION_END, CROSSING_STALL, CROSSING_STALL_END and AGEING_CHECK (R176, R178, R427, R429, R430, R432 to R438, R440,
R441): what each fault does to its band, its units and the module; how the cap loop forms its limit and the rest fraction;
that the allowance stays between 0.35 and 1.60 Gsteps/s and below every limit; and when a pace takes effect. -/
def Obligations.PowerFaultsAndLimitsSetThePace : Prop :=
  ∀ (m : Mod) (fd : Bool) (band : Fin 16) (phase : Fin 24) (rail : Fin 7) (w : PowerWindow) (x lost : BitVec 16)
      (pl : BitVec 8) (windows : List CrossWindow), m.boot.powered = true →
    let b := band.val
    let old := Map.get 0#24 m.fuses.phases b
    let stopped (n : Mod) : Mod := n.haltStream.leaSignal
    (old.getLsbD phase.val = true ∨ isDark m.plan b = true → Safety.Turns m (.phaseOvercurrent band phase) m)
    ∧ (old.getLsbD phase.val = false → isDark m.plan b = false →
        let n : Mod := { m with fuses := { m.fuses with
          phases := Map.set 0#24 m.fuses.phases b (old ||| BitVec.ofNat 24 (2 ^ phase.val)) } }
        let f := failedPhases n.fuses b
        let r := (n.raise .phaseFailed (unitId 1 b) (payload [i1 b, i1 phase.val, i1 f])).repace
        let ends (k : Mod) : Prop := Safety.Turns m (.phaseOvercurrent band phase) k
        (f ≤ 4 → ends r)
        ∧ (5 ≤ f → f ≤ 8 → ends (r.raise .phaseLimit (unitId 1 b) (payload [i1 b, i1 (160 * (24 - f) / 20)])))
        ∧ (9 ≤ f → f ≤ 16 →
            (r.stream.running = false → ends (r.leaveLea.bandDark b))
            ∧ (r.stream.running = true → (r.band b).dyingAt.isSome = true → ends r)
            ∧ (r.stream.running = true → (r.band b).dyingAt = none →
                ends (r.setBand b { r.band b with dyingAt := some r.clock.timeUs }).leaveLea))
        ∧ (17 ≤ f → ends (((r.leaveLea.bandDark b).raise .phaseCollapse (unitId 1 b) []).enterSafe 1)))
    ∧ (m.stream.running = false ∨ m.dyingBands = [] → Safety.Turns m .phaseLimitTimeout m)
    ∧ (m.stream.running = true → m.dyingBands ≠ [] → Safety.Turns m .phaseLimitTimeout (stopped (m.mgmtFault 0 0)))
    ∧ ((m.band b).closed = false → Safety.Turns m (.regulatorOvercurrent band x) m)
    ∧ ((m.band b).closed = true → Safety.Turns m (.regulatorOvercurrent band x)
        (((m.openHeaders b).raise .bandOvercurrent (unitId 1 b) (payload [i1 b, i2 x.toNat])).enterSafe 0))
    ∧ (let n : Mod := { m with power := { m.power with
         railBad := m.power.railBad ||| BitVec.ofNat 7 (2 ^ rail.val) } }
       let tell (k : Mod) : Mod := k.raise .railFault noUnit (payload [i1 (rail.val + 1), i2 x.toNat])
       let ends (k : Mod) : Prop := Safety.Turns m (.railToleranceTimeout rail x) k
       (rail.val ≤ 1 → ends (stopped (tell (n.mgmtFault 0 0))))
       ∧ (rail.val = 2 ∨ rail.val = 3 → ends (tell (((List.range 36).foldl (fun k p => k.mgmtFault 7 p) n).mgmtFault 8 0)))
       ∧ (4 ≤ rail.val → ends (tell ((List.range 12).foldl (fun k s => k.mgmtFault 4 s) n))))
    ∧ (m.power.undervolt = true → Safety.Turns m .inputUndervoltage m)
    ∧ (m.power.undervolt = false → Safety.Turns m .inputUndervoltage
        (({ m with power := { m.power with undervolt := true } } : Mod).raise .inputUndervolt noUnit []).repace)
    ∧ (m.power.undervolt = false → Safety.Turns m .undervoltRecovery m)
    ∧ (m.power.undervolt = true → Safety.Turns m .undervoltRecovery
        ({ m with power := { m.power with undervolt := false } } : Mod).repace)
    ∧ (let n := m.publish w
       let p := n.power
       (∀ i, i < 45 → listGet 0#16 p.current i =
          if (if i < 16 then (m.band i).closed else m.power.railsOn) then listGet 0#16 w.current i else 0#16)
       ∧ (∀ i, i < 7 → listGet 0#16 p.railMv i = listGet 0#16 w.railMv i)
       ∧ p.inputMv = w.inputMv ∧ p.inputCa = w.inputCa ∧ p.inputW = w.inputW
       ∧ p.energyMj = (m.power.energyMj + w.inputW.toNat) % 1000
       ∧ p.energyJ = satAdd m.power.energyJ ((m.power.energyMj + w.inputW.toNat) / 1000)
       ∧ (let cap := m.power.capNext.getD m.power.capW
          let k : Mod := { n with power := { p with
            capW := cap, capNext := none
            capLimit := capLimitOf cap.toNat w.inputW.toNat (if m.stream.running then m.power.paceNow.toNat else 0)
            rest := if m.stream.running then BitVec.ofNat 8 (restAfter m.power.rest.toNat cap.toNat w.inputW.toNat) else 0#8 } }
          let above : Prop := 102 * cap.toNat < 100 * w.inputW.toNat
          let again := m.power.overRaised && decide (cap.toNat < w.inputW.toNat)
          let q (run : Nat) (told : Bool) : Mod := { k with power := { k.power with overWindows := run, overRaised := told } }
          (¬above → Safety.Turns m (.telemetryWindow w) (q 0 again).repace)
          ∧ (above → again = true ∨ m.power.overWindows < 19 →
              Safety.Turns m (.telemetryWindow w) (q (m.power.overWindows + 1) again).repace)
          ∧ (above → again = false → 19 ≤ m.power.overWindows → Safety.Turns m (.telemetryWindow w)
              (({ k with power := { k.power with
                overWindows := m.power.overWindows + 1, overRaised := true
                capExceed := satAdd m.power.capExceed 1 } } : Mod).raise .capExceeded noUnit []).repace)))
    ∧ (∀ cap watts now p : Nat,
        let fits (p : Nat) : Prop := watts * modelPower p ≤ cap * modelPower now
        let idle (p : Nat) : Prop := modelPower p ≤ cap * 420
        35 ≤ p → p ≤ 160 →
        (now ≠ 0 → (capLimitOf cap watts now = p ∧ p ≠ 35 → fits p) ∧ (capLimitOf cap watts now < p → ¬fits p))
        ∧ (now = 0 → (capLimitOf cap watts now = p ∧ p ≠ 35 → idle p) ∧ (capLimitOf cap watts now < p → ¬idle p)))
    ∧ (∀ r cap watts : Nat, 0 < cap → r ≤ 48 →
        let d : Nat := if cap ≤ watts then watts - cap else cap - watts
        let half : Int := ((64 * d + cap) / (2 * cap) : Nat)
        (restAfter r cap watts : Int) = max 0 (min 48 (if cap ≤ watts then r + half else r - half)))
    ∧ (Safety.Serves m →
        (x.toNat < 650 → Safety.Turns m (.capW fd x) (Safety.refused m fd 0x2830 1 0x06090032))
        ∧ (3000 < x.toNat → Safety.Turns m (.capW fd x) (Safety.refused m fd 0x2830 1 0x06090031))
        ∧ (650 ≤ x.toNat → x.toNat ≤ 3000 → Safety.Turns m (.capW fd x)
            (Safety.accepted { m with power := { m.power with capNext := some x } } fd 0x2830 1))
        ∧ (pl.toNat < 35 → Safety.Turns m (.paceLimit fd pl) (Safety.refused m fd 0x2820 1 0x06090032))
        ∧ (160 < pl.toNat → Safety.Turns m (.paceLimit fd pl) (Safety.refused m fd 0x2820 1 0x06090031))
        ∧ (35 ≤ pl.toNat → pl.toNat ≤ 160 → Safety.Turns m (.paceLimit fd pl)
            (Safety.accepted ({ m with power := { m.power with paceLimit := pl } } : Mod).repace fd 0x2820 1)))
    ∧ (∀ (n : Mod) (p : Nat),
        (n.power.paceNow.toNat = p → n.setPace p = n)
        ∧ (n.power.paceNow.toNat ≠ p →
            n.setPace p = { n with power := { n.power with paceNow := BitVec.ofNat 8 p, rest := 0#8 } })
        ∧ (n.power.deferred = some p → n.deferPace p = n)
        ∧ (n.power.deferred ≠ some p → n.deferPace p = { n with power := { n.power with
            deferred := some p, paceDeferred := satAdd n.power.paceDeferred 1, slewTo := none } })
        ∧ (p = n.power.paceNow.toNat →
            n.movePace p = { n with power := { n.power with slewTo := none, deferred := none } })
        ∧ (p ≠ n.power.paceNow.toNat → n.power.droop = true → n.movePace p = n.deferPace p)
        ∧ (p < n.power.paceNow.toNat → n.power.droop = false → n.movePace p =
            { n with power := { n.power with paceNow := BitVec.ofNat 8 p, rest := 0#8, slewTo := none } })
        ∧ (n.power.paceNow.toNat < p → n.power.droop = false →
            n.movePace p = { n with power := { n.power with slewTo := some p } }))
    ∧ (∀ n : Mod,
        let a := n.allowance
        (35 ≤ a ∧ a ≤ 160) ∧ (n.power.undervolt = true → a = 35) ∧ (n.safe.active = true → a = 35)
        ∧ a ≤ max 35 n.power.paceLimit.toNat ∧ a ≤ max 35 n.power.capLimit ∧ a ≤ max 35 n.thermal.limit.toNat
        ∧ a ≤ max 35 n.thermal.coolantLimit.toNat ∧ a ≤ max 35 n.power.ageLimit
        ∧ (∀ c, c < 16 → isDark n.plan c = false →
            (5 ≤ failedPhases n.fuses c → failedPhases n.fuses c ≤ 8 →
              a ≤ max 35 (160 * (24 - failedPhases n.fuses c) / 20))
            ∧ (9 ≤ failedPhases n.fuses c → a = 35))
        ∧ n.repace.power.paceAllow = BitVec.ofNat 8 a
        ∧ (n.stream.running = false → n.repace = { n with power := { n.power with
            paceAllow := BitVec.ofNat 8 a, limitCause := BitVec.ofNat 16 n.limitCause, slewTo := none, deferred := none } }))
    ∧ (m.power.slewTo = none → Safety.Turns m .slewComplete m)
    ∧ (∀ p, m.power.slewTo = some p →
        (m.power.droop = true → Safety.Turns m .slewComplete (m.deferPace p))
        ∧ (m.power.droop = false →
            let n := m.setPace p
            Safety.Turns m .slewComplete { n with power := { n.power with slewTo := none } }))
    ∧ (let n := m.setBand b { m.band b with droop := true }
       let k : Mod := { n with power := { n.power with
         droop := true, droopSkip := true, droopCount := satAdd n.power.droopCount 1 } }
       let d := m.droopStart b
       (m.power.droop = true → d = n)
       ∧ (m.power.droop = false → m.power.slewTo = none → d = k)
       ∧ (∀ p, m.power.droop = false → m.power.slewTo = some p → d = k.deferPace p)
       ∧ Safety.Turns m (.droop band) d
       ∧ (let r := ({ d with power := { d.power with severe := true } } : Mod).raise .droopSevere (unitId 1 b)
            (payload [i1 b, i2 x.toNat])
          (r.stream.running = true → r.allowance < r.power.paceNow.toNat →
            Safety.Turns m (.severeDroop band x) (r.setPace r.allowance).repace)
          ∧ (r.stream.running = false ∨ r.power.paceNow.toNat ≤ r.allowance →
            Safety.Turns m (.severeDroop band x) r.repace))
       ∧ Safety.Turns m (.crossingStall band)
          { d with tl := { d.tl with stalled := d.tl.stalled ||| BitVec.ofNat 16 (2 ^ b) } })
    ∧ (let n : Mod := { m with power := { m.power with
         droop := false, droopSkip := false, deferred := none
         bands := m.power.bands.map (fun (c : Band) => { c with droop := false }) } }
       (m.power.deferred = none → Safety.Turns m .droopCleared n.repace)
       ∧ (∀ p, m.power.deferred = some p → Safety.Turns m .droopCleared (n.movePace p).repace))
    ∧ Safety.Turns m .droopReductionEnd ({ m with power := { m.power with severe := false } } : Mod).repace
    ∧ (let n : Mod := { m with tl := { m.tl with stalled := m.tl.stalled &&& ~~~BitVec.ofNat 16 (2 ^ b) } }
       (m.tl.recalWait = false → Safety.Turns m (.crossingStallEnd band windows) n)
       ∧ (m.tl.recalWait = true → n.tl.stalled ≠ 0#16 → n.recalDue = true →
           Safety.Turns m (.crossingStallEnd band windows) n)
       ∧ (m.tl.recalWait = true → n.recalDue = false → Safety.Turns m (.crossingStallEnd band windows) n)
       ∧ (m.tl.recalWait = true → n.recalDue = true → n.tl.stalled = 0#16 →
           Safety.Turns m (.crossingStallEnd band windows) (n.recalNow windows)))
    ∧ (let trim (n : Mod) (c : Nat) : Mod :=
         let t := Map.get 0 n.power.trims c
         if 375 < t then n.raise .ageingExhausted (unitId 1 c) []
         else
           let k : Mod := { n with power := { n.power with trims := Map.set 0 n.power.trims c (t + 25) } }
           (k.setBand c { n.band c with trimPending := (n.band c).trimPending + 25 }).raise .ageingTrim (unitId 1 c)
             (payload [i1 c, i2 (t + 25)])
       Safety.Turns m (.ageingCheck lost) ((List.range 16).foldl (fun n c =>
         if lost.getLsbD c = true ∧ (n.band c).closed = true then trim n c else n) m))


/-- HOT_SPOT_SAMPLE, SENSOR_SCAN, CROSS_LAYER_ESTIMATE, FLOW_SAMPLE, FLOW_AVERAGE, LOW_HELD,
COOLANT_TEMP_SAMPLE and LOSS_COMPARISON (R431, R445 to R449, R451, R452, R461): pairs are marked suspect and clear, control values
take the highest reading, estimates follow the layers beside a band, and the thresholds act after as many samples in a row
as they name; flow and pressure govern the coolant's state; a loss of coolant
that still heats opens every header. -/
def Obligations.TemperaturesAndCoolantGovernLimits : Prop :=
  ∀ (m : Mod) (pairs : List (BitVec 16 × BitVec 16)) (r : SensorReadings) (flowA flowB pIn pOut : BitVec 16),
    m.boot.powered = true →
    let t := m.thermal
    let each (f : Mod → Nat → Mod) (n : Mod) : Mod := (List.range 16).foldl f n
    let judge (n : Mod) : Mod := each (fun n b => (n.formControl b).beaconWatch b) n
    Safety.Turns m (.hotSpotSample pairs)
      (judge ((List.range 128).foldl (fun n i =>
        if isDark n.plan (i / 8) = true then
          { n with thermal := { n.thermal with spots := listSet n.thermal.spots i ⟨noTemp, noTemp, false, 0, 0⟩ } }
        else n.sampleSpot i (listGet (noTemp, noTemp) pairs i).1 (listGet (noTemp, noTemp) pairs i).2) m)).dangerWatch.maxWatch.repace
    ∧ (∀ (n : Mod) (i : Nat) (a d : BitVec 16),
        let y := listGet HotSpot.none n.thermal.spots i
        let gap := (a.toInt - d.toInt).natAbs
        let wide := if 50 < gap then y.apart + 1 else 0
        let near := if gap ≤ 30 then y.close + 1 else 0
        let put (s : Bool) : Mod := { n with thermal := { n.thermal with
          spots := listSet n.thermal.spots i ⟨a, d, s, wide, near⟩ } }
        (y.suspect = false → wide ≤ 200 → n.sampleSpot i a d = put false)
        ∧ (y.suspect = false → 200 < wide → n.sampleSpot i a d = (put true).raise .thmPairSuspect (unitId 1 (i / 8))
            (payload [i1 (i / 8), i1 (i % 8), i2 a.toNat, i2 d.toNat]))
        ∧ (y.suspect = true → near < 10000 → n.sampleSpot i a d = put true)
        ∧ (y.suspect = true → 10000 ≤ near → n.sampleSpot i a d = put false))
    ∧ (∀ (n : Mod) (b : Nat),
        (∀ s ∈ n.spotsOf b, isDark n.plan b = false → b < n.thermal.bands.length →
          let c := ((n.formControl b).bandTemp b).control
          (s.diode ≠ noTemp → s.diode.toInt ≤ c.toInt) ∧ (s.delay ≠ noTemp → s.delay.toInt ≤ c.toInt)
          ∧ (s.suspect = true → (n.bandTemp b).estimate ≠ noTemp → (n.bandTemp b).estimate.toInt ≤ c.toInt))
        ∧ (isDark n.plan b = true → b < n.thermal.bands.length → ((n.formControl b).bandTemp b).control = noTemp))
    ∧ (∀ (n : Mod) (b : Nat),
        let bit := BitVec.ofNat 16 (2 ^ b)
        let bad : Prop := (∃ s ∈ n.spotsOf b, s.suspect = true) ∨ (n.bandTemp b).layerSuspect = true
        (¬bad → n.beaconWatch b = { n with safe := { n.safe with sensorFault := n.safe.sensorFault &&& ~~~bit } })
        ∧ (bad → n.safe.sensorFault.getLsbD b = true → n.beaconWatch b = n)
        ∧ (bad → n.safe.sensorFault.getLsbD b = false → n.beaconWatch b =
            ({ n with safe := { n.safe with sensorFault := n.safe.sensorFault ||| bit } } : Mod).raise .sensorFault
              (unitId 1 b) (payload [i1 b])))
    ∧ (∀ n : Mod,
        let run := if 1050 < n.computeTemp.toInt then n.thermal.danger + 1 else 0
        let k : Mod := { n with thermal := { n.thermal with danger := run } }
        let tell (q : Mod) (b : Nat) : Mod :=
          (q.raise .thmDangerous (unitId 1 b) (payload [i1 b, i2 (q.bandTemp b).control.toNat])).enterSafe 2
        n.dangerWatch = each (fun q b =>
          let y := q.bandTemp b
          let weak := if q.sensorBad b = true ∧ isDark q.plan b = false ∧ 1000 < y.control.toInt then y.danger + 1 else 0
          let z : Mod := { q with thermal := { q.thermal with
            bands := listSet q.thermal.bands b { y with danger := weak } } }
          if weak = 3 ∧ run ≠ 3 then tell z b else z) (if run = 3 then tell k k.hottestBand else k))
    ∧ (∀ n : Mod,
        let c := n.computeTemp.toInt
        let hot := if 1000 ≤ c then n.thermal.maxHot + 1 else 0
        let cool := if c < 970 then n.thermal.maxCool + 1 else 0
        let put (x : Bool) (l : BitVec 8) : Mod := { n with thermal := { n.thermal with
          maxHot := hot, maxCool := cool, maxOn := x, limit := l
          hotAt := if 950 ≤ c then some n.clock.timeUs else n.thermal.hotAt } }
        (n.thermal.maxOn = false → hot < 100 → n.maxWatch = put false n.thermal.limit)
        ∧ (n.thermal.maxOn = false → 100 ≤ hot → n.maxWatch = (put true 35#8).raise .thmMax noUnit [])
        ∧ (n.thermal.maxOn = true → cool < 1000 → n.maxWatch = put true n.thermal.limit)
        ∧ (n.thermal.maxOn = true → 1000 ≤ cool → n.maxWatch = put false n.thermal.limit))
    ∧ (let seen : Mod := { m with thermal := { t with
         cells := r.cells.filter (fun e => isEnabled m.plan e.1 && decide (e.1 < 4704) && e.2 != noTemp)
         loam1 := (List.range 64).map (fun i => listGet noTemp r.loam1 i)
         loam2 := (List.range 64).map (fun i => listGet noTemp r.loam2 i)
         cap := (List.range 16).map (fun i => listGet noTemp r.cap i) } }
       Safety.Turns m (.sensorScan r) ((List.range 12).foldl (fun n s =>
         n.sampleStack s ((List.range 4).map (fun d => listGet noTemp r.memStacks (4 * s + d)))) seen).selfRefresh.repace)
    ∧ (∀ (n : Mod) (s : Nat) (ds : List (BitVec 16)),
        let y := n.stackTemp s
        let c := (hottest ds).toInt
        let hot := if 950 ≤ c then y.hot + 1 else 0
        let cool := if c < 900 then y.cool + 1 else 0
        let twice := if y.doubled = true then decide (820 ≤ c) else decide (850 ≤ c)
        let put (x : Bool) (l : BitVec 8) : Mod := { n with thermal := { n.thermal with
          memStacks := listSet n.thermal.memStacks s ⟨ds, twice, hot, x, cool⟩, limit := l } }
        (y.above = false → hot < 10 → n.sampleStack s ds = put false n.thermal.limit)
        ∧ (y.above = false → 10 ≤ hot → n.sampleStack s ds = (put true 35#8).raise .stackOvertemp (unitId 4 s) [])
        ∧ (y.above = true → cool < 100 → n.sampleStack s ds = put true n.thermal.limit)
        ∧ (y.above = true → 100 ≤ cool → n.sampleStack s ds = put false n.thermal.limit))
    ∧ (let guess (n : Mod) (b : Nat) : Mod := { n with thermal := { n.thermal with
         bands := listSet n.thermal.bands b { n.bandTemp b with estimate := n.estimateOf b } } }
       let up := [8, 9, 10, 11, 12, 13, 14, 15]
       Safety.Turns m .crossLayerEstimate
         (judge (up.foldl Mod.layerWatch ((up ++ List.range 8).foldl guess m))).repace)
    ∧ (∀ (n : Mod) (b : Nat), isDark n.plan b = true → n.estimateOf b = noTemp)
    ∧ (∀ (n : Mod) (b : Nat) (above below : Int), isDark n.plan (b + 8) = false → isDark n.plan b = false → b < 8 →
        n.loamSum b = some above →
        let power := (listGet 0#16 n.power.current (b + 8)).toNat * (n.band (b + 8)).senseMv.toNat
        let k := listGet 48 n.thermal.kCoef (b + 8)
        (n.bandTemp b).control ≠ noTemp → below = 8 * (n.bandTemp b).control.toInt →
        n.estimateOf (b + 8) = BitVec.ofInt 16 (((above + below) * 1000000 + 16 * ((k * power : Nat) : Int) + 8000000) / 16000000))
    ∧ (∀ (n : Mod) (b : Nat),
        let y := n.bandTemp b
        let d := y.estimate.toInt - (n.ownControl b).toInt
        let high := if y.estimate ≠ noTemp ∧ 80 ≤ d then y.high + 1 else 0
        let low := if y.estimate ≠ noTemp ∧ d < 40 then y.low + 1 else 0
        let put (x : Bool) : Mod := ({ n with thermal := { n.thermal with
          bands := listSet n.thermal.bands b { y with high := high, low := low, layerSuspect := x } } } : Mod).formControl b
        (y.layerSuspect = false → high < 5 → n.layerWatch b = put false)
        ∧ (y.layerSuspect = false → 5 ≤ high → n.layerWatch b = (put true).raise .thmLayerSuspect (unitId 1 b)
            (payload [i1 b, i2 y.estimate.toNat, i2 y.control.toNat]))
        ∧ (y.layerSuspect = true → low < 10000 → n.layerWatch b = put true)
        ∧ (y.layerSuspect = true → 10000 ≤ low → n.layerWatch b = put false))
    ∧ (let dp := pIn.toNat - pOut.toNat
       let earlier := listGet 0 t.dp 499
       let f := min flowA.toNat flowB.toNat
       let run := if f < 900 then t.flowLost + 1 else 0
       let n := ({ m with thermal := { t with
         flowA := flowA, flowB := flowB, pIn := pIn, pOut := pOut, dp := (dp :: t.dp).take 500
         flowSum := t.flowSum + f, flowN := t.flowN + 1, flowLost := run } } : Mod).flowWatch
       let lost : Prop := 3 ≤ run ∨ (20 ≤ earlier ∧ 4 * dp < earlier)
       (t.flowState = 3#8 ∨ ¬lost → Safety.Turns m (.flowSample flowA flowB pIn pOut) n)
       ∧ (t.flowState ≠ 3#8 → lost →
           let k : Mod := { n with thermal := { n.thermal with
             flowState := 3#8, coolantLimit := 35#8, lossPrev := some n.computeTemp } }
           Safety.Turns m (.flowSample flowA flowB pIn pOut)
             ((k.repace.raise .coolantLoss noUnit (payload [i2 f, i2 dp])).enterSafe 3)))
    ∧ (∀ n : Mod,
        let y := n.thermal
        let hi := max y.flowA.toNat y.flowB.toNat
        let d := hi - min y.flowA.toNat y.flowB.toNat
        let wide := if hi < 10 * d then y.flowApart + 1 else 0
        let near := if 20 * d ≤ hi then y.flowClose + 1 else 0
        let put (x : Bool) : Mod := { n with thermal := { y with flowApart := wide, flowClose := near, flowSuspect := x } }
        (y.flowSuspect = false → wide < 5000 → n.flowWatch = put false)
        ∧ (y.flowSuspect = false → 5000 ≤ wide → n.flowWatch = (put true).raise .flowSensorSuspect noUnit [])
        ∧ (y.flowSuspect = true → near < 50000 → n.flowWatch = put true)
        ∧ (y.flowSuspect = true → 50000 ≤ near → n.flowWatch = put false))
    ∧ (let f := t.flowSum / t.flowN
       let put (x l : BitVec 8) : Mod := { m with thermal := { t with
         flowSum := 0, flowN := 0, flowState := x, coolantLimit := l } }
       let limit := BitVec.ofNat 8 (min 160 (max 35 (160 * f / 3600)))
       (t.flowN = 0 ∨ t.flowState = 3#8 → Safety.Turns m .flowAverage { m with thermal := { t with flowSum := 0, flowN := 0 } })
       ∧ (t.flowN ≠ 0 → t.flowState = 0#8 → f < 3600 →
           Safety.Turns m .flowAverage ((put 1#8 limit).raise .coolantLow noUnit []).repace)
       ∧ (t.flowN ≠ 0 → t.flowState = 0#8 → 3600 ≤ f → Safety.Turns m .flowAverage (put 0#8 160#8).repace)
       ∧ (t.flowN ≠ 0 → t.flowState = 1#8 ∨ t.flowState = 2#8 →
           (f < 3700 → Safety.Turns m .flowAverage (put t.flowState limit).repace)
           ∧ (3700 ≤ f → Safety.Turns m .flowAverage (put 0#8 160#8).repace)))
    ∧ (t.flowState ≠ 1#8 → Safety.Turns m .lowHeld m)
    ∧ (t.flowState = 1#8 →
        let n := (({ m with thermal := { t with flowState := 2#8 } } : Mod).mgmtFault 0 0).raise .coolantFault noUnit []
        (m.lea.st = .running → Safety.Turns m .lowHeld n) ∧ (m.lea.st ≠ .running → Safety.Turns m .lowHeld n.haltStream))
    ∧ (let bad : Prop := flowA.toInt < 200 ∨ 450 < flowA.toInt
       let put (run : Nat) (told : Bool) : Mod := { m with thermal := { t with
         tIn := flowA, tOut := flowB, inletOut := run, inletRaised := told } }
       (¬bad → Safety.Turns m (.coolantTempSample flowA flowB) (put 0 false))
       ∧ (bad → t.inletOut < 9 → Safety.Turns m (.coolantTempSample flowA flowB) (put (t.inletOut + 1) t.inletRaised))
       ∧ (bad → 9 ≤ t.inletOut → t.inletRaised = true →
           Safety.Turns m (.coolantTempSample flowA flowB) (put (t.inletOut + 1) true))
       ∧ (bad → 9 ≤ t.inletOut → t.inletRaised = false →
           Safety.Turns m (.coolantTempSample flowA flowB) ((put (t.inletOut + 1) true).raise .coolantInlet noUnit [])))
    ∧ (t.lossPrev = none → Safety.Turns m .lossComparison m)
    ∧ (∀ p, t.lossPrev = some p →
        let c := m.computeTemp
        let n : Mod := { m with thermal := { t with lossPrev := some c } }
        (c.toInt ≤ 950 ∨ c.toInt ≤ p.toInt → Safety.Turns m .lossComparison n)
        ∧ (950 < c.toInt → p.toInt < c.toInt → Safety.Turns m .lossComparison
            (each (fun n b => if (n.band b).closed = true then n.openHeaders b else n) n)))

/-- THERMAL_WINDOW (R450): at the end of each window the thermal limit falls by 0.02 Gsteps/s for each degree, or part of
one, above 92.0 °C or, of a stack, 90.0 °C, from the pace in force where that is lower; it rises by 0.01 where both are
2 °C cooler, and is held otherwise; a lowered limit acts at once, on the allowance and on the pace. -/
def Obligations.ThermalLawMovesTheLimit : Prop :=
  ∀ m : Mod, m.boot.powered = true →
    let c := m.computeTemp.toInt
    let s := m.maxStack.toInt
    let e := max (c - 920) (s - 900)
    let was := m.thermal.limit.toNat
    let base := if m.stream.running = true ∧ m.power.paceNow.toNat < was then m.power.paceNow.toNat else was
    let low := max 35 (base - 2 * ((e.toNat + 9) / 10))
    let k : Mod := { m with thermal := { m.thermal with
      limit := BitVec.ofNat 8 low, throttling := true
      throttleWindows := if low < was then satAdd m.thermal.throttleWindows 1 else m.thermal.throttleWindows } }
    let n := if m.thermal.throttling = true then k.repace else (k.raise .thmThrottle noUnit []).repace
    (0 < e → Safety.Turns m .thermalWindow n ∧ n.thermal.limit = BitVec.ofNat 8 low
      ∧ n.power.paceAllow.toNat ≤ low ∧ (m.stream.running = true → n.power.paceNow.toNat ≤ low))
    ∧ (e ≤ 0 → c < 900 → s < 880 → Safety.Turns m .thermalWindow ({ m with thermal := { m.thermal with
        limit := BitVec.ofNat 8 (min 160 (was + 1)), throttling := false } } : Mod).repace)
    ∧ (e ≤ 0 → 900 ≤ c ∨ 880 ≤ s → Safety.Turns m .thermalWindow m)


/-- SAFE_REQ, CAIRN_RECORD_WRITE, FF_CLEAR, FP_PLAN_ADDR, FINGERPRINT_PASS, FP_PASS_LATE, FP_VERDICT and FI_ARM (R462,
R464, R466 to R468, R470, R472 to R474, R476 to R478): the objects that need a right are refused without it; the record at the
head of the queue is written whole into its slot, chained to the one before it and sealed in its turn; a plan is checked
at once; a verdict other than 0 enters the safe state; an injection is armed only where its mode, target and parameter fit. -/
def Obligations.RecordsPlansAndInjectionsAreChecked : Prop :=
  ∀ (m : Mod) (fd : Bool) (v : BitVec 8) (x : BitVec 64), m.boot.powered = true →
    (Safety.Serves m →
      (∀ e ∈ [(0, 0x3C00, 5, Instr.safeReq fd v), (0, 0x4001, 4, .ffClear fd v), (2, 0x3880, 5, .fiArm fd v)],
        (m.hasRight e.1 = false → Safety.Turns m e.2.2.2 (Safety.refused m fd e.2.1 e.2.2.1 0x08000020))
        ∧ (m.hasRight e.1 = true → v ≠ 1#8 → Safety.Turns m e.2.2.2 (Safety.refused m fd e.2.1 e.2.2.1 0x06090030)))
      ∧ (m.hasRight 0 = true → Safety.Turns m (.safeReq fd 1#8)
          (((m.raise .safeRequested noUnit []).enterSafe 8).answer fd 0x3C00 5 .done))
      ∧ (m.hasRight 0 = true → Safety.Turns m (.ffClear fd 1#8)
          ((({ m with cairn := { m.cairn with firstFault := [] } } : Mod).cairnNote .clear none [] false).answer fd 0x4001 4
            .done))
      ∧ (m.hasRight 2 = true →
          let i := m.inject
          let ends (n : Mod) : Prop := Safety.Turns m (.fiArm fd 1#8) (n.answer fd 0x3880 5 .done)
          let t := i.target.toNat
          let p := i.param.toNat
          let fits : Prop :=
            (i.mode = 1#8 ∧ t ≤ 36) ∨ (i.mode = 3#8 ∧ t ≤ 36) ∨ (i.mode = 6#8 ∧ t = 60)
            ∨ (i.mode = 2#8 ∧ t ≤ 36 ∧ p % 2 ^ 32 ≠ 0 ∧ p / 2 ^ 32 % 2 ^ 13 ≤ (if t = 36 then 2016 else 4064))
            ∨ ((i.mode = 4#8 ∨ i.mode = 5#8) ∧ 40 ≤ t ∧ t ≤ 51 ∧ p / 2 ^ 8 % 256 ≤ (if i.mode = 4#8 then 31 else 3)
              ∧ p / 2 ^ 16 % 256 ≠ 0
              ∧ (p / 2 ^ 24 % 256 ≤ (if i.mode = 4#8 then 31 else 3) ∨ p / 2 ^ 24 % 256 = 255))
          (¬fits → ends { m with inject := { i with status := 0xD2#8 } })
          ∧ (fits → i.count = 0#16 → ends (({ m with
              inject := { i with
                armed := false, status := 0#8, done := 0#16, armTarget := i.target, armMode := i.mode, armCount := 0#16
                armParam := i.param, swapHeld := none }
              memStacks := { m.memStacks with inject := none } } : Mod).raise .fiInjected noUnit
                (payload [i1 t, i1 i.mode.toNat, i2 0])))
          ∧ (fits → i.count ≠ 0#16 → i.mode ≠ 4#8 → i.mode ≠ 5#8 → ends (({ m with
              inject := { i with
                armed := true, status := 0#8, done := 0#16, armTarget := i.target, armMode := i.mode, armCount := i.count
                armParam := i.param, swapHeld := none }
              memStacks := { m.memStacks with inject := none } } : Mod).raise .fiInjected noUnit
                (payload [i1 t, i1 i.mode.toNat, i2 i.count.toNat])))
          ∧ (fits → i.count ≠ 0#16 → i.mode = 4#8 ∨ i.mode = 5#8 →
              let check := decide (i.mode = 5#8)
              ends (({ m with
                inject := { i with
                  armed := true, status := 0#8, done := 0#16, armTarget := i.target, armMode := i.mode
                  armCount := i.count, armParam := i.param, swapHeld := none }
                memStacks := { m.memStacks with inject := some ⟨t - 40, p % 32, i.param.getLsbD 5,
                  bridgeBytes check p, i.count.toNat⟩ } } : Mod).raise .fiInjected noUnit
                    (payload [i1 t, i1 i.mode.toNat, i2 i.count.toNat]))))
      ∧ (x = 0#64 → Safety.Turns m (.fpPlanAddr fd x) (Safety.accepted { m with fpr := { m.fpr with
          planAddr := 0#64, shards := [], pass := 0#64, status := 0#8, since := m.clock.timeUs } } fd 0x3C20 1))
      ∧ (∀ n, x ≠ 0#64 → m.readPlanTable x.toNat = (none, n) → Safety.Turns m (.fpPlanAddr fd x)
          (({ n with fpr := { n.fpr with status := 0xD4#8 } } : Mod).answer fd 0x3C20 1 (.abort 0x06090030)))
      ∧ (∀ n shards, x ≠ 0#64 → m.readPlanTable x.toNat = (some shards, n) → Safety.Turns m (.fpPlanAddr fd x)
          (({ n with fpr := { n.fpr with
            planAddr := x, shards := shards, pass := 0#64, status := 0#8, since := n.clock.timeUs } } : Mod).answer fd 0x3C20 1
              .done))
      ∧ (let shard := x.toNat % 2 ^ 16
         let vote := x.toNat / 2 ^ 16 % 2 ^ 8
         let pass := x.toNat / 2 ^ 32
         let known : Prop := pass < m.fpr.pass.toNat ∧ m.fpr.pass.toNat ≤ pass + 2
         let kept : Mod := { m with fpr := { m.fpr with verdict := x &&& 0xFFFFFFFF00FFFFFF#64 } }
         let p := payload [i2 shard, i1 vote, i8 pass]
         (2 < vote ∨ m.fpr.shards.length ≤ shard →
           Safety.Turns m (.fpVerdict fd x) (Safety.refused m fd 0x3C20 4 0x06090030))
         ∧ (vote ≤ 2 → shard < m.fpr.shards.length → ¬known →
           Safety.Turns m (.fpVerdict fd x) (Safety.refused m fd 0x3C20 4 0x08000022))
         ∧ (vote = 0 → shard < m.fpr.shards.length → known →
           Safety.Turns m (.fpVerdict fd x) (Safety.accepted kept fd 0x3C20 4))
         ∧ (1 ≤ vote → vote ≤ 2 → shard < m.fpr.shards.length → known → Safety.Turns m (.fpVerdict fd x)
             ((((kept.raise .weightMismatch noUnit p).cairnNote .verdict (some (kept.record .weightMismatch noUnit p)) []
               false).enterSafe 7).answer fd 0x3C20 4 .done))))
    ∧ (m.serving = true → m.can.transfer = none → m.sec.recovery = false → m.hasRight 2 = true →
        m.inject.armed = true → m.inject.armMode ≠ 6#8 →
        Safety.Turns m (.fiArm fd 1#8)
          (({ m with inject := { m.inject with status := 0xD3#8 } } : Mod).answer fd 0x3880 5 .done))
    ∧ (m.cairn.queue = [] → Safety.Turns m .cairnRecordWrite m)
    ∧ (∀ p rest, m.cairn.queue = p :: rest → Safety.Leaves m .cairnRecordWrite (fun n =>
        let c := m.cairn
        let head (copy : Nat) : Bytes := leBytes 4 0x4E524143 ++ leBytes 2 1 ++ leBytes 1 p.kind.code
          ++ leBytes 1 (copy + if p.test then 4 else 0) ++ leBytes 8 c.next ++ leBytes 4 c.powerCycles ++ leBytes 4 0
          ++ leBytes 8 p.timeUs ++ c.chain ++ padTo 128 (match p.event with | some e => e.bytes | none => [])
        let sealed := leBytes 64 (Config.signature m.clock.signCtr (BitVec.ofNat 256 (beNat (sm3 (head 0))))).toNat
          ++ leBytes 8 c.lastSeal.toNat
        let body := if p.kind = .seal then sealed else p.body
        let whole (copy : Nat) : Bytes :=
          let b := head copy ++ padTo 3900 body
          b ++ leBytes 4 (crc32 b)
        let since := if p.kind = .seal then 0 else c.sinceSeal + 1
        let next : List CairnPending :=
          if p.thenSeal = true ∨ (p.kind ≠ .seal ∧ since = 63 ∧ ∀ q ∈ rest, q.kind ≠ .seal)
          then ⟨.seal, m.testing, none, [], m.clock.timeUs, false⟩ :: rest else rest
        n = { m with
          clock := { m.clock with signCtr := if p.kind = .seal then m.clock.signCtr + 1 else m.clock.signCtr }
          cairn := ({ c with
            ring := Map.set [] c.ring (c.next % 8192) (whole 0)
            next := c.next + 1
            chain := sm3 ((whole 0).take 4092)
            lastSeal := if p.kind = .seal then BitVec.ofNat 64 c.next else c.lastSeal
            sinceSeal := since
            firstFault := if p.firstFault = true ∧ c.firstFault.length < 64 then c.firstFault ++ [whole 1] else c.firstFault
            queue := next } : Cairn).startNext }))
    ∧ (m.fpr.planAddr = 0#64 → Safety.Turns m .fingerprintPass m ∧ Safety.Turns m .fpPassLate m)
    ∧ (m.fpr.planAddr ≠ 0#64 → Safety.Turns m .fpPassLate (m.raise .fpPassLate noUnit []))
    ∧ (∀ i, m.boot.image = some i → i.training = true → Safety.Turns m .fingerprintPass m)
    ∧ (m.fpr.planAddr ≠ 0#64 → (∀ i, m.boot.image = some i → i.training = false) →
        let swept := m.onRick (reqCore 0) (fun y => (List.range 12).foldl (fun y s => glnPrepareSlice y s (fun w =>
          m.fpr.shards.any (fun z => (List.range z.2).any (fun i =>
            decide ((decodeAddr m.memStacks.placeActive (z.1 + 4096 * i)).1 / 128 = w / 128)))) (fun _ => false)) y)
        let r := m.fpr.shards.foldl (fun (a : Bytes × Mod) z =>
          let d := a.2.shardDigest z.1 z.2
          (a.1 ++ d.1, d.2)) ([], swept)
        let n := r.2.coreWriteStack 0 m.fpr.outAddr.toNat (leBytes 16 m.fpr.pass.toNat ++ r.1) 3
        Safety.Turns m .fingerprintPass { n with fpr := { n.fpr with pass := n.fpr.pass + 1, since := n.clock.timeUs } })
    ∧ (∀ (n : Mod) (base pieces : Nat),
        let r := (List.range pieces).foldl (fun (a : Bytes × Mod) i =>
          let q := a.2.pieceCrc (base + 4096 * i)
          (a.1 ++ q.1, q.2)) ([], n)
        (pieces = 0 → n.shardDigest base pieces = (List.replicate 32 0#8, n))
        ∧ (pieces ≠ 0 → n.shardDigest base pieces = (sm3 r.1, r.2)))


/-- ATT_GO, ATTEST_SIGNED, AUTH_REQ, AUTH_RESPONSE, RESPONSE_VERIFIED, AUTH_CLOSE, DURATION_END, CHALLENGE_EXPIRY,
LOCKOUT_END, SEC_PROFILE, SVN_COMMIT, FW_REVOKE, OWNER_KEY, IMAGE_KEY, FW_CHUNK, FW_COMMIT, FW_COMMIT_VERIFIED, DBG_HALT and
DBG_ACC (R482, R488 to R490, R492, R493, R496 to R500): an object that needs a right is refused without it; a session
opens only on a response that verifies, and the fifth failure in a row locks requests out; fuses rise, keys change and
firmware is stored and verified as the rules say; a report signs one snapshot; an accumulator is read only while halted. -/
def Obligations.SecurityObjectsKeepTheirRules : Prop :=
  ∀ (m : Mod) (fd : Bool) (v : BitVec 8) (req : BitVec 32) (key : BitVec 512) (data svc : Bytes), m.boot.powered = true →
    let s := m.sec
    let put (t : Sec) : Mod := { m with sec := t }
    let closed (n : Mod) (why : Nat) : Mod := match n.sec.session with
      | none => n
      | some _ =>
        let k : Mod := { n.disarm with sec := { n.disarm.sec with session := none, dbgHalt := 0#8 } }
        (if k.memStacks.testEnable = 0#8 then k
         else ({ k with memStacks := { k.memStacks with testEnable := 0#8 } } : Mod).raise .checkerTest noUnit []).raise
          .authClosed noUnit (payload [i1 why])
    (Safety.Serves m →
      (∀ e ∈ [(0, 0x4400, 1, Instr.secProfile fd v), (0, 0x4400, 5, .svnCommit fd v), (0, 0x4401, 7, .fwRevoke fd v),
          (0, 0x4410, 4, .imageKey fd key), (1, 0x4450, 1, .dbgHalt fd v)],
        m.hasRight e.1 = false → Safety.Turns m e.2.2.2 (Safety.refused m fd e.2.1 e.2.2.1 0x08000020))
      ∧ (v ≠ 1#8 → ∀ e ∈ [(0x4420, 2, Instr.attGo fd v), (0x4430, 5, .authClose fd v), (0x4440, 4, .fwCommit fd v)],
          Safety.Turns m e.2.2 (Safety.refused m fd e.1 e.2.1 0x06090030))
      ∧ (s.attState = 1#8 → Safety.Turns m (.attGo fd 1#8) (Safety.refused m fd 0x4420 2 0x08000022))
      ∧ (s.attState ≠ 1#8 →
          let cc := match m.boot.coreFw with | some f => f.measure | none => List.replicate 32 0#8
          let report := padTo 512 (padTo 448 (leBytes 4 0x31545441 ++ leBytes 4 1 ++ padTo 16 m.fuses.serial
            ++ padTo 32 s.attNonce ++ padTo 32 s.mcMeasure ++ padTo 32 cc ++ sm3 m.fuseMap ++ padTo 32 m.plan.digest
            ++ m.cfgDigest ++ padTo 32 m.imageDigest ++ padTo 32 m.planting.active.digest ++ leBytes 1 s.profile.toNat
            ++ leBytes 1 m.fuses.mcSvn.toNat ++ leBytes 1 m.fuses.ccSvn.toNat ++ leBytes 1 (m.authState.toNat % 256)
            ++ leBytes 8 m.cairn.next ++ padTo 32 m.cairn.chain ++ leBytes 8 m.clock.timeUs))
          Safety.Turns m (.attGo fd 1#8)
            (Safety.accepted (put { s with attState := 1#8, attReport := report }) fd 0x4420 2))
      ∧ (let n := req.toNat
         let rights := n % 8
         let service := req.getLsbD 8
         let owner := enrolled s.ownerKey
         let allowed : Prop := n / 8 % 32 = 0 ∧ n / 512 % 128 = 0
           ∧ (if service = true then enrolled m.fuses.svcKey = true else owner = true)
           ∧ (req.getLsbD 0 = true → service = true → owner = false)
           ∧ (req.getLsbD 1 = true → s.profile.getLsbD 1 = true) ∧ (req.getLsbD 2 = true → s.profile.getLsbD 2 = true)
         let busy : Prop := s.session.isSome = true ∨ s.verifying.isSome = true ∨ s.lockout = true
         (¬allowed → Safety.Turns m (.authReq fd req) (Safety.refused m fd 0x4430 1 0x06090030))
         ∧ (allowed → n / 65536 = 0 → Safety.Turns m (.authReq fd req) (Safety.accepted m fd 0x4430 1))
         ∧ (allowed → n / 65536 ≠ 0 → busy → Safety.Turns m (.authReq fd req) (Safety.refused m fd 0x4430 1 0x08000022))
         ∧ (allowed → n / 65536 ≠ 0 → ¬busy → Safety.Turns m (.authReq fd req) (Safety.accepted { m with
             sec := { s with challenge := some ⟨Config.challenge m.clock.challengeCtr, BitVec.ofNat 3 rights, service,
               BitVec.ofNat 16 (n / 65536), m.clock.timeUs⟩ }
             clock := { m.clock with challengeCtr := m.clock.challengeCtr + 1 } } fd 0x4430 1)))
      ∧ (s.challenge = none → Safety.Turns m (.authResponse fd key)
          (Safety.refused (put { s with result := 0xE9#8 }) fd 0x4430 3 0x08000024))
      ∧ (∀ c, s.challenge = some c → Safety.Turns m (.authResponse fd key)
          (Safety.accepted (put { s with challenge := none, verifying := some (c, regBytes key) }) fd 0x4430 3))
      ∧ Safety.Turns m (.authClose fd 1#8) ((closed (put { s with challenge := none }) 1).answer fd 0x4430 5 .done)
      ∧ (m.hasRight 0 = true →
          (7 < v.toNat → Safety.Turns m (.secProfile fd v) (Safety.refused m fd 0x4400 1 0x06090030))
          ∧ (v.toNat ≤ 7 → ∀ t, s.session = some t →
              let n := put { s with profile := v }
              let withdrawn : Prop := (t.rights.getLsbD 1 = true ∧ v.getLsbD 1 = false)
                ∨ (t.rights.getLsbD 2 = true ∧ v.getLsbD 2 = false)
              (withdrawn → Safety.Turns m (.secProfile fd v) ((closed n 3).answer fd 0x4400 1 .done))
              ∧ (¬withdrawn → Safety.Turns m (.secProfile fd v) (Safety.accepted n fd 0x4400 1)))
          ∧ (v ≠ 1#8 → Safety.Turns m (.svnCommit fd v) (Safety.refused m fd 0x4400 5 0x06090030))
          ∧ (let mc := max m.fuses.mcSvn.toNat (pkgSvn (m.slotHeader s.mcSlot))
             let cc := match m.boot.coreFw with
               | some f => max m.fuses.ccSvn.toNat f.svn.toNat
               | none => m.fuses.ccSvn.toNat
             Safety.Turns m (.svnCommit fd 1#8) ((({ m with
               fuses := { m.fuses with mcSvn := BitVec.ofNat 8 mc, ccSvn := BitVec.ofNat 8 cc } } : Mod).raise .svnCommitted
                 noUnit (payload [i1 mc, i1 cc])).answer fd 0x4400 5 .done))
          ∧ (v = 0#8 → Safety.Turns m (.fwRevoke fd v) (Safety.refused m fd 0x4401 7 0x06090032))
          ∧ (15 < v.toNat → Safety.Turns m (.fwRevoke fd v) (Safety.refused m fd 0x4401 7 0x06090031))
          ∧ (1 ≤ v.toNat → v.toNat ≤ 15 → ∀ t, s.session = some t →
              let inUse : Prop := v.getLsbD (pkgKey (m.slotHeader s.mcSlot)) = true
                ∨ ∃ f, m.boot.coreFw = some f ∧ v.getLsbD f.key.toNat = true
              (t.service = false → Safety.Turns m (.fwRevoke fd v) (Safety.refused m fd 0x4401 7 0x08000020))
              ∧ (t.service = true → inUse → Safety.Turns m (.fwRevoke fd v) (Safety.refused m fd 0x4401 7 0x06090030))
              ∧ (t.service = true → ¬inUse → Safety.Turns m (.fwRevoke fd v) ((({ m with
                  fuses := { m.fuses with revoked := m.fuses.revoked ||| v } } : Mod).raise .secKeyChanged noUnit []).answer
                    fd 0x4401 7 .done)))
          ∧ Safety.Turns m (.imageKey fd key) (((put { s with imageKey := regBytes key }).raise .secKeyChanged noUnit
              []).answer fd 0x4410 4 .done))
      ∧ (let open1 : Prop := m.hasRight 0 = true ∨ (enrolled s.ownerKey = false ∧ s.ownerOnce = false)
         (¬open1 → Safety.Turns m (.ownerKey fd key) (Safety.refused m fd 0x4410 3 0x08000020))
         ∧ (open1 → Safety.Turns m (.ownerKey fd key)
             (((put { s with ownerKey := regBytes key, ownerOnce := s.ownerOnce || !m.hasRight 0 }).raise .secKeyChanged
               noUnit []).answer fd 0x4410 3 .done)))
      ∧ (m.hasRight 1 = true →
          (1 < v.toNat → Safety.Turns m (.dbgHalt fd v) (Safety.refused m fd 0x4450 1 0x06090031))
          ∧ (v.toNat ≤ 1 → m.lea.st = .running → Safety.Turns m (.dbgHalt fd v) (Safety.refused m fd 0x4450 1 0x08000022))
          ∧ (v.toNat ≤ 1 → m.lea.st ≠ .running →
              Safety.Turns m (.dbgHalt fd v) (Safety.accepted (put { s with dbgHalt := v }) fd 0x4450 1)))
      ∧ (m.hasRight 1 = false → Safety.Turns m (.dbgAcc fd) (Safety.refused m fd 0x4450 3 0x08000020))
      ∧ (m.hasRight 1 = true → s.dbgHalt ≠ 1#8 → Safety.Turns m (.dbgAcc fd)
          (Safety.refused (put { s with dbgStatus := 0x21#8 }) fd 0x4450 3 0x08000024))
      ∧ (m.hasRight 1 = true → s.dbgHalt = 1#8 →
          let q := s.dbgSel.toNat
          let word := debugWord (m.cell (q % 2 ^ 13)) (q / 2 ^ 13 % 4) (q / 2 ^ 15 % 16) (q / 2 ^ 19 % 32)
          let n := put { s with dbgStatus := 0#8, dbgAcc := word }
          (fd = true → Safety.Turns m (.dbgAcc fd) (Safety.answered n fd 0x4450 3 (.data (regBytes word))))
          ∧ (fd = false → Safety.Turns m (.dbgAcc fd) (Safety.answered { n with can := { n.can with
              transfer := some ⟨false, 0x4450, 3, fd, 8, regBytes word⟩ } } fd 0x4450 3 (.opened 8))))
      ∧ (let off := s.fwOffset.toNat
         let bytes := memWrite (if s.fwSlot = 0#8 then s.slotA else s.slotB) off data
         let moved : Sec := { s with fwOffset := BitVec.ofNat 32 (off + data.length) }
         let refuse (code : Nat) : Prop := Safety.Turns m (.fwChunk fd data) (Safety.refused m fd 0x4440 3 code)
         (4096 < data.length → refuse 0x06070010)
         ∧ (data.length ≤ 4096 → s.committing.isSome = true → refuse 0x08000022)
         ∧ (data.length ≤ 4096 → s.committing = none → 2097152 < off + data.length → refuse 0x06090031)
         ∧ (data.length ≤ 4096 → s.committing = none → off + data.length ≤ 2097152 →
             Safety.Turns m (.fwChunk fd data) (Safety.accepted (put
               (if s.fwSlot = 0#8 then { moved with slotA := bytes } else { moved with slotB := bytes })) fd 0x4440 3)))
      ∧ (s.committing.isSome = true → Safety.Turns m (.fwCommit fd 1#8) (Safety.refused m fd 0x4440 4 0x08000022))
      ∧ (s.committing = none → Safety.Turns m (.fwCommit fd 1#8)
          (Safety.accepted (put { s with committing := some s.fwSlot }) fd 0x4440 4)))
    ∧ (s.attState ≠ 1#8 → Safety.Turns m .attestSigned m)
    ∧ (s.attState = 1#8 →
        let body := s.attReport.take 448
        let sig := Config.signature m.clock.signCtr (BitVec.ofNat 256 (beNat (sm3 body)))
        Safety.Turns m .attestSigned (({ m with
          sec := { s with attState := 2#8, attReport := body ++ leBytes 64 sig.toNat }
          clock := { m.clock with signCtr := m.clock.signCtr + 1 } } : Mod).raise .attestSigned noUnit []))
    ∧ (s.verifying = none → Safety.Turns m (.responseVerified svc) m)
    ∧ (∀ c sig, s.verifying = some (c, sig) →
        let text := leBytes 32 c.value.toNat ++ m.fuses.serial ++ leBytes 1 c.rights.toNat ++ leBytes 2 c.duration.toNat
          ++ leBytes 1 (if c.service then 1 else 0)
        let good : Prop := if c.service = true then sm3 svc = m.fuses.svcKey ∧ sm2Verify svc text sig = true
          else sm2Verify s.ownerKey text sig = true
        let ends (n : Mod) : Prop := Safety.Turns m (.responseVerified svc) n
        let bad := (put { s with
          verifying := none, fails := satAdd s.fails 1, failRun := s.failRun + 1, result := 0xE8#8 }).raise .authRejected
            noUnit []
        (good →
          let n := put { s with
            verifying := none, failRun := 0, result := 0#8
            session := some ⟨c.rights, c.service, m.clock.timeUs + c.duration.toNat * 1000000⟩ }
          ends (n.raise .authOpened noUnit (payload [i4 n.authState.toNat])))
        ∧ (¬good → s.failRun < 4 → ends bad)
        ∧ (¬good → 4 ≤ s.failRun → ends (({ bad with sec := { bad.sec with
            failRun := 0, lockout := true } } : Mod).raise .authLockout noUnit [])))
    ∧ Safety.Turns m .durationEnd (closed m 2)
    ∧ Safety.Turns m .challengeExpiry (put { s with challenge := none })
    ∧ Safety.Turns m .lockoutEnd (put { s with lockout := false })
    ∧ (s.committing = none → Safety.Turns m .fwCommitVerified m)
    ∧ (∀ slot, s.committing = some slot →
        let st := m.slotStatus slot
        let n := (put { s with committing := none }).verified 1 st
        let chosen : Mod := { n with sec := { n.sec with nextSlot := slot } }
        (st ≠ 0#8 → Safety.Turns m .fwCommitVerified n)
        ∧ (st = 0#8 → chosen.sec.recovery = false → Safety.Turns m .fwCommitVerified chosen)
        ∧ (st = 0#8 → chosen.sec.recovery = true →
            let k := ((chosen.secResult 0#8).runSlot' slot).freshAfter.checkPlan
            Safety.Turns m .fwCommitVerified (if k.safe.active then k.leaveSafe 5 else k).announce))

/-- Verification of a package (R484): its checks are made in order, and the status is that of the first that fails, or 0
where none does. -/
def Obligations.PackagesAreVerifiedInOrder : Prop :=
  ∀ (f : Fuses) (kind : Nat) (hdr body : Bytes),
    let w := leNat (hdr.take 16)
    let pub := (hdr.drop 48).take 64
    let index := w / 2 ^ 40 % 4
    let digest := listGet [] f.fwKeys index
    let st := packageStatus f kind hdr body
    let form : Prop := w % 2 ^ 32 = 0x46504B31 ∧ w / 2 ^ 32 % 256 = kind ∧ w / 2 ^ 42 % 64 = 0 ∧ w / 2 ^ 54 % 1024 = 0
      ∧ 1 ≤ leNat ((hdr.drop 12).take 4) ∧ leNat ((hdr.drop 12).take 4) ≤ (if kind = 1 then 2096640 else 67108864)
      ∧ ∀ x ∈ (hdr.drop 112).take 336, x = 0#8
    let known : Prop := (∃ x ∈ digest, x ≠ 0#8) ∧ sm3 pub = digest
    let old : Prop := w / 2 ^ 48 % 64 < (if kind = 1 then f.mcSvn.toNat else f.ccSvn.toNat)
    let signed : Prop := sm2Verify pub (hdr.take 448) ((hdr.drop 448).take 64) = true
    (¬form → st = 0xE0#8)
    ∧ (form → ¬known → st = 0xE1#8)
    ∧ (form → known → f.revoked.getLsbD index = true → st = 0xE2#8)
    ∧ (form → known → f.revoked.getLsbD index = false → old → st = 0xE3#8)
    ∧ (form → known → f.revoked.getLsbD index = false → ¬old → ¬signed → st = 0xE4#8)
    ∧ (form → known → f.revoked.getLsbD index = false → ¬old → signed → sm3 body ≠ (hdr.drop 16).take 32 → st = 0xE5#8)
    ∧ (form → known → f.revoked.getLsbD index = false → ¬old → signed → sm3 body = (hdr.drop 16).take 32 → st = 0#8)
end

