-- ==== Sys2Proof/Laws/State.lean ====
section
/-!
SUPPORT. What the updates of the module leave as it was: one lemma for each update and each field that it does not write.
-/
namespace Sys2Proof.Machine

@[simp] theorem State.on_powered {s : State} {f : Mod → Mod} (h : s.m.boot.powered = true) :
    s.on f = .next { s with m := f s.m } := by simp [State.on, h]

@[simp] theorem State.on_unpowered {s : State} {f : Mod → Mod} (h : s.m.boot.powered = false) : s.on f = .next s := by
  simp [State.on, h]

@[simp] theorem Mod.setCell_clock (m : Mod) {i c} : (Mod.setCell m i c).clock = m.clock := rfl
@[simp] theorem Mod.setCell_log (m : Mod) {i c} : (Mod.setCell m i c).log = m.log := rfl
@[simp] theorem Mod.setCell_units (m : Mod) {i c} : (Mod.setCell m i c).units = m.units := rfl
@[simp] theorem Mod.setCell_can (m : Mod) {i c} : (Mod.setCell m i c).can = m.can := rfl
@[simp] theorem Mod.setCell_cairn (m : Mod) {i c} : (Mod.setCell m i c).cairn = m.cairn := rfl
@[simp] theorem Mod.setCell_safe (m : Mod) {i c} : (Mod.setCell m i c).safe = m.safe := rfl
@[simp] theorem Mod.setCell_fpr (m : Mod) {i c} : (Mod.setCell m i c).fpr = m.fpr := rfl
@[simp] theorem Mod.setCell_inject (m : Mod) {i c} : (Mod.setCell m i c).inject = m.inject := rfl
@[simp] theorem Mod.setCell_fuses (m : Mod) {i c} : (Mod.setCell m i c).fuses = m.fuses := rfl
@[simp] theorem Mod.setCell_plan (m : Mod) {i c} : (Mod.setCell m i c).plan = m.plan := rfl
@[simp] theorem Mod.setCell_planting (m : Mod) {i c} : (Mod.setCell m i c).planting = m.planting := rfl
@[simp] theorem Mod.setCell_memStacks (m : Mod) {i c} : (Mod.setCell m i c).memStacks = m.memStacks := rfl
@[simp] theorem Mod.setCell_gln (m : Mod) {i c} : (Mod.setCell m i c).gln = m.gln := rfl
@[simp] theorem Mod.setCell_rick (m : Mod) {i c} : (Mod.setCell m i c).rick = m.rick := rfl
@[simp] theorem Mod.setCell_dma (m : Mod) {i c} : (Mod.setCell m i c).dma = m.dma := rfl
@[simp] theorem Mod.setCell_attn (m : Mod) {i c} : (Mod.setCell m i c).attn = m.attn := rfl
@[simp] theorem Mod.setCell_chip (m : Mod) {i c} : (Mod.setCell m i c).chip = m.chip := rfl
@[simp] theorem Mod.setCell_tl (m : Mod) {i c} : (Mod.setCell m i c).tl = m.tl := rfl
@[simp] theorem Mod.setCell_stream (m : Mod) {i c} : (Mod.setCell m i c).stream = m.stream := rfl
@[simp] theorem Mod.setCell_train (m : Mod) {i c} : (Mod.setCell m i c).train = m.train := rfl
@[simp] theorem Mod.setCell_lea (m : Mod) {i c} : (Mod.setCell m i c).lea = m.lea := rfl
@[simp] theorem Mod.setCell_hdg (m : Mod) {i c} : (Mod.setCell m i c).hdg = m.hdg := rfl
@[simp] theorem Mod.setCell_jnl (m : Mod) {i c} : (Mod.setCell m i c).jnl = m.jnl := rfl
@[simp] theorem Mod.setCell_power (m : Mod) {i c} : (Mod.setCell m i c).power = m.power := rfl
@[simp] theorem Mod.setCell_thermal (m : Mod) {i c} : (Mod.setCell m i c).thermal = m.thermal := rfl
@[simp] theorem Mod.setCell_boot (m : Mod) {i c} : (Mod.setCell m i c).boot = m.boot := rfl
@[simp] theorem Mod.setCell_sec (m : Mod) {i c} : (Mod.setCell m i c).sec = m.sec := rfl

@[simp] theorem Mod.mapCells_clock (m : Mod) {p f} : (Mod.mapCells m p f).clock = m.clock := rfl
@[simp] theorem Mod.mapCells_log (m : Mod) {p f} : (Mod.mapCells m p f).log = m.log := rfl
@[simp] theorem Mod.mapCells_units (m : Mod) {p f} : (Mod.mapCells m p f).units = m.units := rfl
@[simp] theorem Mod.mapCells_can (m : Mod) {p f} : (Mod.mapCells m p f).can = m.can := rfl
@[simp] theorem Mod.mapCells_cairn (m : Mod) {p f} : (Mod.mapCells m p f).cairn = m.cairn := rfl
@[simp] theorem Mod.mapCells_safe (m : Mod) {p f} : (Mod.mapCells m p f).safe = m.safe := rfl
@[simp] theorem Mod.mapCells_fpr (m : Mod) {p f} : (Mod.mapCells m p f).fpr = m.fpr := rfl
@[simp] theorem Mod.mapCells_inject (m : Mod) {p f} : (Mod.mapCells m p f).inject = m.inject := rfl
@[simp] theorem Mod.mapCells_fuses (m : Mod) {p f} : (Mod.mapCells m p f).fuses = m.fuses := rfl
@[simp] theorem Mod.mapCells_plan (m : Mod) {p f} : (Mod.mapCells m p f).plan = m.plan := rfl
@[simp] theorem Mod.mapCells_planting (m : Mod) {p f} : (Mod.mapCells m p f).planting = m.planting := rfl
@[simp] theorem Mod.mapCells_memStacks (m : Mod) {p f} : (Mod.mapCells m p f).memStacks = m.memStacks := rfl
@[simp] theorem Mod.mapCells_gln (m : Mod) {p f} : (Mod.mapCells m p f).gln = m.gln := rfl
@[simp] theorem Mod.mapCells_rick (m : Mod) {p f} : (Mod.mapCells m p f).rick = m.rick := rfl
@[simp] theorem Mod.mapCells_dma (m : Mod) {p f} : (Mod.mapCells m p f).dma = m.dma := rfl
@[simp] theorem Mod.mapCells_attn (m : Mod) {p f} : (Mod.mapCells m p f).attn = m.attn := rfl
@[simp] theorem Mod.mapCells_chip (m : Mod) {p f} : (Mod.mapCells m p f).chip = m.chip := rfl
@[simp] theorem Mod.mapCells_tl (m : Mod) {p f} : (Mod.mapCells m p f).tl = m.tl := rfl
@[simp] theorem Mod.mapCells_stream (m : Mod) {p f} : (Mod.mapCells m p f).stream = m.stream := rfl
@[simp] theorem Mod.mapCells_train (m : Mod) {p f} : (Mod.mapCells m p f).train = m.train := rfl
@[simp] theorem Mod.mapCells_lea (m : Mod) {p f} : (Mod.mapCells m p f).lea = m.lea := rfl
@[simp] theorem Mod.mapCells_hdg (m : Mod) {p f} : (Mod.mapCells m p f).hdg = m.hdg := rfl
@[simp] theorem Mod.mapCells_jnl (m : Mod) {p f} : (Mod.mapCells m p f).jnl = m.jnl := rfl
@[simp] theorem Mod.mapCells_power (m : Mod) {p f} : (Mod.mapCells m p f).power = m.power := rfl
@[simp] theorem Mod.mapCells_thermal (m : Mod) {p f} : (Mod.mapCells m p f).thermal = m.thermal := rfl
@[simp] theorem Mod.mapCells_boot (m : Mod) {p f} : (Mod.mapCells m p f).boot = m.boot := rfl
@[simp] theorem Mod.mapCells_sec (m : Mod) {p f} : (Mod.mapCells m p f).sec = m.sec := rfl

@[simp] theorem Mod.setUnit_clock (m : Mod) {u f} : (Mod.setUnit m u f).clock = m.clock := rfl
@[simp] theorem Mod.setUnit_log (m : Mod) {u f} : (Mod.setUnit m u f).log = m.log := rfl
@[simp] theorem Mod.setUnit_can (m : Mod) {u f} : (Mod.setUnit m u f).can = m.can := rfl
@[simp] theorem Mod.setUnit_cairn (m : Mod) {u f} : (Mod.setUnit m u f).cairn = m.cairn := rfl
@[simp] theorem Mod.setUnit_safe (m : Mod) {u f} : (Mod.setUnit m u f).safe = m.safe := rfl
@[simp] theorem Mod.setUnit_fpr (m : Mod) {u f} : (Mod.setUnit m u f).fpr = m.fpr := rfl
@[simp] theorem Mod.setUnit_inject (m : Mod) {u f} : (Mod.setUnit m u f).inject = m.inject := rfl
@[simp] theorem Mod.setUnit_fuses (m : Mod) {u f} : (Mod.setUnit m u f).fuses = m.fuses := rfl
@[simp] theorem Mod.setUnit_plan (m : Mod) {u f} : (Mod.setUnit m u f).plan = m.plan := rfl
@[simp] theorem Mod.setUnit_planting (m : Mod) {u f} : (Mod.setUnit m u f).planting = m.planting := rfl
@[simp] theorem Mod.setUnit_memStacks (m : Mod) {u f} : (Mod.setUnit m u f).memStacks = m.memStacks := rfl
@[simp] theorem Mod.setUnit_gln (m : Mod) {u f} : (Mod.setUnit m u f).gln = m.gln := rfl
@[simp] theorem Mod.setUnit_rick (m : Mod) {u f} : (Mod.setUnit m u f).rick = m.rick := rfl
@[simp] theorem Mod.setUnit_dma (m : Mod) {u f} : (Mod.setUnit m u f).dma = m.dma := rfl
@[simp] theorem Mod.setUnit_attn (m : Mod) {u f} : (Mod.setUnit m u f).attn = m.attn := rfl
@[simp] theorem Mod.setUnit_cells (m : Mod) {u f} : (Mod.setUnit m u f).cells = m.cells := rfl
@[simp] theorem Mod.setUnit_chip (m : Mod) {u f} : (Mod.setUnit m u f).chip = m.chip := rfl
@[simp] theorem Mod.setUnit_tl (m : Mod) {u f} : (Mod.setUnit m u f).tl = m.tl := rfl
@[simp] theorem Mod.setUnit_stream (m : Mod) {u f} : (Mod.setUnit m u f).stream = m.stream := rfl
@[simp] theorem Mod.setUnit_train (m : Mod) {u f} : (Mod.setUnit m u f).train = m.train := rfl
@[simp] theorem Mod.setUnit_lea (m : Mod) {u f} : (Mod.setUnit m u f).lea = m.lea := rfl
@[simp] theorem Mod.setUnit_hdg (m : Mod) {u f} : (Mod.setUnit m u f).hdg = m.hdg := rfl
@[simp] theorem Mod.setUnit_jnl (m : Mod) {u f} : (Mod.setUnit m u f).jnl = m.jnl := rfl
@[simp] theorem Mod.setUnit_power (m : Mod) {u f} : (Mod.setUnit m u f).power = m.power := rfl
@[simp] theorem Mod.setUnit_thermal (m : Mod) {u f} : (Mod.setUnit m u f).thermal = m.thermal := rfl
@[simp] theorem Mod.setUnit_boot (m : Mod) {u f} : (Mod.setUnit m u f).boot = m.boot := rfl
@[simp] theorem Mod.setUnit_sec (m : Mod) {u f} : (Mod.setUnit m u f).sec = m.sec := rfl

@[simp] theorem Mod.dataFault_clock (m : Mod) {c i} : (Mod.dataFault m c i).clock = m.clock := rfl
@[simp] theorem Mod.dataFault_log (m : Mod) {c i} : (Mod.dataFault m c i).log = m.log := rfl
@[simp] theorem Mod.dataFault_can (m : Mod) {c i} : (Mod.dataFault m c i).can = m.can := rfl
@[simp] theorem Mod.dataFault_cairn (m : Mod) {c i} : (Mod.dataFault m c i).cairn = m.cairn := rfl
@[simp] theorem Mod.dataFault_safe (m : Mod) {c i} : (Mod.dataFault m c i).safe = m.safe := rfl
@[simp] theorem Mod.dataFault_fpr (m : Mod) {c i} : (Mod.dataFault m c i).fpr = m.fpr := rfl
@[simp] theorem Mod.dataFault_inject (m : Mod) {c i} : (Mod.dataFault m c i).inject = m.inject := rfl
@[simp] theorem Mod.dataFault_fuses (m : Mod) {c i} : (Mod.dataFault m c i).fuses = m.fuses := rfl
@[simp] theorem Mod.dataFault_plan (m : Mod) {c i} : (Mod.dataFault m c i).plan = m.plan := rfl
@[simp] theorem Mod.dataFault_planting (m : Mod) {c i} : (Mod.dataFault m c i).planting = m.planting := rfl
@[simp] theorem Mod.dataFault_memStacks (m : Mod) {c i} : (Mod.dataFault m c i).memStacks = m.memStacks := rfl
@[simp] theorem Mod.dataFault_gln (m : Mod) {c i} : (Mod.dataFault m c i).gln = m.gln := rfl
@[simp] theorem Mod.dataFault_rick (m : Mod) {c i} : (Mod.dataFault m c i).rick = m.rick := rfl
@[simp] theorem Mod.dataFault_dma (m : Mod) {c i} : (Mod.dataFault m c i).dma = m.dma := rfl
@[simp] theorem Mod.dataFault_attn (m : Mod) {c i} : (Mod.dataFault m c i).attn = m.attn := rfl
@[simp] theorem Mod.dataFault_cells (m : Mod) {c i} : (Mod.dataFault m c i).cells = m.cells := rfl
@[simp] theorem Mod.dataFault_chip (m : Mod) {c i} : (Mod.dataFault m c i).chip = m.chip := rfl
@[simp] theorem Mod.dataFault_tl (m : Mod) {c i} : (Mod.dataFault m c i).tl = m.tl := rfl
@[simp] theorem Mod.dataFault_stream (m : Mod) {c i} : (Mod.dataFault m c i).stream = m.stream := rfl
@[simp] theorem Mod.dataFault_train (m : Mod) {c i} : (Mod.dataFault m c i).train = m.train := rfl
@[simp] theorem Mod.dataFault_lea (m : Mod) {c i} : (Mod.dataFault m c i).lea = m.lea := rfl
@[simp] theorem Mod.dataFault_hdg (m : Mod) {c i} : (Mod.dataFault m c i).hdg = m.hdg := rfl
@[simp] theorem Mod.dataFault_jnl (m : Mod) {c i} : (Mod.dataFault m c i).jnl = m.jnl := rfl
@[simp] theorem Mod.dataFault_power (m : Mod) {c i} : (Mod.dataFault m c i).power = m.power := rfl
@[simp] theorem Mod.dataFault_thermal (m : Mod) {c i} : (Mod.dataFault m c i).thermal = m.thermal := rfl
@[simp] theorem Mod.dataFault_boot (m : Mod) {c i} : (Mod.dataFault m c i).boot = m.boot := rfl
@[simp] theorem Mod.dataFault_sec (m : Mod) {c i} : (Mod.dataFault m c i).sec = m.sec := rfl

@[simp] theorem Mod.mgmtFault_clock (m : Mod) {c i} : (Mod.mgmtFault m c i).clock = m.clock := rfl
@[simp] theorem Mod.mgmtFault_log (m : Mod) {c i} : (Mod.mgmtFault m c i).log = m.log := rfl
@[simp] theorem Mod.mgmtFault_can (m : Mod) {c i} : (Mod.mgmtFault m c i).can = m.can := rfl
@[simp] theorem Mod.mgmtFault_cairn (m : Mod) {c i} : (Mod.mgmtFault m c i).cairn = m.cairn := rfl
@[simp] theorem Mod.mgmtFault_safe (m : Mod) {c i} : (Mod.mgmtFault m c i).safe = m.safe := rfl
@[simp] theorem Mod.mgmtFault_fpr (m : Mod) {c i} : (Mod.mgmtFault m c i).fpr = m.fpr := rfl
@[simp] theorem Mod.mgmtFault_inject (m : Mod) {c i} : (Mod.mgmtFault m c i).inject = m.inject := rfl
@[simp] theorem Mod.mgmtFault_fuses (m : Mod) {c i} : (Mod.mgmtFault m c i).fuses = m.fuses := rfl
@[simp] theorem Mod.mgmtFault_plan (m : Mod) {c i} : (Mod.mgmtFault m c i).plan = m.plan := rfl
@[simp] theorem Mod.mgmtFault_planting (m : Mod) {c i} : (Mod.mgmtFault m c i).planting = m.planting := rfl
@[simp] theorem Mod.mgmtFault_memStacks (m : Mod) {c i} : (Mod.mgmtFault m c i).memStacks = m.memStacks := rfl
@[simp] theorem Mod.mgmtFault_gln (m : Mod) {c i} : (Mod.mgmtFault m c i).gln = m.gln := rfl
@[simp] theorem Mod.mgmtFault_rick (m : Mod) {c i} : (Mod.mgmtFault m c i).rick = m.rick := rfl
@[simp] theorem Mod.mgmtFault_dma (m : Mod) {c i} : (Mod.mgmtFault m c i).dma = m.dma := rfl
@[simp] theorem Mod.mgmtFault_attn (m : Mod) {c i} : (Mod.mgmtFault m c i).attn = m.attn := rfl
@[simp] theorem Mod.mgmtFault_cells (m : Mod) {c i} : (Mod.mgmtFault m c i).cells = m.cells := rfl
@[simp] theorem Mod.mgmtFault_chip (m : Mod) {c i} : (Mod.mgmtFault m c i).chip = m.chip := rfl
@[simp] theorem Mod.mgmtFault_tl (m : Mod) {c i} : (Mod.mgmtFault m c i).tl = m.tl := rfl
@[simp] theorem Mod.mgmtFault_stream (m : Mod) {c i} : (Mod.mgmtFault m c i).stream = m.stream := rfl
@[simp] theorem Mod.mgmtFault_train (m : Mod) {c i} : (Mod.mgmtFault m c i).train = m.train := rfl
@[simp] theorem Mod.mgmtFault_lea (m : Mod) {c i} : (Mod.mgmtFault m c i).lea = m.lea := rfl
@[simp] theorem Mod.mgmtFault_hdg (m : Mod) {c i} : (Mod.mgmtFault m c i).hdg = m.hdg := rfl
@[simp] theorem Mod.mgmtFault_jnl (m : Mod) {c i} : (Mod.mgmtFault m c i).jnl = m.jnl := rfl
@[simp] theorem Mod.mgmtFault_power (m : Mod) {c i} : (Mod.mgmtFault m c i).power = m.power := rfl
@[simp] theorem Mod.mgmtFault_thermal (m : Mod) {c i} : (Mod.mgmtFault m c i).thermal = m.thermal := rfl
@[simp] theorem Mod.mgmtFault_boot (m : Mod) {c i} : (Mod.mgmtFault m c i).boot = m.boot := rfl
@[simp] theorem Mod.mgmtFault_sec (m : Mod) {c i} : (Mod.mgmtFault m c i).sec = m.sec := rfl

@[simp] theorem Mod.clearFault_clock (m : Mod) {c i} : (Mod.clearFault m c i).clock = m.clock := rfl
@[simp] theorem Mod.clearFault_log (m : Mod) {c i} : (Mod.clearFault m c i).log = m.log := rfl
@[simp] theorem Mod.clearFault_can (m : Mod) {c i} : (Mod.clearFault m c i).can = m.can := rfl
@[simp] theorem Mod.clearFault_cairn (m : Mod) {c i} : (Mod.clearFault m c i).cairn = m.cairn := rfl
@[simp] theorem Mod.clearFault_safe (m : Mod) {c i} : (Mod.clearFault m c i).safe = m.safe := rfl
@[simp] theorem Mod.clearFault_fpr (m : Mod) {c i} : (Mod.clearFault m c i).fpr = m.fpr := rfl
@[simp] theorem Mod.clearFault_inject (m : Mod) {c i} : (Mod.clearFault m c i).inject = m.inject := rfl
@[simp] theorem Mod.clearFault_fuses (m : Mod) {c i} : (Mod.clearFault m c i).fuses = m.fuses := rfl
@[simp] theorem Mod.clearFault_plan (m : Mod) {c i} : (Mod.clearFault m c i).plan = m.plan := rfl
@[simp] theorem Mod.clearFault_planting (m : Mod) {c i} : (Mod.clearFault m c i).planting = m.planting := rfl
@[simp] theorem Mod.clearFault_memStacks (m : Mod) {c i} : (Mod.clearFault m c i).memStacks = m.memStacks := rfl
@[simp] theorem Mod.clearFault_gln (m : Mod) {c i} : (Mod.clearFault m c i).gln = m.gln := rfl
@[simp] theorem Mod.clearFault_rick (m : Mod) {c i} : (Mod.clearFault m c i).rick = m.rick := rfl
@[simp] theorem Mod.clearFault_dma (m : Mod) {c i} : (Mod.clearFault m c i).dma = m.dma := rfl
@[simp] theorem Mod.clearFault_attn (m : Mod) {c i} : (Mod.clearFault m c i).attn = m.attn := rfl
@[simp] theorem Mod.clearFault_cells (m : Mod) {c i} : (Mod.clearFault m c i).cells = m.cells := rfl
@[simp] theorem Mod.clearFault_chip (m : Mod) {c i} : (Mod.clearFault m c i).chip = m.chip := rfl
@[simp] theorem Mod.clearFault_tl (m : Mod) {c i} : (Mod.clearFault m c i).tl = m.tl := rfl
@[simp] theorem Mod.clearFault_stream (m : Mod) {c i} : (Mod.clearFault m c i).stream = m.stream := rfl
@[simp] theorem Mod.clearFault_train (m : Mod) {c i} : (Mod.clearFault m c i).train = m.train := rfl
@[simp] theorem Mod.clearFault_lea (m : Mod) {c i} : (Mod.clearFault m c i).lea = m.lea := rfl
@[simp] theorem Mod.clearFault_hdg (m : Mod) {c i} : (Mod.clearFault m c i).hdg = m.hdg := rfl
@[simp] theorem Mod.clearFault_jnl (m : Mod) {c i} : (Mod.clearFault m c i).jnl = m.jnl := rfl
@[simp] theorem Mod.clearFault_power (m : Mod) {c i} : (Mod.clearFault m c i).power = m.power := rfl
@[simp] theorem Mod.clearFault_thermal (m : Mod) {c i} : (Mod.clearFault m c i).thermal = m.thermal := rfl
@[simp] theorem Mod.clearFault_boot (m : Mod) {c i} : (Mod.clearFault m c i).boot = m.boot := rfl
@[simp] theorem Mod.clearFault_sec (m : Mod) {c i} : (Mod.clearFault m c i).sec = m.sec := rfl

@[simp] theorem Mod.setBand_clock (m : Mod) {b x} : (Mod.setBand m b x).clock = m.clock := rfl
@[simp] theorem Mod.setBand_log (m : Mod) {b x} : (Mod.setBand m b x).log = m.log := rfl
@[simp] theorem Mod.setBand_units (m : Mod) {b x} : (Mod.setBand m b x).units = m.units := rfl
@[simp] theorem Mod.setBand_can (m : Mod) {b x} : (Mod.setBand m b x).can = m.can := rfl
@[simp] theorem Mod.setBand_cairn (m : Mod) {b x} : (Mod.setBand m b x).cairn = m.cairn := rfl
@[simp] theorem Mod.setBand_safe (m : Mod) {b x} : (Mod.setBand m b x).safe = m.safe := rfl
@[simp] theorem Mod.setBand_fpr (m : Mod) {b x} : (Mod.setBand m b x).fpr = m.fpr := rfl
@[simp] theorem Mod.setBand_inject (m : Mod) {b x} : (Mod.setBand m b x).inject = m.inject := rfl
@[simp] theorem Mod.setBand_fuses (m : Mod) {b x} : (Mod.setBand m b x).fuses = m.fuses := rfl
@[simp] theorem Mod.setBand_plan (m : Mod) {b x} : (Mod.setBand m b x).plan = m.plan := rfl
@[simp] theorem Mod.setBand_planting (m : Mod) {b x} : (Mod.setBand m b x).planting = m.planting := rfl
@[simp] theorem Mod.setBand_memStacks (m : Mod) {b x} : (Mod.setBand m b x).memStacks = m.memStacks := rfl
@[simp] theorem Mod.setBand_gln (m : Mod) {b x} : (Mod.setBand m b x).gln = m.gln := rfl
@[simp] theorem Mod.setBand_rick (m : Mod) {b x} : (Mod.setBand m b x).rick = m.rick := rfl
@[simp] theorem Mod.setBand_dma (m : Mod) {b x} : (Mod.setBand m b x).dma = m.dma := rfl
@[simp] theorem Mod.setBand_attn (m : Mod) {b x} : (Mod.setBand m b x).attn = m.attn := rfl
@[simp] theorem Mod.setBand_cells (m : Mod) {b x} : (Mod.setBand m b x).cells = m.cells := rfl
@[simp] theorem Mod.setBand_chip (m : Mod) {b x} : (Mod.setBand m b x).chip = m.chip := rfl
@[simp] theorem Mod.setBand_tl (m : Mod) {b x} : (Mod.setBand m b x).tl = m.tl := rfl
@[simp] theorem Mod.setBand_stream (m : Mod) {b x} : (Mod.setBand m b x).stream = m.stream := rfl
@[simp] theorem Mod.setBand_train (m : Mod) {b x} : (Mod.setBand m b x).train = m.train := rfl
@[simp] theorem Mod.setBand_lea (m : Mod) {b x} : (Mod.setBand m b x).lea = m.lea := rfl
@[simp] theorem Mod.setBand_hdg (m : Mod) {b x} : (Mod.setBand m b x).hdg = m.hdg := rfl
@[simp] theorem Mod.setBand_jnl (m : Mod) {b x} : (Mod.setBand m b x).jnl = m.jnl := rfl
@[simp] theorem Mod.setBand_thermal (m : Mod) {b x} : (Mod.setBand m b x).thermal = m.thermal := rfl
@[simp] theorem Mod.setBand_boot (m : Mod) {b x} : (Mod.setBand m b x).boot = m.boot := rfl
@[simp] theorem Mod.setBand_sec (m : Mod) {b x} : (Mod.setBand m b x).sec = m.sec := rfl

@[simp] theorem Mod.setPort_clock (m : Mod) {p x} : (Mod.setPort m p x).clock = m.clock := rfl
@[simp] theorem Mod.setPort_log (m : Mod) {p x} : (Mod.setPort m p x).log = m.log := rfl
@[simp] theorem Mod.setPort_units (m : Mod) {p x} : (Mod.setPort m p x).units = m.units := rfl
@[simp] theorem Mod.setPort_can (m : Mod) {p x} : (Mod.setPort m p x).can = m.can := rfl
@[simp] theorem Mod.setPort_cairn (m : Mod) {p x} : (Mod.setPort m p x).cairn = m.cairn := rfl
@[simp] theorem Mod.setPort_safe (m : Mod) {p x} : (Mod.setPort m p x).safe = m.safe := rfl
@[simp] theorem Mod.setPort_fpr (m : Mod) {p x} : (Mod.setPort m p x).fpr = m.fpr := rfl
@[simp] theorem Mod.setPort_inject (m : Mod) {p x} : (Mod.setPort m p x).inject = m.inject := rfl
@[simp] theorem Mod.setPort_fuses (m : Mod) {p x} : (Mod.setPort m p x).fuses = m.fuses := rfl
@[simp] theorem Mod.setPort_plan (m : Mod) {p x} : (Mod.setPort m p x).plan = m.plan := rfl
@[simp] theorem Mod.setPort_planting (m : Mod) {p x} : (Mod.setPort m p x).planting = m.planting := rfl
@[simp] theorem Mod.setPort_memStacks (m : Mod) {p x} : (Mod.setPort m p x).memStacks = m.memStacks := rfl
@[simp] theorem Mod.setPort_gln (m : Mod) {p x} : (Mod.setPort m p x).gln = m.gln := rfl
@[simp] theorem Mod.setPort_rick (m : Mod) {p x} : (Mod.setPort m p x).rick = m.rick := rfl
@[simp] theorem Mod.setPort_dma (m : Mod) {p x} : (Mod.setPort m p x).dma = m.dma := rfl
@[simp] theorem Mod.setPort_attn (m : Mod) {p x} : (Mod.setPort m p x).attn = m.attn := rfl
@[simp] theorem Mod.setPort_cells (m : Mod) {p x} : (Mod.setPort m p x).cells = m.cells := rfl
@[simp] theorem Mod.setPort_chip (m : Mod) {p x} : (Mod.setPort m p x).chip = m.chip := rfl
@[simp] theorem Mod.setPort_tl (m : Mod) {p x} : (Mod.setPort m p x).tl = m.tl := rfl
@[simp] theorem Mod.setPort_stream (m : Mod) {p x} : (Mod.setPort m p x).stream = m.stream := rfl
@[simp] theorem Mod.setPort_train (m : Mod) {p x} : (Mod.setPort m p x).train = m.train := rfl
@[simp] theorem Mod.setPort_lea (m : Mod) {p x} : (Mod.setPort m p x).lea = m.lea := rfl
@[simp] theorem Mod.setPort_jnl (m : Mod) {p x} : (Mod.setPort m p x).jnl = m.jnl := rfl
@[simp] theorem Mod.setPort_power (m : Mod) {p x} : (Mod.setPort m p x).power = m.power := rfl
@[simp] theorem Mod.setPort_thermal (m : Mod) {p x} : (Mod.setPort m p x).thermal = m.thermal := rfl
@[simp] theorem Mod.setPort_boot (m : Mod) {p x} : (Mod.setPort m p x).boot = m.boot := rfl
@[simp] theorem Mod.setPort_sec (m : Mod) {p x} : (Mod.setPort m p x).sec = m.sec := rfl

@[simp] theorem Mod.setTpdo_clock (m : Mod) {n t} : (Mod.setTpdo m n t).clock = m.clock := rfl
@[simp] theorem Mod.setTpdo_log (m : Mod) {n t} : (Mod.setTpdo m n t).log = m.log := rfl
@[simp] theorem Mod.setTpdo_units (m : Mod) {n t} : (Mod.setTpdo m n t).units = m.units := rfl
@[simp] theorem Mod.setTpdo_cairn (m : Mod) {n t} : (Mod.setTpdo m n t).cairn = m.cairn := rfl
@[simp] theorem Mod.setTpdo_safe (m : Mod) {n t} : (Mod.setTpdo m n t).safe = m.safe := rfl
@[simp] theorem Mod.setTpdo_fpr (m : Mod) {n t} : (Mod.setTpdo m n t).fpr = m.fpr := rfl
@[simp] theorem Mod.setTpdo_inject (m : Mod) {n t} : (Mod.setTpdo m n t).inject = m.inject := rfl
@[simp] theorem Mod.setTpdo_fuses (m : Mod) {n t} : (Mod.setTpdo m n t).fuses = m.fuses := rfl
@[simp] theorem Mod.setTpdo_plan (m : Mod) {n t} : (Mod.setTpdo m n t).plan = m.plan := rfl
@[simp] theorem Mod.setTpdo_planting (m : Mod) {n t} : (Mod.setTpdo m n t).planting = m.planting := rfl
@[simp] theorem Mod.setTpdo_memStacks (m : Mod) {n t} : (Mod.setTpdo m n t).memStacks = m.memStacks := rfl
@[simp] theorem Mod.setTpdo_gln (m : Mod) {n t} : (Mod.setTpdo m n t).gln = m.gln := rfl
@[simp] theorem Mod.setTpdo_rick (m : Mod) {n t} : (Mod.setTpdo m n t).rick = m.rick := rfl
@[simp] theorem Mod.setTpdo_dma (m : Mod) {n t} : (Mod.setTpdo m n t).dma = m.dma := rfl
@[simp] theorem Mod.setTpdo_attn (m : Mod) {n t} : (Mod.setTpdo m n t).attn = m.attn := rfl
@[simp] theorem Mod.setTpdo_cells (m : Mod) {n t} : (Mod.setTpdo m n t).cells = m.cells := rfl
@[simp] theorem Mod.setTpdo_chip (m : Mod) {n t} : (Mod.setTpdo m n t).chip = m.chip := rfl
@[simp] theorem Mod.setTpdo_tl (m : Mod) {n t} : (Mod.setTpdo m n t).tl = m.tl := rfl
@[simp] theorem Mod.setTpdo_stream (m : Mod) {n t} : (Mod.setTpdo m n t).stream = m.stream := rfl
@[simp] theorem Mod.setTpdo_train (m : Mod) {n t} : (Mod.setTpdo m n t).train = m.train := rfl
@[simp] theorem Mod.setTpdo_lea (m : Mod) {n t} : (Mod.setTpdo m n t).lea = m.lea := rfl
@[simp] theorem Mod.setTpdo_hdg (m : Mod) {n t} : (Mod.setTpdo m n t).hdg = m.hdg := rfl
@[simp] theorem Mod.setTpdo_jnl (m : Mod) {n t} : (Mod.setTpdo m n t).jnl = m.jnl := rfl
@[simp] theorem Mod.setTpdo_power (m : Mod) {n t} : (Mod.setTpdo m n t).power = m.power := rfl
@[simp] theorem Mod.setTpdo_thermal (m : Mod) {n t} : (Mod.setTpdo m n t).thermal = m.thermal := rfl
@[simp] theorem Mod.setTpdo_boot (m : Mod) {n t} : (Mod.setTpdo m n t).boot = m.boot := rfl
@[simp] theorem Mod.setTpdo_sec (m : Mod) {n t} : (Mod.setTpdo m n t).sec = m.sec := rfl

@[simp] theorem Mod.setStep_clock (m : Mod) {n x} : (Mod.setStep m n x).clock = m.clock := rfl
@[simp] theorem Mod.setStep_log (m : Mod) {n x} : (Mod.setStep m n x).log = m.log := rfl
@[simp] theorem Mod.setStep_units (m : Mod) {n x} : (Mod.setStep m n x).units = m.units := rfl
@[simp] theorem Mod.setStep_can (m : Mod) {n x} : (Mod.setStep m n x).can = m.can := rfl
@[simp] theorem Mod.setStep_cairn (m : Mod) {n x} : (Mod.setStep m n x).cairn = m.cairn := rfl
@[simp] theorem Mod.setStep_safe (m : Mod) {n x} : (Mod.setStep m n x).safe = m.safe := rfl
@[simp] theorem Mod.setStep_fpr (m : Mod) {n x} : (Mod.setStep m n x).fpr = m.fpr := rfl
@[simp] theorem Mod.setStep_inject (m : Mod) {n x} : (Mod.setStep m n x).inject = m.inject := rfl
@[simp] theorem Mod.setStep_fuses (m : Mod) {n x} : (Mod.setStep m n x).fuses = m.fuses := rfl
@[simp] theorem Mod.setStep_plan (m : Mod) {n x} : (Mod.setStep m n x).plan = m.plan := rfl
@[simp] theorem Mod.setStep_planting (m : Mod) {n x} : (Mod.setStep m n x).planting = m.planting := rfl
@[simp] theorem Mod.setStep_memStacks (m : Mod) {n x} : (Mod.setStep m n x).memStacks = m.memStacks := rfl
@[simp] theorem Mod.setStep_gln (m : Mod) {n x} : (Mod.setStep m n x).gln = m.gln := rfl
@[simp] theorem Mod.setStep_rick (m : Mod) {n x} : (Mod.setStep m n x).rick = m.rick := rfl
@[simp] theorem Mod.setStep_dma (m : Mod) {n x} : (Mod.setStep m n x).dma = m.dma := rfl
@[simp] theorem Mod.setStep_attn (m : Mod) {n x} : (Mod.setStep m n x).attn = m.attn := rfl
@[simp] theorem Mod.setStep_cells (m : Mod) {n x} : (Mod.setStep m n x).cells = m.cells := rfl
@[simp] theorem Mod.setStep_chip (m : Mod) {n x} : (Mod.setStep m n x).chip = m.chip := rfl
@[simp] theorem Mod.setStep_tl (m : Mod) {n x} : (Mod.setStep m n x).tl = m.tl := rfl
@[simp] theorem Mod.setStep_stream (m : Mod) {n x} : (Mod.setStep m n x).stream = m.stream := rfl
@[simp] theorem Mod.setStep_train (m : Mod) {n x} : (Mod.setStep m n x).train = m.train := rfl
@[simp] theorem Mod.setStep_lea (m : Mod) {n x} : (Mod.setStep m n x).lea = m.lea := rfl
@[simp] theorem Mod.setStep_hdg (m : Mod) {n x} : (Mod.setStep m n x).hdg = m.hdg := rfl
@[simp] theorem Mod.setStep_jnl (m : Mod) {n x} : (Mod.setStep m n x).jnl = m.jnl := rfl
@[simp] theorem Mod.setStep_power (m : Mod) {n x} : (Mod.setStep m n x).power = m.power := rfl
@[simp] theorem Mod.setStep_thermal (m : Mod) {n x} : (Mod.setStep m n x).thermal = m.thermal := rfl
@[simp] theorem Mod.setStep_sec (m : Mod) {n x} : (Mod.setStep m n x).sec = m.sec := rfl

@[simp] theorem Mod.setGln_clock (m : Mod) {g x} : (Mod.setGln m g x).clock = m.clock := rfl
@[simp] theorem Mod.setGln_log (m : Mod) {g x} : (Mod.setGln m g x).log = m.log := rfl
@[simp] theorem Mod.setGln_units (m : Mod) {g x} : (Mod.setGln m g x).units = m.units := rfl
@[simp] theorem Mod.setGln_can (m : Mod) {g x} : (Mod.setGln m g x).can = m.can := rfl
@[simp] theorem Mod.setGln_cairn (m : Mod) {g x} : (Mod.setGln m g x).cairn = m.cairn := rfl
@[simp] theorem Mod.setGln_safe (m : Mod) {g x} : (Mod.setGln m g x).safe = m.safe := rfl
@[simp] theorem Mod.setGln_fpr (m : Mod) {g x} : (Mod.setGln m g x).fpr = m.fpr := rfl
@[simp] theorem Mod.setGln_inject (m : Mod) {g x} : (Mod.setGln m g x).inject = m.inject := rfl
@[simp] theorem Mod.setGln_fuses (m : Mod) {g x} : (Mod.setGln m g x).fuses = m.fuses := rfl
@[simp] theorem Mod.setGln_plan (m : Mod) {g x} : (Mod.setGln m g x).plan = m.plan := rfl
@[simp] theorem Mod.setGln_planting (m : Mod) {g x} : (Mod.setGln m g x).planting = m.planting := rfl
@[simp] theorem Mod.setGln_memStacks (m : Mod) {g x} : (Mod.setGln m g x).memStacks = m.memStacks := rfl
@[simp] theorem Mod.setGln_rick (m : Mod) {g x} : (Mod.setGln m g x).rick = m.rick := rfl
@[simp] theorem Mod.setGln_dma (m : Mod) {g x} : (Mod.setGln m g x).dma = m.dma := rfl
@[simp] theorem Mod.setGln_attn (m : Mod) {g x} : (Mod.setGln m g x).attn = m.attn := rfl
@[simp] theorem Mod.setGln_cells (m : Mod) {g x} : (Mod.setGln m g x).cells = m.cells := rfl
@[simp] theorem Mod.setGln_chip (m : Mod) {g x} : (Mod.setGln m g x).chip = m.chip := rfl
@[simp] theorem Mod.setGln_tl (m : Mod) {g x} : (Mod.setGln m g x).tl = m.tl := rfl
@[simp] theorem Mod.setGln_stream (m : Mod) {g x} : (Mod.setGln m g x).stream = m.stream := rfl
@[simp] theorem Mod.setGln_train (m : Mod) {g x} : (Mod.setGln m g x).train = m.train := rfl
@[simp] theorem Mod.setGln_lea (m : Mod) {g x} : (Mod.setGln m g x).lea = m.lea := rfl
@[simp] theorem Mod.setGln_hdg (m : Mod) {g x} : (Mod.setGln m g x).hdg = m.hdg := rfl
@[simp] theorem Mod.setGln_jnl (m : Mod) {g x} : (Mod.setGln m g x).jnl = m.jnl := rfl
@[simp] theorem Mod.setGln_power (m : Mod) {g x} : (Mod.setGln m g x).power = m.power := rfl
@[simp] theorem Mod.setGln_thermal (m : Mod) {g x} : (Mod.setGln m g x).thermal = m.thermal := rfl
@[simp] theorem Mod.setGln_boot (m : Mod) {g x} : (Mod.setGln m g x).boot = m.boot := rfl
@[simp] theorem Mod.setGln_sec (m : Mod) {g x} : (Mod.setGln m g x).sec = m.sec := rfl

@[simp] theorem Mod.setSeqField_clock (m : Mod) {e lo w v} : (Mod.setSeqField m e lo w v).clock = m.clock := by simp only [Mod.setSeqField]
@[simp] theorem Mod.setSeqField_log (m : Mod) {e lo w v} : (Mod.setSeqField m e lo w v).log = m.log := by simp only [Mod.setSeqField]
@[simp] theorem Mod.setSeqField_units (m : Mod) {e lo w v} : (Mod.setSeqField m e lo w v).units = m.units := by simp only [Mod.setSeqField]
@[simp] theorem Mod.setSeqField_can (m : Mod) {e lo w v} : (Mod.setSeqField m e lo w v).can = m.can := by simp only [Mod.setSeqField]
@[simp] theorem Mod.setSeqField_cairn (m : Mod) {e lo w v} : (Mod.setSeqField m e lo w v).cairn = m.cairn := by simp only [Mod.setSeqField]
@[simp] theorem Mod.setSeqField_safe (m : Mod) {e lo w v} : (Mod.setSeqField m e lo w v).safe = m.safe := by simp only [Mod.setSeqField]
@[simp] theorem Mod.setSeqField_fpr (m : Mod) {e lo w v} : (Mod.setSeqField m e lo w v).fpr = m.fpr := by simp only [Mod.setSeqField]
@[simp] theorem Mod.setSeqField_inject (m : Mod) {e lo w v} : (Mod.setSeqField m e lo w v).inject = m.inject := by simp only [Mod.setSeqField]
@[simp] theorem Mod.setSeqField_fuses (m : Mod) {e lo w v} : (Mod.setSeqField m e lo w v).fuses = m.fuses := by simp only [Mod.setSeqField]
@[simp] theorem Mod.setSeqField_plan (m : Mod) {e lo w v} : (Mod.setSeqField m e lo w v).plan = m.plan := by simp only [Mod.setSeqField]
@[simp] theorem Mod.setSeqField_planting (m : Mod) {e lo w v} : (Mod.setSeqField m e lo w v).planting = m.planting := by simp only [Mod.setSeqField]
@[simp] theorem Mod.setSeqField_memStacks (m : Mod) {e lo w v} : (Mod.setSeqField m e lo w v).memStacks = m.memStacks := by simp only [Mod.setSeqField]
@[simp] theorem Mod.setSeqField_gln (m : Mod) {e lo w v} : (Mod.setSeqField m e lo w v).gln = m.gln := by simp only [Mod.setSeqField]
@[simp] theorem Mod.setSeqField_rick (m : Mod) {e lo w v} : (Mod.setSeqField m e lo w v).rick = m.rick := by simp only [Mod.setSeqField]
@[simp] theorem Mod.setSeqField_dma (m : Mod) {e lo w v} : (Mod.setSeqField m e lo w v).dma = m.dma := by simp only [Mod.setSeqField]
@[simp] theorem Mod.setSeqField_cells (m : Mod) {e lo w v} : (Mod.setSeqField m e lo w v).cells = m.cells := by simp only [Mod.setSeqField]
@[simp] theorem Mod.setSeqField_chip (m : Mod) {e lo w v} : (Mod.setSeqField m e lo w v).chip = m.chip := by simp only [Mod.setSeqField]
@[simp] theorem Mod.setSeqField_tl (m : Mod) {e lo w v} : (Mod.setSeqField m e lo w v).tl = m.tl := by simp only [Mod.setSeqField]
@[simp] theorem Mod.setSeqField_stream (m : Mod) {e lo w v} : (Mod.setSeqField m e lo w v).stream = m.stream := by simp only [Mod.setSeqField]
@[simp] theorem Mod.setSeqField_train (m : Mod) {e lo w v} : (Mod.setSeqField m e lo w v).train = m.train := by simp only [Mod.setSeqField]
@[simp] theorem Mod.setSeqField_lea (m : Mod) {e lo w v} : (Mod.setSeqField m e lo w v).lea = m.lea := by simp only [Mod.setSeqField]
@[simp] theorem Mod.setSeqField_hdg (m : Mod) {e lo w v} : (Mod.setSeqField m e lo w v).hdg = m.hdg := by simp only [Mod.setSeqField]
@[simp] theorem Mod.setSeqField_jnl (m : Mod) {e lo w v} : (Mod.setSeqField m e lo w v).jnl = m.jnl := by simp only [Mod.setSeqField]
@[simp] theorem Mod.setSeqField_power (m : Mod) {e lo w v} : (Mod.setSeqField m e lo w v).power = m.power := by simp only [Mod.setSeqField]
@[simp] theorem Mod.setSeqField_thermal (m : Mod) {e lo w v} : (Mod.setSeqField m e lo w v).thermal = m.thermal := by simp only [Mod.setSeqField]
@[simp] theorem Mod.setSeqField_boot (m : Mod) {e lo w v} : (Mod.setSeqField m e lo w v).boot = m.boot := by simp only [Mod.setSeqField]
@[simp] theorem Mod.setSeqField_sec (m : Mod) {e lo w v} : (Mod.setSeqField m e lo w v).sec = m.sec := by simp only [Mod.setSeqField]

@[simp] theorem Mod.closeTransfer_clock (m : Mod) : (Mod.closeTransfer m).clock = m.clock := rfl
@[simp] theorem Mod.closeTransfer_log (m : Mod) : (Mod.closeTransfer m).log = m.log := rfl
@[simp] theorem Mod.closeTransfer_units (m : Mod) : (Mod.closeTransfer m).units = m.units := rfl
@[simp] theorem Mod.closeTransfer_cairn (m : Mod) : (Mod.closeTransfer m).cairn = m.cairn := rfl
@[simp] theorem Mod.closeTransfer_safe (m : Mod) : (Mod.closeTransfer m).safe = m.safe := rfl
@[simp] theorem Mod.closeTransfer_fpr (m : Mod) : (Mod.closeTransfer m).fpr = m.fpr := rfl
@[simp] theorem Mod.closeTransfer_inject (m : Mod) : (Mod.closeTransfer m).inject = m.inject := rfl
@[simp] theorem Mod.closeTransfer_fuses (m : Mod) : (Mod.closeTransfer m).fuses = m.fuses := rfl
@[simp] theorem Mod.closeTransfer_plan (m : Mod) : (Mod.closeTransfer m).plan = m.plan := rfl
@[simp] theorem Mod.closeTransfer_planting (m : Mod) : (Mod.closeTransfer m).planting = m.planting := rfl
@[simp] theorem Mod.closeTransfer_memStacks (m : Mod) : (Mod.closeTransfer m).memStacks = m.memStacks := rfl
@[simp] theorem Mod.closeTransfer_gln (m : Mod) : (Mod.closeTransfer m).gln = m.gln := rfl
@[simp] theorem Mod.closeTransfer_rick (m : Mod) : (Mod.closeTransfer m).rick = m.rick := rfl
@[simp] theorem Mod.closeTransfer_dma (m : Mod) : (Mod.closeTransfer m).dma = m.dma := rfl
@[simp] theorem Mod.closeTransfer_attn (m : Mod) : (Mod.closeTransfer m).attn = m.attn := rfl
@[simp] theorem Mod.closeTransfer_cells (m : Mod) : (Mod.closeTransfer m).cells = m.cells := rfl
@[simp] theorem Mod.closeTransfer_chip (m : Mod) : (Mod.closeTransfer m).chip = m.chip := rfl
@[simp] theorem Mod.closeTransfer_tl (m : Mod) : (Mod.closeTransfer m).tl = m.tl := rfl
@[simp] theorem Mod.closeTransfer_stream (m : Mod) : (Mod.closeTransfer m).stream = m.stream := rfl
@[simp] theorem Mod.closeTransfer_train (m : Mod) : (Mod.closeTransfer m).train = m.train := rfl
@[simp] theorem Mod.closeTransfer_lea (m : Mod) : (Mod.closeTransfer m).lea = m.lea := rfl
@[simp] theorem Mod.closeTransfer_hdg (m : Mod) : (Mod.closeTransfer m).hdg = m.hdg := rfl
@[simp] theorem Mod.closeTransfer_jnl (m : Mod) : (Mod.closeTransfer m).jnl = m.jnl := rfl
@[simp] theorem Mod.closeTransfer_power (m : Mod) : (Mod.closeTransfer m).power = m.power := rfl
@[simp] theorem Mod.closeTransfer_thermal (m : Mod) : (Mod.closeTransfer m).thermal = m.thermal := rfl
@[simp] theorem Mod.closeTransfer_boot (m : Mod) : (Mod.closeTransfer m).boot = m.boot := rfl
@[simp] theorem Mod.closeTransfer_sec (m : Mod) : (Mod.closeTransfer m).sec = m.sec := rfl

@[simp] theorem Mod.busOn_clock (m : Mod) : (Mod.busOn m).clock = m.clock := rfl
@[simp] theorem Mod.busOn_log (m : Mod) : (Mod.busOn m).log = m.log := rfl
@[simp] theorem Mod.busOn_units (m : Mod) : (Mod.busOn m).units = m.units := rfl
@[simp] theorem Mod.busOn_cairn (m : Mod) : (Mod.busOn m).cairn = m.cairn := rfl
@[simp] theorem Mod.busOn_safe (m : Mod) : (Mod.busOn m).safe = m.safe := rfl
@[simp] theorem Mod.busOn_fpr (m : Mod) : (Mod.busOn m).fpr = m.fpr := rfl
@[simp] theorem Mod.busOn_inject (m : Mod) : (Mod.busOn m).inject = m.inject := rfl
@[simp] theorem Mod.busOn_fuses (m : Mod) : (Mod.busOn m).fuses = m.fuses := rfl
@[simp] theorem Mod.busOn_plan (m : Mod) : (Mod.busOn m).plan = m.plan := rfl
@[simp] theorem Mod.busOn_planting (m : Mod) : (Mod.busOn m).planting = m.planting := rfl
@[simp] theorem Mod.busOn_memStacks (m : Mod) : (Mod.busOn m).memStacks = m.memStacks := rfl
@[simp] theorem Mod.busOn_gln (m : Mod) : (Mod.busOn m).gln = m.gln := rfl
@[simp] theorem Mod.busOn_rick (m : Mod) : (Mod.busOn m).rick = m.rick := rfl
@[simp] theorem Mod.busOn_dma (m : Mod) : (Mod.busOn m).dma = m.dma := rfl
@[simp] theorem Mod.busOn_attn (m : Mod) : (Mod.busOn m).attn = m.attn := rfl
@[simp] theorem Mod.busOn_cells (m : Mod) : (Mod.busOn m).cells = m.cells := rfl
@[simp] theorem Mod.busOn_chip (m : Mod) : (Mod.busOn m).chip = m.chip := rfl
@[simp] theorem Mod.busOn_tl (m : Mod) : (Mod.busOn m).tl = m.tl := rfl
@[simp] theorem Mod.busOn_stream (m : Mod) : (Mod.busOn m).stream = m.stream := rfl
@[simp] theorem Mod.busOn_train (m : Mod) : (Mod.busOn m).train = m.train := rfl
@[simp] theorem Mod.busOn_lea (m : Mod) : (Mod.busOn m).lea = m.lea := rfl
@[simp] theorem Mod.busOn_hdg (m : Mod) : (Mod.busOn m).hdg = m.hdg := rfl
@[simp] theorem Mod.busOn_jnl (m : Mod) : (Mod.busOn m).jnl = m.jnl := rfl
@[simp] theorem Mod.busOn_power (m : Mod) : (Mod.busOn m).power = m.power := rfl
@[simp] theorem Mod.busOn_thermal (m : Mod) : (Mod.busOn m).thermal = m.thermal := rfl
@[simp] theorem Mod.busOn_boot (m : Mod) : (Mod.busOn m).boot = m.boot := rfl
@[simp] theorem Mod.busOn_sec (m : Mod) : (Mod.busOn m).sec = m.sec := rfl

@[simp] theorem Mod.unassignedWin_clock (m : Mod) : (Mod.unassignedWin m).clock = m.clock := rfl
@[simp] theorem Mod.unassignedWin_log (m : Mod) : (Mod.unassignedWin m).log = m.log := rfl
@[simp] theorem Mod.unassignedWin_units (m : Mod) : (Mod.unassignedWin m).units = m.units := rfl
@[simp] theorem Mod.unassignedWin_can (m : Mod) : (Mod.unassignedWin m).can = m.can := rfl
@[simp] theorem Mod.unassignedWin_cairn (m : Mod) : (Mod.unassignedWin m).cairn = m.cairn := rfl
@[simp] theorem Mod.unassignedWin_safe (m : Mod) : (Mod.unassignedWin m).safe = m.safe := rfl
@[simp] theorem Mod.unassignedWin_fpr (m : Mod) : (Mod.unassignedWin m).fpr = m.fpr := rfl
@[simp] theorem Mod.unassignedWin_inject (m : Mod) : (Mod.unassignedWin m).inject = m.inject := rfl
@[simp] theorem Mod.unassignedWin_fuses (m : Mod) : (Mod.unassignedWin m).fuses = m.fuses := rfl
@[simp] theorem Mod.unassignedWin_plan (m : Mod) : (Mod.unassignedWin m).plan = m.plan := rfl
@[simp] theorem Mod.unassignedWin_planting (m : Mod) : (Mod.unassignedWin m).planting = m.planting := rfl
@[simp] theorem Mod.unassignedWin_memStacks (m : Mod) : (Mod.unassignedWin m).memStacks = m.memStacks := rfl
@[simp] theorem Mod.unassignedWin_gln (m : Mod) : (Mod.unassignedWin m).gln = m.gln := rfl
@[simp] theorem Mod.unassignedWin_rick (m : Mod) : (Mod.unassignedWin m).rick = m.rick := rfl
@[simp] theorem Mod.unassignedWin_dma (m : Mod) : (Mod.unassignedWin m).dma = m.dma := rfl
@[simp] theorem Mod.unassignedWin_attn (m : Mod) : (Mod.unassignedWin m).attn = m.attn := rfl
@[simp] theorem Mod.unassignedWin_cells (m : Mod) : (Mod.unassignedWin m).cells = m.cells := rfl
@[simp] theorem Mod.unassignedWin_chip (m : Mod) : (Mod.unassignedWin m).chip = m.chip := rfl
@[simp] theorem Mod.unassignedWin_tl (m : Mod) : (Mod.unassignedWin m).tl = m.tl := rfl
@[simp] theorem Mod.unassignedWin_stream (m : Mod) : (Mod.unassignedWin m).stream = m.stream := rfl
@[simp] theorem Mod.unassignedWin_train (m : Mod) : (Mod.unassignedWin m).train = m.train := rfl
@[simp] theorem Mod.unassignedWin_lea (m : Mod) : (Mod.unassignedWin m).lea = m.lea := rfl
@[simp] theorem Mod.unassignedWin_hdg (m : Mod) : (Mod.unassignedWin m).hdg = m.hdg := rfl
@[simp] theorem Mod.unassignedWin_power (m : Mod) : (Mod.unassignedWin m).power = m.power := rfl
@[simp] theorem Mod.unassignedWin_thermal (m : Mod) : (Mod.unassignedWin m).thermal = m.thermal := rfl
@[simp] theorem Mod.unassignedWin_boot (m : Mod) : (Mod.unassignedWin m).boot = m.boot := rfl
@[simp] theorem Mod.unassignedWin_sec (m : Mod) : (Mod.unassignedWin m).sec = m.sec := rfl

@[simp] theorem Mod.clearPend_clock (m : Mod) {v} : (Mod.clearPend m v).clock = m.clock := rfl
@[simp] theorem Mod.clearPend_log (m : Mod) {v} : (Mod.clearPend m v).log = m.log := rfl
@[simp] theorem Mod.clearPend_units (m : Mod) {v} : (Mod.clearPend m v).units = m.units := rfl
@[simp] theorem Mod.clearPend_can (m : Mod) {v} : (Mod.clearPend m v).can = m.can := rfl
@[simp] theorem Mod.clearPend_cairn (m : Mod) {v} : (Mod.clearPend m v).cairn = m.cairn := rfl
@[simp] theorem Mod.clearPend_safe (m : Mod) {v} : (Mod.clearPend m v).safe = m.safe := rfl
@[simp] theorem Mod.clearPend_fpr (m : Mod) {v} : (Mod.clearPend m v).fpr = m.fpr := rfl
@[simp] theorem Mod.clearPend_inject (m : Mod) {v} : (Mod.clearPend m v).inject = m.inject := rfl
@[simp] theorem Mod.clearPend_fuses (m : Mod) {v} : (Mod.clearPend m v).fuses = m.fuses := rfl
@[simp] theorem Mod.clearPend_plan (m : Mod) {v} : (Mod.clearPend m v).plan = m.plan := rfl
@[simp] theorem Mod.clearPend_planting (m : Mod) {v} : (Mod.clearPend m v).planting = m.planting := rfl
@[simp] theorem Mod.clearPend_memStacks (m : Mod) {v} : (Mod.clearPend m v).memStacks = m.memStacks := rfl
@[simp] theorem Mod.clearPend_gln (m : Mod) {v} : (Mod.clearPend m v).gln = m.gln := rfl
@[simp] theorem Mod.clearPend_rick (m : Mod) {v} : (Mod.clearPend m v).rick = m.rick := rfl
@[simp] theorem Mod.clearPend_dma (m : Mod) {v} : (Mod.clearPend m v).dma = m.dma := rfl
@[simp] theorem Mod.clearPend_attn (m : Mod) {v} : (Mod.clearPend m v).attn = m.attn := rfl
@[simp] theorem Mod.clearPend_cells (m : Mod) {v} : (Mod.clearPend m v).cells = m.cells := rfl
@[simp] theorem Mod.clearPend_chip (m : Mod) {v} : (Mod.clearPend m v).chip = m.chip := rfl
@[simp] theorem Mod.clearPend_tl (m : Mod) {v} : (Mod.clearPend m v).tl = m.tl := rfl
@[simp] theorem Mod.clearPend_stream (m : Mod) {v} : (Mod.clearPend m v).stream = m.stream := rfl
@[simp] theorem Mod.clearPend_train (m : Mod) {v} : (Mod.clearPend m v).train = m.train := rfl
@[simp] theorem Mod.clearPend_lea (m : Mod) {v} : (Mod.clearPend m v).lea = m.lea := rfl
@[simp] theorem Mod.clearPend_hdg (m : Mod) {v} : (Mod.clearPend m v).hdg = m.hdg := rfl
@[simp] theorem Mod.clearPend_power (m : Mod) {v} : (Mod.clearPend m v).power = m.power := rfl
@[simp] theorem Mod.clearPend_thermal (m : Mod) {v} : (Mod.clearPend m v).thermal = m.thermal := rfl
@[simp] theorem Mod.clearPend_boot (m : Mod) {v} : (Mod.clearPend m v).boot = m.boot := rfl
@[simp] theorem Mod.clearPend_sec (m : Mod) {v} : (Mod.clearPend m v).sec = m.sec := rfl

@[simp] theorem Mod.countDiscard_clock (m : Mod) {x y} : (Mod.countDiscard m x y).clock = m.clock := rfl
@[simp] theorem Mod.countDiscard_log (m : Mod) {x y} : (Mod.countDiscard m x y).log = m.log := rfl
@[simp] theorem Mod.countDiscard_units (m : Mod) {x y} : (Mod.countDiscard m x y).units = m.units := rfl
@[simp] theorem Mod.countDiscard_can (m : Mod) {x y} : (Mod.countDiscard m x y).can = m.can := rfl
@[simp] theorem Mod.countDiscard_cairn (m : Mod) {x y} : (Mod.countDiscard m x y).cairn = m.cairn := rfl
@[simp] theorem Mod.countDiscard_safe (m : Mod) {x y} : (Mod.countDiscard m x y).safe = m.safe := rfl
@[simp] theorem Mod.countDiscard_fpr (m : Mod) {x y} : (Mod.countDiscard m x y).fpr = m.fpr := rfl
@[simp] theorem Mod.countDiscard_inject (m : Mod) {x y} : (Mod.countDiscard m x y).inject = m.inject := rfl
@[simp] theorem Mod.countDiscard_fuses (m : Mod) {x y} : (Mod.countDiscard m x y).fuses = m.fuses := rfl
@[simp] theorem Mod.countDiscard_plan (m : Mod) {x y} : (Mod.countDiscard m x y).plan = m.plan := rfl
@[simp] theorem Mod.countDiscard_planting (m : Mod) {x y} : (Mod.countDiscard m x y).planting = m.planting := rfl
@[simp] theorem Mod.countDiscard_gln (m : Mod) {x y} : (Mod.countDiscard m x y).gln = m.gln := rfl
@[simp] theorem Mod.countDiscard_rick (m : Mod) {x y} : (Mod.countDiscard m x y).rick = m.rick := rfl
@[simp] theorem Mod.countDiscard_dma (m : Mod) {x y} : (Mod.countDiscard m x y).dma = m.dma := rfl
@[simp] theorem Mod.countDiscard_attn (m : Mod) {x y} : (Mod.countDiscard m x y).attn = m.attn := rfl
@[simp] theorem Mod.countDiscard_cells (m : Mod) {x y} : (Mod.countDiscard m x y).cells = m.cells := rfl
@[simp] theorem Mod.countDiscard_chip (m : Mod) {x y} : (Mod.countDiscard m x y).chip = m.chip := rfl
@[simp] theorem Mod.countDiscard_tl (m : Mod) {x y} : (Mod.countDiscard m x y).tl = m.tl := rfl
@[simp] theorem Mod.countDiscard_stream (m : Mod) {x y} : (Mod.countDiscard m x y).stream = m.stream := rfl
@[simp] theorem Mod.countDiscard_train (m : Mod) {x y} : (Mod.countDiscard m x y).train = m.train := rfl
@[simp] theorem Mod.countDiscard_lea (m : Mod) {x y} : (Mod.countDiscard m x y).lea = m.lea := rfl
@[simp] theorem Mod.countDiscard_hdg (m : Mod) {x y} : (Mod.countDiscard m x y).hdg = m.hdg := rfl
@[simp] theorem Mod.countDiscard_jnl (m : Mod) {x y} : (Mod.countDiscard m x y).jnl = m.jnl := rfl
@[simp] theorem Mod.countDiscard_power (m : Mod) {x y} : (Mod.countDiscard m x y).power = m.power := rfl
@[simp] theorem Mod.countDiscard_thermal (m : Mod) {x y} : (Mod.countDiscard m x y).thermal = m.thermal := rfl
@[simp] theorem Mod.countDiscard_boot (m : Mod) {x y} : (Mod.countDiscard m x y).boot = m.boot := rfl
@[simp] theorem Mod.countDiscard_sec (m : Mod) {x y} : (Mod.countDiscard m x y).sec = m.sec := rfl

@[simp] theorem Mod.forceUnits_clock (m : Mod) : (Mod.forceUnits m).clock = m.clock := rfl
@[simp] theorem Mod.forceUnits_log (m : Mod) : (Mod.forceUnits m).log = m.log := rfl
@[simp] theorem Mod.forceUnits_can (m : Mod) : (Mod.forceUnits m).can = m.can := rfl
@[simp] theorem Mod.forceUnits_cairn (m : Mod) : (Mod.forceUnits m).cairn = m.cairn := rfl
@[simp] theorem Mod.forceUnits_safe (m : Mod) : (Mod.forceUnits m).safe = m.safe := rfl
@[simp] theorem Mod.forceUnits_fpr (m : Mod) : (Mod.forceUnits m).fpr = m.fpr := rfl
@[simp] theorem Mod.forceUnits_inject (m : Mod) : (Mod.forceUnits m).inject = m.inject := rfl
@[simp] theorem Mod.forceUnits_fuses (m : Mod) : (Mod.forceUnits m).fuses = m.fuses := rfl
@[simp] theorem Mod.forceUnits_plan (m : Mod) : (Mod.forceUnits m).plan = m.plan := rfl
@[simp] theorem Mod.forceUnits_planting (m : Mod) : (Mod.forceUnits m).planting = m.planting := rfl
@[simp] theorem Mod.forceUnits_memStacks (m : Mod) : (Mod.forceUnits m).memStacks = m.memStacks := rfl
@[simp] theorem Mod.forceUnits_gln (m : Mod) : (Mod.forceUnits m).gln = m.gln := rfl
@[simp] theorem Mod.forceUnits_rick (m : Mod) : (Mod.forceUnits m).rick = m.rick := rfl
@[simp] theorem Mod.forceUnits_dma (m : Mod) : (Mod.forceUnits m).dma = m.dma := rfl
@[simp] theorem Mod.forceUnits_attn (m : Mod) : (Mod.forceUnits m).attn = m.attn := rfl
@[simp] theorem Mod.forceUnits_cells (m : Mod) : (Mod.forceUnits m).cells = m.cells := rfl
@[simp] theorem Mod.forceUnits_chip (m : Mod) : (Mod.forceUnits m).chip = m.chip := rfl
@[simp] theorem Mod.forceUnits_tl (m : Mod) : (Mod.forceUnits m).tl = m.tl := rfl
@[simp] theorem Mod.forceUnits_stream (m : Mod) : (Mod.forceUnits m).stream = m.stream := rfl
@[simp] theorem Mod.forceUnits_train (m : Mod) : (Mod.forceUnits m).train = m.train := rfl
@[simp] theorem Mod.forceUnits_lea (m : Mod) : (Mod.forceUnits m).lea = m.lea := rfl
@[simp] theorem Mod.forceUnits_hdg (m : Mod) : (Mod.forceUnits m).hdg = m.hdg := rfl
@[simp] theorem Mod.forceUnits_jnl (m : Mod) : (Mod.forceUnits m).jnl = m.jnl := rfl
@[simp] theorem Mod.forceUnits_power (m : Mod) : (Mod.forceUnits m).power = m.power := rfl
@[simp] theorem Mod.forceUnits_thermal (m : Mod) : (Mod.forceUnits m).thermal = m.thermal := rfl
@[simp] theorem Mod.forceUnits_boot (m : Mod) : (Mod.forceUnits m).boot = m.boot := rfl
@[simp] theorem Mod.forceUnits_sec (m : Mod) : (Mod.forceUnits m).sec = m.sec := rfl

@[simp] theorem Mod.emptyRows_clock (m : Mod) {n} : (Mod.emptyRows m n).clock = m.clock := rfl
@[simp] theorem Mod.emptyRows_log (m : Mod) {n} : (Mod.emptyRows m n).log = m.log := rfl
@[simp] theorem Mod.emptyRows_units (m : Mod) {n} : (Mod.emptyRows m n).units = m.units := rfl
@[simp] theorem Mod.emptyRows_can (m : Mod) {n} : (Mod.emptyRows m n).can = m.can := rfl
@[simp] theorem Mod.emptyRows_cairn (m : Mod) {n} : (Mod.emptyRows m n).cairn = m.cairn := rfl
@[simp] theorem Mod.emptyRows_safe (m : Mod) {n} : (Mod.emptyRows m n).safe = m.safe := rfl
@[simp] theorem Mod.emptyRows_fpr (m : Mod) {n} : (Mod.emptyRows m n).fpr = m.fpr := rfl
@[simp] theorem Mod.emptyRows_inject (m : Mod) {n} : (Mod.emptyRows m n).inject = m.inject := rfl
@[simp] theorem Mod.emptyRows_fuses (m : Mod) {n} : (Mod.emptyRows m n).fuses = m.fuses := rfl
@[simp] theorem Mod.emptyRows_plan (m : Mod) {n} : (Mod.emptyRows m n).plan = m.plan := rfl
@[simp] theorem Mod.emptyRows_planting (m : Mod) {n} : (Mod.emptyRows m n).planting = m.planting := rfl
@[simp] theorem Mod.emptyRows_memStacks (m : Mod) {n} : (Mod.emptyRows m n).memStacks = m.memStacks := rfl
@[simp] theorem Mod.emptyRows_gln (m : Mod) {n} : (Mod.emptyRows m n).gln = m.gln := rfl
@[simp] theorem Mod.emptyRows_rick (m : Mod) {n} : (Mod.emptyRows m n).rick = m.rick := rfl
@[simp] theorem Mod.emptyRows_dma (m : Mod) {n} : (Mod.emptyRows m n).dma = m.dma := rfl
@[simp] theorem Mod.emptyRows_cells (m : Mod) {n} : (Mod.emptyRows m n).cells = m.cells := rfl
@[simp] theorem Mod.emptyRows_chip (m : Mod) {n} : (Mod.emptyRows m n).chip = m.chip := rfl
@[simp] theorem Mod.emptyRows_tl (m : Mod) {n} : (Mod.emptyRows m n).tl = m.tl := rfl
@[simp] theorem Mod.emptyRows_stream (m : Mod) {n} : (Mod.emptyRows m n).stream = m.stream := rfl
@[simp] theorem Mod.emptyRows_train (m : Mod) {n} : (Mod.emptyRows m n).train = m.train := rfl
@[simp] theorem Mod.emptyRows_lea (m : Mod) {n} : (Mod.emptyRows m n).lea = m.lea := rfl
@[simp] theorem Mod.emptyRows_hdg (m : Mod) {n} : (Mod.emptyRows m n).hdg = m.hdg := rfl
@[simp] theorem Mod.emptyRows_jnl (m : Mod) {n} : (Mod.emptyRows m n).jnl = m.jnl := rfl
@[simp] theorem Mod.emptyRows_power (m : Mod) {n} : (Mod.emptyRows m n).power = m.power := rfl
@[simp] theorem Mod.emptyRows_thermal (m : Mod) {n} : (Mod.emptyRows m n).thermal = m.thermal := rfl
@[simp] theorem Mod.emptyRows_boot (m : Mod) {n} : (Mod.emptyRows m n).boot = m.boot := rfl
@[simp] theorem Mod.emptyRows_sec (m : Mod) {n} : (Mod.emptyRows m n).sec = m.sec := rfl

@[simp] theorem Mod.mcSignal_clock (m : Mod) : (Mod.mcSignal m).clock = m.clock := rfl
@[simp] theorem Mod.mcSignal_log (m : Mod) : (Mod.mcSignal m).log = m.log := rfl
@[simp] theorem Mod.mcSignal_units (m : Mod) : (Mod.mcSignal m).units = m.units := rfl
@[simp] theorem Mod.mcSignal_can (m : Mod) : (Mod.mcSignal m).can = m.can := rfl
@[simp] theorem Mod.mcSignal_cairn (m : Mod) : (Mod.mcSignal m).cairn = m.cairn := rfl
@[simp] theorem Mod.mcSignal_fpr (m : Mod) : (Mod.mcSignal m).fpr = m.fpr := rfl
@[simp] theorem Mod.mcSignal_inject (m : Mod) : (Mod.mcSignal m).inject = m.inject := rfl
@[simp] theorem Mod.mcSignal_fuses (m : Mod) : (Mod.mcSignal m).fuses = m.fuses := rfl
@[simp] theorem Mod.mcSignal_plan (m : Mod) : (Mod.mcSignal m).plan = m.plan := rfl
@[simp] theorem Mod.mcSignal_planting (m : Mod) : (Mod.mcSignal m).planting = m.planting := rfl
@[simp] theorem Mod.mcSignal_memStacks (m : Mod) : (Mod.mcSignal m).memStacks = m.memStacks := rfl
@[simp] theorem Mod.mcSignal_gln (m : Mod) : (Mod.mcSignal m).gln = m.gln := rfl
@[simp] theorem Mod.mcSignal_rick (m : Mod) : (Mod.mcSignal m).rick = m.rick := rfl
@[simp] theorem Mod.mcSignal_dma (m : Mod) : (Mod.mcSignal m).dma = m.dma := rfl
@[simp] theorem Mod.mcSignal_attn (m : Mod) : (Mod.mcSignal m).attn = m.attn := rfl
@[simp] theorem Mod.mcSignal_cells (m : Mod) : (Mod.mcSignal m).cells = m.cells := rfl
@[simp] theorem Mod.mcSignal_chip (m : Mod) : (Mod.mcSignal m).chip = m.chip := rfl
@[simp] theorem Mod.mcSignal_tl (m : Mod) : (Mod.mcSignal m).tl = m.tl := rfl
@[simp] theorem Mod.mcSignal_stream (m : Mod) : (Mod.mcSignal m).stream = m.stream := rfl
@[simp] theorem Mod.mcSignal_train (m : Mod) : (Mod.mcSignal m).train = m.train := rfl
@[simp] theorem Mod.mcSignal_lea (m : Mod) : (Mod.mcSignal m).lea = m.lea := rfl
@[simp] theorem Mod.mcSignal_hdg (m : Mod) : (Mod.mcSignal m).hdg = m.hdg := rfl
@[simp] theorem Mod.mcSignal_jnl (m : Mod) : (Mod.mcSignal m).jnl = m.jnl := rfl
@[simp] theorem Mod.mcSignal_power (m : Mod) : (Mod.mcSignal m).power = m.power := rfl
@[simp] theorem Mod.mcSignal_thermal (m : Mod) : (Mod.mcSignal m).thermal = m.thermal := rfl
@[simp] theorem Mod.mcSignal_boot (m : Mod) : (Mod.mcSignal m).boot = m.boot := rfl
@[simp] theorem Mod.mcSignal_sec (m : Mod) : (Mod.mcSignal m).sec = m.sec := rfl

end Sys2Proof.Machine
end

