-- ==== Sys2Proof/Laws/Raise.lean ====
section
/-!
SUPPORT. What the report of an event touches: the log, the CAN node's frames, the cairn, the Jaeno link's packets and an
armed injection. `Mod.quiet` is the rest of the module; every function that reports leaves it as it was.
-/
namespace Sys2Proof.Machine

/-- The module without what a report touches. -/
def Mod.quiet (m : Mod) : Mod :=
  { m with log := Log.reset, can := Can.reset 0#7 0#8 0, cairn := Cairn.reset, jnl := Jaeno.reset, inject := Inject.reset }

theorem quiet_log (m : Mod) (x : Log) : ({ m with log := x } : Mod).quiet = m.quiet := Eq.refl _
theorem quiet_can (m : Mod) (x : Can) : ({ m with can := x } : Mod).quiet = m.quiet := Eq.refl _
theorem quiet_cairn (m : Mod) (x : Cairn) : ({ m with cairn := x } : Mod).quiet = m.quiet := Eq.refl _
theorem quiet_jnl (m : Mod) (x : Jaeno) : ({ m with jnl := x } : Mod).quiet = m.quiet := Eq.refl _
theorem quiet_inject (m : Mod) (x : Inject) : ({ m with inject := x } : Mod).quiet = m.quiet := Eq.refl _

theorem Mod.injected_quiet (m : Mod) : m.injected.quiet = m.quiet := quiet_inject _ _

theorem Mod.sendFrame_quiet (m : Mod) (k f) : (m.sendFrame k f).quiet = m.quiet := by
  unfold Mod.sendFrame
  split
  · rfl
  · split
    · exact m.injected_quiet
    · exact quiet_can _ _

theorem Mod.passFlit_quiet (m : Mod) (t d l f) : (m.passFlit t d l f).2.quiet = m.quiet := by
  unfold Mod.passFlit
  extract_lets i par mine
  repeat' split
  · rfl
  · exact m.injected_quiet
  · exact m.injected_quiet
  · exact quiet_inject _ _
  · exact (Mod.injected_quiet _).trans (quiet_inject _ _)
  · rfl

theorem Mod.jnlEmit_quiet (m : Mod) (d s f) : (m.jnlEmit d s f).quiet = m.quiet := by
  unfold Mod.jnlEmit
  exact (quiet_jnl _ _).trans (Mod.passFlit_quiet _ _ _ _ _)

theorem Mod.jnlPump_quiet (n : Nat) (m : Mod) : (Mod.jnlPump n m).quiet = m.quiet := by
  induction n generalizing m with
  | zero => rfl
  | succ n ih =>
    unfold Mod.jnlPump
    extract_lets l
    split
    · rfl
    · split
      · exact (ih _).trans ((Mod.jnlEmit_quiet _ _ _ _).trans (quiet_jnl _ _))
      · rfl

theorem Mod.sendPacket_quiet (m : Mod) (p) : (m.sendPacket p).quiet = m.quiet := by
  unfold Mod.sendPacket
  split
  · exact (Mod.jnlPump_quiet _ _).trans (quiet_jnl _ _)
  · exact quiet_jnl _ _

theorem Mod.sendInterrupt_quiet (m : Mod) (v) : (m.sendInterrupt v).quiet = m.quiet := by
  unfold Mod.sendInterrupt
  exact (Mod.sendPacket_quiet _ _)

theorem Mod.interrupt_quiet (m : Mod) (v) : (m.interrupt v).quiet = m.quiet := by
  unfold Mod.interrupt
  split
  · rfl
  · extract_lets j m1
    have h : m1.quiet = m.quiet := quiet_jnl _ _
    clear_value m1
    split
    · exact h
    · exact (Mod.sendInterrupt_quiet _ _).trans h

theorem Mod.emcy_quiet (m : Mod) (r) : (m.emcy r).quiet = m.quiet := by
  unfold Mod.emcy
  split
  · exact Mod.sendFrame_quiet _ _ _
  · rfl

theorem Mod.logOne_quiet (m : Mod) (e u p) : (m.logOne e u p).quiet = m.quiet := by
  unfold Mod.logOne
  exact (Mod.interrupt_quiet _ _).trans ((Mod.emcy_quiet _ _).trans (quiet_log _ _))

theorem Mod.logEvent_quiet (m : Mod) (e u p) : (m.logEvent e u p).quiet = m.quiet := by
  unfold Mod.logEvent
  extract_lets m1
  have h : m1.quiet = m.quiet := Mod.logOne_quiet _ _ _ _
  clear_value m1
  split
  · exact (Mod.logOne_quiet _ _ _ _).trans ((quiet_log _ _).trans h)
  · exact h

theorem Mod.cairnPut_quiet (m : Mod) (p) : (m.cairnPut p).quiet = m.quiet := by
  unfold Mod.cairnPut
  extract_lets r m1
  split
  · exact (Mod.logEvent_quiet _ _ _ _).trans (quiet_cairn _ _)
  · exact quiet_cairn _ _

theorem Mod.raise_quiet (m : Mod) (e u p) : (m.raise e u p).quiet = m.quiet := by
  unfold Mod.raise
  extract_lets r m1
  have h : m1.quiet = m.quiet := Mod.logEvent_quiet _ _ _ _
  clear_value m1
  split
  · exact (Mod.cairnPut_quiet _ _).trans h
  · exact h

/-- Everything that raising an event can do. -/
theorem Mod.raise_frame (m : Mod) (e u p) : m.raise e u p =
    { m with log := (m.raise e u p).log, can := (m.raise e u p).can, cairn := (m.raise e u p).cairn
             jnl := (m.raise e u p).jnl, inject := (m.raise e u p).inject } := by
  have h := Mod.raise_quiet m e u p
  revert h
  generalize m.raise e u p = n
  intro h
  simp only [Mod.quiet, Mod.mk.injEq] at h
  cases m; cases n
  simp_all

/-! ### The CAN node: a report only adds frames to what the node has sent -/

/-- The CAN node without the frames it has sent. -/
def Mod.canRest (m : Mod) : Can := { m.can with out := [] }

theorem Mod.injected_canRest (m : Mod) : m.injected.canRest = m.canRest := Eq.refl _

theorem Mod.sendFrame_canRest (m : Mod) (k f) : (m.sendFrame k f).canRest = m.canRest := by
  unfold Mod.sendFrame
  split
  · rfl
  · split <;> exact Eq.refl _

theorem Mod.passFlit_canRest (m : Mod) (t d l f) : (m.passFlit t d l f).2.canRest = m.canRest := by
  unfold Mod.passFlit
  extract_lets i par mine
  repeat' split
  all_goals exact Eq.refl _

theorem Mod.jnlEmit_canRest (m : Mod) (d s f) : (m.jnlEmit d s f).canRest = m.canRest := by
  unfold Mod.jnlEmit
  exact Mod.passFlit_canRest _ _ _ _ _

theorem Mod.jnlPump_canRest (n : Nat) (m : Mod) : (Mod.jnlPump n m).canRest = m.canRest := by
  induction n generalizing m with
  | zero => rfl
  | succ n ih =>
    unfold Mod.jnlPump
    extract_lets l
    split
    · rfl
    · split
      · exact (ih _).trans (Mod.jnlEmit_canRest _ _ _ _)
      · rfl

theorem Mod.sendPacket_canRest (m : Mod) (p) : (m.sendPacket p).canRest = m.canRest := by
  unfold Mod.sendPacket
  split
  · exact Mod.jnlPump_canRest _ _
  · rfl

theorem Mod.interrupt_canRest (m : Mod) (v) : (m.interrupt v).canRest = m.canRest := by
  unfold Mod.interrupt
  split
  · rfl
  · extract_lets j m1
    have h : m1.canRest = m.canRest := Eq.refl _
    clear_value m1
    split
    · exact h
    · exact (Mod.sendPacket_canRest _ _).trans h

theorem Mod.emcy_canRest (m : Mod) (r) : (m.emcy r).canRest = m.canRest := by
  unfold Mod.emcy
  split
  · exact Mod.sendFrame_canRest _ _ _
  · rfl

theorem Mod.logOne_canRest (m : Mod) (e u p) : (m.logOne e u p).canRest = m.canRest := by
  unfold Mod.logOne
  exact (Mod.interrupt_canRest _ _).trans (Mod.emcy_canRest _ _)

theorem Mod.logEvent_canRest (m : Mod) (e u p) : (m.logEvent e u p).canRest = m.canRest := by
  unfold Mod.logEvent
  extract_lets m1
  have h : m1.canRest = m.canRest := Mod.logOne_canRest _ _ _ _
  clear_value m1
  split
  · exact (Mod.logOne_canRest _ _ _ _).trans h
  · exact h

theorem Mod.cairnPut_canRest (m : Mod) (p) : (m.cairnPut p).canRest = m.canRest := by
  unfold Mod.cairnPut
  extract_lets r m1
  have h : m1.canRest = m.canRest := Eq.refl _
  clear_value m1
  split
  · exact (Mod.logEvent_canRest _ _ _ _).trans h
  · exact h

theorem Mod.raise_canRest (m : Mod) (e u p) : (m.raise e u p).canRest = m.canRest := by
  unfold Mod.raise
  extract_lets r m1
  have h : m1.canRest = m.canRest := Mod.logEvent_canRest _ _ _ _
  clear_value m1
  split
  · exact (Mod.cairnPut_canRest _ _).trans h
  · exact h

section
variable (m : Mod) (e : Event) (u : BitVec 32) (p : Bytes)
@[simp] theorem Mod.raise_clock : (m.raise e u p).clock = m.clock := by
  have h := congrArg Mod.clock (Mod.raise_quiet m e u p); exact h
@[simp] theorem Mod.raise_units : (m.raise e u p).units = m.units := by
  have h := congrArg Mod.units (Mod.raise_quiet m e u p); exact h
@[simp] theorem Mod.raise_safe : (m.raise e u p).safe = m.safe := by
  have h := congrArg Mod.safe (Mod.raise_quiet m e u p); exact h
@[simp] theorem Mod.raise_fpr : (m.raise e u p).fpr = m.fpr := by
  have h := congrArg Mod.fpr (Mod.raise_quiet m e u p); exact h
@[simp] theorem Mod.raise_fuses : (m.raise e u p).fuses = m.fuses := by
  have h := congrArg Mod.fuses (Mod.raise_quiet m e u p); exact h
@[simp] theorem Mod.raise_plan : (m.raise e u p).plan = m.plan := by
  have h := congrArg Mod.plan (Mod.raise_quiet m e u p); exact h
@[simp] theorem Mod.raise_planting : (m.raise e u p).planting = m.planting := by
  have h := congrArg Mod.planting (Mod.raise_quiet m e u p); exact h
@[simp] theorem Mod.raise_memStacks : (m.raise e u p).memStacks = m.memStacks := by
  have h := congrArg Mod.memStacks (Mod.raise_quiet m e u p); exact h
@[simp] theorem Mod.raise_gln : (m.raise e u p).gln = m.gln := by
  have h := congrArg Mod.gln (Mod.raise_quiet m e u p); exact h
@[simp] theorem Mod.raise_rick : (m.raise e u p).rick = m.rick := by
  have h := congrArg Mod.rick (Mod.raise_quiet m e u p); exact h
@[simp] theorem Mod.raise_dma : (m.raise e u p).dma = m.dma := by
  have h := congrArg Mod.dma (Mod.raise_quiet m e u p); exact h
@[simp] theorem Mod.raise_attn : (m.raise e u p).attn = m.attn := by
  have h := congrArg Mod.attn (Mod.raise_quiet m e u p); exact h
@[simp] theorem Mod.raise_cells : (m.raise e u p).cells = m.cells := by
  have h := congrArg Mod.cells (Mod.raise_quiet m e u p); exact h
@[simp] theorem Mod.raise_chip : (m.raise e u p).chip = m.chip := by
  have h := congrArg Mod.chip (Mod.raise_quiet m e u p); exact h
@[simp] theorem Mod.raise_tl : (m.raise e u p).tl = m.tl := by
  have h := congrArg Mod.tl (Mod.raise_quiet m e u p); exact h
@[simp] theorem Mod.raise_stream : (m.raise e u p).stream = m.stream := by
  have h := congrArg Mod.stream (Mod.raise_quiet m e u p); exact h
@[simp] theorem Mod.raise_train : (m.raise e u p).train = m.train := by
  have h := congrArg Mod.train (Mod.raise_quiet m e u p); exact h
@[simp] theorem Mod.raise_lea : (m.raise e u p).lea = m.lea := by
  have h := congrArg Mod.lea (Mod.raise_quiet m e u p); exact h
@[simp] theorem Mod.raise_hdg : (m.raise e u p).hdg = m.hdg := by
  have h := congrArg Mod.hdg (Mod.raise_quiet m e u p); exact h
@[simp] theorem Mod.raise_power : (m.raise e u p).power = m.power := by
  have h := congrArg Mod.power (Mod.raise_quiet m e u p); exact h
@[simp] theorem Mod.raise_thermal : (m.raise e u p).thermal = m.thermal := by
  have h := congrArg Mod.thermal (Mod.raise_quiet m e u p); exact h
@[simp] theorem Mod.raise_boot : (m.raise e u p).boot = m.boot := by
  have h := congrArg Mod.boot (Mod.raise_quiet m e u p); exact h
@[simp] theorem Mod.raise_sec : (m.raise e u p).sec = m.sec := by
  have h := congrArg Mod.sec (Mod.raise_quiet m e u p); exact h
@[simp] theorem Mod.raise_can_nmt : (m.raise e u p).can.nmt = m.can.nmt := by
  have h := congrArg Can.nmt (Mod.raise_canRest m e u p); exact h
@[simp] theorem Mod.raise_can_strapNodeId : (m.raise e u p).can.strapNodeId = m.can.strapNodeId := by
  have h := congrArg Can.strapNodeId (Mod.raise_canRest m e u p); exact h
@[simp] theorem Mod.raise_can_nodeIdOverride : (m.raise e u p).can.nodeIdOverride = m.can.nodeIdOverride := by
  have h := congrArg Can.nodeIdOverride (Mod.raise_canRest m e u p); exact h
@[simp] theorem Mod.raise_can_activeNodeId : (m.raise e u p).can.activeNodeId = m.can.activeNodeId := by
  have h := congrArg Can.activeNodeId (Mod.raise_canRest m e u p); exact h
@[simp] theorem Mod.raise_can_errorRegister : (m.raise e u p).can.errorRegister = m.can.errorRegister := by
  have h := congrArg Can.errorRegister (Mod.raise_canRest m e u p); exact h
@[simp] theorem Mod.raise_can_syncCobId : (m.raise e u p).can.syncCobId = m.can.syncCobId := by
  have h := congrArg Can.syncCobId (Mod.raise_canRest m e u p); exact h
@[simp] theorem Mod.raise_can_consumerHb : (m.raise e u p).can.consumerHb = m.can.consumerHb := by
  have h := congrArg Can.consumerHb (Mod.raise_canRest m e u p); exact h
@[simp] theorem Mod.raise_can_hbLost : (m.raise e u p).can.hbLost = m.can.hbLost := by
  have h := congrArg Can.hbLost (Mod.raise_canRest m e u p); exact h
@[simp] theorem Mod.raise_can_hbBack : (m.raise e u p).can.hbBack = m.can.hbBack := by
  have h := congrArg Can.hbBack (Mod.raise_canRest m e u p); exact h
@[simp] theorem Mod.raise_can_busOff : (m.raise e u p).can.busOff = m.can.busOff := by
  have h := congrArg Can.busOff (Mod.raise_canRest m e u p); exact h
@[simp] theorem Mod.raise_can_tpdos : (m.raise e u p).can.tpdos = m.can.tpdos := by
  have h := congrArg Can.tpdos (Mod.raise_canRest m e u p); exact h
@[simp] theorem Mod.raise_can_transfer : (m.raise e u p).can.transfer = m.can.transfer := by
  have h := congrArg Can.transfer (Mod.raise_canRest m e u p); exact h
@[simp] theorem Mod.raise_can_answers : (m.raise e u p).can.answers = m.can.answers := by
  have h := congrArg Can.answers (Mod.raise_canRest m e u p); exact h
end

end Sys2Proof.Machine
end

