-- ==== Sys2Proof/Laws/Sdo.lean ====
section
/-!
SUPPORT. The SDO server: what a request answers while the node serves.
-/
namespace Sys2Proof.Machine

theorem length_leBytes (n v : Nat) : (leBytes n v).length = n := by
  induction n generalizing v with
  | zero => rfl
  | succ n ih => simp [leBytes, ih]

/-- The little-endian bytes of a number that fits spell it. -/
theorem leNat_leBytes (n v : Nat) (h : v < 256 ^ n) : leNat (leBytes n v) = v := by
  induction n generalizing v with
  | zero => simp at h; subst h; rfl
  | succ n ih =>
    have h2 : v / 256 < 256 ^ n := by rw [Nat.pow_succ] at h; omega
    simp only [leBytes, leNat, ih _ h2, BitVec.toNat_ofNat]
    omega

/-- A frame is dropped only while an injection is armed. -/
theorem Mod.dropsFrame_calm {m : Mod} (h : m.inject.armed = false) (t k) : m.dropsFrame t k = false := by
  simp [Mod.dropsFrame, h]

/-- While the node serves, an answer is appended. -/
theorem Mod.answer_serving {m : Mod} (h : m.serving = true) (c : m.inject.armed = false) (fd i sub r) :
    m.answer fd i sub r = Safety.answered m fd i sub r := by
  simp [Mod.answer, h, Mod.dropsFrame_calm c, Safety.answered]

/-- While the node serves, a request is carried out. -/
theorem Mod.request_serving {m : Mod} (h : m.serving = true) (c : m.inject.armed = false) (go) : m.request go = go m := by
  simp [Mod.request, h, Mod.dropsFrame_calm c]

/-- A whole write while the node serves: the object's effect, then the answer. -/
theorem Mod.sdoWhole_serves {m n : Mod} {c : Nat} (h : Safety.Serves m) (fd i sub bs x)
    (w : m.objWrite i sub bs x = (c, n)) (hn : n.serving = true) (cn : n.inject.armed = false) :
    m.sdoWhole fd i sub bs x = Safety.answered n fd i sub (sdoWritten c) := by
  rw [Mod.sdoWhole, Mod.request_serving h.serving h.calm]
  simp [h.closed, w, Mod.answer_serving hn cn]

/-- A refused write leaves the module but for the answer. -/
theorem Mod.sdoWhole_refused {m : Mod} {c : Nat} (h : Safety.Serves m) (fd i sub bs x)
    (w : m.objWrite i sub bs x = (c, m)) :
    m.sdoWhole fd i sub bs x = Safety.answered m fd i sub (sdoWritten c) :=
  Mod.sdoWhole_serves h fd i sub bs x w h.serving h.calm

/-- A write whose checks pass has its effect, outside recovery mode. -/
theorem Mod.objWrite_normal {m : Mod} (h : m.sec.recovery = false) (i sub bs x) (c : m.writeCheck i sub bs.length = 0) :
    m.objWrite i sub bs x = m.objEffect i sub bs x := by
  simp [Mod.objWrite, c, h]

/-- A write that a check refuses changes nothing. -/
theorem Mod.objWrite_refused {m : Mod} (i sub bs x) (c : m.writeCheck i sub bs.length ≠ 0) :
    m.objWrite i sub bs x = (m.writeCheck i sub bs.length, m) := by
  simp [Mod.objWrite, c]

end Sys2Proof.Machine
end

