-- ==== Sys2Proof/Laws/Command.lean ====
section
/-!
SUPPORT. What a command's arm does to the module, and the writes of objects that commands stand for.
-/
namespace Sys2Proof.Machine

/-- With input power a command turns the module into what its operation gives. -/
theorem turns_on {m n : Mod} {f : Mod → Mod} (hp : m.boot.powered = true) (h : f m = n) (q : List Instr) :
    State.on ⟨m, q⟩ f = .next ⟨n, q⟩ := by
  simp [State.on, hp, h]

theorem leNat_regBytes {w : Nat} (v : BitVec w) : leNat (regBytes v) = v.toNat := by
  unfold regBytes
  apply leNat_leBytes
  have h := v.isLt
  have : 2 ^ w ≤ 256 ^ ((w + 7) / 8) := by
    rw [show (256 : Nat) = 2 ^ 8 from rfl, ← Nat.pow_mul]
    exact Nat.pow_le_pow_right (by decide) (by omega)
  omega

theorem length_regBytes {w : Nat} (v : BitVec w) : (regBytes v).length = (w + 7) / 8 := length_leBytes _ _

/-- The checks of a write all pass: the object exists, may be written, and has the data's length. -/
theorem Mod.writeCheck_pass {m : Mod} {i sub len : Nat} {r : ObjRow} (he : objExists i = true) (hr : objRow i sub = some r)
    (ha : (r.acc == .ro || r.acc == .const) = false) (hm : m.mayWrite i sub r = true) (hl : r.ty.takes len = true) :
    m.writeCheck i sub len = 0 := by
  unfold Mod.writeCheck
  have h1 : ¬ (r.acc = .ro ∨ r.acc = .const) := by
    intro h; rcases h with h | h <;> rw [h] at ha <;> exact absurd ha (by decide)
  simp [he, hr, h1, hm, hl]

/-- An object that needs a session, and no session may write it. -/
theorem Mod.writeCheck_auth {m : Mod} {i sub len : Nat} {r : ObjRow} (he : objExists i = true) (hr : objRow i sub = some r)
    (ha : (r.acc == .ro || r.acc == .const) = false) (hm : m.mayWrite i sub r = false) :
    m.writeCheck i sub len = 0x08000020 := by
  unfold Mod.writeCheck
  have h1 : ¬ (r.acc = .ro ∨ r.acc = .const) := by
    intro h; rcases h with h | h <;> rw [h] at ha <;> exact absurd ha (by decide)
  simp [he, hr, h1, hm, abAuth]

/-- An object that every client may write. -/
theorem Mod.mayWrite_rw {m : Mod} {i sub : Nat} {r : ObjRow} (h : (r.acc != .auth) = true) : m.mayWrite i sub r = true := by
  simp [Mod.mayWrite, h]

theorem accepted_eq (m : Mod) (fd i sub) : Safety.answered m fd i sub (sdoWritten 0) = Safety.accepted m fd i sub := rfl

theorem refused_eq {c : Nat} (m : Mod) (fd i sub) (h : c ≠ 0) :
    Safety.answered m fd i sub (sdoWritten c) = Safety.refused m fd i sub c := by
  simp [sdoWritten, h, Safety.refused]

/-- A write of a number that is accepted. -/
theorem Mod.sdoPut_accepted {m n : Mod} {w : Nat} {v : BitVec w} {i sub : Nat} (h : Safety.Serves m) (fd : Bool)
    (k : m.writeCheck i sub ((w + 7) / 8) = 0) (e : m.objEffect i sub (regBytes v) ObjIn.none = (0, n))
    (hn : n.serving = true) (cn : n.inject.armed = false) :
    m.sdoPut fd i sub v = Safety.accepted n fd i sub := by
  rw [← accepted_eq, Mod.sdoPut]
  refine Mod.sdoWhole_serves h fd i sub _ _ ?_ hn cn
  rw [Mod.objWrite_normal h.normal _ _ _ _ (by rw [length_regBytes]; exact k), e]

/-- A write of a number that the object refuses. -/
theorem Mod.sdoPut_refused {m n : Mod} {w c : Nat} {v : BitVec w} {i sub : Nat} (h : Safety.Serves m) (fd : Bool)
    (k : m.writeCheck i sub ((w + 7) / 8) = 0) (e : m.objEffect i sub (regBytes v) ObjIn.none = (c, n)) (hc : c ≠ 0)
    (hn : n.serving = true) (cn : n.inject.armed = false) :
    m.sdoPut fd i sub v = Safety.refused n fd i sub c := by
  rw [← refused_eq _ _ _ _ hc, Mod.sdoPut]
  refine Mod.sdoWhole_serves h fd i sub _ _ ?_ hn cn
  rw [Mod.objWrite_normal h.normal _ _ _ _ (by rw [length_regBytes]; exact k), e]

/-- A write of a number that a check of every write refuses. -/
theorem Mod.sdoPut_checked {m : Mod} {w : Nat} {v : BitVec w} {i sub : Nat} (h : Safety.Serves m) (fd : Bool)
    (k : m.writeCheck i sub ((w + 7) / 8) ≠ 0) :
    m.sdoPut fd i sub v = Safety.refused m fd i sub (m.writeCheck i sub ((w + 7) / 8)) := by
  rw [← refused_eq _ _ _ _ k, Mod.sdoPut]
  have e := Mod.objWrite_refused (m := m) i sub (regBytes v) ObjIn.none (by rw [length_regBytes]; exact k)
  rw [length_regBytes] at e
  exact Mod.sdoWhole_refused h fd i sub _ _ e

end Sys2Proof.Machine
end

