-- ==== Sys2Proof/Laws/Exec.lean ====
section
/-!
SUPPORT. One lemma for each command: with input power it turns the module into what its operation gives.
-/
namespace Sys2Proof.Machine

theorem turns_registerWrite {m m' : Mod} (hp : m.boot.powered = true) (window : Bool) (addr : BitVec 64) (data :
    Bytes) (writer : BitVec 32) (comps : Nat) (h : m.registerWrite window addr.toNat data writer comps = m') :
    Safety.Turns m (.registerWrite window addr data writer comps) m' := by
  intro wait; unfold exec execRegisterWrite; exact turns_on (f := (fun m : Mod => m.registerWrite window addr.toNat
    data writer comps)) hp h wait

theorem turns_unassignedAccess {m m' : Mod} (hp : m.boot.powered = true) (window write : Bool) (addr : BitVec 64)
    (len : Nat) (data : Bytes) (h : m.unassignedAccess window write addr.toNat len data = m') :
    Safety.Turns m (.unassignedAccess window write addr len data) m' := by
  intro wait; unfold exec execUnassignedAccess; exact turns_on (f := (fun m : Mod => m.unassignedAccess window write
    addr.toNat len data)) hp h wait

theorem turns_sdoDownload {m m' : Mod} (hp : m.boot.powered = true) (valid fd : Bool) (index : BitVec 16) (sub :
    BitVec 8) (size : Nat) (data : Option Bytes) (input : ObjIn) (h : m.sdoDownload valid fd index.toNat sub.toNat
    size data input = m') :
    Safety.Turns m (.sdoDownload valid fd index sub size data input) m' := by
  intro wait; unfold exec execSdoDownload; exact turns_on (f := (fun m : Mod => m.sdoDownload valid fd index.toNat
    sub.toNat size data input)) hp h wait

theorem turns_sdoUpload {m m' : Mod} (hp : m.boot.powered = true) (valid fd : Bool) (index : BitVec 16) (sub : BitVec
    8) (h : m.sdoUpload valid fd index.toNat sub.toNat = m') :
    Safety.Turns m (.sdoUpload valid fd index sub) m' := by
  intro wait; unfold exec execSdoUpload; exact turns_on (f := (fun m : Mod => m.sdoUpload valid fd index.toNat
    sub.toNat)) hp h wait

theorem turns_sdoSegment {m m' : Mod} (hp : m.boot.powered = true) (fd : Bool) (data : Bytes) (last : Bool) (input :
    ObjIn) (h : m.sdoSegmentRow fd data last input = m') :
    Safety.Turns m (.sdoSegment fd data last input) m' := by
  intro wait; unfold exec execSdoSegment; exact turns_on (f := (fun m : Mod => m.sdoSegmentRow fd data last input))
    hp h wait

theorem turns_sdoSegmentTimeout {m m' : Mod} (hp : m.boot.powered = true) (h : m.sdoTimeout = m') :
    Safety.Turns m (.sdoSegmentTimeout) m' := by
  intro wait; unfold exec execSdoSegmentTimeout; exact turns_on (f := (fun m : Mod => m.sdoTimeout)) hp h wait

theorem turns_inputPowerLost {m m' : Mod} (hp : m.boot.powered = true) (h : m.powerLost = m') :
    Safety.Turns m (.inputPowerLost) m' := by
  intro wait; unfold exec execInputPowerLost; exact turns_on (f := (fun m : Mod => m.powerLost)) hp h wait

theorem turns_retire {m m' : Mod} (hp : m.boot.powered = true) (fd : Bool) (v : BitVec 16)
    (h : m.sdoPut fd 0x2010 7 v = m') :
    Safety.Turns m (.retire fd v) m' := by
  intro wait; unfold exec execRetire; exact turns_on (f := (fun m : Mod => m.sdoPut fd 0x2010 7 v)) hp h wait

theorem turns_publishWrite {m m' : Mod} (hp : m.boot.powered = true) (entry : Fin 4096) (word : BitVec 128) (writer :
    BitVec 32) (h : m.seqWriteIn (256 * entry.val) (leBytes 16 word.toNat) writer = m') :
    Safety.Turns m (.publishWrite entry word writer) m' := by
  intro wait; unfold exec execPublishWrite; exact turns_on (f := (fun m : Mod => m.seqWriteIn (256 * entry.val)
    (leBytes 16 word.toNat) writer)) hp h wait

theorem turns_seqtFence {m m' : Mod} (hp : m.boot.powered = true) (v : BitVec 64)
    (h : (m.fenceWrite v.toNat).settleFences = m') :
    Safety.Turns m (.seqtFence v) m' := by
  intro wait; unfold exec execSeqtFence; exact turns_on (f := (fun m : Mod => (m.fenceWrite v.toNat).settleFences))
    hp h wait

theorem turns_fenceClear {m m' : Mod} (hp : m.boot.powered = true) (done : List Nat)
    (h : (m.walksDone done).settleFences = m') :
    Safety.Turns m (.fenceClear done) m' := by
  intro wait; unfold exec execFenceClear; exact turns_on (f := (fun m : Mod => (m.walksDone done).settleFences)) hp h
    wait

theorem turns_walk {m m' : Mod} (hp : m.boot.powered = true) (cmdId entry : Nat) (h : m.walk cmdId entry = m') :
    Safety.Turns m (.walk cmdId entry) m' := by
  intro wait; unfold exec execWalk; exact turns_on (f := (fun m : Mod => m.walk cmdId entry)) hp h wait

theorem turns_openSub {m m' : Mod} (hp : m.boot.powered = true) (core : Fin 16) (h : m.subRow core.val 1 = m') :
    Safety.Turns m (.openSub core) m' := by
  intro wait; unfold exec execOpenSub; exact turns_on (f := (fun m : Mod => m.subRow core.val 1)) hp h wait

theorem turns_prompt {m m' : Mod} (hp : m.boot.powered = true) (core : Fin 16) (h : m.subRow core.val 2 = m') :
    Safety.Turns m (.prompt core) m' := by
  intro wait; unfold exec execPrompt; exact turns_on (f := (fun m : Mod => m.subRow core.val 2)) hp h wait

theorem turns_publish {m m' : Mod} (hp : m.boot.powered = true) (core : Fin 16) (h : m.subRow core.val 3 = m') :
    Safety.Turns m (.publish core) m' := by
  intro wait; unfold exec execPublish; exact turns_on (f := (fun m : Mod => m.subRow core.val 3)) hp h wait

theorem turns_candidates {m m' : Mod} (hp : m.boot.powered = true) (core : Fin 16) (h : m.subRow core.val 4 = m') :
    Safety.Turns m (.candidates core) m' := by
  intro wait; unfold exec execCandidates; exact turns_on (f := (fun m : Mod => m.subRow core.val 4)) hp h wait

theorem turns_closeSub {m m' : Mod} (hp : m.boot.powered = true) (core : Fin 16) (h : m.subRow core.val 5 = m') :
    Safety.Turns m (.closeSub core) m' := by
  intro wait; unfold exec execCloseSub; exact turns_on (f := (fun m : Mod => m.subRow core.val 5)) hp h wait

theorem turns_rails {m m' : Mod} (hp : m.boot.powered = true) (fd : Bool) (v : BitVec 8)
    (h : m.sdoPut fd 0x2210 1 v = m') :
    Safety.Turns m (.rails fd v) m' := by
  intro wait; unfold exec execRails; exact turns_on (f := (fun m : Mod => m.sdoPut fd 0x2210 1 v)) hp h wait

theorem turns_train {m m' : Mod} (hp : m.boot.powered = true) (fd : Bool) (v : BitVec 8)
    (h : m.sdoPut fd 0x2211 1 v = m') :
    Safety.Turns m (.train fd v) m' := by
  intro wait; unfold exec execTrain; exact turns_on (f := (fun m : Mod => m.sdoPut fd 0x2211 1 v)) hp h wait

theorem turns_headers {m m' : Mod} (hp : m.boot.powered = true) (fd : Bool) (v : BitVec 8)
    (h : m.sdoPut fd 0x2212 1 v = m') :
    Safety.Turns m (.headers fd v) m' := by
  intro wait; unfold exec execHeaders; exact turns_on (f := (fun m : Mod => m.sdoPut fd 0x2212 1 v)) hp h wait

theorem turns_firmware {m m' : Mod} (hp : m.boot.powered = true) (fd : Bool) (v : BitVec 8)
    (h : m.sdoPut fd 0x2213 1 v = m') :
    Safety.Turns m (.firmware fd v) m' := by
  intro wait; unfold exec execFirmware; exact turns_on (f := (fun m : Mod => m.sdoPut fd 0x2213 1 v)) hp h wait

theorem turns_selfTest {m m' : Mod} (hp : m.boot.powered = true) (fd : Bool) (v : BitVec 8)
    (h : m.sdoPut fd 0x2214 1 v = m') :
    Safety.Turns m (.selfTest fd v) m' := by
  intro wait; unfold exec execSelfTest; exact turns_on (f := (fun m : Mod => m.sdoPut fd 0x2214 1 v)) hp h wait

theorem turns_imageLoad {m m' : Mod} (hp : m.boot.powered = true) (fd : Bool) (v : BitVec 8) (variants : List
    PlantMap) (h : m.sdoWhole fd 0x2215 1 (regBytes v) { ObjIn.none with variants := variants } = m') :
    Safety.Turns m (.imageLoad fd v variants) m' := by
  intro wait; unfold exec execImageLoad; exact turns_on (f := (fun m : Mod => m.sdoWhole fd 0x2215 1 (regBytes v) {
    ObjIn.none with variants := variants })) hp h wait

theorem turns_start {m m' : Mod} (hp : m.boot.powered = true) (fd : Bool) (v : BitVec 8) (programs : List (Fin 512 ×
    BitVec 64)) (h : m.sdoWhole fd 0x2216 1 (regBytes v) ⟨[], { ObjIn.none.barrier with programs := programs }⟩ = m')
    :
    Safety.Turns m (.start fd v programs) m' := by
  intro wait; unfold exec execStart; exact turns_on (f := (fun m : Mod => m.sdoWhole fd 0x2216 1 (regBytes v) ⟨[], {
    ObjIn.none.barrier with programs := programs }⟩)) hp h wait

theorem turns_stepCompletion {m m' : Mod} (hp : m.boot.powered = true) (found : StepEnd)
    (h : m.stepCompletion found = m') :
    Safety.Turns m (.stepCompletion found) m' := by
  intro wait; unfold exec execStepCompletion; exact turns_on (f := (fun m : Mod => m.stepCompletion found)) hp h wait

theorem turns_stepBoundExpiry {m m' : Mod} (hp : m.boot.powered = true) (h : m.stepTimeout = m') :
    Safety.Turns m (.stepBoundExpiry) m' := by
  intro wait; unfold exec execStepBoundExpiry; exact turns_on (f := (fun m : Mod => m.stepTimeout)) hp h wait

theorem turns_computeReset {m m' : Mod} (hp : m.boot.powered = true) (fd : Bool) (kind : Fin 3) (save : Bool)
    (h : m.sdoPut fd 0x2480 1 (resetWord (kind.val + 1) save) = m') :
    Safety.Turns m (.computeReset fd kind save) m' := by
  intro wait; unfold exec execComputeReset; exact turns_on (f := (fun m : Mod => m.sdoPut fd 0x2480 1 (resetWord
    (kind.val + 1) save))) hp h wait

theorem turns_lowerDieFullReset {m m' : Mod} (hp : m.boot.powered = true) (fd : Bool)
    (h : m.sdoPut fd 0x2480 1 (resetWord 4 false) = m') :
    Safety.Turns m (.lowerDieFullReset fd) m' := by
  intro wait; unfold exec execLowerDieFullReset; exact turns_on (f := (fun m : Mod => m.sdoPut fd 0x2480 1 (resetWord
    4 false))) hp h wait

theorem turns_fullReset {m m' : Mod} (hp : m.boot.powered = true) (fd : Bool)
    (h : m.sdoPut fd 0x2480 1 (resetWord 5 false) = m') :
    Safety.Turns m (.fullReset fd) m' := by
  intro wait; unfold exec execFullReset; exact turns_on (f := (fun m : Mod => m.sdoPut fd 0x2480 1 (resetWord 5
    false))) hp h wait

theorem turns_partialReset {m m' : Mod} (hp : m.boot.powered = true) (fd : Bool)
    (h : m.sdoPut fd 0x2480 1 (resetWord 6 false) = m') :
    Safety.Turns m (.partialReset fd) m' := by
  intro wait; unfold exec execPartialReset; exact turns_on (f := (fun m : Mod => m.sdoPut fd 0x2480 1 (resetWord 6
    false))) hp h wait

theorem turns_resetCompletion {m m' : Mod} (hp : m.boot.powered = true) (windows : List CrossWindow)
    (h : m.resetCompletion windows = m') :
    Safety.Turns m (.resetCompletion windows) m' := by
  intro wait; unfold exec execResetCompletion; exact turns_on (f := (fun m : Mod => m.resetCompletion windows)) hp h
    wait

theorem turns_resetN {m m' : Mod} (hp : m.boot.powered = true) (h : m.resetPin = m') :
    Safety.Turns m (.resetN) m' := by
  intro wait; unfold exec execResetN; exact turns_on (f := (fun m : Mod => m.resetPin)) hp h wait

theorem turns_adv {m m' : Mod} (hp : m.boot.powered = true) (cell : Fin 4704) (word : BitVec 64)
    (h : m.runAdv cell.val word = m') :
    Safety.Turns m (.adv cell word) m' := by
  intro wait; unfold exec execAdv; exact turns_on (f := (fun m : Mod => m.runAdv cell.val word)) hp h wait

theorem turns_advance {m m' : Mod} (hp : m.boot.powered = true) (cell : Fin 4704) (h : m.runAdvance cell.val = m') :
    Safety.Turns m (.advance cell) m' := by
  intro wait; unfold exec execAdvance; exact turns_on (f := (fun m : Mod => m.runAdvance cell.val)) hp h wait

theorem turns_swap {m m' : Mod} (hp : m.boot.powered = true) (cell : Fin 4704) (word : BitVec 64) (ups : List Upset)
    (h : m.runSwap cell.val word ups = m') :
    Safety.Turns m (.swap cell word ups) m' := by
  intro wait; unfold exec execSwap; exact turns_on (f := (fun m : Mod => m.runSwap cell.val word ups)) hp h wait

theorem turns_swapSaved {m m' : Mod} (hp : m.boot.powered = true) (cell : Fin 4704) (word : BitVec 64) (ups : List
    Upset) (h : m.runSwap cell.val (swapSaved word) ups = m') :
    Safety.Turns m (.swapSaved cell word ups) m' := by
  intro wait; unfold exec execSwapSaved; exact turns_on (f := (fun m : Mod => m.runSwap cell.val (swapSaved word)
    ups)) hp h wait

theorem turns_tileDrain {m m' : Mod} (hp : m.boot.powered = true) (cell : Fin 4704) (h : m.runDrain cell.val = m') :
    Safety.Turns m (.tileDrain cell) m' := by
  intro wait; unfold exec execTileDrain; exact turns_on (f := (fun m : Mod => m.runDrain cell.val)) hp h wait

theorem turns_ctxSave {m m' : Mod} (hp : m.boot.powered = true) (cell : Fin 4704) (h : m.runCtx cell.val true = m') :
    Safety.Turns m (.ctxSave cell) m' := by
  intro wait; unfold exec execCtxSave; exact turns_on (f := (fun m : Mod => m.runCtx cell.val true)) hp h wait

theorem turns_ctxRestore {m m' : Mod} (hp : m.boot.powered = true) (cell : Fin 4704)
    (h : m.runCtx cell.val false = m') :
    Safety.Turns m (.ctxRestore cell) m' := by
  intro wait; unfold exec execCtxRestore; exact turns_on (f := (fun m : Mod => m.runCtx cell.val false)) hp h wait

theorem turns_add {m m' : Mod} (hp : m.boot.powered = true) (cell : Fin 4704) (word : BitVec 64) (ups : List Upset)
    (h : m.runVx cell.val 1 word ups = m') :
    Safety.Turns m (.add cell word ups) m' := by
  intro wait; unfold exec execAdd; exact turns_on (f := (fun m : Mod => m.runVx cell.val 1 word ups)) hp h wait

theorem turns_mul {m m' : Mod} (hp : m.boot.powered = true) (cell : Fin 4704) (word : BitVec 64) (ups : List Upset)
    (h : m.runVx cell.val 2 word ups = m') :
    Safety.Turns m (.mul cell word ups) m' := by
  intro wait; unfold exec execMul; exact turns_on (f := (fun m : Mod => m.runVx cell.val 2 word ups)) hp h wait

theorem turns_fma {m m' : Mod} (hp : m.boot.powered = true) (cell : Fin 4704) (word : BitVec 64) (ups : List Upset)
    (empty : Nat) (h : (m.runVx cell.val 3 word ups).emptyRows empty = m') :
    Safety.Turns m (.fma cell word ups empty) m' := by
  intro wait; unfold exec execFma; exact turns_on (f := (fun m : Mod => (m.runVx cell.val 3 word ups).emptyRows
    empty)) hp h wait

theorem turns_max {m m' : Mod} (hp : m.boot.powered = true) (cell : Fin 4704) (word : BitVec 64) (ups : List Upset)
    (h : m.runVx cell.val 4 word ups = m') :
    Safety.Turns m (.max cell word ups) m' := by
  intro wait; unfold exec execMax; exact turns_on (f := (fun m : Mod => m.runVx cell.val 4 word ups)) hp h wait

theorem turns_min {m m' : Mod} (hp : m.boot.powered = true) (cell : Fin 4704) (word : BitVec 64) (ups : List Upset)
    (h : m.runVx cell.val 5 word ups = m') :
    Safety.Turns m (.min cell word ups) m' := by
  intro wait; unfold exec execMin; exact turns_on (f := (fun m : Mod => m.runVx cell.val 5 word ups)) hp h wait

theorem turns_cvt {m m' : Mod} (hp : m.boot.powered = true) (cell : Fin 4704) (word : BitVec 64) (ups : List Upset)
    (h : m.runVx cell.val 6 word ups = m') :
    Safety.Turns m (.cvt cell word ups) m' := by
  intro wait; unfold exec execCvt; exact turns_on (f := (fun m : Mod => m.runVx cell.val 6 word ups)) hp h wait

theorem turns_quant {m m' : Mod} (hp : m.boot.powered = true) (cell : Fin 4704) (word : BitVec 64) (ups : List Upset)
    (h : m.runVx cell.val 7 word ups = m') :
    Safety.Turns m (.quant cell word ups) m' := by
  intro wait; unfold exec execQuant; exact turns_on (f := (fun m : Mod => m.runVx cell.val 7 word ups)) hp h wait

theorem turns_exp {m m' : Mod} (hp : m.boot.powered = true) (cell : Fin 4704) (word : BitVec 64) (ups : List Upset)
    (h : m.runVx cell.val 8 word ups = m') :
    Safety.Turns m (.exp cell word ups) m' := by
  intro wait; unfold exec execExp; exact turns_on (f := (fun m : Mod => m.runVx cell.val 8 word ups)) hp h wait

theorem turns_rcp {m m' : Mod} (hp : m.boot.powered = true) (cell : Fin 4704) (word : BitVec 64) (ups : List Upset)
    (h : m.runVx cell.val 9 word ups = m') :
    Safety.Turns m (.rcp cell word ups) m' := by
  intro wait; unfold exec execRcp; exact turns_on (f := (fun m : Mod => m.runVx cell.val 9 word ups)) hp h wait

theorem turns_rsqrt {m m' : Mod} (hp : m.boot.powered = true) (cell : Fin 4704) (word : BitVec 64) (ups : List Upset)
    (h : m.runVx cell.val 10 word ups = m') :
    Safety.Turns m (.rsqrt cell word ups) m' := by
  intro wait; unfold exec execRsqrt; exact turns_on (f := (fun m : Mod => m.runVx cell.val 10 word ups)) hp h wait

theorem turns_rowstat {m m' : Mod} (hp : m.boot.powered = true) (cell : Fin 4704) (word : BitVec 64) (ups : List
    Upset) (h : m.runVx cell.val 11 word ups = m') :
    Safety.Turns m (.rowstat cell word ups) m' := by
  intro wait; unfold exec execRowstat; exact turns_on (f := (fun m : Mod => m.runVx cell.val 11 word ups)) hp h wait

theorem turns_norm {m m' : Mod} (hp : m.boot.powered = true) (cell : Fin 4704) (word : BitVec 64) (ups : List Upset)
    (h : m.runVx cell.val 12 word ups = m') :
    Safety.Turns m (.norm cell word ups) m' := by
  intro wait; unfold exec execNorm; exact turns_on (f := (fun m : Mod => m.runVx cell.val 12 word ups)) hp h wait

theorem turns_softmax {m m' : Mod} (hp : m.boot.powered = true) (cell : Fin 4704) (word : BitVec 64) (ups : List
    Upset) (h : m.runVx cell.val 13 word ups = m') :
    Safety.Turns m (.softmax cell word ups) m' := by
  intro wait; unfold exec execSoftmax; exact turns_on (f := (fun m : Mod => m.runVx cell.val 13 word ups)) hp h wait

theorem turns_softmaxBwd {m m' : Mod} (hp : m.boot.powered = true) (cell : Fin 4704) (word : BitVec 64) (ups : List
    Upset) (h : m.runVx cell.val 14 word ups = m') :
    Safety.Turns m (.softmaxBwd cell word ups) m' := by
  intro wait; unfold exec execSoftmaxBwd; exact turns_on (f := (fun m : Mod => m.runVx cell.val 14 word ups)) hp h
    wait

theorem turns_normBwd {m m' : Mod} (hp : m.boot.powered = true) (cell : Fin 4704) (word : BitVec 64) (ups : List
    Upset) (h : m.runVx cell.val 15 word ups = m') :
    Safety.Turns m (.normBwd cell word ups) m' := by
  intro wait; unfold exec execNormBwd; exact turns_on (f := (fun m : Mod => m.runVx cell.val 15 word ups)) hp h wait

theorem turns_rowsum {m m' : Mod} (hp : m.boot.powered = true) (cell : Fin 4704) (word : BitVec 64) (ups : List
    Upset) (h : m.runVx cell.val 16 word ups = m') :
    Safety.Turns m (.rowsum cell word ups) m' := by
  intro wait; unfold exec execRowsum; exact turns_on (f := (fun m : Mod => m.runVx cell.val 16 word ups)) hp h wait

theorem turns_rowmax {m m' : Mod} (hp : m.boot.powered = true) (cell : Fin 4704) (word : BitVec 64) (ups : List
    Upset) (h : m.runVx cell.val 17 word ups = m') :
    Safety.Turns m (.rowmax cell word ups) m' := by
  intro wait; unfold exec execRowmax; exact turns_on (f := (fun m : Mod => m.runVx cell.val 17 word ups)) hp h wait

theorem turns_flagRead {m m' : Mod} (hp : m.boot.powered = true) (cell : Fin 4704) (word : BitVec 64) (ups : List
    Upset) (h : m.runVx cell.val 17 (flagMode word) ups = m') :
    Safety.Turns m (.flagRead cell word ups) m' := by
  intro wait; unfold exec execFlagRead; exact turns_on (f := (fun m : Mod => m.runVx cell.val 17 (flagMode word)
    ups)) hp h wait

theorem turns_copy {m m' : Mod} (hp : m.boot.powered = true) (cell : Fin 4704) (word : BitVec 64) (ups : List Upset)
    (h : m.runMv cell.val 1 word ups = m') :
    Safety.Turns m (.copy cell word ups) m' := by
  intro wait; unfold exec execCopy; exact turns_on (f := (fun m : Mod => m.runMv cell.val 1 word ups)) hp h wait

theorem turns_loamIn {m m' : Mod} (hp : m.boot.powered = true) (cell : Fin 4704) (word : BitVec 64) (ups : List
    Upset) (h : m.runMv cell.val 2 word ups = m') :
    Safety.Turns m (.loamIn cell word ups) m' := by
  intro wait; unfold exec execLoamIn; exact turns_on (f := (fun m : Mod => m.runMv cell.val 2 word ups)) hp h wait

theorem turns_loamOut {m m' : Mod} (hp : m.boot.powered = true) (cell : Fin 4704) (word : BitVec 64) (ups : List
    Upset) (h : m.runMv cell.val 3 word ups = m') :
    Safety.Turns m (.loamOut cell word ups) m' := by
  intro wait; unfold exec execLoamOut; exact turns_on (f := (fun m : Mod => m.runMv cell.val 3 word ups)) hp h wait

theorem turns_loamXchg {m m' : Mod} (hp : m.boot.powered = true) (cell : Fin 4704) (word : BitVec 64) (ups : List
    Upset) (h : m.runMv cell.val 4 word ups = m') :
    Safety.Turns m (.loamXchg cell word ups) m' := by
  intro wait; unfold exec execLoamXchg; exact turns_on (f := (fun m : Mod => m.runMv cell.val 4 word ups)) hp h wait

theorem turns_link {m m' : Mod} (hp : m.boot.powered = true) (cell : Fin 4704) (word : BitVec 64) (ups : List Upset)
    (h : m.runMv cell.val 5 word ups = m') :
    Safety.Turns m (.link cell word ups) m' := by
  intro wait; unfold exec execLink; exact turns_on (f := (fun m : Mod => m.runMv cell.val 5 word ups)) hp h wait

theorem turns_meshTx {m m' : Mod} (hp : m.boot.powered = true) (cell : Fin 4704) (word : BitVec 64) (ups : List
    Upset) (h : m.runMv cell.val 6 word ups = m') :
    Safety.Turns m (.meshTx cell word ups) m' := by
  intro wait; unfold exec execMeshTx; exact turns_on (f := (fun m : Mod => m.runMv cell.val 6 word ups)) hp h wait

theorem turns_meshRx {m m' : Mod} (hp : m.boot.powered = true) (cell : Fin 4704) (word : BitVec 64) (ups : List
    Upset) (h : m.runMv cell.val 7 word ups = m') :
    Safety.Turns m (.meshRx cell word ups) m' := by
  intro wait; unfold exec execMeshRx; exact turns_on (f := (fun m : Mod => m.runMv cell.val 7 word ups)) hp h wait

theorem turns_laneTx {m m' : Mod} (hp : m.boot.powered = true) (cell : Fin 4704) (word : BitVec 64) (ups : List
    Upset) (h : m.runMv cell.val 8 word ups = m') :
    Safety.Turns m (.laneTx cell word ups) m' := by
  intro wait; unfold exec execLaneTx; exact turns_on (f := (fun m : Mod => m.runMv cell.val 8 word ups)) hp h wait

theorem turns_laneRx {m m' : Mod} (hp : m.boot.powered = true) (cell : Fin 4704) (word : BitVec 64) (ups : List
    Upset) (h : m.runMv cell.val 9 word ups = m') :
    Safety.Turns m (.laneRx cell word ups) m' := by
  intro wait; unfold exec execLaneRx; exact turns_on (f := (fun m : Mod => m.runMv cell.val 9 word ups)) hp h wait

theorem turns_gather {m m' : Mod} (hp : m.boot.powered = true) (cell : Fin 4704) (word : BitVec 64) (ups : List
    Upset) (h : m.runMv cell.val 10 word ups = m') :
    Safety.Turns m (.gather cell word ups) m' := by
  intro wait; unfold exec execGather; exact turns_on (f := (fun m : Mod => m.runMv cell.val 10 word ups)) hp h wait

theorem turns_issue {m m' : Mod} (hp : m.boot.powered = true) (row : Fin 96) (dq : Fin 64) (tag : Fin 256) (xb :
    Bool) (dline : Fin 8192) (hostDesc : BitVec 512) (h : m.runRow row.val ⟨1, dq.val, tag.val, xb, dline.val⟩
    SbF.nop hostDesc = m') :
    Safety.Turns m (.issue row dq tag xb dline hostDesc) m' := by
  intro wait; unfold exec execIssue; exact turns_on (f := (fun m : Mod => m.runRow row.val ⟨1, dq.val, tag.val, xb,
    dline.val⟩ SbF.nop hostDesc)) hp h wait

theorem turns_issueD {m m' : Mod} (hp : m.boot.powered = true) (row : Fin 96) (q : Fin 4) (tag : Fin 256)
    (xb : Bool) (dline : Fin 8192) (lsrc : Fin 8) (h : m.runRow row.val ⟨2, 0, tag.val, xb, dline.val⟩
    { SbF.nop with q := q.val, lsrc := lsrc.val } 0#512 = m') :
    Safety.Turns m (.issueD row q tag xb dline lsrc) m' := by
  intro wait; unfold exec execIssueD; exact turns_on (f :=
    (fun m : Mod => m.runRow row.val ⟨2, 0, tag.val, xb, dline.val⟩
    { SbF.nop with q := q.val, lsrc := lsrc.val } 0#512)) hp h wait

theorem turns_waitq {m m' : Mod} (hp : m.boot.powered = true) (row : Fin 96) (q : Fin 4)
    (h : m.runRow row.val DmF.nop { SbF.nop with op := 1, q := q.val } 0#512 = m') :
    Safety.Turns m (.waitq row q) m' := by
  intro wait; unfold exec execWaitq; exact turns_on (f := (fun m : Mod => m.runRow row.val DmF.nop
    { SbF.nop with op := 1, q := q.val } 0#512)) hp h wait

theorem turns_postq {m m' : Mod} (hp : m.boot.powered = true) (row : Fin 96) (tag : Fin 256) (lsrc : Fin 8)
    (h : m.runRow row.val DmF.nop { SbF.nop with op := 2, tag := tag.val, lsrc := lsrc.val } 0#512 = m') :
    Safety.Turns m (.postq row tag lsrc) m' := by
  intro wait; unfold exec execPostq; exact turns_on (f := (fun m : Mod => m.runRow row.val DmF.nop
    { SbF.nop with op := 2, tag := tag.val, lsrc := lsrc.val } 0#512)) hp h wait

theorem turns_waittag {m m' : Mod} (hp : m.boot.powered = true) (row : Fin 96) (tag : Fin 256)
    (h : m.runRow row.val DmF.nop { SbF.nop with op := 3, tag := tag.val } 0#512 = m') :
    Safety.Turns m (.waittag row tag) m' := by
  intro wait; unfold exec execWaittag; exact turns_on (f := (fun m : Mod => m.runRow row.val DmF.nop
    { SbF.nop with op := 3, tag := tag.val } 0#512)) hp h wait

theorem turns_debugRead {m m' : Mod} (hp : m.boot.powered = true) (sel : BitVec 32) (h : m.debugRead sel = m') :
    Safety.Turns m (.debugRead sel) m' := by
  intro wait; unfold exec execDebugRead; exact turns_on (f := (fun m : Mod => m.debugRead sel)) hp h wait

theorem turns_dmaqHead {m m' : Mod} (hp : m.boot.powered = true) (q : Fin 64) (v : BitVec 16) (hostComps : Nat)
    (h : m.dmaqHead q.val v.toNat hostComps = m') :
    Safety.Turns m (.dmaqHead q v hostComps) m' := by
  intro wait; unfold exec execDmaqHead; exact turns_on (f := (fun m : Mod => m.dmaqHead q.val v.toNat hostComps)) hp
    h wait

theorem turns_dmaqCtrlEnable {m m' : Mod} (hp : m.boot.powered = true) (q : Fin 64) (v : BitVec 64)
    (h : m.dmaqCtrl q.val v.toNat = m') :
    Safety.Turns m (.dmaqCtrlEnable q v) m' := by
  intro wait; unfold exec execDmaqCtrlEnable; exact turns_on (f := (fun m : Mod => m.dmaqCtrl q.val v.toNat)) hp h
    wait

theorem turns_dmaCopy {m m' : Mod} (hp : m.boot.powered = true) (source : DmaSource) (early : Nat)
    (h : m.dmaStart 1 source early = m') :
    Safety.Turns m (.dmaCopy source early) m' := by
  intro wait; unfold exec execDmaCopy; exact turns_on (f := (fun m : Mod => m.dmaStart 1 source early)) hp h wait

theorem turns_transpose {m m' : Mod} (hp : m.boot.powered = true) (source : DmaSource) (early : Nat)
    (h : m.dmaStart 2 source early = m') :
    Safety.Turns m (.transpose source early) m' := by
  intro wait; unfold exec execTranspose; exact turns_on (f := (fun m : Mod => m.dmaStart 2 source early)) hp h wait

theorem turns_scatter {m m' : Mod} (hp : m.boot.powered = true) (source : DmaSource) (early : Nat)
    (h : m.dmaStart 3 source early = m') :
    Safety.Turns m (.scatter source early) m' := by
  intro wait; unfold exec execScatter; exact turns_on (f := (fun m : Mod => m.dmaStart 3 source early)) hp h wait

theorem turns_dmaFallow {m m' : Mod} (hp : m.boot.powered = true) (source : DmaSource) (early : Nat)
    (h : m.dmaStart 4 source early = m') :
    Safety.Turns m (.dmaFallow source early) m' := by
  intro wait; unfold exec execDmaFallow; exact turns_on (f := (fun m : Mod => m.dmaStart 4 source early)) hp h wait

theorem turns_transferCompletion {m m' : Mod} (hp : m.boot.powered = true) (transfer : Nat)
    (h : m.transferCompletion transfer Mod.xferHeld = m') :
    Safety.Turns m (.transferCompletion transfer) m' := by
  intro wait; unfold exec execTransferCompletion; exact turns_on (f := (fun m : Mod => m.transferCompletion transfer
    Mod.xferHeld)) hp h wait

theorem turns_deadlineDue {m m' : Mod} (hp : m.boot.powered = true) (row : Fin 96) (tag : Fin 256)
    (h : m.deadlineMiss row.val tag.val = m') :
    Safety.Turns m (.deadlineDue row tag) m' := by
  intro wait; unfold exec execDeadlineDue; exact turns_on (f := (fun m : Mod => m.deadlineMiss row.val tag.val)) hp h
    wait

theorem turns_resetQuiesceTimeout {m m' : Mod} (hp : m.boot.powered = true) (h : m.quiesceTimeout = m') :
    Safety.Turns m (.resetQuiesceTimeout) m' := by
  intro wait; unfold exec execResetQuiesceTimeout; exact turns_on (f := (fun m : Mod => m.quiesceTimeout)) hp h wait

theorem turns_glnCtrlGo {m m' : Mod} (hp : m.boot.powered = true) (target : GlnTarget) (v : BitVec 64)
    (h : m.glnGo target v = m') :
    Safety.Turns m (.glnCtrlGo target v) m' := by
  intro wait; unfold exec execGlnCtrlGo; exact turns_on (f := (fun m : Mod => m.glnGo target v)) hp h wait

theorem turns_glnCtrlAbort {m m' : Mod} (hp : m.boot.powered = true) (target : GlnTarget) (v : BitVec 64)
    (h : m.glnCtrlAbort target v = m') :
    Safety.Turns m (.glnCtrlAbort target v) m' := by
  intro wait; unfold exec execGlnCtrlAbort; exact turns_on (f := (fun m : Mod => m.glnCtrlAbort target v)) hp h wait

theorem turns_programStoreWrite {m m' : Mod} (hp : m.boot.powered = true) (target : GlnTarget) (word : Fin 512) (v :
    BitVec 64) (h : m.writeStores target (8 * word.val) (leBytes 8 v.toNat) = m') :
    Safety.Turns m (.programStoreWrite target word v) m' := by
  intro wait; unfold exec execProgramStoreWrite; exact turns_on (f := (fun m : Mod => m.writeStores target (8 *
    word.val) (leBytes 8 v.toNat))) hp h wait

theorem turns_programStart {m m' : Mod} (hp : m.boot.powered = true) (g : Fin 12288) (h : m.glnStart g.val = m') :
    Safety.Turns m (.programStart g) m' := by
  intro wait; unfold exec execProgramStart; exact turns_on (f := (fun m : Mod => m.glnStart g.val)) hp h wait

theorem turns_glnNop {m m' : Mod} (hp : m.boot.powered = true) (g : Fin 12288) (h : m.glnRun 0x00 g.val = m') :
    Safety.Turns m (.glnNop g) m' := by
  intro wait; unfold exec execGlnNop; exact turns_on (f := (fun m : Mod => m.glnRun 0x00 g.val)) hp h wait

theorem turns_halt {m m' : Mod} (hp : m.boot.powered = true) (g : Fin 12288) (h : m.glnRun 0x01 g.val = m') :
    Safety.Turns m (.halt g) m' := by
  intro wait; unfold exec execHalt; exact turns_on (f := (fun m : Mod => m.glnRun 0x01 g.val)) hp h wait

theorem turns_jmp {m m' : Mod} (hp : m.boot.powered = true) (g : Fin 12288) (h : m.glnRun 0x02 g.val = m') :
    Safety.Turns m (.jmp g) m' := by
  intro wait; unfold exec execJmp; exact turns_on (f := (fun m : Mod => m.glnRun 0x02 g.val)) hp h wait

theorem turns_bz {m m' : Mod} (hp : m.boot.powered = true) (g : Fin 12288) (h : m.glnRun 0x03 g.val = m') :
    Safety.Turns m (.bz g) m' := by
  intro wait; unfold exec execBz; exact turns_on (f := (fun m : Mod => m.glnRun 0x03 g.val)) hp h wait

theorem turns_loop {m m' : Mod} (hp : m.boot.powered = true) (g : Fin 12288) (h : m.glnRun 0x04 g.val = m') :
    Safety.Turns m (.loop g) m' := by
  intro wait; unfold exec execLoop; exact turns_on (f := (fun m : Mod => m.glnRun 0x04 g.val)) hp h wait

theorem turns_movi {m m' : Mod} (hp : m.boot.powered = true) (g : Fin 12288) (h : m.glnRun 0x08 g.val = m') :
    Safety.Turns m (.movi g) m' := by
  intro wait; unfold exec execMovi; exact turns_on (f := (fun m : Mod => m.glnRun 0x08 g.val)) hp h wait

theorem turns_movhi {m m' : Mod} (hp : m.boot.powered = true) (g : Fin 12288) (h : m.glnRun 0x09 g.val = m') :
    Safety.Turns m (.movhi g) m' := by
  intro wait; unfold exec execMovhi; exact turns_on (f := (fun m : Mod => m.glnRun 0x09 g.val)) hp h wait

theorem turns_movp {m m' : Mod} (hp : m.boot.powered = true) (g : Fin 12288) (h : m.glnRun 0x0A g.val = m') :
    Safety.Turns m (.movp g) m' := by
  intro wait; unfold exec execMovp; exact turns_on (f := (fun m : Mod => m.glnRun 0x0A g.val)) hp h wait

theorem turns_addi {m m' : Mod} (hp : m.boot.powered = true) (g : Fin 12288) (h : m.glnRun 0x0B g.val = m') :
    Safety.Turns m (.addi g) m' := by
  intro wait; unfold exec execAddi; exact turns_on (f := (fun m : Mod => m.glnRun 0x0B g.val)) hp h wait

theorem turns_glnAdd {m m' : Mod} (hp : m.boot.powered = true) (g : Fin 12288) (h : m.glnRun 0x0C g.val = m') :
    Safety.Turns m (.glnAdd g) m' := by
  intro wait; unfold exec execGlnAdd; exact turns_on (f := (fun m : Mod => m.glnRun 0x0C g.val)) hp h wait

theorem turns_xori {m m' : Mod} (hp : m.boot.powered = true) (g : Fin 12288) (h : m.glnRun 0x0D g.val = m') :
    Safety.Turns m (.xori g) m' := by
  intro wait; unfold exec execXori; exact turns_on (f := (fun m : Mod => m.glnRun 0x0D g.val)) hp h wait

theorem turns_shli {m m' : Mod} (hp : m.boot.powered = true) (g : Fin 12288) (h : m.glnRun 0x0E g.val = m') :
    Safety.Turns m (.shli g) m' := by
  intro wait; unfold exec execShli; exact turns_on (f := (fun m : Mod => m.glnRun 0x0E g.val)) hp h wait

theorem turns_putr {m m' : Mod} (hp : m.boot.powered = true) (g : Fin 12288) (h : m.glnRun 0x0F g.val = m') :
    Safety.Turns m (.putr g) m' := by
  intro wait; unfold exec execPutr; exact turns_on (f := (fun m : Mod => m.glnRun 0x0F g.val)) hp h wait

theorem turns_ld {m m' : Mod} (hp : m.boot.powered = true) (g : Fin 12288) (h : m.glnRun 0x10 g.val = m') :
    Safety.Turns m (.ld g) m' := by
  intro wait; unfold exec execLd; exact turns_on (f := (fun m : Mod => m.glnRun 0x10 g.val)) hp h wait

theorem turns_st {m m' : Mod} (hp : m.boot.powered = true) (g : Fin 12288) (h : m.glnRun 0x11 g.val = m') :
    Safety.Turns m (.st g) m' := by
  intro wait; unfold exec execSt; exact turns_on (f := (fun m : Mod => m.glnRun 0x11 g.val)) hp h wait

theorem turns_lds {m m' : Mod} (hp : m.boot.powered = true) (g : Fin 12288) (h : m.glnRun 0x12 g.val = m') :
    Safety.Turns m (.lds g) m' := by
  intro wait; unfold exec execLds; exact turns_on (f := (fun m : Mod => m.glnRun 0x12 g.val)) hp h wait

theorem turns_ldsa {m m' : Mod} (hp : m.boot.powered = true) (g : Fin 12288) (h : m.glnRun 0x13 g.val = m') :
    Safety.Turns m (.ldsa g) m' := by
  intro wait; unfold exec execLdsa; exact turns_on (f := (fun m : Mod => m.glnRun 0x13 g.val)) hp h wait

theorem turns_latch {m m' : Mod} (hp : m.boot.powered = true) (g : Fin 12288) (h : m.glnRun 0x14 g.val = m') :
    Safety.Turns m (.latch g) m' := by
  intro wait; unfold exec execLatch; exact turns_on (f := (fun m : Mod => m.glnRun 0x14 g.val)) hp h wait

theorem turns_qst {m m' : Mod} (hp : m.boot.powered = true) (g : Fin 12288) (h : m.glnRun 0x15 g.val = m') :
    Safety.Turns m (.qst g) m' := by
  intro wait; unfold exec execQst; exact turns_on (f := (fun m : Mod => m.glnRun 0x15 g.val)) hp h wait

theorem turns_vins {m m' : Mod} (hp : m.boot.powered = true) (g : Fin 12288) (h : m.glnRun 0x16 g.val = m') :
    Safety.Turns m (.vins g) m' := by
  intro wait; unfold exec execVins; exact turns_on (f := (fun m : Mod => m.glnRun 0x16 g.val)) hp h wait

theorem turns_lda {m m' : Mod} (hp : m.boot.powered = true) (g : Fin 12288) (h : m.glnRun 0x17 g.val = m') :
    Safety.Turns m (.lda g) m' := by
  intro wait; unfold exec execLda; exact turns_on (f := (fun m : Mod => m.glnRun 0x17 g.val)) hp h wait

theorem turns_crc {m m' : Mod} (hp : m.boot.powered = true) (g : Fin 12288) (h : m.glnRun 0x18 g.val = m') :
    Safety.Turns m (.crc g) m' := by
  intro wait; unfold exec execCrc; exact turns_on (f := (fun m : Mod => m.glnRun 0x18 g.val)) hp h wait

theorem turns_vadd {m m' : Mod} (hp : m.boot.powered = true) (g : Fin 12288) (h : m.glnRun 0x20 g.val = m') :
    Safety.Turns m (.vadd g) m' := by
  intro wait; unfold exec execVadd; exact turns_on (f := (fun m : Mod => m.glnRun 0x20 g.val)) hp h wait

theorem turns_vmul {m m' : Mod} (hp : m.boot.powered = true) (g : Fin 12288) (h : m.glnRun 0x21 g.val = m') :
    Safety.Turns m (.vmul g) m' := by
  intro wait; unfold exec execVmul; exact turns_on (f := (fun m : Mod => m.glnRun 0x21 g.val)) hp h wait

theorem turns_vfma {m m' : Mod} (hp : m.boot.powered = true) (g : Fin 12288) (h : m.glnRun 0x22 g.val = m') :
    Safety.Turns m (.vfma g) m' := by
  intro wait; unfold exec execVfma; exact turns_on (f := (fun m : Mod => m.glnRun 0x22 g.val)) hp h wait

theorem turns_vmax {m m' : Mod} (hp : m.boot.powered = true) (g : Fin 12288) (h : m.glnRun 0x23 g.val = m') :
    Safety.Turns m (.vmax g) m' := by
  intro wait; unfold exec execVmax; exact turns_on (f := (fun m : Mod => m.glnRun 0x23 g.val)) hp h wait

theorem turns_vmin {m m' : Mod} (hp : m.boot.powered = true) (g : Fin 12288) (h : m.glnRun 0x24 g.val = m') :
    Safety.Turns m (.vmin g) m' := by
  intro wait; unfold exec execVmin; exact turns_on (f := (fun m : Mod => m.glnRun 0x24 g.val)) hp h wait

theorem turns_vrcp {m m' : Mod} (hp : m.boot.powered = true) (g : Fin 12288) (h : m.glnRun 0x25 g.val = m') :
    Safety.Turns m (.vrcp g) m' := by
  intro wait; unfold exec execVrcp; exact turns_on (f := (fun m : Mod => m.glnRun 0x25 g.val)) hp h wait

theorem turns_vrsq {m m' : Mod} (hp : m.boot.powered = true) (g : Fin 12288) (h : m.glnRun 0x26 g.val = m') :
    Safety.Turns m (.vrsq g) m' := by
  intro wait; unfold exec execVrsq; exact turns_on (f := (fun m : Mod => m.glnRun 0x26 g.val)) hp h wait

theorem turns_vsplat {m m' : Mod} (hp : m.boot.powered = true) (g : Fin 12288) (h : m.glnRun 0x27 g.val = m') :
    Safety.Turns m (.vsplat g) m' := by
  intro wait; unfold exec execVsplat; exact turns_on (f := (fun m : Mod => m.glnRun 0x27 g.val)) hp h wait

theorem turns_vsum {m m' : Mod} (hp : m.boot.powered = true) (g : Fin 12288) (h : m.glnRun 0x28 g.val = m') :
    Safety.Turns m (.vsum g) m' := by
  intro wait; unfold exec execVsum; exact turns_on (f := (fun m : Mod => m.glnRun 0x28 g.val)) hp h wait

theorem turns_vamax {m m' : Mod} (hp : m.boot.powered = true) (g : Fin 12288) (h : m.glnRun 0x29 g.val = m') :
    Safety.Turns m (.vamax g) m' := by
  intro wait; unfold exec execVamax; exact turns_on (f := (fun m : Mod => m.glnRun 0x29 g.val)) hp h wait

theorem turns_glnWatchdog {m m' : Mod} (hp : m.boot.powered = true) (g : Fin 12288) (h : m.glnWatchdog g.val = m') :
    Safety.Turns m (.glnWatchdog g) m' := by
  intro wait; unfold exec execGlnWatchdog; exact turns_on (f := (fun m : Mod => m.glnWatchdog g.val)) hp h wait

theorem turns_glnCompletion {m m' : Mod} (hp : m.boot.powered = true) (done : GlnDone) (drained : Nat) (optimiser :
    Bool) (h : m.glnCompletion done drained optimiser = m') :
    Safety.Turns m (.glnCompletion done drained optimiser) m' := by
  intro wait; unfold exec execGlnCompletion; exact turns_on (f := (fun m : Mod => m.glnCompletion done drained
    optimiser)) hp h wait

theorem turns_leaFlit {m m' : Mod} (hp : m.boot.powered = true) (port : Fin 36) (flit : Bytes) (fecBad : Bool) (input
    : BarrierIn) (h : m.leaFlit port.val flit fecBad input = m') :
    Safety.Turns m (.leaFlit port flit fecBad input) m' := by
  intro wait; unfold exec execLeaFlit; exact turns_on (f := (fun m : Mod => m.leaFlit port.val flit fecBad input)) hp
    h wait

theorem turns_idleFlit {m m' : Mod} (hp : m.boot.powered = true) (port : Fin 36) (flit : Bytes) (fecBad : Bool)
    (input : BarrierIn) (h : m.idleFlit port.val flit fecBad input = m') :
    Safety.Turns m (.idleFlit port flit fecBad input) m' := by
  intro wait; unfold exec execIdleFlit; exact turns_on (f := (fun m : Mod => m.idleFlit port.val flit fecBad input))
    hp h wait

theorem turns_ident {m m' : Mod} (hp : m.boot.powered = true) (port : Fin 36) (flit : Bytes) (fecBad : Bool)
    (h : m.linkFlit port.val 1 flit fecBad = m') :
    Safety.Turns m (.ident port flit fecBad) m' := by
  intro wait; unfold exec execIdent; exact turns_on (f := (fun m : Mod => m.linkFlit port.val 1 flit fecBad)) hp h
    wait

theorem turns_laneReset {m m' : Mod} (hp : m.boot.powered = true) (port : Fin 36) (flit : Bytes) (fecBad : Bool)
    (h : m.linkFlit port.val 2 flit fecBad = m') :
    Safety.Turns m (.laneReset port flit fecBad) m' := by
  intro wait; unfold exec execLaneReset; exact turns_on (f := (fun m : Mod => m.linkFlit port.val 2 flit fecBad)) hp
    h wait

theorem turns_linkFlitRepeat {m m' : Mod} (hp : m.boot.powered = true) (link : Fin 37)
    (h : (if link.val = 36 then m.jnlRepeatLinks else m.repeatLinks link.val) = m') :
    Safety.Turns m (.linkFlitRepeat link) m' := by
  intro wait; unfold exec execLinkFlitRepeat; exact turns_on (f := (fun m : Mod => (if link.val = 36 then
    m.jnlRepeatLinks else m.repeatLinks link.val))) hp h wait

theorem turns_identTimer {m m' : Mod} (hp : m.boot.powered = true) (h : m.identAll = m') :
    Safety.Turns m (.identTimer) m' := by
  intro wait; unfold exec execIdentTimer; exact turns_on (f := (fun m : Mod => m.identAll)) hp h wait

theorem turns_replayTimeout {m m' : Mod} (hp : m.boot.powered = true) (port : Fin 36) (be : Bool)
    (h : m.portReplayTimeout port.val be = m') :
    Safety.Turns m (.replayTimeout port be) m' := by
  intro wait; unfold exec execReplayTimeout; exact turns_on (f := (fun m : Mod => m.portReplayTimeout port.val be))
    hp h wait

theorem turns_portSignalDetected {m m' : Mod} (hp : m.boot.powered = true) (port : Fin 36)
    (h : m.portSignal port.val = m') :
    Safety.Turns m (.portSignalDetected port) m' := by
  intro wait; unfold exec execPortSignalDetected; exact turns_on (f := (fun m : Mod => m.portSignal port.val)) hp h
    wait

theorem turns_portSignalDone {m m' : Mod} (hp : m.boot.powered = true) (port : Fin 36)
    (h : m.portSignalDone port.val = m') :
    Safety.Turns m (.portSignalDone port) m' := by
  intro wait; unfold exec execPortSignalDone; exact turns_on (f := (fun m : Mod => m.portSignalDone port.val)) hp h
    wait

theorem turns_portAlignDone {m m' : Mod} (hp : m.boot.powered = true) (port : Fin 36)
    (h : m.portAlignDone port.val = m') :
    Safety.Turns m (.portAlignDone port) m' := by
  intro wait; unfold exec execPortAlignDone; exact turns_on (f := (fun m : Mod => m.portAlignDone port.val)) hp h wait

theorem turns_portStateTimeout {m m' : Mod} (hp : m.boot.powered = true) (port : Fin 36)
    (h : m.portTimeout port.val = m') :
    Safety.Turns m (.portStateTimeout port) m' := by
  intro wait; unfold exec execPortStateTimeout; exact turns_on (f := (fun m : Mod => m.portTimeout port.val)) hp h
    wait

theorem turns_portCodewordUe {m m' : Mod} (hp : m.boot.powered = true) (port : Fin 36) (h : m.portUe port.val = m') :
    Safety.Turns m (.portCodewordUe port) m' := by
  intro wait; unfold exec execPortCodewordUe; exact turns_on (f := (fun m : Mod => m.portUe port.val)) hp h wait

theorem turns_fecWindow {m m' : Mod} (hp : m.boot.powered = true) (port : Fin 36) (corrected received : Nat)
    (h : m.portFec port.val corrected received = m') :
    Safety.Turns m (.fecWindow port corrected received) m' := by
  intro wait; unfold exec execFecWindow; exact turns_on (f := (fun m : Mod => m.portFec port.val corrected received))
    hp h wait

theorem turns_retrainReq {m m' : Mod} (hp : m.boot.powered = true) (fd : Bool) (v : BitVec 8)
    (h : m.sdoPut fd 0x3803 0 v = m') :
    Safety.Turns m (.retrainReq fd v) m' := by
  intro wait; unfold exec execRetrainReq; exact turns_on (f := (fun m : Mod => m.sdoPut fd 0x3803 0 v)) hp h wait

theorem turns_leaTransferDue {m m' : Mod} (hp : m.boot.powered = true) (port : Fin 36) (recv : Bool)
    (h : m.transferDue port.val recv = m') :
    Safety.Turns m (.leaTransferDue port recv) m' := by
  intro wait; unfold exec execLeaTransferDue; exact turns_on (f := (fun m : Mod => m.transferDue port.val recv)) hp h
    wait

theorem turns_hdgBeqHead {m m' : Mod} (hp : m.boot.powered = true) (q : Fin 8) (v : BitVec 16)
    (h : m.beqHead q.val v = m') :
    Safety.Turns m (.hdgBeqHead q v) m' := by
  intro wait; unfold exec execHdgBeqHead; exact turns_on (f := (fun m : Mod => m.beqHead q.val v)) hp h wait

theorem turns_beWrite {m m' : Mod} (hp : m.boot.powered = true) (port : Fin 36) (h : m.beArrive port.val 1 = m') :
    Safety.Turns m (.beWrite port) m' := by
  intro wait; unfold exec execBeWrite; exact turns_on (f := (fun m : Mod => m.beArrive port.val 1)) hp h wait

theorem turns_beAck {m m' : Mod} (hp : m.boot.powered = true) (port : Fin 36) (h : m.beArrive port.val 2 = m') :
    Safety.Turns m (.beAck port) m' := by
  intro wait; unfold exec execBeAck; exact turns_on (f := (fun m : Mod => m.beArrive port.val 2)) hp h wait

theorem turns_ackTimeout {m m' : Mod} (hp : m.boot.powered = true) (msgId : Nat) (h : m.beSettle msgId 0xA0#8 = m') :
    Safety.Turns m (.ackTimeout msgId) m' := by
  intro wait; unfold exec execAckTimeout; exact turns_on (f := (fun m : Mod => m.beSettle msgId 0xA0#8)) hp h wait

theorem turns_jnlIdent {m m' : Mod} (hp : m.boot.powered = true) (flit : Bytes) (fecBad : Bool)
    (h : m.jnlIdent flit fecBad = m') :
    Safety.Turns m (.jnlIdent flit fecBad) m' := by
  intro wait; unfold exec execJnlIdent; exact turns_on (f := (fun m : Mod => m.jnlIdent flit fecBad)) hp h wait

theorem turns_memoryWrite {m m' : Mod} (hp : m.boot.powered = true) (addr : BitVec 64) (data : Bytes) (ep : Bool)
    (comps : Nat) (h : m.memoryWritePacket addr.toNat data ep comps = m') :
    Safety.Turns m (.memoryWrite addr data ep comps) m' := by
  intro wait; unfold exec execMemoryWrite; exact turns_on (f := (fun m : Mod => m.memoryWritePacket addr.toNat data
    ep comps)) hp h wait

theorem turns_memoryRead {m m' : Mod} (hp : m.boot.powered = true) (addr : BitVec 64) (len : Nat) (tag : BitVec 10)
    (h : m.memoryReadPacket addr.toNat len tag.toNat = m') :
    Safety.Turns m (.memoryRead addr len tag) m' := by
  intro wait; unfold exec execMemoryRead; exact turns_on (f := (fun m : Mod => m.memoryReadPacket addr.toNat len
    tag.toNat)) hp h wait

theorem turns_completion {m m' : Mod} (hp : m.boot.powered = true) (tag : BitVec 10) (data : Bytes) (ep : Bool) (cst
    : BitVec 3) (h : m.hostCompletion tag.toNat data ep cst.toNat = m') :
    Safety.Turns m (.completion tag data ep cst) m' := by
  intro wait; unfold exec execCompletion; exact turns_on (f := (fun m : Mod => m.hostCompletion tag.toNat data ep
    cst.toNat)) hp h wait

theorem turns_jnlReplayTimeout {m m' : Mod} (hp : m.boot.powered = true) (h : m.jnlReplayTimeout = m') :
    Safety.Turns m (.jnlReplayTimeout) m' := by
  intro wait; unfold exec execJnlReplayTimeout; exact turns_on (f := (fun m : Mod => m.jnlReplayTimeout)) hp h wait

theorem turns_jnlSignalDetected {m m' : Mod} (hp : m.boot.powered = true) (h : m.jnlSignal = m') :
    Safety.Turns m (.jnlSignalDetected) m' := by
  intro wait; unfold exec execJnlSignalDetected; exact turns_on (f := (fun m : Mod => m.jnlSignal)) hp h wait

theorem turns_jnlSignalDone {m m' : Mod} (hp : m.boot.powered = true) (h : m.jnlSignalDone = m') :
    Safety.Turns m (.jnlSignalDone) m' := by
  intro wait; unfold exec execJnlSignalDone; exact turns_on (f := (fun m : Mod => m.jnlSignalDone)) hp h wait

theorem turns_jnlAlignDone {m m' : Mod} (hp : m.boot.powered = true) (h : m.jnlAlignDone = m') :
    Safety.Turns m (.jnlAlignDone) m' := by
  intro wait; unfold exec execJnlAlignDone; exact turns_on (f := (fun m : Mod => m.jnlAlignDone)) hp h wait

theorem turns_jnlStateTimeout {m m' : Mod} (hp : m.boot.powered = true) (h : m.jnlTimeout = m') :
    Safety.Turns m (.jnlStateTimeout) m' := by
  intro wait; unfold exec execJnlStateTimeout; exact turns_on (f := (fun m : Mod => m.jnlTimeout)) hp h wait

theorem turns_jnlCodewordUe {m m' : Mod} (hp : m.boot.powered = true) (h : m.jnlUe = m') :
    Safety.Turns m (.jnlCodewordUe) m' := by
  intro wait; unfold exec execJnlCodewordUe; exact turns_on (f := (fun m : Mod => m.jnlUe)) hp h wait

theorem turns_jnlFecWindow {m m' : Mod} (hp : m.boot.powered = true) (corrected received : Nat)
    (h : m.jnlFec corrected received = m') :
    Safety.Turns m (.jnlFecWindow corrected received) m' := by
  intro wait; unfold exec execJnlFecWindow; exact turns_on (f := (fun m : Mod => m.jnlFec corrected received)) hp h
    wait

theorem turns_jnlRetrainReq {m m' : Mod} (hp : m.boot.powered = true) (fd : Bool) (v : BitVec 8)
    (h : m.sdoPut fd 0x3841 0 v = m') :
    Safety.Turns m (.jnlRetrainReq fd v) m' := by
  intro wait; unfold exec execJnlRetrainReq; exact turns_on (f := (fun m : Mod => m.sdoPut fd 0x3841 0 v)) hp h wait

theorem turns_jnlIntPend {m m' : Mod} (hp : m.boot.powered = true) (high : Bool) (v : BitVec 64)
    (h : m.hostReg (if high then 0x48 else 0x40) (regBytes v) = m') :
    Safety.Turns m (.jnlIntPend high v) m' := by
  intro wait; unfold exec execJnlIntPend; exact turns_on (f := (fun m : Mod => m.hostReg (if high then 0x48 else
    0x40) (regBytes v))) hp h wait

theorem turns_jnlIntMask {m m' : Mod} (hp : m.boot.powered = true) (high : Bool) (v : BitVec 64)
    (h : m.hostReg (if high then 0x38 else 0x30) (regBytes v) = m') :
    Safety.Turns m (.jnlIntMask high v) m' := by
  intro wait; unfold exec execJnlIntMask; exact turns_on (f := (fun m : Mod => m.hostReg (if high then 0x38 else
    0x30) (regBytes v))) hp h wait

theorem turns_hrmCopy {m m' : Mod} (hp : m.boot.powered = true) (core : Fin 16) (line : Fin 32) (data : Bytes)
    (h : m.hrmLine core.val line.val data = m') :
    Safety.Turns m (.hrmCopy core line data) m' := by
  intro wait; unfold exec execHrmCopy; exact turns_on (f := (fun m : Mod => m.hrmLine core.val line.val data)) hp h
    wait

theorem turns_ccmbInHead {m m' : Mod} (hp : m.boot.powered = true) (core : Fin 16) (v : BitVec 16)
    (h : m.hostReg (0x200000 + core.val * 0x10000) (leBytes 8 v.toNat) = m') :
    Safety.Turns m (.ccmbInHead core v) m' := by
  intro wait; unfold exec execCcmbInHead; exact turns_on (f := (fun m : Mod => m.hostReg (0x200000 + core.val *
    0x10000) (leBytes 8 v.toNat))) hp h wait

theorem turns_mailboxRecord {m m' : Mod} (hp : m.boot.powered = true) (core : Fin 16)
    (h : m.mailboxRecord core.val = m') :
    Safety.Turns m (.mailboxRecord core) m' := by
  intro wait; unfold exec execMailboxRecord; exact turns_on (f := (fun m : Mod => m.mailboxRecord core.val)) hp h wait

theorem turns_mailboxCompletion {m m' : Mod} (hp : m.boot.powered = true) (core : Fin 16)
    (h : m.mailboxCompletion core.val = m') :
    Safety.Turns m (.mailboxCompletion core) m' := by
  intro wait; unfold exec execMailboxCompletion; exact turns_on (f := (fun m : Mod => m.mailboxCompletion core.val))
    hp h wait

theorem turns_leaSize {m m' : Mod} (hp : m.boot.powered = true) (fd : Bool) (v : BitVec 16)
    (h : m.sdoPut fd 0x4800 2 v = m') :
    Safety.Turns m (.leaSize fd v) m' := by
  intro wait; unfold exec execLeaSize; exact turns_on (f := (fun m : Mod => m.sdoPut fd 0x4800 2 v)) hp h wait

theorem turns_leaCommit {m m' : Mod} (hp : m.boot.powered = true) (fd : Bool) (v : BitVec 8)
    (h : m.sdoPut fd 0x4800 7 v = m') :
    Safety.Turns m (.leaCommit fd v) m' := by
  intro wait; unfold exec execLeaCommit; exact turns_on (f := (fun m : Mod => m.sdoPut fd 0x4800 7 v)) hp h wait

theorem turns_leaStart {m m' : Mod} (hp : m.boot.powered = true) (fd : Bool) (input : BarrierIn)
    (h : m.sdoWhole fd 0x4801 1 [1#8] ⟨[], input⟩ = m') :
    Safety.Turns m (.leaStart fd input) m' := by
  intro wait; unfold exec execLeaStart; exact turns_on (f := (fun m : Mod => m.sdoWhole fd 0x4801 1 [1#8] ⟨[],
    input⟩)) hp h wait

theorem turns_leave {m m' : Mod} (hp : m.boot.powered = true) (fd : Bool) (h : m.sdoPut fd 0x4801 1 2#8 = m') :
    Safety.Turns m (.leave fd) m' := by
  intro wait; unfold exec execLeave; exact turns_on (f := (fun m : Mod => m.sdoPut fd 0x4801 1 2#8)) hp h wait

theorem turns_stopReq {m m' : Mod} (hp : m.boot.powered = true) (fd : Bool) (v : BitVec 8)
    (h : m.sdoPut fd 0x4801 2 v = m') :
    Safety.Turns m (.stopReq fd v) m' := by
  intro wait; unfold exec execStopReq; exact turns_on (f := (fun m : Mod => m.sdoPut fd 0x4801 2 v)) hp h wait

theorem turns_report {m m' : Mod} (hp : m.boot.powered = true) (gate : Fin 6) (token : Token) (input : BarrierIn)
    (h : m.takeToken gate.val { token with type := 1#8 } input = m') :
    Safety.Turns m (.report gate token input) m' := by
  intro wait; unfold exec execReport; exact turns_on (f := (fun m : Mod => m.takeToken gate.val { token with type :=
    1#8 } input)) hp h wait

theorem turns_release {m m' : Mod} (hp : m.boot.powered = true) (gate : Fin 6) (token : Token) (input : BarrierIn) (h
    : m.takeToken gate.val { token with type := 2#8 } input = m') :
    Safety.Turns m (.release gate token input) m' := by
  intro wait; unfold exec execRelease; exact turns_on (f := (fun m : Mod => m.takeToken gate.val { token with type :=
    2#8 } input)) hp h wait

theorem turns_alive {m m' : Mod} (hp : m.boot.powered = true) (gate : Fin 6) (token : Token) (input : BarrierIn)
    (h : m.takeToken gate.val { token with type := 3#8 } input = m') :
    Safety.Turns m (.alive gate token input) m' := by
  intro wait; unfold exec execAlive; exact turns_on (f := (fun m : Mod => m.takeToken gate.val { token with type :=
    3#8 } input)) hp h wait

theorem turns_abort {m m' : Mod} (hp : m.boot.powered = true) (gate : Fin 6) (token : Token) (input : BarrierIn)
    (h : m.takeToken gate.val { token with type := 4#8 } input = m') :
    Safety.Turns m (.abort gate token input) m' := by
  intro wait; unfold exec execAbort; exact turns_on (f := (fun m : Mod => m.takeToken gate.val { token with type :=
    4#8 } input)) hp h wait

theorem turns_aliveTimer {m m' : Mod} (hp : m.boot.powered = true) (h : m.aliveTimer = m') :
    Safety.Turns m (.aliveTimer) m' := by
  intro wait; unfold exec execAliveTimer; exact turns_on (f := (fun m : Mod => m.aliveTimer)) hp h wait

theorem turns_neighbourLost {m m' : Mod} (hp : m.boot.powered = true) (gate : Fin 6)
    (h : m.neighbourLost gate.val = m') :
    Safety.Turns m (.neighbourLost gate) m' := by
  intro wait; unfold exec execNeighbourLost; exact turns_on (f := (fun m : Mod => m.neighbourLost gate.val)) hp h wait

theorem turns_formationTimeout {m m' : Mod} (hp : m.boot.powered = true) (h : m.formationTimeout = m') :
    Safety.Turns m (.formationTimeout) m' := by
  intro wait; unfold exec execFormationTimeout; exact turns_on (f := (fun m : Mod => m.formationTimeout)) hp h wait

theorem turns_barrierOverdue {m m' : Mod} (hp : m.boot.powered = true) (h : m.barrierOverdue = m') :
    Safety.Turns m (.barrierOverdue) m' := by
  intro wait; unfold exec execBarrierOverdue; exact turns_on (f := (fun m : Mod => m.barrierOverdue)) hp h wait

theorem turns_tokenResend {m m' : Mod} (hp : m.boot.powered = true) (h : m.resendTokens = m') :
    Safety.Turns m (.tokenResend) m' := by
  intro wait; unfold exec execTokenResend; exact turns_on (f := (fun m : Mod => m.resendTokens)) hp h wait

theorem turns_nmtStart {m m' : Mod} (hp : m.boot.powered = true) (h : m.nmtCommand .operational = m') :
    Safety.Turns m (.nmtStart) m' := by
  intro wait; unfold exec execNmtStart; exact turns_on (f := (fun m : Mod => m.nmtCommand .operational)) hp h wait

theorem turns_nmtStop {m m' : Mod} (hp : m.boot.powered = true) (h : m.nmtCommand .stopped = m') :
    Safety.Turns m (.nmtStop) m' := by
  intro wait; unfold exec execNmtStop; exact turns_on (f := (fun m : Mod => m.nmtCommand .stopped)) hp h wait

theorem turns_enterPreOperational {m m' : Mod} (hp : m.boot.powered = true) (h : m.nmtCommand .preOperational = m') :
    Safety.Turns m (.enterPreOperational) m' := by
  intro wait; unfold exec execEnterPreOperational; exact turns_on (f := (fun m : Mod => m.nmtCommand
    .preOperational)) hp h wait

theorem turns_resetNode {m m' : Mod} (hp : m.boot.powered = true) (h : m.resetComm = m') :
    Safety.Turns m (.resetNode) m' := by
  intro wait; unfold exec execResetNode; exact turns_on (f := (fun m : Mod => m.resetComm)) hp h wait

theorem turns_resetCommunication {m m' : Mod} (hp : m.boot.powered = true) (h : m.resetComm = m') :
    Safety.Turns m (.resetCommunication) m' := by
  intro wait; unfold exec execResetCommunication; exact turns_on (f := (fun m : Mod => m.resetComm)) hp h wait

theorem turns_heartbeat {m m' : Mod} (hp : m.boot.powered = true) (h : m.heartbeat = m') :
    Safety.Turns m (.heartbeat) m' := by
  intro wait; unfold exec execHeartbeat; exact turns_on (f := (fun m : Mod => m.heartbeat)) hp h wait

theorem turns_consumedHeartbeat {m m' : Mod} (hp : m.boot.powered = true) (node : BitVec 7)
    (h : m.heartbeatFrom node.toNat = m') :
    Safety.Turns m (.consumedHeartbeat node) m' := by
  intro wait; unfold exec execConsumedHeartbeat; exact turns_on (f := (fun m : Mod => m.heartbeatFrom node.toNat)) hp
    h wait

theorem turns_mgmtHeartbeatLost {m m' : Mod} (hp : m.boot.powered = true) (h : m.heartbeatLost = m') :
    Safety.Turns m (.mgmtHeartbeatLost) m' := by
  intro wait; unfold exec execMgmtHeartbeatLost; exact turns_on (f := (fun m : Mod => m.heartbeatLost)) hp h wait

theorem turns_consumerHb {m m' : Mod} (hp : m.boot.powered = true) (fd : Bool) (v : BitVec 32)
    (h : m.sdoPut fd 0x1016 1 v = m') :
    Safety.Turns m (.consumerHb fd v) m' := by
  intro wait; unfold exec execConsumerHb; exact turns_on (f := (fun m : Mod => m.sdoPut fd 0x1016 1 v)) hp h wait

theorem turns_sync {m m' : Mod} (hp : m.boot.powered = true) (cob : BitVec 11) (h : m.sync cob.toNat = m') :
    Safety.Turns m (.sync cob) m' := by
  intro wait; unfold exec execSync; exact turns_on (f := (fun m : Mod => m.sync cob.toNat)) hp h wait

theorem turns_tpdoEventTimer {m m' : Mod} (hp : m.boot.powered = true) (n : Fin 8) (h : m.pdoTimer n.val = m') :
    Safety.Turns m (.tpdoEventTimer n) m' := by
  intro wait; unfold exec execTpdoEventTimer; exact turns_on (f := (fun m : Mod => m.pdoTimer n.val)) hp h wait

theorem turns_canBusOff {m m' : Mod} (hp : m.boot.powered = true) (h : m.busOff = m') :
    Safety.Turns m (.canBusOff) m' := by
  intro wait; unfold exec execCanBusOff; exact turns_on (f := (fun m : Mod => m.busOff)) hp h wait

theorem turns_busOffRecovery {m m' : Mod} (hp : m.boot.powered = true) (h : m.busOn = m') :
    Safety.Turns m (.busOffRecovery) m' := by
  intro wait; unfold exec execBusOffRecovery; exact turns_on (f := (fun m : Mod => m.busOn)) hp h wait

theorem turns_stateComparison {m m' : Mod} (hp : m.boot.powered = true) (reports : List (BitVec 32 × Option UState))
    (h : m.compareStates reports = m') :
    Safety.Turns m (.stateComparison reports) m' := by
  intro wait; unfold exec execStateComparison; exact turns_on (f := (fun m : Mod => m.compareStates reports)) hp h
    wait

theorem turns_forceTimeout {m m' : Mod} (hp : m.boot.powered = true) (h : m.forceTimeout = m') :
    Safety.Turns m (.forceTimeout) m' := by
  intro wait; unfold exec execForceTimeout; exact turns_on (f := (fun m : Mod => m.forceTimeout)) hp h wait

theorem turns_mismatchClear {m m' : Mod} (hp : m.boot.powered = true) (fd : Bool) (v : BitVec 8)
    (h : m.sdoPut fd 0x2402 0 v = m') :
    Safety.Turns m (.mismatchClear fd v) m' := by
  intro wait; unfold exec execMismatchClear; exact turns_on (f := (fun m : Mod => m.sdoPut fd 0x2402 0 v)) hp h wait

theorem turns_errorRegisterUpdate {m m' : Mod} (hp : m.boot.powered = true) (h : m.errorUpdate = m') :
    Safety.Turns m (.errorRegisterUpdate) m' := by
  intro wait; unfold exec execErrorRegisterUpdate; exact turns_on (f := (fun m : Mod => m.errorUpdate)) hp h wait

theorem turns_refclkLost {m m' : Mod} (hp : m.boot.powered = true) (h : m.refclkLost = m') :
    Safety.Turns m (.refclkLost) m' := by
  intro wait; unfold exec execRefclkLost; exact turns_on (f := (fun m : Mod => m.refclkLost)) hp h wait

theorem turns_refclkRestored {m m' : Mod} (hp : m.boot.powered = true) (h : m.refclkBack = m') :
    Safety.Turns m (.refclkRestored) m' := by
  intro wait; unfold exec execRefclkRestored; exact turns_on (f := (fun m : Mod => m.refclkBack)) hp h wait

theorem turns_beFlit {m m' : Mod} (hp : m.boot.powered = true) (port : Fin 36) (flit : Bytes) (fecBad : Bool) (input
    : BarrierIn) (h : m.beFlit port.val flit fecBad input = m') :
    Safety.Turns m (.beFlit port flit fecBad input) m' := by
  intro wait; unfold exec execBeFlit; exact turns_on (f := (fun m : Mod => m.beFlit port.val flit fecBad input)) hp h
    wait

theorem turns_jnlFlit {m m' : Mod} (hp : m.boot.powered = true) (flit : Bytes) (fecBad : Bool) (comps : List Nat)
    (h : m.jnlData flit fecBad comps = m') :
    Safety.Turns m (.jnlFlit flit fecBad comps) m' := by
  intro wait; unfold exec execJnlFlit; exact turns_on (f := (fun m : Mod => m.jnlData flit fecBad comps)) hp h wait

theorem turns_resetNReleased {m m' : Mod} (hp : m.boot.powered = true) (h : m.resetPinHigh = m') :
    Safety.Turns m (.resetNReleased) m' := by
  intro wait; unfold exec execResetNReleased; exact turns_on (f := (fun m : Mod => m.resetPinHigh)) hp h wait

theorem turns_fwCommitVerified {m m' : Mod} (hp : m.boot.powered = true) (h : m.fwVerified = m') :
    Safety.Turns m (.fwCommitVerified) m' := by
  intro wait; unfold exec execFwCommitVerified; exact turns_on (f := (fun m : Mod => m.fwVerified)) hp h wait

theorem turns_tpdoSent {m m' : Mod} (hp : m.boot.powered = true) (n : Fin 8) (h : m.pdoSent n.val = m') :
    Safety.Turns m (.tpdoSent n) m' := by
  intro wait; unfold exec execTpdoSent; exact turns_on (f := (fun m : Mod => m.pdoSent n.val)) hp h wait

theorem turns_crossingStall {m m' : Mod} (hp : m.boot.powered = true) (band : Fin 16)
    (h : m.crossStall band.val = m') :
    Safety.Turns m (.crossingStall band) m' := by
  intro wait; unfold exec execCrossingStall; exact turns_on (f := (fun m : Mod => m.crossStall band.val)) hp h wait

theorem turns_phaseOvercurrent {m m' : Mod} (hp : m.boot.powered = true) (band : Fin 16) (phase : Fin 24)
    (h : m.phaseFailed band.val phase.val = m') :
    Safety.Turns m (.phaseOvercurrent band phase) m' := by
  intro wait; unfold exec execPhaseOvercurrent; exact turns_on (f := (fun m : Mod => m.phaseFailed band.val
    phase.val)) hp h wait

theorem turns_phaseLimitTimeout {m m' : Mod} (hp : m.boot.powered = true) (h : m.phaseLimitTimeout = m') :
    Safety.Turns m (.phaseLimitTimeout) m' := by
  intro wait; unfold exec execPhaseLimitTimeout; exact turns_on (f := (fun m : Mod => m.phaseLimitTimeout)) hp h wait

theorem turns_regulatorOvercurrent {m m' : Mod} (hp : m.boot.powered = true) (band : Fin 16) (current : BitVec 16) (h
    : m.overcurrent band.val current = m') :
    Safety.Turns m (.regulatorOvercurrent band current) m' := by
  intro wait; unfold exec execRegulatorOvercurrent; exact turns_on (f := (fun m : Mod => m.overcurrent band.val
    current)) hp h wait

theorem turns_railToleranceTimeout {m m' : Mod} (hp : m.boot.powered = true) (rail : Fin 7) (mv : BitVec 16)
    (h : m.railFault (rail.val + 1) mv = m') :
    Safety.Turns m (.railToleranceTimeout rail mv) m' := by
  intro wait; unfold exec execRailToleranceTimeout; exact turns_on (f := (fun m : Mod => m.railFault (rail.val + 1)
    mv)) hp h wait

theorem turns_inputUndervoltage {m m' : Mod} (hp : m.boot.powered = true) (h : m.undervolt = m') :
    Safety.Turns m (.inputUndervoltage) m' := by
  intro wait; unfold exec execInputUndervoltage; exact turns_on (f := (fun m : Mod => m.undervolt)) hp h wait

theorem turns_undervoltRecovery {m m' : Mod} (hp : m.boot.powered = true) (h : m.undervoltEnd = m') :
    Safety.Turns m (.undervoltRecovery) m' := by
  intro wait; unfold exec execUndervoltRecovery; exact turns_on (f := (fun m : Mod => m.undervoltEnd)) hp h wait

theorem turns_telemetryWindow {m m' : Mod} (hp : m.boot.powered = true) (measured : PowerWindow)
    (h : m.window measured = m') :
    Safety.Turns m (.telemetryWindow measured) m' := by
  intro wait; unfold exec execTelemetryWindow; exact turns_on (f := (fun m : Mod => m.window measured)) hp h wait

theorem turns_capW {m m' : Mod} (hp : m.boot.powered = true) (fd : Bool) (v : BitVec 16)
    (h : m.sdoPut fd 0x2830 1 v = m') :
    Safety.Turns m (.capW fd v) m' := by
  intro wait; unfold exec execCapW; exact turns_on (f := (fun m : Mod => m.sdoPut fd 0x2830 1 v)) hp h wait

theorem turns_paceLimit {m m' : Mod} (hp : m.boot.powered = true) (fd : Bool) (v : BitVec 8)
    (h : m.sdoPut fd 0x2820 1 v = m') :
    Safety.Turns m (.paceLimit fd v) m' := by
  intro wait; unfold exec execPaceLimit; exact turns_on (f := (fun m : Mod => m.sdoPut fd 0x2820 1 v)) hp h wait

theorem turns_slewComplete {m m' : Mod} (hp : m.boot.powered = true) (h : m.slewDone = m') :
    Safety.Turns m (.slewComplete) m' := by
  intro wait; unfold exec execSlewComplete; exact turns_on (f := (fun m : Mod => m.slewDone)) hp h wait

theorem turns_droop {m m' : Mod} (hp : m.boot.powered = true) (band : Fin 16) (h : m.droopStart band.val = m') :
    Safety.Turns m (.droop band) m' := by
  intro wait; unfold exec execDroop; exact turns_on (f := (fun m : Mod => m.droopStart band.val)) hp h wait

theorem turns_severeDroop {m m' : Mod} (hp : m.boot.powered = true) (band : Fin 16) (peak : BitVec 16)
    (h : m.severeDroop band.val peak = m') :
    Safety.Turns m (.severeDroop band peak) m' := by
  intro wait; unfold exec execSevereDroop; exact turns_on (f := (fun m : Mod => m.severeDroop band.val peak)) hp h
    wait

theorem turns_droopCleared {m m' : Mod} (hp : m.boot.powered = true) (h : m.droopEnd = m') :
    Safety.Turns m (.droopCleared) m' := by
  intro wait; unfold exec execDroopCleared; exact turns_on (f := (fun m : Mod => m.droopEnd)) hp h wait

theorem turns_droopReductionEnd {m m' : Mod} (hp : m.boot.powered = true) (h : m.severeEnd = m') :
    Safety.Turns m (.droopReductionEnd) m' := by
  intro wait; unfold exec execDroopReductionEnd; exact turns_on (f := (fun m : Mod => m.severeEnd)) hp h wait

theorem turns_crossingStallEnd {m m' : Mod} (hp : m.boot.powered = true) (band : Fin 16) (windows : List CrossWindow)
    (h : m.crossStallEnd band.val windows = m') :
    Safety.Turns m (.crossingStallEnd band windows) m' := by
  intro wait; unfold exec execCrossingStallEnd; exact turns_on (f := (fun m : Mod => m.crossStallEnd band.val
    windows)) hp h wait

theorem turns_ageingCheck {m m' : Mod} (hp : m.boot.powered = true) (lost : BitVec 16) (h : m.ageingCheck lost = m') :
    Safety.Turns m (.ageingCheck lost) m' := by
  intro wait; unfold exec execAgeingCheck; exact turns_on (f := (fun m : Mod => m.ageingCheck lost)) hp h wait

theorem turns_pin {m m' : Mod} (hp : m.boot.powered = true) (slice : Option (Fin 12)) (tag : BitVec 8) (requester :
    BitVec 32) (h : m.rickCmd slice 1#3 tag requester = m') :
    Safety.Turns m (.pin slice tag requester) m' := by
  intro wait; unfold exec execPin; exact turns_on (f := (fun m : Mod => m.rickCmd slice 1#3 tag requester)) hp h wait

theorem turns_unpin {m m' : Mod} (hp : m.boot.powered = true) (slice : Option (Fin 12)) (tag : BitVec 8) (requester :
    BitVec 32) (h : m.rickCmd slice 2#3 tag requester = m') :
    Safety.Turns m (.unpin slice tag requester) m' := by
  intro wait; unfold exec execUnpin; exact turns_on (f := (fun m : Mod => m.rickCmd slice 2#3 tag requester)) hp h
    wait

theorem turns_fallow {m m' : Mod} (hp : m.boot.powered = true) (slice : Option (Fin 12)) (tag : BitVec 8) (requester
    : BitVec 32) (h : m.rickCmd slice 3#3 tag requester = m') :
    Safety.Turns m (.fallow slice tag requester) m' := by
  intro wait; unfold exec execFallow; exact turns_on (f := (fun m : Mod => m.rickCmd slice 3#3 tag requester)) hp h
    wait

theorem turns_clean {m m' : Mod} (hp : m.boot.powered = true) (slice : Option (Fin 12)) (tag : BitVec 8) (requester :
    BitVec 32) (h : m.rickCmd slice 4#3 tag requester = m') :
    Safety.Turns m (.clean slice tag requester) m' := by
  intro wait; unfold exec execClean; exact turns_on (f := (fun m : Mod => m.rickCmd slice 4#3 tag requester)) hp h
    wait

theorem turns_cleanDrop {m m' : Mod} (hp : m.boot.powered = true) (slice : Option (Fin 12)) (tag : BitVec 8)
    (requester : BitVec 32) (h : m.rickCmd slice 5#3 tag requester = m') :
    Safety.Turns m (.cleanDrop slice tag requester) m' := by
  intro wait; unfold exec execCleanDrop; exact turns_on (f := (fun m : Mod => m.rickCmd slice 5#3 tag requester)) hp
    h wait

theorem turns_rickRead {m m' : Mod} (hp : m.boot.powered = true) (addr : BitVec 52) (len : Nat) (cls : Fin 8) (sheaf
    : Bool) (requester : BitVec 32) (err : Bytes) (h : m.rickReadRow addr.toNat len cls.val sheaf requester err = m')
    :
    Safety.Turns m (.rickRead addr len cls sheaf requester err) m' := by
  intro wait; unfold exec execRickRead; exact turns_on (f := (fun m : Mod => m.rickReadRow addr.toNat len cls.val
    sheaf requester err)) hp h wait

theorem turns_rickWrite {m m' : Mod} (hp : m.boot.powered = true) (addr : BitVec 52) (data : Bytes) (poison : Bool)
    (cls : Fin 8) (sheaf : Bool) (requester : BitVec 32) (h : m.rickWriteRow addr.toNat data poison cls.val sheaf
    requester = m') :
    Safety.Turns m (.rickWrite addr data poison cls sheaf requester) m' := by
  intro wait; unfold exec execRickWrite; exact turns_on (f := (fun m : Mod => m.rickWriteRow addr.toNat data poison
    cls.val sheaf requester)) hp h wait

theorem turns_missFill {m m' : Mod} (hp : m.boot.powered = true) (slice : Fin 12) (region : Nat)
    (h : m.missFill slice.val region = m') :
    Safety.Turns m (.missFill slice region) m' := by
  intro wait; unfold exec execMissFill; exact turns_on (f := (fun m : Mod => m.missFill slice.val region)) hp h wait

theorem turns_streamBypassTimeout {m m' : Mod} (hp : m.boot.powered = true) (slice : Fin 12) (cls : Fin 8)
    (h : m.streamQuiet slice.val cls.val = m') :
    Safety.Turns m (.streamBypassTimeout slice cls) m' := by
  intro wait; unfold exec execStreamBypassTimeout; exact turns_on (f := (fun m : Mod => m.streamQuiet slice.val
    cls.val)) hp h wait

theorem turns_rickInterval {m m' : Mod} (hp : m.boot.powered = true) (h : m.rickInterval = m') :
    Safety.Turns m (.rickInterval) m' := by
  intro wait; unfold exec execRickInterval; exact turns_on (f := (fun m : Mod => m.rickInterval)) hp h wait

theorem turns_mcSignal {m m' : Mod} (hp : m.boot.powered = true) (h : m.mcSignal = m') :
    Safety.Turns m (.mcSignal) m' := by
  intro wait; unfold exec execMcSignal; exact turns_on (f := (fun m : Mod => m.mcSignal)) hp h wait

theorem turns_mcWatchdog {m m' : Mod} (hp : m.boot.powered = true) (h : m.mcWatchdog = m') :
    Safety.Turns m (.mcWatchdog) m' := by
  intro wait; unfold exec execMcWatchdog; exact turns_on (f := (fun m : Mod => m.mcWatchdog)) hp h wait

theorem turns_safeReq {m m' : Mod} (hp : m.boot.powered = true) (fd : Bool) (v : BitVec 8)
    (h : m.sdoPut fd 0x3C00 5 v = m') :
    Safety.Turns m (.safeReq fd v) m' := by
  intro wait; unfold exec execSafeReq; exact turns_on (f := (fun m : Mod => m.sdoPut fd 0x3C00 5 v)) hp h wait

theorem turns_cairnRecordWrite {m m' : Mod} (hp : m.boot.powered = true) (h : m.cairnWrite false = m') :
    Safety.Turns m (.cairnRecordWrite) m' := by
  intro wait; unfold exec execCairnRecordWrite; exact turns_on (f := (fun m : Mod => m.cairnWrite false)) hp h wait

theorem turns_ffClear {m m' : Mod} (hp : m.boot.powered = true) (fd : Bool) (v : BitVec 8)
    (h : m.sdoPut fd 0x4001 4 v = m') :
    Safety.Turns m (.ffClear fd v) m' := by
  intro wait; unfold exec execFfClear; exact turns_on (f := (fun m : Mod => m.sdoPut fd 0x4001 4 v)) hp h wait

theorem turns_fpPlanAddr {m m' : Mod} (hp : m.boot.powered = true) (fd : Bool) (v : BitVec 64)
    (h : m.sdoPut fd 0x3C20 1 v = m') :
    Safety.Turns m (.fpPlanAddr fd v) m' := by
  intro wait; unfold exec execFpPlanAddr; exact turns_on (f := (fun m : Mod => m.sdoPut fd 0x3C20 1 v)) hp h wait

theorem turns_fingerprintPass {m m' : Mod} (hp : m.boot.powered = true) (h : m.fpPassRun = m') :
    Safety.Turns m (.fingerprintPass) m' := by
  intro wait; unfold exec execFingerprintPass; exact turns_on (f := (fun m : Mod => m.fpPassRun)) hp h wait

theorem turns_fpPassLate {m m' : Mod} (hp : m.boot.powered = true) (h : m.fpLate = m') :
    Safety.Turns m (.fpPassLate) m' := by
  intro wait; unfold exec execFpPassLate; exact turns_on (f := (fun m : Mod => m.fpLate)) hp h wait

theorem turns_fpVerdict {m m' : Mod} (hp : m.boot.powered = true) (fd : Bool) (v : BitVec 64)
    (h : m.sdoPut fd 0x3C20 4 v = m') :
    Safety.Turns m (.fpVerdict fd v) m' := by
  intro wait; unfold exec execFpVerdict; exact turns_on (f := (fun m : Mod => m.sdoPut fd 0x3C20 4 v)) hp h wait

theorem turns_fiArm {m m' : Mod} (hp : m.boot.powered = true) (fd : Bool) (v : BitVec 8)
    (h : m.sdoPut fd 0x3880 5 v = m') :
    Safety.Turns m (.fiArm fd v) m' := by
  intro wait; unfold exec execFiArm; exact turns_on (f := (fun m : Mod => m.sdoPut fd 0x3880 5 v)) hp h wait

theorem turns_attGo {m m' : Mod} (hp : m.boot.powered = true) (fd : Bool) (v : BitVec 8)
    (h : m.sdoPut fd 0x4420 2 v = m') :
    Safety.Turns m (.attGo fd v) m' := by
  intro wait; unfold exec execAttGo; exact turns_on (f := (fun m : Mod => m.sdoPut fd 0x4420 2 v)) hp h wait

theorem turns_attestSigned {m m' : Mod} (hp : m.boot.powered = true) (h : m.attestSigned = m') :
    Safety.Turns m (.attestSigned) m' := by
  intro wait; unfold exec execAttestSigned; exact turns_on (f := (fun m : Mod => m.attestSigned)) hp h wait

theorem turns_authReq {m m' : Mod} (hp : m.boot.powered = true) (fd : Bool) (v : BitVec 32)
    (h : m.sdoPut fd 0x4430 1 v = m') :
    Safety.Turns m (.authReq fd v) m' := by
  intro wait; unfold exec execAuthReq; exact turns_on (f := (fun m : Mod => m.sdoPut fd 0x4430 1 v)) hp h wait

theorem turns_authResponse {m m' : Mod} (hp : m.boot.powered = true) (fd : Bool) (v : BitVec 512)
    (h : m.sdoPut fd 0x4430 3 v = m') :
    Safety.Turns m (.authResponse fd v) m' := by
  intro wait; unfold exec execAuthResponse; exact turns_on (f := (fun m : Mod => m.sdoPut fd 0x4430 3 v)) hp h wait

theorem turns_responseVerified {m m' : Mod} (hp : m.boot.powered = true) (svcKey : Bytes)
    (h : m.responseVerified svcKey = m') :
    Safety.Turns m (.responseVerified svcKey) m' := by
  intro wait; unfold exec execResponseVerified; exact turns_on (f := (fun m : Mod => m.responseVerified svcKey)) hp h
    wait

theorem turns_authClose {m m' : Mod} (hp : m.boot.powered = true) (fd : Bool) (v : BitVec 8)
    (h : m.sdoPut fd 0x4430 5 v = m') :
    Safety.Turns m (.authClose fd v) m' := by
  intro wait; unfold exec execAuthClose; exact turns_on (f := (fun m : Mod => m.sdoPut fd 0x4430 5 v)) hp h wait

theorem turns_durationEnd {m m' : Mod} (hp : m.boot.powered = true) (h : m.endSession (some 2) = m') :
    Safety.Turns m (.durationEnd) m' := by
  intro wait; unfold exec execDurationEnd; exact turns_on (f := (fun m : Mod => m.endSession (some 2))) hp h wait

theorem turns_challengeExpiry {m m' : Mod} (hp : m.boot.powered = true) (h : m.challengeExpired = m') :
    Safety.Turns m (.challengeExpiry) m' := by
  intro wait; unfold exec execChallengeExpiry; exact turns_on (f := (fun m : Mod => m.challengeExpired)) hp h wait

theorem turns_lockoutEnd {m m' : Mod} (hp : m.boot.powered = true) (h : m.lockoutEnd = m') :
    Safety.Turns m (.lockoutEnd) m' := by
  intro wait; unfold exec execLockoutEnd; exact turns_on (f := (fun m : Mod => m.lockoutEnd)) hp h wait

theorem turns_secProfile {m m' : Mod} (hp : m.boot.powered = true) (fd : Bool) (v : BitVec 8)
    (h : m.sdoPut fd 0x4400 1 v = m') :
    Safety.Turns m (.secProfile fd v) m' := by
  intro wait; unfold exec execSecProfile; exact turns_on (f := (fun m : Mod => m.sdoPut fd 0x4400 1 v)) hp h wait

theorem turns_svnCommit {m m' : Mod} (hp : m.boot.powered = true) (fd : Bool) (v : BitVec 8)
    (h : m.sdoPut fd 0x4400 5 v = m') :
    Safety.Turns m (.svnCommit fd v) m' := by
  intro wait; unfold exec execSvnCommit; exact turns_on (f := (fun m : Mod => m.sdoPut fd 0x4400 5 v)) hp h wait

theorem turns_fwRevoke {m m' : Mod} (hp : m.boot.powered = true) (fd : Bool) (v : BitVec 8)
    (h : m.sdoPut fd 0x4401 7 v = m') :
    Safety.Turns m (.fwRevoke fd v) m' := by
  intro wait; unfold exec execFwRevoke; exact turns_on (f := (fun m : Mod => m.sdoPut fd 0x4401 7 v)) hp h wait

theorem turns_ownerKey {m m' : Mod} (hp : m.boot.powered = true) (fd : Bool) (v : BitVec 512)
    (h : m.sdoPut fd 0x4410 3 v = m') :
    Safety.Turns m (.ownerKey fd v) m' := by
  intro wait; unfold exec execOwnerKey; exact turns_on (f := (fun m : Mod => m.sdoPut fd 0x4410 3 v)) hp h wait

theorem turns_imageKey {m m' : Mod} (hp : m.boot.powered = true) (fd : Bool) (v : BitVec 512)
    (h : m.sdoPut fd 0x4410 4 v = m') :
    Safety.Turns m (.imageKey fd v) m' := by
  intro wait; unfold exec execImageKey; exact turns_on (f := (fun m : Mod => m.sdoPut fd 0x4410 4 v)) hp h wait

theorem turns_fwChunk {m m' : Mod} (hp : m.boot.powered = true) (fd : Bool) (data : Bytes)
    (h : m.sdoWhole fd 0x4440 3 data ObjIn.none = m') :
    Safety.Turns m (.fwChunk fd data) m' := by
  intro wait; unfold exec execFwChunk; exact turns_on (f := (fun m : Mod => m.sdoWhole fd 0x4440 3 data ObjIn.none))
    hp h wait

theorem turns_fwCommit {m m' : Mod} (hp : m.boot.powered = true) (fd : Bool) (v : BitVec 8)
    (h : m.sdoPut fd 0x4440 4 v = m') :
    Safety.Turns m (.fwCommit fd v) m' := by
  intro wait; unfold exec execFwCommit; exact turns_on (f := (fun m : Mod => m.sdoPut fd 0x4440 4 v)) hp h wait

theorem turns_dbgHalt {m m' : Mod} (hp : m.boot.powered = true) (fd : Bool) (v : BitVec 8)
    (h : m.sdoPut fd 0x4450 1 v = m') :
    Safety.Turns m (.dbgHalt fd v) m' := by
  intro wait; unfold exec execDbgHalt; exact turns_on (f := (fun m : Mod => m.sdoPut fd 0x4450 1 v)) hp h wait

theorem turns_dbgAcc {m m' : Mod} (hp : m.boot.powered = true) (fd : Bool) (h : m.sdoUpload true fd 0x4450 3 = m') :
    Safety.Turns m (.dbgAcc fd) m' := by
  intro wait; unfold exec execDbgAcc; exact turns_on (f := (fun m : Mod => m.sdoUpload true fd 0x4450 3)) hp h wait

theorem turns_placeCommit {m m' : Mod} (hp : m.boot.powered = true) (fd : Bool) (v : BitVec 8)
    (h : m.sdoPut fd 0x3000 2 v = m') :
    Safety.Turns m (.placeCommit fd v) m' := by
  intro wait; unfold exec execPlaceCommit; exact turns_on (f := (fun m : Mod => m.sdoPut fd 0x3000 2 v)) hp h wait

theorem turns_stackRead {m m' : Mod} (hp : m.boot.powered = true) (addr : BitVec 52) (requester : BitVec 32) (err :
    Bytes) (h : m.stackRead addr.toNat requester err = m') :
    Safety.Turns m (.stackRead addr requester err) m' := by
  intro wait; unfold exec execStackRead; exact turns_on (f := (fun m : Mod => m.stackRead addr.toNat requester err))
    hp h wait

theorem turns_stackWrite {m m' : Mod} (hp : m.boot.powered = true) (addr : BitVec 52) (data : Bytes) (poison : Bool)
    (requester : BitVec 32) (h : m.stackWrite addr.toNat data poison requester = m') :
    Safety.Turns m (.stackWrite addr data poison requester) m' := by
  intro wait; unfold exec execStackWrite; exact turns_on (f := (fun m : Mod => m.stackWrite addr.toNat data poison
    requester)) hp h wait

theorem turns_mergeTimerExpiry {m m' : Mod} (hp : m.boot.powered = true) (stack : Fin 12)
    (h : m.mergeExpired stack.val = m') :
    Safety.Turns m (.mergeTimerExpiry stack) m' := by
  intro wait; unfold exec execMergeTimerExpiry; exact turns_on (f := (fun m : Mod => m.mergeExpired stack.val)) hp h
    wait

theorem turns_unsowRequest {m m' : Mod} (hp : m.boot.powered = true) (addr : BitVec 52) (whole : Bool)
    (h : m.unsowRequest addr.toNat whole = m') :
    Safety.Turns m (.unsowRequest addr whole) m' := by
  intro wait; unfold exec execUnsowRequest; exact turns_on (f := (fun m : Mod => m.unsowRequest addr.toNat whole)) hp
    h wait

theorem turns_scrubRead {m m' : Mod} (hp : m.boot.powered = true) (stack : Fin 12) (err : Bytes)
    (h : m.scrubRead stack.val err = m') :
    Safety.Turns m (.scrubRead stack err) m' := by
  intro wait; unfold exec execScrubRead; exact turns_on (f := (fun m : Mod => m.scrubRead stack.val err)) hp h wait

theorem turns_scrubOverdue {m m' : Mod} (hp : m.boot.powered = true) (stack : Fin 12)
    (h : m.scrubOverdue stack.val = m') :
    Safety.Turns m (.scrubOverdue stack) m' := by
  intro wait; unfold exec execScrubOverdue; exact turns_on (f := (fun m : Mod => m.scrubOverdue stack.val)) hp h wait

theorem turns_refresh {m m' : Mod} (hp : m.boot.powered = true) (bank : Fin 12288) (postpone : Bool)
    (h : m.refresh bank.val postpone = m') :
    Safety.Turns m (.refresh bank postpone) m' := by
  intro wait; unfold exec execRefresh; exact turns_on (f := (fun m : Mod => m.refresh bank.val postpone)) hp h wait

theorem turns_testEnable {m m' : Mod} (hp : m.boot.powered = true) (fd : Bool) (v : BitVec 8)
    (h : m.sdoPut fd 0x3040 1 v = m') :
    Safety.Turns m (.testEnable fd v) m' := by
  intro wait; unfold exec execTestEnable; exact turns_on (f := (fun m : Mod => m.sdoPut fd 0x3040 1 v)) hp h wait

theorem turns_rawWrite {m m' : Mod} (hp : m.boot.powered = true) (fd : Bool) (h : m.sdoPut fd 0x3040 5 1#8 = m') :
    Safety.Turns m (.rawWrite fd) m' := by
  intro wait; unfold exec execRawWrite; exact turns_on (f := (fun m : Mod => m.sdoPut fd 0x3040 5 1#8)) hp h wait

theorem turns_rawRead {m m' : Mod} (hp : m.boot.powered = true) (fd : Bool) (h : m.sdoPut fd 0x3040 5 2#8 = m') :
    Safety.Turns m (.rawRead fd) m' := by
  intro wait; unfold exec execRawRead; exact turns_on (f := (fun m : Mod => m.sdoPut fd 0x3040 5 2#8)) hp h wait

theorem turns_decodeRead {m m' : Mod} (hp : m.boot.powered = true) (fd : Bool) (h : m.sdoPut fd 0x3040 5 3#8 = m') :
    Safety.Turns m (.decodeRead fd) m' := by
  intro wait; unfold exec execDecodeRead; exact turns_on (f := (fun m : Mod => m.sdoPut fd 0x3040 5 3#8)) hp h wait

theorem turns_permitPeriod {m m' : Mod} (hp : m.boot.powered = true) (causes : BitVec 11)
    (h : m.permitPeriod causes = m') :
    Safety.Turns m (.permitPeriod causes) m' := by
  intro wait; unfold exec execPermitPeriod; exact turns_on (f := (fun m : Mod => m.permitPeriod causes)) hp h wait

theorem turns_programStep {m m' : Mod} (hp : m.boot.powered = true) (ups : List Upset) (hosts : List (Fin 96 × BitVec
    512)) (emptyRows : Nat) (h : m.programStep ups (hosts.map (fun h => (h.1.val, h.2))) emptyRows = m') :
    Safety.Turns m (.programStep ups hosts emptyRows) m' := by
  intro wait; unfold exec execProgramStep; simp only [State.on, hp, if_true]; rw [h]

theorem turns_bundleFetch {m m' : Mod} (hp : m.boot.powered = true) (unit count : Nat)
    (h : m.bundleFetch unit count = m') :
    Safety.Turns m (.bundleFetch unit count) m' := by
  intro wait; unfold exec execBundleFetch; exact turns_on (f := (fun m : Mod => m.bundleFetch unit count)) hp h wait

theorem turns_nop {m m' : Mod} (hp : m.boot.powered = true) (h : m = m') :
    Safety.Turns m (.nop) m' := by
  intro wait; unfold exec execNop; exact turns_on (f := (fun m : Mod => m)) hp h wait

theorem turns_loopBegin {m m' : Mod} (hp : m.boot.powered = true) (h : m.loopBegin = m') :
    Safety.Turns m (.loopBegin) m' := by
  intro wait; unfold exec execLoopBegin; exact turns_on (f := (fun m : Mod => m.loopBegin)) hp h wait

theorem turns_loopEnd {m m' : Mod} (hp : m.boot.powered = true) (h : m.loopEnd = m') :
    Safety.Turns m (.loopEnd) m' := by
  intro wait; unfold exec execLoopEnd; exact turns_on (f := (fun m : Mod => m.loopEnd)) hp h wait

theorem turns_streamEnd {m m' : Mod} (hp : m.boot.powered = true) (h : m.endStream = m') :
    Safety.Turns m (.streamEnd) m' := by
  intro wait; unfold exec execStreamEnd; exact turns_on (f := (fun m : Mod => m.endStream)) hp h wait

theorem turns_restart {m m' : Mod} (hp : m.boot.powered = true) (h : m.restart = m') :
    Safety.Turns m (.restart) m' := by
  intro wait; unfold exec execRestart; exact turns_on (f := (fun m : Mod => m.restart)) hp h wait

theorem turns_heavyPhaseHint {m m' : Mod} (hp : m.boot.powered = true) (h : m.hintNow = m') :
    Safety.Turns m (.heavyPhaseHint) m' := by
  intro wait; unfold exec execHeavyPhaseHint; exact turns_on (f := (fun m : Mod => m.hintNow)) hp h wait

theorem turns_hintRamp {m m' : Mod} (hp : m.boot.powered = true) (h : m.hintRamp = m') :
    Safety.Turns m (.hintRamp) m' := by
  intro wait; unfold exec execHintRamp; exact turns_on (f := (fun m : Mod => m.hintRamp)) hp h wait

theorem turns_boostEnd {m m' : Mod} (hp : m.boot.powered = true) (h : m.boostEnd = m') :
    Safety.Turns m (.boostEnd) m' := by
  intro wait; unfold exec execBoostEnd; exact turns_on (f := (fun m : Mod => m.boostEnd)) hp h wait

theorem turns_localBarrier {m m' : Mod} (hp : m.boot.powered = true) (input : BarrierIn)
    (h : m.takeBarrier 1 input = m') :
    Safety.Turns m (.localBarrier input) m' := by
  intro wait; unfold exec execLocalBarrier; exact turns_on (f := (fun m : Mod => m.takeBarrier 1 input)) hp h wait

theorem turns_leaBarrier {m m' : Mod} (hp : m.boot.powered = true) (input : BarrierIn)
    (h : m.takeBarrier 2 input = m') :
    Safety.Turns m (.leaBarrier input) m' := by
  intro wait; unfold exec execLeaBarrier; exact turns_on (f := (fun m : Mod => m.takeBarrier 2 input)) hp h wait

theorem turns_leaPhaseBoundary {m m' : Mod} (hp : m.boot.powered = true) (input : BarrierIn)
    (h : m.takeBarrier 3 input = m') :
    Safety.Turns m (.leaPhaseBoundary input) m' := by
  intro wait; unfold exec execLeaPhaseBoundary; exact turns_on (f := (fun m : Mod => m.takeBarrier 3 input)) hp h wait

theorem turns_descriptorArrival {m m' : Mod} (hp : m.boot.powered = true) (cell : Fin 4704) (queue : Fin 4) (desc :
    Option (BitVec 512)) (h : m.descArrive cell.val queue.val desc = m') :
    Safety.Turns m (.descriptorArrival cell queue desc) m' := by
  intro wait; unfold exec execDescriptorArrival; exact turns_on (f := (fun m : Mod => m.descArrive cell.val queue.val
    desc)) hp h wait

theorem turns_hotSpotSample {m m' : Mod} (hp : m.boot.powered = true) (pairs : List (BitVec 16 × BitVec 16))
    (h : m.hotSpots pairs = m') :
    Safety.Turns m (.hotSpotSample pairs) m' := by
  intro wait; unfold exec execHotSpotSample; exact turns_on (f := (fun m : Mod => m.hotSpots pairs)) hp h wait

theorem turns_sensorScan {m m' : Mod} (hp : m.boot.powered = true) (readings : SensorReadings)
    (h : m.scan readings = m') :
    Safety.Turns m (.sensorScan readings) m' := by
  intro wait; unfold exec execSensorScan; exact turns_on (f := (fun m : Mod => m.scan readings)) hp h wait

theorem turns_crossLayerEstimate {m m' : Mod} (hp : m.boot.powered = true) (h : m.estimates = m') :
    Safety.Turns m (.crossLayerEstimate) m' := by
  intro wait; unfold exec execCrossLayerEstimate; exact turns_on (f := (fun m : Mod => m.estimates)) hp h wait

theorem turns_thermalWindow {m m' : Mod} (hp : m.boot.powered = true) (h : m.thermalWindow = m') :
    Safety.Turns m (.thermalWindow) m' := by
  intro wait; unfold exec execThermalWindow; exact turns_on (f := (fun m : Mod => m.thermalWindow)) hp h wait

theorem turns_flowSample {m m' : Mod} (hp : m.boot.powered = true) (flowA flowB pIn pOut : BitVec 16)
    (h : m.flowSample flowA flowB pIn pOut = m') :
    Safety.Turns m (.flowSample flowA flowB pIn pOut) m' := by
  intro wait; unfold exec execFlowSample; exact turns_on (f := (fun m : Mod => m.flowSample flowA flowB pIn pOut)) hp
    h wait

theorem turns_flowAverage {m m' : Mod} (hp : m.boot.powered = true) (h : m.flowAverage = m') :
    Safety.Turns m (.flowAverage) m' := by
  intro wait; unfold exec execFlowAverage; exact turns_on (f := (fun m : Mod => m.flowAverage)) hp h wait

theorem turns_lowHeld {m m' : Mod} (hp : m.boot.powered = true) (h : m.lowHeld = m') :
    Safety.Turns m (.lowHeld) m' := by
  intro wait; unfold exec execLowHeld; exact turns_on (f := (fun m : Mod => m.lowHeld)) hp h wait

theorem turns_coolantTempSample {m m' : Mod} (hp : m.boot.powered = true) (tIn tOut : BitVec 16)
    (h : m.coolantTemps tIn tOut = m') :
    Safety.Turns m (.coolantTempSample tIn tOut) m' := by
  intro wait; unfold exec execCoolantTempSample; exact turns_on (f := (fun m : Mod => m.coolantTemps tIn tOut)) hp h
    wait

theorem turns_lossComparison {m m' : Mod} (hp : m.boot.powered = true) (h : m.lossCompare = m') :
    Safety.Turns m (.lossComparison) m' := by
  intro wait; unfold exec execLossComparison; exact turns_on (f := (fun m : Mod => m.lossCompare)) hp h wait

end Sys2Proof.Machine
end

