-- ==== Sys2Proof/Laws/Maps.lean ====
section
/-!
SUPPORT. The laws of sparse tables and memories: reading after a write, writing elsewhere, and the canonical form, which
every operation keeps.
-/
namespace Sys2Proof

section
variable {α : Type} [DecidableEq α] (d : α)

theorem Map.wfFrom_mono {lo lo' : Nat} (h : lo' ≤ lo) {m : Map α} (w : Map.wfFrom d lo m = true) :
    Map.wfFrom d lo' m = true := by
  cases m with
  | nil => rfl
  | cons e t =>
    obtain ⟨k, v⟩ := e
    simp only [Map.wfFrom, Bool.and_eq_true, decide_eq_true_eq] at w ⊢
    exact ⟨⟨by omega, w.1.2⟩, w.2⟩

/-- Below the lower bound of a table nothing is listed. -/
theorem Map.get_below {lo k : Nat} {m : Map α} (w : Map.wfFrom d lo m = true) (h : k < lo) : Map.get d m k = d := by
  induction m generalizing lo with
  | nil => rfl
  | cons e t ih =>
    obtain ⟨k', v⟩ := e
    simp only [Map.wfFrom, Bool.and_eq_true, decide_eq_true_eq] at w
    rw [Map.get, if_neg (by omega)]
    exact ih w.2 (by omega)

theorem Map.wfFrom_erase {lo : Nat} {m : Map α} (w : Map.wfFrom d lo m = true) (k : Nat) :
    Map.wfFrom d lo (Map.erase m k) = true := by
  induction m generalizing lo with
  | nil => rfl
  | cons e t ih =>
    obtain ⟨k', v⟩ := e
    unfold Map.erase
    have w' := w
    simp only [Map.wfFrom, Bool.and_eq_true, decide_eq_true_eq] at w
    split
    · exact Map.wfFrom_mono d (by omega) w.2
    · split
      · exact w'
      · simp only [Map.wfFrom, Bool.and_eq_true, decide_eq_true_eq]
        exact ⟨w.1, ih w.2⟩

theorem Map.wfFrom_put {lo : Nat} {m : Map α} (w : Map.wfFrom d lo m = true) {k : Nat} {v : α} (h : lo ≤ k)
    (hv : v ≠ d) : Map.wfFrom d lo (Map.put m k v) = true := by
  induction m generalizing lo with
  | nil => simp [Map.put, Map.wfFrom, h, hv]
  | cons e t ih =>
    obtain ⟨k', v'⟩ := e
    unfold Map.put
    simp only [Map.wfFrom, Bool.and_eq_true, decide_eq_true_eq] at w
    split
    · subst k'
      simp only [Map.wfFrom, Bool.and_eq_true, decide_eq_true_eq]
      exact ⟨⟨h, hv⟩, w.2⟩
    · split
      · simp only [Map.wfFrom, Bool.and_eq_true, decide_eq_true_eq]
        exact ⟨⟨h, hv⟩, ⟨by omega, w.1.2⟩, w.2⟩
      · simp only [Map.wfFrom, Bool.and_eq_true, decide_eq_true_eq]
        exact ⟨w.1, ih w.2 (by omega)⟩

/-- Setting a key keeps the canonical form. -/
theorem Map.wf_set {m : Map α} (w : Map.wf d m = true) (k : Nat) (v : α) : Map.wf d (Map.set d m k v) = true := by
  unfold Map.set Map.wf
  split
  · exact Map.wfFrom_erase d w k
  · exact Map.wfFrom_put d w (Nat.zero_le k) ‹_›

/-- Changing the value of a key keeps the canonical form. -/
theorem Map.wf_modify {m : Map α} (w : Map.wf d m = true) (k : Nat) (f : α → α) :
    Map.wf d (Map.modify d m k f) = true := Map.wf_set d w k _

/-- Filling keys keeps the canonical form. -/
theorem Map.wf_fill {m : Map α} (w : Map.wf d m = true) (k : Nat) (vs : List α) :
    Map.wf d (Map.fill d m k vs) = true := by
  induction vs generalizing m k with
  | nil => exact w
  | cons v t ih => exact ih (Map.wf_set d w k v) (k + 1)

theorem Map.wfFrom_keep {lo : Nat} {m : Map α} (w : Map.wfFrom d lo m = true) (p : Nat → Bool) :
    Map.wfFrom d lo (Map.keep m p) = true := by
  induction m generalizing lo with
  | nil => rfl
  | cons e t ih =>
    obtain ⟨k, v⟩ := e
    simp only [Map.wfFrom, Bool.and_eq_true, decide_eq_true_eq] at w
    simp only [Map.keep, List.filter]
    split
    · simp only [Map.wfFrom, Bool.and_eq_true, decide_eq_true_eq]
      exact ⟨w.1, ih w.2⟩
    · exact Map.wfFrom_mono d (by omega) (ih w.2)

/-- Dropping entries keeps the canonical form. -/
theorem Map.wf_keep {m : Map α} (w : Map.wf d m = true) (p : Nat → Bool) : Map.wf d (Map.keep m p) = true :=
  Map.wfFrom_keep d w p

theorem Map.get_erase_self {lo : Nat} {m : Map α} (w : Map.wfFrom d lo m = true) (k : Nat) :
    Map.get d (Map.erase m k) k = d := by
  induction m generalizing lo with
  | nil => rfl
  | cons e t ih =>
    obtain ⟨k', v⟩ := e
    simp only [Map.wfFrom, Bool.and_eq_true, decide_eq_true_eq] at w
    unfold Map.erase
    split
    · exact Map.get_below d w.2 (by omega)
    · rw [apply_ite (fun x => Map.get d x k)]
      simp only [Map.get, if_neg (by assumption : ¬k = k')]
      split
      · exact Map.get_below d w.2 (by omega)
      · exact ih w.2

omit [DecidableEq α] in
theorem Map.get_put_self (m : Map α) (k : Nat) (v : α) : Map.get d (Map.put m k v) k = v := by
  induction m with
  | nil => simp [Map.put, Map.get]
  | cons e t ih =>
    obtain ⟨k', v'⟩ := e
    unfold Map.put
    split
    · simp [Map.get]
    · split
      · simp [Map.get]
      · simp only [Map.get, if_neg (by assumption : ¬k = k')]; exact ih

omit [DecidableEq α] in
theorem Map.get_put_of_ne (m : Map α) {j k : Nat} (v : α) (h : j ≠ k) : Map.get d (Map.put m k v) j = Map.get d m j := by
  induction m with
  | nil => simp [Map.put, Map.get, h]
  | cons e t ih =>
    obtain ⟨k', v'⟩ := e
    unfold Map.put
    split
    · subst k'; simp [Map.get, h]
    · split
      · simp [Map.get, h]
      · simp only [Map.get, ih]

omit [DecidableEq α] in
theorem Map.get_erase_of_ne (m : Map α) {j k : Nat} (h : j ≠ k) : Map.get d (Map.erase m k) j = Map.get d m j := by
  induction m with
  | nil => rfl
  | cons e t ih =>
    obtain ⟨k', v'⟩ := e
    unfold Map.erase
    split
    · subst k'; simp [Map.get, h]
    · split
      · rfl
      · simp only [Map.get, ih]

/-- What was set is read. -/
theorem Map.get_set_self {m : Map α} (w : Map.wf d m = true) (k : Nat) (v : α) :
    Map.get d (Map.set d m k v) k = v := by
  unfold Map.set
  split
  · rw [Map.get_erase_self d w]; exact Eq.symm ‹_›
  · exact Map.get_put_self d m k v

/-- Setting a key leaves every other key as it was, in any table. -/
theorem Map.get_set_of_ne (m : Map α) {j k : Nat} (v : α) (h : j ≠ k) :
    Map.get d (Map.set d m k v) j = Map.get d m j := by
  unfold Map.set
  split
  · exact Map.get_erase_of_ne d m h
  · exact Map.get_put_of_ne d m v h

/-- A value other than the default is read where it was set, in any table. -/
theorem Map.get_set_ne_default (m : Map α) (k : Nat) {v : α} (h : v ≠ d) : Map.get d (Map.set d m k v) k = v := by
  rw [Map.set, if_neg h]; exact Map.get_put_self d m k v

/-- Filling leaves every key outside the filled range as it was. -/
theorem Map.get_fill_outside (m : Map α) (k j : Nat) (vs : List α) (h : j < k ∨ k + vs.length ≤ j) :
    Map.get d (Map.fill d m k vs) j = Map.get d m j := by
  induction vs generalizing m k with
  | nil => rfl
  | cons v t ih =>
    rw [List.length_cons] at h
    rw [Map.fill, ih _ _ (by omega), Map.get_set_of_ne d m v (by omega)]

/-- A filled key reads its value. -/
theorem Map.get_fill {m : Map α} (w : Map.wf d m = true) (k : Nat) (vs : List α) (i : Nat) (h : i < vs.length) :
    Map.get d (Map.fill d m k vs) (k + i) = vs[i] := by
  induction vs generalizing m k i with
  | nil => simp at h
  | cons v t ih =>
    rw [Map.fill]
    cases i with
    | zero =>
      simp only [Nat.add_zero]
      rw [Map.get_fill_outside d _ _ _ _ (by omega), Map.get_set_self d w]; rfl
    | succ i =>
      have := ih (Map.wf_set d w k v) (k + 1) i (by simpa using h)
      rw [show k + (i + 1) = k + 1 + i by omega, this]; rfl

end

/-! ### Memories -/

theorem Memory.wf_memSet {m : Mem} (w : Memory.wf m = true) (a : Nat) (b : Byte) : Memory.wf (memSet m a b) = true :=
  Map.wf_set _ w a b

theorem Memory.wf_memWrite {m : Mem} (w : Memory.wf m = true) (a : Nat) (bs : Bytes) :
    Memory.wf (memWrite m a bs) = true :=
  Map.wf_fill _ w a bs

theorem memGet_memSet_self {m : Mem} (w : Memory.wf m = true) (a : Nat) (b : Byte) : memGet (memSet m a b) a = b :=
  Map.get_set_self _ w a b

theorem memGet_memSet_of_ne (m : Mem) {a c : Nat} (b : Byte) (h : c ≠ a) : memGet (memSet m a b) c = memGet m c :=
  Map.get_set_of_ne _ m b h

theorem memGet_memWrite {m : Mem} (w : Memory.wf m = true) (a : Nat) (bs : Bytes) (i : Nat) (h : i < bs.length) :
    memGet (memWrite m a bs) (a + i) = bs[i] :=
  Map.get_fill _ w a bs i h

theorem memGet_memWrite_outside (m : Mem) (a c : Nat) (bs : Bytes) (h : c < a ∨ a + bs.length ≤ c) :
    memGet (memWrite m a bs) c = memGet m c :=
  Map.get_fill_outside _ m a c bs h

/-! ### Lists by position -/

theorem listGet_listSet_of_ne {β : Type} (d : β) (l : List β) (i j : Nat) (v : β) (h : j ≠ i) :
    listGet d (listSet l i v) j = listGet d l j := by
  induction l generalizing i j with
  | nil => rfl
  | cons a t ih =>
    cases i with
    | zero => cases j with
      | zero => exact absurd rfl h
      | succ j => rfl
    | succ i => cases j with
      | zero => rfl
      | succ j => exact ih i j (fun e => h (congrArg Nat.succ e))

theorem listGet_listSet_self {β : Type} (d : β) (l : List β) (i : Nat) (v : β) (h : i < l.length) :
    listGet d (listSet l i v) i = v := by
  induction l generalizing i with
  | nil => exact absurd h (Nat.not_lt_zero _)
  | cons a t ih =>
    cases i with
    | zero => rfl
    | succ i => exact ih i (Nat.lt_of_succ_lt_succ h)

theorem length_listSet {β : Type} (l : List β) (i : Nat) (v : β) : (listSet l i v).length = l.length := by
  induction l generalizing i with
  | nil => rfl
  | cons a t ih => cases i with
    | zero => rfl
    | succ i => exact congrArg Nat.succ (ih i)

end Sys2Proof
end

