-- ==== Sys2Proof/Laws/Kept.lean ====
section
/-!
SUPPORT. The part of the module that only a few functions change: the fuses, and the settings that have a range.
A lemma `f_kept` says that the function `f` leaves this part as it is.
-/
namespace Sys2Proof.Machine

/-- The part. -/
structure Kept where
  fuses : Fuses
  trims : Map Nat
  paceLimit : BitVec 8
  capW : BitVec 16
  capNext : Option (BitVec 16)
  rotEnable : BitVec 8
  rotSpread : BitVec 8
  rotInterval : BitVec 16
  maxRead : Nat

/-- The part of a module. -/
def Mod.kept (m : Mod) : Kept :=
  ⟨m.fuses, m.power.trims, m.power.paceLimit, m.power.capW, m.power.capNext, m.thermal.rotEnable, m.thermal.rotSpread,
    m.thermal.rotInterval, m.jnl.maxRead⟩

theorem kept_mk (clock log units can cairn safe fpr inject fuses plan planting memStacks gln rick dma attn cells chip tl
    stream train lea hdg jnl power thermal boot sec) :
    (Mod.mk clock log units can cairn safe fpr inject fuses plan planting memStacks gln rick dma attn cells chip tl
      stream train lea hdg jnl power thermal boot sec).kept =
    ⟨fuses, power.trims, power.paceLimit, power.capW, power.capNext, thermal.rotEnable, thermal.rotSpread,
      thermal.rotInterval, jnl.maxRead⟩ := by
  unfold Mod.kept; exact Eq.refl _

theorem kept_mk' {clock log units can cairn safe fpr inject fuses plan planting memStacks gln rick dma attn cells chip tl
    stream train lea hdg jnl power thermal boot sec} :
    (Mod.mk clock log units can cairn safe fpr inject fuses plan planting memStacks gln rick dma attn cells chip tl
      stream train lea hdg jnl power thermal boot sec).kept =
    ⟨fuses, power.trims, power.paceLimit, power.capW, power.capNext, thermal.rotEnable, thermal.rotSpread,
      thermal.rotInterval, jnl.maxRead⟩ := kept_mk ..

theorem kept_eta (m : Mod) :
    Kept.mk m.fuses m.power.trims m.power.paceLimit m.power.capW m.power.capNext m.thermal.rotEnable
      m.thermal.rotSpread m.thermal.rotInterval m.jnl.maxRead = m.kept := by
  unfold Mod.kept; exact Eq.refl _

theorem foldl_kept {α : Type} (f : Mod → α → Mod) (h : ∀ m a, (f m a).kept = m.kept) (l : List α) (m : Mod) :
    (l.foldl f m).kept = m.kept := by
  induction l generalizing m with
  | nil => rfl
  | cons a t ih => rw [List.foldl_cons, ih, h]

theorem foldl_inv {α σ τ : Type} (g : σ → τ) (f : σ → α → σ) (h : ∀ s a, g (f s a) = g s) (l : List α) (s : σ) :
    g (l.foldl f s) = g s := by
  induction l generalizing s with
  | nil => rfl
  | cons a t ih => rw [List.foldl_cons, ih, h]

theorem foldl_kept1 {α β : Type} (f : Mod × β → α → Mod × β) (h : ∀ p a, (f p a).1.kept = p.1.kept) (l : List α)
    (p : Mod × β) : (l.foldl f p).1.kept = p.1.kept :=
  foldl_inv (fun p => p.1.kept) f h l p

theorem foldl_kept2 {α β : Type} (f : β × Mod → α → β × Mod) (h : ∀ p a, (f p a).2.kept = p.2.kept) (l : List α)
    (p : β × Mod) : (l.foldl f p).2.kept = p.2.kept :=
  foldl_inv (fun p => p.2.kept) f h l p

theorem foldl_kept3 {α β γ : Type} (f : β × γ × Mod → α → β × γ × Mod)
    (h : ∀ p a, (f p a).2.2.kept = p.2.2.kept) (l : List α) (p : β × γ × Mod) :
    (l.foldl f p).2.2.kept = p.2.2.kept :=
  foldl_inv (fun p => p.2.2.kept) f h l p

theorem foldl_kept4 {α β γ δ : Type} (f : β × γ × δ × Mod → α → β × γ × δ × Mod)
    (h : ∀ p a, (f p a).2.2.2.kept = p.2.2.2.kept) (l : List α) (p : β × γ × δ × Mod) :
    (l.foldl f p).2.2.2.kept = p.2.2.2.kept :=
  foldl_inv (fun p => p.2.2.2.kept) f h l p

/-- Every setting of the part stands in its range. -/
structure Kept.InRange (k : Kept) : Prop where
  paceLimit : 35 ≤ k.paceLimit.toNat ∧ k.paceLimit.toNat ≤ 160
  capW : 650 ≤ k.capW.toNat ∧ k.capW.toNat ≤ 3000
  capNext : ∀ v, k.capNext = some v → 650 ≤ v.toNat ∧ v.toNat ≤ 3000
  trims : ∀ band, Map.get 0 k.trims band ≤ 400
  rotEnable : k.rotEnable.toNat ≤ 1
  rotSpread : 10 ≤ k.rotSpread.toNat ∧ k.rotSpread.toNat ≤ 200
  rotInterval : 1 ≤ k.rotInterval.toNat ∧ k.rotInterval.toNat ≤ 3600
  maxRead : k.maxRead % 64 = 0 ∧ 64 ≤ k.maxRead ∧ k.maxRead ≤ 4096

theorem settings_iff_kept (m : Mod) : Safety.SettingsInRange m ↔ m.kept.InRange :=
  ⟨fun h => ⟨h.1, h.2, h.3, h.4, h.5, h.6, h.7, h.8⟩, fun h => ⟨h.1, h.2, h.3, h.4, h.5, h.6, h.7, h.8⟩⟩

/-- What one change may do to the part: fuses only burn, trims only rise, and settings in range stay in range. -/
structure Kept.Follows (a b : Kept) : Prop where
  fuses : Safety.FusesBurned a.fuses b.fuses
  trims : ∀ band, Map.get 0 a.trims band ≤ Map.get 0 b.trims band
  inRange : a.InRange → b.InRange

theorem fusesBurned_refl (f : Fuses) : Safety.FusesBurned f f := by
  constructor <;> simp

theorem fusesBurned_trans {f g h : Fuses} (a : Safety.FusesBurned f g) (b : Safety.FusesBurned g h) :
    Safety.FusesBurned f h where
  rows := b.rows.trans a.rows
  retired r e := b.retired r (a.retired r e)
  phases n p e := b.phases n p (a.phases n p e)
  revoked k e := b.revoked k (a.revoked k e)
  mcSvn := Nat.le_trans a.mcSvn b.mcSvn
  ccSvn := Nat.le_trans a.ccSvn b.ccSvn
  serial := b.serial.trans a.serial
  mfgWeek := b.mfgWeek.trans a.mfgWeek
  bootRom := b.bootRom.trans a.bootRom
  fwKeys := b.fwKeys.trans a.fwKeys
  svcKey := b.svcKey.trans a.svcKey
  idPub := b.idPub.trans a.idPub
  devCert := b.devCert.trans a.devCert

theorem follows_refl (a : Kept) : a.Follows a := ⟨fusesBurned_refl _, fun _ => Nat.le_refl _, id⟩

theorem follows_trans {a b c : Kept} (h : b.Follows c) (g : a.Follows b) : a.Follows c :=
  ⟨fusesBurned_trans g.fuses h.fuses, fun n => Nat.le_trans (g.trims n) (h.trims n), h.inRange ∘ g.inRange⟩

theorem foldl_follows {α : Type} (f : Mod → α → Mod) (h : ∀ (m : Mod) a, m.kept.Follows (f m a).kept) (l : List α) (m : Mod) :
    m.kept.Follows (l.foldl f m).kept := by
  induction l generalizing m with
  | nil => exact follows_refl _
  | cons a t ih => exact follows_trans (ih _) (h _ _)

end Sys2Proof.Machine
end

