-- ==== Sys2Proof/Laws/KeptFlits.lean ====
section
/-!
SUPPORT. What the functions of Machine/Flits.lean keep (see Laws/Kept.lean).
-/
set_option linter.unusedSimpArgs false
set_option linter.unusedVariables false
namespace Sys2Proof.Machine

theorem Mod.injected_kept : ∀ x0, (Mod.injected x0).kept = x0.kept := by
  intro x0
  simp only [Mod.injected, ↓kept_mk, kept_eta, ↓apply_ite Mod.kept, ite_self, implies_true]

theorem Mod.passFlit_kept : ∀ x0 x1 x2 x3 x4, (Mod.passFlit x0 x1 x2 x3 x4).2.kept = x0.kept := by
  intro x0 x1 x2 x3 x4
  unfold Mod.passFlit
  (try simp only [↓kept_mk, kept_eta, ↓apply_ite Mod.kept, ite_self, Mod.injected_kept, foldl_kept, foldl_kept1, foldl_kept2, foldl_kept3, foldl_kept4, ↓apply_ite Prod.snd, implies_true])
  repeat' (split <;> first | with_reducible rfl | simp only [↓kept_mk, kept_eta, ↓apply_ite Mod.kept, ite_self, Mod.injected_kept, foldl_kept, foldl_kept1, foldl_kept2, foldl_kept3, foldl_kept4, ↓apply_ite Prod.snd, implies_true] | skip)

theorem Mod.jnlEmit_kept : ∀ x0 x1 x2 x3, (Mod.jnlEmit x0 x1 x2 x3).kept = x0.kept := by
  intro x0 x1 x2 x3
  simp only [Mod.jnlEmit, ↓kept_mk, kept_eta, ↓apply_ite Mod.kept, ite_self, Mod.passFlit_kept, implies_true]

theorem Mod.jnlPump_kept : ∀ x0 x1, (Mod.jnlPump x0 x1).kept = x1.kept := by
  intro x0 x1
  induction x0 generalizing x1 with
  | zero =>
    unfold Mod.jnlPump
    first | rfl | simp only [↓kept_mk, kept_eta, ↓apply_ite Mod.kept, ite_self, Mod.jnlEmit_kept, implies_true]
  | succ n ih =>
    unfold Mod.jnlPump
    (try simp only [ih, ↓kept_mk, kept_eta, ↓apply_ite Mod.kept, ite_self, Mod.jnlEmit_kept, implies_true])
    repeat' (split <;> first | with_reducible rfl | simp only [ih, ↓kept_mk, kept_eta, ↓apply_ite Mod.kept, ite_self, Mod.jnlEmit_kept, implies_true] | skip)

theorem Mod.sendPacket_kept : ∀ x0 x1, (Mod.sendPacket x0 x1).kept = x0.kept := by
  intro x0 x1
  simp only [Mod.sendPacket, ↓kept_mk, kept_eta, ↓apply_ite Mod.kept, ite_self, Mod.jnlPump_kept, implies_true]

theorem Mod.hostWriteAs_kept : ∀ x0 x1 x2 x3 x4, (Mod.hostWriteAs x0 x1 x2 x3 x4).kept = x0.kept := by
  intro x0 x1 x2 x3 x4
  simp only [Mod.hostWriteAs, ↓kept_mk, kept_eta, ↓apply_ite Mod.kept, ite_self, Mod.sendPacket_kept, foldl_kept, foldl_kept1, foldl_kept2, foldl_kept3, foldl_kept4, ↓apply_ite Prod.snd, implies_true]

theorem Mod.hostWrite_kept : ∀ x0 x1 x2 x3, (Mod.hostWrite x0 x1 x2 x3).kept = x0.kept := by
  intro x0 x1 x2 x3
  simp only [Mod.hostWrite, ↓kept_mk, kept_eta, ↓apply_ite Mod.kept, ite_self, Mod.hostWriteAs_kept, implies_true]

theorem Mod.sendInterrupt_kept : ∀ x0 x1, (Mod.sendInterrupt x0 x1).kept = x0.kept := by
  intro x0 x1
  simp only [Mod.sendInterrupt, ↓kept_mk, kept_eta, ↓apply_ite Mod.kept, ite_self, Mod.sendPacket_kept, implies_true]

theorem Mod.interrupt_kept : ∀ x0 x1, (Mod.interrupt x0 x1).kept = x0.kept := by
  intro x0 x1
  simp only [Mod.interrupt, ↓kept_mk, kept_eta, ↓apply_ite Mod.kept, ite_self, Mod.sendInterrupt_kept, implies_true]

end Sys2Proof.Machine
end

