-- ==== Sys2Proof/Laws/KeptOps.lean ====
section
/-!
SUPPORT. What the functions of Machine/Ops.lean keep (see Laws/Kept.lean).
-/
set_option linter.unusedSimpArgs false
set_option linter.unusedVariables false
namespace Sys2Proof.Machine

theorem Mod.setCell_kept : ∀ x0 x1 x2, (Mod.setCell x0 x1 x2).kept = x0.kept := by
  intro x0 x1 x2
  simp only [Mod.setCell, ↓kept_mk, kept_eta, ↓apply_ite Mod.kept, ite_self, implies_true]

theorem Mod.mapCells_kept : ∀ x0 x1 x2, (Mod.mapCells x0 x1 x2).kept = x0.kept := by
  intro x0 x1 x2
  simp only [Mod.mapCells, ↓kept_mk, kept_eta, ↓apply_ite Mod.kept, ite_self, implies_true]

theorem Mod.setUnit_kept : ∀ x0 x1 x2, (Mod.setUnit x0 x1 x2).kept = x0.kept := by
  intro x0 x1 x2
  simp only [Mod.setUnit, ↓kept_mk, kept_eta, ↓apply_ite Mod.kept, ite_self, implies_true]

theorem Mod.setBand_kept : ∀ x0 x1 x2, (Mod.setBand x0 x1 x2).kept = x0.kept := by
  intro x0 x1 x2
  simp only [Mod.setBand, ↓kept_mk, kept_eta, ↓apply_ite Mod.kept, ite_self, implies_true]

theorem Mod.setPort_kept : ∀ x0 x1 x2, (Mod.setPort x0 x1 x2).kept = x0.kept := by
  intro x0 x1 x2
  simp only [Mod.setPort, ↓kept_mk, kept_eta, ↓apply_ite Mod.kept, ite_self, implies_true]

theorem Mod.dataFault_kept : ∀ x0 x1 x2, (Mod.dataFault x0 x1 x2).kept = x0.kept := by
  intro x0 x1 x2
  simp only [Mod.dataFault, ↓kept_mk, kept_eta, ↓apply_ite Mod.kept, ite_self, Mod.setUnit_kept, implies_true]

theorem Mod.mgmtFault_kept : ∀ x0 x1 x2, (Mod.mgmtFault x0 x1 x2).kept = x0.kept := by
  intro x0 x1 x2
  simp only [Mod.mgmtFault, ↓kept_mk, kept_eta, ↓apply_ite Mod.kept, ite_self, Mod.setUnit_kept, implies_true]

theorem Mod.clearFault_kept : ∀ x0 x1 x2, (Mod.clearFault x0 x1 x2).kept = x0.kept := by
  intro x0 x1 x2
  simp only [Mod.clearFault, ↓kept_mk, kept_eta, ↓apply_ite Mod.kept, ite_self, Mod.setUnit_kept, implies_true]

theorem Mod.sendFrame_kept : ∀ x0 x1 x2, (Mod.sendFrame x0 x1 x2).kept = x0.kept := by
  intro x0 x1 x2
  simp only [Mod.sendFrame, ↓kept_mk, kept_eta, ↓apply_ite Mod.kept, ite_self, Mod.injected_kept, implies_true]

theorem Mod.emcy_kept : ∀ x0 x1, (Mod.emcy x0 x1).kept = x0.kept := by
  intro x0 x1
  simp only [Mod.emcy, ↓kept_mk, kept_eta, ↓apply_ite Mod.kept, ite_self, Mod.sendFrame_kept, implies_true]

theorem Mod.logOne_kept : ∀ x0 x1 x2 x3, (Mod.logOne x0 x1 x2 x3).kept = x0.kept := by
  intro x0 x1 x2 x3
  simp only [Mod.logOne, ↓kept_mk, kept_eta, ↓apply_ite Mod.kept, ite_self, Mod.emcy_kept, Mod.interrupt_kept, implies_true]

theorem Mod.logEvent_kept : ∀ x0 x1 x2 x3, (Mod.logEvent x0 x1 x2 x3).kept = x0.kept := by
  intro x0 x1 x2 x3
  simp only [Mod.logEvent, ↓kept_mk, kept_eta, ↓apply_ite Mod.kept, ite_self, Mod.logOne_kept, implies_true]

theorem Mod.cairnPut_kept : ∀ x0 x1, (Mod.cairnPut x0 x1).kept = x0.kept := by
  intro x0 x1
  simp only [Mod.cairnPut, ↓kept_mk, kept_eta, ↓apply_ite Mod.kept, ite_self, Mod.logEvent_kept, implies_true]

theorem Mod.raise_kept : ∀ x0 x1 x2 x3, (Mod.raise x0 x1 x2 x3).kept = x0.kept := by
  intro x0 x1 x2 x3
  simp only [Mod.raise, ↓kept_mk, kept_eta, ↓apply_ite Mod.kept, ite_self, Mod.logEvent_kept, Mod.cairnPut_kept, implies_true]

end Sys2Proof.Machine
end

