-- ==== Sys2Proof/Laws/KeptMemOps.lean ====
section
/-!
SUPPORT. What the functions of Machine/MemOps.lean keep (see Laws/Kept.lean).
-/
set_option linter.unusedSimpArgs false
set_option linter.unusedVariables false
namespace Sys2Proof.Machine

theorem Mod.raisePerStack_kept : ∀ x0 x1 x2 x3, (Mod.raisePerStack x0 x1 x2 x3).kept = x0.kept := by
  intro x0 x1 x2 x3
  simp only [Mod.raisePerStack, ↓kept_mk, kept_eta, ↓apply_ite Mod.kept, ite_self, Mod.raise_kept, implies_true]

theorem Mod.countDiscard_kept : ∀ x0 x1 x2, (Mod.countDiscard x0 x1 x2).kept = x0.kept := by
  intro x0 x1 x2
  simp only [Mod.countDiscard, ↓kept_mk, kept_eta, ↓apply_ite Mod.kept, ite_self, implies_true]

theorem Mod.applyMem_kept : ∀ x0 x1 x2, (Mod.applyMem x0 x1 x2).kept = x1.kept := by
  intro x0 x1 x2
  unfold Mod.applyMem
  repeat' (split <;> first | with_reducible rfl | simp only [↓kept_mk, kept_eta, ↓apply_ite Mod.kept, ite_self, Mod.raisePerStack_kept, Mod.raise_kept, Mod.dataFault_kept, Mod.countDiscard_kept, implies_true] | skip)

theorem Mod.applyRick_kept : ∀ x0 x1, (Mod.applyRick x0 x1).kept = x0.kept := by
  intro x0 x1
  unfold Mod.applyRick
  repeat' (split <;> first | with_reducible rfl | simp only [↓kept_mk, kept_eta, ↓apply_ite Mod.kept, ite_self, Mod.raise_kept, Mod.dataFault_kept, Mod.mapCells_kept, implies_true] | skip)

theorem Mod.settleInject_kept : ∀ x0, (Mod.settleInject x0).kept = x0.kept := by
  intro x0
  unfold Mod.settleInject
  repeat' (split <;> first | with_reducible rfl | simp only [↓kept_mk, kept_eta, ↓apply_ite Mod.kept, ite_self, implies_true] | skip)

theorem Mod.withStacks_kept : ∀ x0 x1 x2 x3, (@Mod.withStacks x0 x1 x2 x3).2.kept = x1.kept := by
  intro x0 x1 x2 x3
  simp only [Mod.withStacks, ↓kept_mk, kept_eta, ↓apply_ite Mod.kept, ite_self, Mod.settleInject_kept, Mod.applyMem_kept, foldl_kept, foldl_kept1, foldl_kept2, foldl_kept3, foldl_kept4, ↓apply_ite Prod.snd, implies_true]

theorem Mod.onStacks_kept : ∀ x0 x1 x2, (Mod.onStacks x0 x1 x2).kept = x0.kept := by
  intro x0 x1 x2
  simp only [Mod.onStacks, ↓kept_mk, kept_eta, ↓apply_ite Mod.kept, ite_self, Mod.withStacks_kept, implies_true]

theorem Mod.withRick_kept : ∀ x0 x1 x2 x3, (@Mod.withRick x0 x1 x2 x3).2.2.kept = x1.kept := by
  intro x0 x1 x2 x3
  simp only [Mod.withRick, ↓kept_mk, kept_eta, ↓apply_ite Mod.kept, ite_self, Mod.settleInject_kept, Mod.applyRick_kept, Mod.applyMem_kept, foldl_kept, foldl_kept1, foldl_kept2, foldl_kept3, foldl_kept4, ↓apply_ite Prod.snd, implies_true]

theorem Mod.onRick_kept : ∀ x0 x1 x2, (Mod.onRick x0 x1 x2).kept = x0.kept := by
  intro x0 x1 x2
  simp only [Mod.onRick, ↓kept_mk, kept_eta, ↓apply_ite Mod.kept, ite_self, Mod.withRick_kept, implies_true]

theorem Mod.writeTilePieces_kept : ∀ x0 x1 x2 x3, (Mod.writeTilePieces x0 x1 x2 x3).kept = x0.kept := by
  intro x0 x1 x2 x3
  simp only [Mod.writeTilePieces, ↓kept_mk, kept_eta, ↓apply_ite Mod.kept, ite_self, Mod.setCell_kept, foldl_kept, foldl_kept1, foldl_kept2, foldl_kept3, foldl_kept4, ↓apply_ite Prod.snd, implies_true]

theorem Mod.setMailbox_kept : ∀ x0 x1 x2, (Mod.setMailbox x0 x1 x2).kept = x0.kept := by
  intro x0 x1 x2
  simp only [Mod.setMailbox, ↓kept_mk, kept_eta, ↓apply_ite Mod.kept, ite_self, implies_true]

theorem Mod.mailboxHead_kept : ∀ x0 x1 x2, (Mod.mailboxHead x0 x1 x2).kept = x0.kept := by
  intro x0 x1 x2
  simp only [Mod.mailboxHead, ↓kept_mk, kept_eta, ↓apply_ite Mod.kept, ite_self, Mod.setMailbox_kept, implies_true]

theorem Mod.writeMailbox_kept : ∀ x0 x1 x2 x3 y, Mod.writeMailbox x0 x1 x2 x3 = some y → y.kept = x0.kept := by
  intro x0 x1 x2 x3 y h
  unfold Mod.writeMailbox at h
  (try simp only [] at h)
  repeat' split at h
  all_goals first | (cases h; done) | (cases h; first | rfl | simp only [↓kept_mk, kept_eta, ↓apply_ite Mod.kept, ite_self, Mod.mailboxHead_kept, Mod.setMailbox_kept, foldl_kept, foldl_kept1, foldl_kept2, foldl_kept3, foldl_kept4, ↓apply_ite Prod.snd, implies_true])

theorem Mod.writeMailbox_getD : ∀ x0 x1 x2 x3 y, y.kept = x0.kept → ((Mod.writeMailbox x0 x1 x2 x3).getD y).kept = x0.kept := by
  intro x0 x1 x2 x3 y h
  cases e : Mod.writeMailbox x0 x1 x2 x3 with
  | none => exact h
  | some z => exact Mod.writeMailbox_kept x0 x1 x2 x3 z e

theorem Mod.writeCore_kept : ∀ x0 x1 x2 x3, (Mod.writeCore x0 x1 x2 x3).kept = x0.kept := by
  intro x0 x1 x2 x3
  simp only [Mod.writeCore, ↓kept_mk, kept_eta, ↓apply_ite Mod.kept, ite_self, Mod.writeMailbox_getD, Mod.countDiscard_kept, implies_true]

theorem Mod.readStack_kept : ∀ x0 x1 x2 x3 x4 x5, (Mod.readStack x0 x1 x2 x3 x4 x5).2.kept = x0.kept := by
  intro x0 x1 x2 x3 x4 x5
  simp only [Mod.readStack, ↓kept_mk, kept_eta, ↓apply_ite Mod.kept, ite_self, Mod.withRick_kept, foldl_kept, foldl_kept1, foldl_kept2, foldl_kept3, foldl_kept4, ↓apply_ite Prod.snd, implies_true]

theorem Mod.writeStack_kept : ∀ x0 x1 x2 x3 x4 x5, (Mod.writeStack x0 x1 x2 x3 x4 x5).2.kept = x0.kept := by
  intro x0 x1 x2 x3 x4 x5
  simp only [Mod.writeStack, ↓kept_mk, kept_eta, ↓apply_ite Mod.kept, ite_self, Mod.withRick_kept, foldl_kept, foldl_kept1, foldl_kept2, foldl_kept3, foldl_kept4, ↓apply_ite Prod.snd, implies_true]

theorem Mod.coreReadStack_kept : ∀ x0 x1 x2 x3 x4, (Mod.coreReadStack x0 x1 x2 x3 x4).2.kept = x0.kept := by
  intro x0 x1 x2 x3 x4
  simp only [Mod.coreReadStack, ↓kept_mk, kept_eta, ↓apply_ite Mod.kept, ite_self, Mod.withRick_kept, foldl_kept, foldl_kept1, foldl_kept2, foldl_kept3, foldl_kept4, ↓apply_ite Prod.snd, implies_true]

theorem Mod.hrmCopy_kept : ∀ x0 x1 x2 x3, (Mod.hrmCopy x0 x1 x2 x3).kept = x0.kept := by
  intro x0 x1 x2 x3
  simp only [Mod.hrmCopy, ↓kept_mk, kept_eta, ↓apply_ite Mod.kept, ite_self, Mod.coreReadStack_kept, Mod.hostWrite_kept, foldl_kept, foldl_kept1, foldl_kept2, foldl_kept3, foldl_kept4, ↓apply_ite Prod.snd, implies_true]

theorem Mod.coreWriteStack_kept : ∀ x0 x1 x2 x3 x4, (Mod.coreWriteStack x0 x1 x2 x3 x4).kept = x0.kept := by
  intro x0 x1 x2 x3 x4
  simp only [Mod.coreWriteStack, ↓kept_mk, kept_eta, ↓apply_ite Mod.kept, ite_self, Mod.hrmCopy_kept, Mod.onRick_kept, implies_true]

theorem Mod.deviceRead_kept : ∀ x0 x1 x2 x3 x4, (Mod.deviceRead x0 x1 x2 x3 x4).2.kept = x0.kept := by
  intro x0 x1 x2 x3 x4
  unfold Mod.deviceRead
  repeat' (split <;> first | with_reducible rfl | simp only [↓kept_mk, kept_eta, ↓apply_ite Mod.kept, ite_self, Mod.readStack_kept, foldl_kept, foldl_kept1, foldl_kept2, foldl_kept3, foldl_kept4, ↓apply_ite Prod.snd, implies_true] | skip)

theorem Mod.deviceWrite_kept : ∀ x0 x1 x2 x3 x4, (Mod.deviceWrite x0 x1 x2 x3 x4).2.kept = x0.kept := by
  intro x0 x1 x2 x3 x4
  unfold Mod.deviceWrite
  repeat' (split <;> first | with_reducible rfl | simp only [↓kept_mk, kept_eta, ↓apply_ite Mod.kept, ite_self, Mod.writeStack_kept, Mod.writeTilePieces_kept, Mod.writeCore_kept, Mod.countDiscard_kept, foldl_kept, foldl_kept1, foldl_kept2, foldl_kept3, foldl_kept4, ↓apply_ite Prod.snd, implies_true] | skip)

theorem Mod.settleMerges_kept : ∀ x0 x1, (Mod.settleMerges x0 x1).2.kept = x0.kept := by
  intro x0 x1
  simp only [Mod.settleMerges, ↓kept_mk, kept_eta, ↓apply_ite Mod.kept, ite_self, Mod.settleInject_kept, Mod.applyMem_kept, foldl_kept, foldl_kept1, foldl_kept2, foldl_kept3, foldl_kept4, ↓apply_ite Prod.snd, implies_true]

end Sys2Proof.Machine
end

