-- ==== Sys2Proof/Laws/KeptCheck.lean ====
section
/-!
SUPPORT. What the functions of Machine/Check.lean keep (see Laws/Kept.lean).
-/
set_option linter.unusedSimpArgs false
set_option linter.unusedVariables false
namespace Sys2Proof.Machine

theorem Mod.onTest_kept : ∀ x0 x1, (Mod.onTest x0 x1).kept = x0.kept := by
  intro x0 x1
  simp only [Mod.onTest, ↓kept_mk, kept_eta, ↓apply_ite Mod.kept, ite_self, implies_true]

theorem Mod.testRun_kept : ∀ x0 x1 x2 x3, (Mod.testRun x0 x1 x2 x3).kept = x0.kept := by
  intro x0 x1 x2 x3
  simp only [Mod.testRun, ↓kept_mk, kept_eta, ↓apply_ite Mod.kept, ite_self, Mod.onRick_kept, Mod.onStacks_kept, Mod.withStacks_kept, Mod.onTest_kept, implies_true]

theorem Mod.unsowAt_kept : ∀ x0 x1 x2 x3, (Mod.unsowAt x0 x1 x2 x3).kept = x0.kept := by
  intro x0 x1 x2 x3
  simp only [Mod.unsowAt, ↓kept_mk, kept_eta, ↓apply_ite Mod.kept, ite_self, Mod.onStacks_kept, implies_true]

end Sys2Proof.Machine
end

