-- ==== Sys2Proof/Laws/KeptGln.lean ====
section
/-!
SUPPORT. What the functions of Machine/Gln.lean keep (see Laws/Kept.lean).
-/
set_option linter.unusedSimpArgs false
set_option linter.unusedVariables false
namespace Sys2Proof.Machine

theorem Mod.setGln_kept : ∀ x0 x1 x2, (Mod.setGln x0 x1 x2).kept = x0.kept := by
  intro x0 x1 x2
  simp only [Mod.setGln, ↓kept_mk, kept_eta, ↓apply_ite Mod.kept, ite_self, implies_true]

theorem Mod.hold_kept : ∀ x0 x1 x2, (Mod.hold x0 x1 x2).kept = x0.kept := by
  intro x0 x1 x2
  simp only [Mod.hold, ↓kept_mk, kept_eta, ↓apply_ite Mod.kept, ite_self, Mod.setGln_kept, implies_true]

theorem Mod.holdEnded_kept : ∀ x0 x1, (Mod.holdEnded x0 x1).kept = x0.kept := by
  intro x0 x1
  simp only [Mod.holdEnded, ↓kept_mk, kept_eta, ↓apply_ite Mod.kept, ite_self, implies_true]

theorem Mod.release_kept : ∀ x0 x1, (Mod.release x0 x1).kept = x0.kept := by
  intro x0 x1
  unfold Mod.release
  repeat' (split <;> first | with_reducible rfl | simp only [↓kept_mk, kept_eta, ↓apply_ite Mod.kept, ite_self, Mod.holdEnded_kept, Mod.onStacks_kept, Mod.withStacks_kept, Mod.writeStack_kept, Mod.readStack_kept, Mod.unsowAt_kept, Mod.testRun_kept, implies_true] | skip)

theorem Mod.releaseHeld_kept : ∀ x0 x1, (Mod.releaseHeld x0 x1).kept = x0.kept := by
  intro x0 x1
  simp only [Mod.releaseHeld, ↓kept_mk, kept_eta, ↓apply_ite Mod.kept, ite_self, Mod.release_kept, foldl_kept, foldl_kept1, foldl_kept2, foldl_kept3, foldl_kept4, ↓apply_ite Prod.snd, implies_true]

theorem Mod.glnDone_kept : ∀ x0 x1 x2 x3, (Mod.glnDone x0 x1 x2 x3).kept = x0.kept := by
  intro x0 x1 x2 x3
  simp only [Mod.glnDone, ↓kept_mk, kept_eta, ↓apply_ite Mod.kept, ite_self, Mod.setGln_kept, implies_true]

theorem Mod.glnDeliver_kept : ∀ x0 x1 x2 x3 x4, (Mod.glnDeliver x0 x1 x2 x3 x4).kept = x0.kept := by
  intro x0 x1 x2 x3 x4
  simp only [Mod.glnDeliver, ↓kept_mk, kept_eta, ↓apply_ite Mod.kept, ite_self, Mod.raise_kept, implies_true]

theorem Mod.optFailed_kept : ∀ x0 x1 x2, (Mod.optFailed x0 x1 x2).kept = x0.kept := by
  intro x0 x1 x2
  simp only [Mod.optFailed, ↓kept_mk, kept_eta, ↓apply_ite Mod.kept, ite_self, Mod.raise_kept, implies_true]

theorem Mod.glnCompletion_kept : ∀ x0 x1 x2 x3, (Mod.glnCompletion x0 x1 x2 x3).kept = x0.kept := by
  intro x0 x1 x2 x3
  unfold Mod.glnCompletion
  repeat' (split <;> first | with_reducible rfl | simp only [↓kept_mk, kept_eta, ↓apply_ite Mod.kept, ite_self, Mod.glnDeliver_kept, Mod.setGln_kept, Mod.optFailed_kept, implies_true] | skip)

theorem Mod.rejectGln_kept : ∀ x0, (Mod.rejectGln x0).kept = x0.kept := by
  intro x0
  simp only [Mod.rejectGln, ↓kept_mk, kept_eta, ↓apply_ite Mod.kept, ite_self, implies_true]

theorem Mod.writeStore_kept : ∀ x0 x1 x2 x3, (Mod.writeStore x0 x1 x2 x3).kept = x0.kept := by
  intro x0 x1 x2 x3
  simp only [Mod.writeStore, ↓kept_mk, kept_eta, ↓apply_ite Mod.kept, ite_self, Mod.rejectGln_kept, Mod.setGln_kept, implies_true]

theorem Mod.writeGlnReg_kept : ∀ x0 x1 x2 x3, (Mod.writeGlnReg x0 x1 x2 x3).kept = x0.kept := by
  intro x0 x1 x2 x3
  simp only [Mod.writeGlnReg, ↓kept_mk, kept_eta, ↓apply_ite Mod.kept, ite_self, Mod.rejectGln_kept, Mod.setGln_kept, implies_true]

theorem Mod.glnLaunch_kept : ∀ x0 x1 x2 x3, (Mod.glnLaunch x0 x1 x2 x3).kept = x0.kept := by
  intro x0 x1 x2 x3
  simp only [Mod.glnLaunch, ↓kept_mk, kept_eta, ↓apply_ite Mod.kept, ite_self, Mod.rejectGln_kept, Mod.glnDone_kept, Mod.setGln_kept, implies_true]

theorem Mod.glnGo_kept : ∀ x0 x1 x2, (Mod.glnGo x0 x1 x2).kept = x0.kept := by
  intro x0 x1 x2
  simp only [Mod.glnGo, ↓kept_mk, kept_eta, ↓apply_ite Mod.kept, ite_self, Mod.glnLaunch_kept, foldl_kept, foldl_kept1, foldl_kept2, foldl_kept3, foldl_kept4, ↓apply_ite Prod.snd, implies_true]

theorem Mod.glnStart_kept : ∀ x0 x1, (Mod.glnStart x0 x1).kept = x0.kept := by
  intro x0 x1
  simp only [Mod.glnStart, ↓kept_mk, kept_eta, ↓apply_ite Mod.kept, ite_self, Mod.onRick_kept, Mod.onStacks_kept, Mod.setGln_kept, implies_true]

theorem Mod.glnFinish_kept : ∀ x0 x1 x2 x3 x4 x5, (Mod.glnFinish x0 x1 x2 x3 x4 x5).kept = x0.kept := by
  intro x0 x1 x2 x3 x4 x5
  simp only [Mod.glnFinish, ↓kept_mk, kept_eta, ↓apply_ite Mod.kept, ite_self, Mod.onStacks_kept, Mod.raise_kept, Mod.releaseHeld_kept, Mod.glnDone_kept, implies_true]

theorem Mod.glnAbort_kept : ∀ x0 x1, (Mod.glnAbort x0 x1).kept = x0.kept := by
  intro x0 x1
  simp only [Mod.glnAbort, ↓kept_mk, kept_eta, ↓apply_ite Mod.kept, ite_self, Mod.glnFinish_kept, implies_true]

theorem Mod.glnWatchdog_kept : ∀ x0 x1, (Mod.glnWatchdog x0 x1).kept = x0.kept := by
  intro x0 x1
  simp only [Mod.glnWatchdog, ↓kept_mk, kept_eta, ↓apply_ite Mod.kept, ite_self, Mod.glnFinish_kept, implies_true]

theorem Mod.glnRun_kept : ∀ x0 x1 x2, (Mod.glnRun x0 x1 x2).kept = x0.kept := by
  intro x0 x1 x2
  unfold Mod.glnRun
  (try simp only [↓kept_mk, kept_eta, ↓apply_ite Mod.kept, ite_self, Mod.withStacks_kept, Mod.setGln_kept, Mod.glnFinish_kept, implies_true])
  repeat' (split <;> first | with_reducible rfl | simp only [↓kept_mk, kept_eta, ↓apply_ite Mod.kept, ite_self, Mod.withStacks_kept, Mod.setGln_kept, Mod.glnFinish_kept, implies_true] | skip)

theorem Mod.glnStopStack_kept : ∀ x0 x1, (Mod.glnStopStack x0 x1).kept = x0.kept := by
  intro x0 x1
  simp only [Mod.glnStopStack, ↓kept_mk, kept_eta, ↓apply_ite Mod.kept, ite_self, Mod.glnAbort_kept, foldl_kept, foldl_kept1, foldl_kept2, foldl_kept3, foldl_kept4, ↓apply_ite Prod.snd, implies_true]

theorem Mod.glnLoseCompletions_kept : ∀ x0 x1, (Mod.glnLoseCompletions x0 x1).kept = x0.kept := by
  intro x0 x1
  simp only [Mod.glnLoseCompletions, ↓kept_mk, kept_eta, ↓apply_ite Mod.kept, ite_self, Mod.raise_kept, Mod.setGln_kept, foldl_kept, foldl_kept1, foldl_kept2, foldl_kept3, foldl_kept4, ↓apply_ite Prod.snd, implies_true]

end Sys2Proof.Machine
end

