-- ==== Sys2Proof/Laws/KeptStackRows.lean ====
section
/-!
SUPPORT. What the functions of Machine/StackRows.lean keep (see Laws/Kept.lean).
-/
set_option linter.unusedSimpArgs false
set_option linter.unusedVariables false
namespace Sys2Proof.Machine

theorem Mod.orHold_kept : ∀ m a f, (∀ x : Mod, (f x).kept = x.kept) → (Mod.orHold m a f).kept = m.kept := by
  intro m a f h
  unfold Mod.orHold
  repeat' (split <;> first | with_reducible rfl | simp only [h, ↓kept_mk, kept_eta, ↓apply_ite Mod.kept, ite_self, Mod.hold_kept, foldl_kept, implies_true] | skip)

theorem Mod.stackRead_kept : ∀ x0 x1 x2 x3, (Mod.stackRead x0 x1 x2 x3).kept = x0.kept := by
  intro x0 x1 x2 x3
  simp only [Mod.stackRead, ↓kept_mk, kept_eta, ↓apply_ite Mod.kept, ite_self, Mod.orHold_kept, Mod.withStacks_kept, implies_true]

theorem Mod.stackWrite_kept : ∀ x0 x1 x2 x3 x4, (Mod.stackWrite x0 x1 x2 x3 x4).kept = x0.kept := by
  intro x0 x1 x2 x3 x4
  simp only [Mod.stackWrite, ↓kept_mk, kept_eta, ↓apply_ite Mod.kept, ite_self, Mod.orHold_kept, Mod.onStacks_kept, implies_true]

theorem Mod.mergeExpired_kept : ∀ x0 x1, (Mod.mergeExpired x0 x1).kept = x0.kept := by
  intro x0 x1
  unfold Mod.mergeExpired
  repeat' (split <;> first | with_reducible rfl | simp only [↓kept_mk, kept_eta, ↓apply_ite Mod.kept, ite_self, Mod.onStacks_kept, implies_true] | skip)

theorem Mod.unsowRequest_kept : ∀ x0 x1 x2, (Mod.unsowRequest x0 x1 x2).kept = x0.kept := by
  intro x0 x1 x2
  simp only [Mod.unsowRequest, ↓kept_mk, kept_eta, ↓apply_ite Mod.kept, ite_self, Mod.orHold_kept, Mod.unsowAt_kept, implies_true]

theorem Mod.onScrub_kept : ∀ x0 x1 x2, (Mod.onScrub x0 x1 x2).kept = x0.kept := by
  intro x0 x1 x2
  simp only [Mod.onScrub, ↓kept_mk, kept_eta, ↓apply_ite Mod.kept, ite_self, implies_true]

theorem Mod.scrubTo_kept : ∀ x0 x1 x2, (Mod.scrubTo x0 x1 x2).kept = x0.kept := by
  intro x0 x1 x2
  simp only [Mod.scrubTo, ↓kept_mk, kept_eta, ↓apply_ite Mod.kept, ite_self, Mod.onScrub_kept, implies_true]

theorem Mod.scrubRead_kept : ∀ x0 x1 x2, (Mod.scrubRead x0 x1 x2).kept = x0.kept := by
  intro x0 x1 x2
  simp only [Mod.scrubRead, ↓kept_mk, kept_eta, ↓apply_ite Mod.kept, ite_self, Mod.withStacks_kept, Mod.scrubTo_kept, Mod.onStacks_kept, implies_true]

theorem Mod.scrubOverdue_kept : ∀ x0 x1, (Mod.scrubOverdue x0 x1).kept = x0.kept := by
  intro x0 x1
  simp only [Mod.scrubOverdue, ↓kept_mk, kept_eta, ↓apply_ite Mod.kept, ite_self, Mod.raise_kept, Mod.onScrub_kept, implies_true]

theorem Mod.refresh_kept : ∀ x0 x1 x2, (Mod.refresh x0 x1 x2).kept = x0.kept := by
  intro x0 x1 x2
  simp only [Mod.refresh, ↓kept_mk, kept_eta, ↓apply_ite Mod.kept, ite_self, implies_true]

theorem Mod.placeCommit_kept : ∀ x0, (Mod.placeCommit x0).2.kept = x0.kept := by
  intro x0
  simp only [Mod.placeCommit, ↓kept_mk, kept_eta, ↓apply_ite Mod.kept, ite_self, Mod.onRick_kept, foldl_kept, foldl_kept1, foldl_kept2, foldl_kept3, foldl_kept4, ↓apply_ite Prod.snd, implies_true]

theorem Mod.setTest_kept : ∀ x0 x1, (Mod.setTest x0 x1).2.kept = x0.kept := by
  intro x0 x1
  simp only [Mod.setTest, ↓kept_mk, kept_eta, ↓apply_ite Mod.kept, ite_self, Mod.raise_kept, foldl_kept, foldl_kept1, foldl_kept2, foldl_kept3, foldl_kept4, ↓apply_ite Prod.snd, implies_true]

theorem Mod.testCmd_kept : ∀ x0 x1, (Mod.testCmd x0 x1).2.kept = x0.kept := by
  intro x0 x1
  simp only [Mod.testCmd, ↓kept_mk, kept_eta, ↓apply_ite Mod.kept, ite_self, Mod.hold_kept, Mod.testRun_kept, foldl_kept, foldl_kept1, foldl_kept2, foldl_kept3, foldl_kept4, ↓apply_ite Prod.snd, implies_true]

theorem Mod.rickReadRow_kept : ∀ x0 x1 x2 x3 x4 x5 x6, (Mod.rickReadRow x0 x1 x2 x3 x4 x5 x6).kept = x0.kept := by
  intro x0 x1 x2 x3 x4 x5 x6
  simp only [Mod.rickReadRow, ↓kept_mk, kept_eta, ↓apply_ite Mod.kept, ite_self, Mod.orHold_kept, Mod.onRick_kept, Mod.readStack_kept, implies_true]

theorem Mod.rickWriteRow_kept : ∀ x0 x1 x2 x3 x4 x5 x6, (Mod.rickWriteRow x0 x1 x2 x3 x4 x5 x6).kept = x0.kept := by
  intro x0 x1 x2 x3 x4 x5 x6
  unfold Mod.rickWriteRow
  repeat' (split <;> first | with_reducible rfl | simp only [↓kept_mk, kept_eta, ↓apply_ite Mod.kept, ite_self, Mod.orHold_kept, Mod.onRick_kept, Mod.writeStack_kept, Mod.hrmCopy_kept, implies_true] | skip)

theorem Mod.missFill_kept : ∀ x0 x1 x2, (Mod.missFill x0 x1 x2).kept = x0.kept := by
  intro x0 x1 x2
  simp only [Mod.missFill, ↓kept_mk, kept_eta, ↓apply_ite Mod.kept, ite_self, Mod.onRick_kept, implies_true]

theorem Mod.streamQuiet_kept : ∀ x0 x1 x2, (Mod.streamQuiet x0 x1 x2).kept = x0.kept := by
  intro x0 x1 x2
  simp only [Mod.streamQuiet, ↓kept_mk, kept_eta, ↓apply_ite Mod.kept, ite_self, Mod.onRick_kept, implies_true]

theorem Mod.rickInterval_kept : ∀ x0, (Mod.rickInterval x0).kept = x0.kept := by
  intro x0
  simp only [Mod.rickInterval, ↓kept_mk, kept_eta, ↓apply_ite Mod.kept, ite_self, Mod.onRick_kept, foldl_kept, foldl_kept1, foldl_kept2, foldl_kept3, foldl_kept4, ↓apply_ite Prod.snd, implies_true]

end Sys2Proof.Machine
end

