-- ==== Sys2Proof/Laws/KeptLinks.lean ====
section
/-!
SUPPORT. What the functions of Machine/Links.lean keep (see Laws/Kept.lean).
-/
set_option linter.unusedSimpArgs false
set_option linter.unusedVariables false
namespace Sys2Proof.Machine

theorem Mod.hdgEmit_kept : ∀ x0 x1 x2 x3 x4, (Mod.hdgEmit x0 x1 x2 x3 x4).kept = x0.kept := by
  intro x0 x1 x2 x3 x4
  simp only [Mod.hdgEmit, ↓kept_mk, kept_eta, ↓apply_ite Mod.kept, ite_self, Mod.passFlit_kept, implies_true]

theorem Mod.pumpLane_kept : ∀ x0 x1 x2 x3, (Mod.pumpLane x0 x1 x2 x3).kept = x1.kept := by
  intro x0 x1 x2 x3
  induction x0 generalizing x1 x2 x3 with
  | zero =>
    unfold Mod.pumpLane
    first | rfl | simp only [↓kept_mk, kept_eta, ↓apply_ite Mod.kept, ite_self, Mod.hdgEmit_kept, Mod.setPort_kept, implies_true]
  | succ n ih =>
    unfold Mod.pumpLane
    (try simp only [ih, ↓kept_mk, kept_eta, ↓apply_ite Mod.kept, ite_self, Mod.hdgEmit_kept, Mod.setPort_kept, implies_true])
    repeat' (split <;> first | with_reducible rfl | simp only [ih, ↓kept_mk, kept_eta, ↓apply_ite Mod.kept, ite_self, Mod.hdgEmit_kept, Mod.setPort_kept, implies_true] | skip)

theorem Mod.queueLane_kept : ∀ x0 x1 x2 x3, (Mod.queueLane x0 x1 x2 x3).kept = x0.kept := by
  intro x0 x1 x2 x3
  simp only [Mod.queueLane, ↓kept_mk, kept_eta, ↓apply_ite Mod.kept, ite_self, Mod.pumpLane_kept, Mod.setPort_kept, implies_true]

theorem Mod.resendLane_kept : ∀ x0 x1 x2, (Mod.resendLane x0 x1 x2).kept = x0.kept := by
  intro x0 x1 x2
  simp only [Mod.resendLane, ↓kept_mk, kept_eta, ↓apply_ite Mod.kept, ite_self, Mod.hdgEmit_kept, foldl_kept, foldl_kept1, foldl_kept2, foldl_kept3, foldl_kept4, ↓apply_ite Prod.snd, implies_true]

theorem Mod.replayLane_kept : ∀ x0 x1 x2, (Mod.replayLane x0 x1 x2).kept = x0.kept := by
  intro x0 x1 x2
  simp only [Mod.replayLane, ↓kept_mk, kept_eta, ↓apply_ite Mod.kept, ite_self, Mod.resendLane_kept, implies_true]

theorem Mod.ackLane_kept : ∀ x0 x1 x2 x3 x4, (Mod.ackLane x0 x1 x2 x3 x4).kept = x0.kept := by
  intro x0 x1 x2 x3 x4
  simp only [Mod.ackLane, ↓kept_mk, kept_eta, ↓apply_ite Mod.kept, ite_self, Mod.setPort_kept, Mod.pumpLane_kept, Mod.replayLane_kept, implies_true]

theorem Mod.emitLink_kept : ∀ x0 x1 x2 x3 x4 x5, (Mod.emitLink x0 x1 x2 x3 x4 x5).kept = x0.kept := by
  intro x0 x1 x2 x3 x4 x5
  simp only [Mod.emitLink, ↓kept_mk, kept_eta, ↓apply_ite Mod.kept, ite_self, Mod.hdgEmit_kept, implies_true]

theorem Mod.sendLink_kept : ∀ x0 x1 x2 x3, (Mod.sendLink x0 x1 x2 x3).kept = x0.kept := by
  intro x0 x1 x2 x3
  simp only [Mod.sendLink, ↓kept_mk, kept_eta, ↓apply_ite Mod.kept, ite_self, Mod.emitLink_kept, Mod.setPort_kept, implies_true]

theorem Mod.sendIdent_kept : ∀ x0 x1, (Mod.sendIdent x0 x1).kept = x0.kept := by
  intro x0 x1
  simp only [Mod.sendIdent, ↓kept_mk, kept_eta, ↓apply_ite Mod.kept, ite_self, Mod.sendLink_kept, implies_true]

theorem Mod.identAll_kept : ∀ x0, (Mod.identAll x0).kept = x0.kept := by
  intro x0
  simp only [Mod.identAll, ↓kept_mk, kept_eta, ↓apply_ite Mod.kept, ite_self, Mod.sendIdent_kept, foldl_kept, foldl_kept1, foldl_kept2, foldl_kept3, foldl_kept4, ↓apply_ite Prod.snd, implies_true]

theorem Mod.setLeaActive_kept : ∀ x0 x1, (Mod.setLeaActive x0 x1).kept = x0.kept := by
  intro x0 x1
  simp only [Mod.setLeaActive, ↓kept_mk, kept_eta, ↓apply_ite Mod.kept, ite_self, Mod.identAll_kept, implies_true]

theorem Mod.leaSwap_kept : ∀ x0, (Mod.leaSwap x0).kept = x0.kept := by
  intro x0
  simp only [Mod.leaSwap, ↓kept_mk, kept_eta, ↓apply_ite Mod.kept, ite_self, Mod.setLeaActive_kept, implies_true]

theorem Mod.repeatLinks_kept : ∀ x0 x1, (Mod.repeatLinks x0 x1).kept = x0.kept := by
  intro x0 x1
  simp only [Mod.repeatLinks, ↓kept_mk, kept_eta, ↓apply_ite Mod.kept, ite_self, Mod.emitLink_kept, foldl_kept, foldl_kept1, foldl_kept2, foldl_kept3, foldl_kept4, ↓apply_ite Prod.snd, implies_true]

theorem Mod.resetLane_kept : ∀ x0 x1 x2, (Mod.resetLane x0 x1 x2).kept = x0.kept := by
  intro x0 x1 x2
  simp only [Mod.resetLane, ↓kept_mk, kept_eta, ↓apply_ite Mod.kept, ite_self, Mod.sendLink_kept, Mod.setPort_kept, implies_true]

theorem Mod.portDown_kept : ∀ x0 x1 x2, (Mod.portDown x0 x1 x2).kept = x0.kept := by
  intro x0 x1 x2
  simp only [Mod.portDown, ↓kept_mk, kept_eta, ↓apply_ite Mod.kept, ite_self, Mod.setPort_kept, Mod.raise_kept, implies_true]

theorem Mod.portFailed_kept : ∀ x0 x1, (Mod.portFailed x0 x1).kept = x0.kept := by
  intro x0 x1
  simp only [Mod.portFailed, ↓kept_mk, kept_eta, ↓apply_ite Mod.kept, ite_self, Mod.setPort_kept, Mod.raise_kept, implies_true]

theorem Mod.portAttemptFailed_kept : ∀ x0 x1, (Mod.portAttemptFailed x0 x1).kept = x0.kept := by
  intro x0 x1
  simp only [Mod.portAttemptFailed, ↓kept_mk, kept_eta, ↓apply_ite Mod.kept, ite_self, Mod.setPort_kept, Mod.portFailed_kept, Mod.portDown_kept, implies_true]

theorem Mod.portRetrain_kept : ∀ x0 x1 x2 x3, (Mod.portRetrain x0 x1 x2 x3).kept = x0.kept := by
  intro x0 x1 x2 x3
  simp only [Mod.portRetrain, ↓kept_mk, kept_eta, ↓apply_ite Mod.kept, ite_self, Mod.portFailed_kept, Mod.setPort_kept, Mod.raise_kept, implies_true]

theorem Mod.portEnterUp_kept : ∀ x0 x1, (Mod.portEnterUp x0 x1).kept = x0.kept := by
  intro x0 x1
  simp only [Mod.portEnterUp, ↓kept_mk, kept_eta, ↓apply_ite Mod.kept, ite_self, Mod.setPort_kept, Mod.raise_kept, Mod.resendLane_kept, Mod.pumpLane_kept, Mod.emitLink_kept, foldl_kept, foldl_kept1, foldl_kept2, foldl_kept3, foldl_kept4, ↓apply_ite Prod.snd, implies_true]

theorem Mod.portRevive_kept : ∀ x0 x1, (Mod.portRevive x0 x1).kept = x0.kept := by
  intro x0 x1
  simp only [Mod.portRevive, ↓kept_mk, kept_eta, ↓apply_ite Mod.kept, ite_self, Mod.clearFault_kept, Mod.setPort_kept, implies_true]

theorem Mod.takeFlit_follows : ∀ m p ty f b g, (∀ x : Mod, x.kept.Follows (g x).kept) →
    (Mod.kept m).Follows (Mod.takeFlit m p ty f b g).kept := by
  intro m p ty f b g h
  unfold Mod.takeFlit
  extract_lets t
  clear_value t
  split
  · exact follows_refl _
  split
  · rw [kept_mk, kept_eta]; exact follows_refl _
  split
  · exact follows_refl _
  · refine follows_trans (h _) ?_
    rw [Mod.ackLane_kept, Mod.ackLane_kept, Mod.setPort_kept]; exact follows_refl _

theorem Mod.takeFlit_kept : ∀ m p ty f b g, (∀ x : Mod, (g x).kept = x.kept) → (Mod.takeFlit m p ty f b g).kept = m.kept := by
  intro m p ty f b g h
  unfold Mod.takeFlit
  (try simp only [h, ↓kept_mk, kept_eta, ↓apply_ite Mod.kept, ite_self, Mod.setPort_kept, Mod.ackLane_kept, foldl_kept, implies_true])

theorem Mod.laneTakes_kept : ∀ x0 x1 x2 x3, (Mod.laneTakes x0 x1 x2 x3).2.kept = x0.kept := by
  intro x0 x1 x2 x3
  simp only [Mod.laneTakes, ↓kept_mk, kept_eta, ↓apply_ite Mod.kept, ite_self, Mod.setPort_kept, foldl_kept, foldl_kept1, foldl_kept2, foldl_kept3, foldl_kept4, ↓apply_ite Prod.snd, implies_true]

theorem Mod.noteMarks_kept : ∀ x0 x1 x2 x3 x4, (Mod.noteMarks x0 x1 x2 x3 x4).kept = x0.kept := by
  intro x0 x1 x2 x3 x4
  unfold Mod.noteMarks
  repeat' (split <;> first | with_reducible rfl | simp only [↓kept_mk, kept_eta, ↓apply_ite Mod.kept, ite_self, foldl_kept, foldl_kept1, foldl_kept2, foldl_kept3, foldl_kept4, ↓apply_ite Prod.snd, implies_true] | skip)

theorem Mod.holdTag_kept : ∀ x0 x1 x2 x3, (Mod.holdTag x0 x1 x2 x3).kept = x0.kept := by
  intro x0 x1 x2 x3
  simp only [Mod.holdTag, ↓kept_mk, kept_eta, ↓apply_ite Mod.kept, ite_self, implies_true]

theorem Mod.freeTag_kept : ∀ x0 x1 x2, (Mod.freeTag x0 x1 x2).kept = x0.kept := by
  intro x0 x1 x2
  simp only [Mod.freeTag, ↓kept_mk, kept_eta, ↓apply_ite Mod.kept, ite_self, implies_true]

theorem Mod.sendSettled_kept : ∀ x0 x1, (Mod.sendSettled x0 x1).kept = x0.kept := by
  intro x0 x1
  unfold Mod.sendSettled
  (try simp only [↓kept_mk, kept_eta, ↓apply_ite Mod.kept, ite_self, Mod.freeTag_kept, Mod.setPort_kept, implies_true])
  repeat' (split <;> first | with_reducible rfl | simp only [↓kept_mk, kept_eta, ↓apply_ite Mod.kept, ite_self, Mod.freeTag_kept, Mod.setPort_kept, implies_true] | skip)

theorem Mod.xferMismatch_kept : ∀ x0 x1, (Mod.xferMismatch x0 x1).kept = x0.kept := by
  intro x0 x1
  simp only [Mod.xferMismatch, ↓kept_mk, kept_eta, ↓apply_ite Mod.kept, ite_self, Mod.dataFault_kept, Mod.setPort_kept, Mod.raise_kept, implies_true]

theorem Mod.takeRecv_kept : ∀ x0 x1 x2 x3 x4, (Mod.takeRecv x0 x1 x2 x3 x4).kept = x0.kept := by
  intro x0 x1 x2 x3 x4
  unfold Mod.takeRecv
  repeat' (split <;> first | with_reducible rfl | simp only [↓kept_mk, kept_eta, ↓apply_ite Mod.kept, ite_self, Mod.noteMarks_kept, Mod.deviceWrite_kept, Mod.setPort_kept, Mod.freeTag_kept, Mod.xferMismatch_kept, implies_true] | skip)

theorem Mod.drainRecv_kept : ∀ x0 x1 x2, (Mod.drainRecv x0 x1 x2).kept = x1.kept := by
  intro x0 x1 x2
  induction x0 generalizing x1 x2 with
  | zero =>
    unfold Mod.drainRecv
    first | rfl | simp only [↓kept_mk, kept_eta, ↓apply_ite Mod.kept, ite_self, Mod.setPort_kept, Mod.takeRecv_kept, implies_true]
  | succ n ih =>
    unfold Mod.drainRecv
    (try simp only [ih, ↓kept_mk, kept_eta, ↓apply_ite Mod.kept, ite_self, Mod.setPort_kept, Mod.takeRecv_kept, implies_true])
    repeat' (split <;> first | with_reducible rfl | simp only [ih, ↓kept_mk, kept_eta, ↓apply_ite Mod.kept, ite_self, Mod.setPort_kept, Mod.takeRecv_kept, implies_true] | skip)

theorem Mod.transferDue_kept : ∀ x0 x1 x2, (Mod.transferDue x0 x1 x2).kept = x0.kept := by
  intro x0 x1 x2
  unfold Mod.transferDue
  repeat' (split <;> first | with_reducible rfl | simp only [↓kept_mk, kept_eta, ↓apply_ite Mod.kept, ite_self, Mod.holdTag_kept, Mod.setPort_kept, Mod.drainRecv_kept, Mod.deviceRead_kept, Mod.sendSettled_kept, Mod.queueLane_kept, Mod.noteMarks_kept, implies_true] | skip)

theorem Mod.dropTransfers_kept : ∀ x0, (Mod.dropTransfers x0).kept = x0.kept := by
  intro x0
  simp only [Mod.dropTransfers, ↓kept_mk, kept_eta, ↓apply_ite Mod.kept, ite_self, Mod.freeTag_kept, Mod.resetLane_kept, Mod.setPort_kept, foldl_kept, foldl_kept1, foldl_kept2, foldl_kept3, foldl_kept4, ↓apply_ite Prod.snd, implies_true]

theorem Mod.loadTransfers_kept : ∀ x0, (Mod.loadTransfers x0).kept = x0.kept := by
  intro x0
  unfold Mod.loadTransfers
  repeat' (split <;> first | with_reducible rfl | simp only [↓kept_mk, kept_eta, ↓apply_ite Mod.kept, ite_self, Mod.setPort_kept, foldl_kept, foldl_kept1, foldl_kept2, foldl_kept3, foldl_kept4, ↓apply_ite Prod.snd, implies_true] | skip)

theorem Mod.beDrop_kept : ∀ x0, (Mod.beDrop x0).kept = x0.kept := by
  intro x0
  simp only [Mod.beDrop, ↓kept_mk, kept_eta, ↓apply_ite Mod.kept, ite_self, Mod.raise_kept, implies_true]

theorem Mod.beForward_kept : ∀ x0 x1 x2, (Mod.beForward x0 x1 x2).kept = x0.kept := by
  intro x0 x1 x2
  simp only [Mod.beForward, ↓kept_mk, kept_eta, ↓apply_ite Mod.kept, ite_self, Mod.beDrop_kept, Mod.queueLane_kept, Mod.noteMarks_kept, foldl_kept, foldl_kept1, foldl_kept2, foldl_kept3, foldl_kept4, ↓apply_ite Prod.snd, implies_true]

theorem Mod.setBeq_kept : ∀ x0 x1 x2, (Mod.setBeq x0 x1 x2).kept = x0.kept := by
  intro x0 x1 x2
  simp only [Mod.setBeq, ↓kept_mk, kept_eta, ↓apply_ite Mod.kept, ite_self, implies_true]

theorem Mod.beFlush_kept : ∀ x0 x1 x2, (Mod.beFlush x0 x1 x2).kept = x1.kept := by
  intro x0 x1 x2
  induction x0 generalizing x1 x2 with
  | zero =>
    unfold Mod.beFlush
    first | rfl | simp only [↓kept_mk, kept_eta, ↓apply_ite Mod.kept, ite_self, Mod.deviceWrite_kept, Mod.setBeq_kept, implies_true]
  | succ n ih =>
    unfold Mod.beFlush
    (try simp only [ih, ↓kept_mk, kept_eta, ↓apply_ite Mod.kept, ite_self, Mod.deviceWrite_kept, Mod.setBeq_kept, implies_true])
    repeat' (split <;> first | with_reducible rfl | simp only [ih, ↓kept_mk, kept_eta, ↓apply_ite Mod.kept, ite_self, Mod.deviceWrite_kept, Mod.setBeq_kept, implies_true] | skip)

theorem Mod.beqPump_kept : ∀ x0 x1 x2, (Mod.beqPump x0 x1 x2).kept = x1.kept := by
  intro x0 x1 x2
  induction x0 generalizing x1 x2 with
  | zero =>
    unfold Mod.beqPump
    first | rfl | simp only [↓kept_mk, kept_eta, ↓apply_ite Mod.kept, ite_self, Mod.deviceRead_kept, Mod.setBeq_kept, Mod.beFlush_kept, Mod.beForward_kept, implies_true]
  | succ n ih =>
    unfold Mod.beqPump
    (try simp only [ih, ↓kept_mk, kept_eta, ↓apply_ite Mod.kept, ite_self, Mod.deviceRead_kept, Mod.setBeq_kept, Mod.beFlush_kept, Mod.beForward_kept, implies_true])
    repeat' (split <;> first | with_reducible rfl | simp only [ih, ↓kept_mk, kept_eta, ↓apply_ite Mod.kept, ite_self, Mod.deviceRead_kept, Mod.setBeq_kept, Mod.beFlush_kept, Mod.beForward_kept, implies_true] | skip)

theorem Mod.beSettle_kept : ∀ x0 x1 x2, (Mod.beSettle x0 x1 x2).kept = x0.kept := by
  intro x0 x1 x2
  unfold Mod.beSettle
  repeat' (split <;> first | with_reducible rfl | simp only [↓kept_mk, kept_eta, ↓apply_ite Mod.kept, ite_self, Mod.beqPump_kept, Mod.beFlush_kept, implies_true] | skip)

theorem Mod.beDeliver_kept : ∀ x0 x1 x2, (Mod.beDeliver x0 x1 x2).kept = x0.kept := by
  intro x0 x1 x2
  simp only [Mod.beDeliver, ↓kept_mk, kept_eta, ↓apply_ite Mod.kept, ite_self, Mod.writeStack_kept, Mod.beForward_kept, foldl_kept, foldl_kept1, foldl_kept2, foldl_kept3, foldl_kept4, ↓apply_ite Prod.snd, implies_true]

theorem Mod.beArrive_kept : ∀ x0 x1 x2, (Mod.beArrive x0 x1 x2).kept = x0.kept := by
  intro x0 x1 x2
  unfold Mod.beArrive
  (try simp only [↓kept_mk, kept_eta, ↓apply_ite Mod.kept, ite_self, Mod.setPort_kept, Mod.beDrop_kept, Mod.beForward_kept, Mod.beDeliver_kept, Mod.noteMarks_kept, Mod.beSettle_kept, foldl_kept, foldl_kept1, foldl_kept2, foldl_kept3, foldl_kept4, ↓apply_ite Prod.snd, implies_true])
  repeat' (split <;> first | with_reducible rfl | simp only [↓kept_mk, kept_eta, ↓apply_ite Mod.kept, ite_self, Mod.setPort_kept, Mod.beDrop_kept, Mod.beForward_kept, Mod.beDeliver_kept, Mod.noteMarks_kept, Mod.beSettle_kept, foldl_kept, foldl_kept1, foldl_kept2, foldl_kept3, foldl_kept4, ↓apply_ite Prod.snd, implies_true] | skip)

theorem Mod.takeBe_kept : ∀ x0 x1 x2, (Mod.takeBe x0 x1 x2).kept = x0.kept := by
  intro x0 x1 x2
  simp only [Mod.takeBe, ↓kept_mk, kept_eta, ↓apply_ite Mod.kept, ite_self, Mod.setPort_kept, implies_true]

end Sys2Proof.Machine
end

