-- ==== Sys2Proof/Laws/KeptSeqt.lean ====
section
/-!
SUPPORT. What the functions of Machine/Seqt.lean keep (see Laws/Kept.lean).
-/
set_option linter.unusedSimpArgs false
set_option linter.unusedVariables false
namespace Sys2Proof.Machine

theorem Mod.setSeqField_kept : ∀ x0 x1 x2 x3 x4, (Mod.setSeqField x0 x1 x2 x3 x4).kept = x0.kept := by
  intro x0 x1 x2 x3 x4
  simp only [Mod.setSeqField, ↓kept_mk, kept_eta, ↓apply_ite Mod.kept, ite_self, implies_true]

theorem Mod.publishRefuse_kept : ∀ x0 x1 x2, (Mod.publishRefuse x0 x1 x2).kept = x0.kept := by
  intro x0 x1 x2
  simp only [Mod.publishRefuse, ↓kept_mk, kept_eta, ↓apply_ite Mod.kept, ite_self, Mod.raise_kept, implies_true]

theorem Mod.seqWriteIn_kept : ∀ x0 x1 x2 x3, (Mod.seqWriteIn x0 x1 x2 x3).kept = x0.kept := by
  intro x0 x1 x2 x3
  simp only [Mod.seqWriteIn, ↓kept_mk, kept_eta, ↓apply_ite Mod.kept, ite_self, Mod.publishRefuse_kept, implies_true]

theorem Mod.seqWrite_kept : ∀ x0 x1 x2 x3, (Mod.seqWrite x0 x1 x2 x3).kept = x0.kept := by
  intro x0 x1 x2 x3
  simp only [Mod.seqWrite, ↓kept_mk, kept_eta, ↓apply_ite Mod.kept, ite_self, Mod.seqWriteIn_kept, implies_true]

theorem Mod.fenceClear_kept : ∀ x0, (Mod.fenceClear x0).kept = x0.kept := by
  intro x0
  simp only [Mod.fenceClear, ↓kept_mk, kept_eta, ↓apply_ite Mod.kept, ite_self, implies_true]

theorem Mod.fenceWrite_kept : ∀ x0 x1, (Mod.fenceWrite x0 x1).kept = x0.kept := by
  intro x0 x1
  simp only [Mod.fenceWrite, ↓kept_mk, kept_eta, ↓apply_ite Mod.kept, ite_self, implies_true]

theorem Mod.dmaRead_kept : ∀ x0 x1 x2 x3 x4, (Mod.dmaRead x0 x1 x2 x3 x4).2.kept = x0.kept := by
  intro x0 x1 x2 x3 x4
  simp only [Mod.dmaRead, ↓kept_mk, kept_eta, ↓apply_ite Mod.kept, ite_self, Mod.deviceRead_kept, foldl_kept, foldl_kept1, foldl_kept2, foldl_kept3, foldl_kept4, ↓apply_ite Prod.snd, implies_true]

theorem Mod.dmaWrite_kept : ∀ x0 x1 x2 x3 x4 x5, (Mod.dmaWrite x0 x1 x2 x3 x4 x5).2.kept = x0.kept := by
  intro x0 x1 x2 x3 x4 x5
  simp only [Mod.dmaWrite, ↓kept_mk, kept_eta, ↓apply_ite Mod.kept, ite_self, Mod.seqWrite_kept, Mod.deviceWrite_kept, foldl_kept, foldl_kept1, foldl_kept2, foldl_kept3, foldl_kept4, ↓apply_ite Prod.snd, implies_true]

end Sys2Proof.Machine
end

