-- ==== Sys2Proof/Laws/KeptDma.lean ====
section
/-!
SUPPORT. What the functions of Machine/Dma.lean keep (see Laws/Kept.lean).
-/
set_option linter.unusedSimpArgs false
set_option linter.unusedVariables false
namespace Sys2Proof.Machine

theorem Mod.setDmaq_kept : ∀ x0 x1 x2, (Mod.setDmaq x0 x1 x2).kept = x0.kept := by
  intro x0 x1 x2
  simp only [Mod.setDmaq, ↓kept_mk, kept_eta, ↓apply_ite Mod.kept, ite_self, implies_true]

theorem Mod.settleQueue_kept : ∀ x0 x1, (Mod.settleQueue x0 x1).kept = x0.kept := by
  intro x0 x1
  simp only [Mod.settleQueue, ↓kept_mk, kept_eta, ↓apply_ite Mod.kept, ite_self, Mod.setDmaq_kept, implies_true]

theorem Mod.flushQueue_kept : ∀ x0 x1 x2, (Mod.flushQueue x0 x1 x2).kept = x1.kept := by
  intro x0 x1 x2
  induction x0 generalizing x1 x2 with
  | zero =>
    unfold Mod.flushQueue
    first | rfl | simp only [↓kept_mk, kept_eta, ↓apply_ite Mod.kept, ite_self, Mod.setDmaq_kept, Mod.hostWrite_kept, Mod.dmaWrite_kept, Mod.interrupt_kept, implies_true]
  | succ n ih =>
    unfold Mod.flushQueue
    (try simp only [ih, ↓kept_mk, kept_eta, ↓apply_ite Mod.kept, ite_self, Mod.setDmaq_kept, Mod.hostWrite_kept, Mod.dmaWrite_kept, Mod.interrupt_kept, implies_true])
    repeat' (split <;> first | with_reducible rfl | simp only [ih, ↓kept_mk, kept_eta, ↓apply_ite Mod.kept, ite_self, Mod.setDmaq_kept, Mod.hostWrite_kept, Mod.dmaWrite_kept, Mod.interrupt_kept, implies_true] | skip)

theorem Mod.ringDesc_kept : ∀ x0 x1 x2, (Mod.ringDesc x0 x1 x2).2.kept = x0.kept := by
  intro x0 x1 x2
  simp only [Mod.ringDesc, ↓kept_mk, kept_eta, ↓apply_ite Mod.kept, ite_self, Mod.dmaRead_kept, foldl_kept, foldl_kept1, foldl_kept2, foldl_kept3, foldl_kept4, ↓apply_ite Prod.snd, implies_true]

theorem Mod.dmaqHead_kept : ∀ x0 x1 x2 x3, (Mod.dmaqHead x0 x1 x2 x3).kept = x0.kept := by
  intro x0 x1 x2 x3
  simp only [Mod.dmaqHead, ↓kept_mk, kept_eta, ↓apply_ite Mod.kept, ite_self, Mod.settleQueue_kept, Mod.setDmaq_kept, implies_true]

theorem Mod.dmaqCtrl_kept : ∀ x0 x1 x2, (Mod.dmaqCtrl x0 x1 x2).kept = x0.kept := by
  intro x0 x1 x2
  simp only [Mod.dmaqCtrl, ↓kept_mk, kept_eta, ↓apply_ite Mod.kept, ite_self, Mod.settleQueue_kept, Mod.setDmaq_kept, implies_true]

theorem Mod.takeDesc_kept : ∀ x0 x1 x2, (Mod.takeDesc x0 x1 x2).2.2.kept = x0.kept := by
  intro x0 x1 x2
  simp only [Mod.takeDesc, ↓kept_mk, kept_eta, ↓apply_ite Mod.kept, ite_self, Mod.ringDesc_kept, Mod.settleQueue_kept, Mod.setDmaq_kept, foldl_kept, foldl_kept1, foldl_kept2, foldl_kept3, foldl_kept4, ↓apply_ite Prod.snd, implies_true]

theorem Mod.writeRun_kept : ∀ x0 x1 x2 x3, (Mod.writeRun x0 x1 x2 x3).2.kept = x0.kept := by
  intro x0 x1 x2 x3
  unfold Mod.writeRun
  repeat' (split <;> first | with_reducible rfl | simp only [↓kept_mk, kept_eta, ↓apply_ite Mod.kept, ite_self, Mod.dmaWrite_kept, Mod.deviceWrite_kept, foldl_kept, foldl_kept1, foldl_kept2, foldl_kept3, foldl_kept4, ↓apply_ite Prod.snd, implies_true] | skip)

theorem Mod.makeWrites_kept : ∀ x0 x1 x2 x3 x4, (Mod.makeWrites x0 x1 x2 x3 x4).2.kept = x1.kept := by
  intro x0 x1 x2 x3 x4
  induction x0 generalizing x1 x2 x3 x4 with
  | zero =>
    unfold Mod.makeWrites
    first | rfl | simp only [↓kept_mk, kept_eta, ↓apply_ite Mod.kept, ite_self, Mod.writeRun_kept, foldl_kept, foldl_kept1, foldl_kept2, foldl_kept3, foldl_kept4, ↓apply_ite Prod.snd, implies_true]
  | succ n ih =>
    unfold Mod.makeWrites
    (try simp only [ih, ↓kept_mk, kept_eta, ↓apply_ite Mod.kept, ite_self, Mod.writeRun_kept, foldl_kept, foldl_kept1, foldl_kept2, foldl_kept3, foldl_kept4, ↓apply_ite Prod.snd, implies_true])
    repeat' (split <;> first | with_reducible rfl | simp only [ih, ↓kept_mk, kept_eta, ↓apply_ite Mod.kept, ite_self, Mod.writeRun_kept, foldl_kept, foldl_kept1, foldl_kept2, foldl_kept3, foldl_kept4, ↓apply_ite Prod.snd, implies_true] | skip)

theorem Mod.srcPiece_kept : ∀ x0 x1 x2 x3 x4, (Mod.srcPiece x0 x1 x2 x3 x4).2.kept = x0.kept := by
  intro x0 x1 x2 x3 x4
  simp only [Mod.srcPiece, ↓kept_mk, kept_eta, ↓apply_ite Mod.kept, ite_self, Mod.dmaRead_kept, foldl_kept, foldl_kept1, foldl_kept2, foldl_kept3, foldl_kept4, ↓apply_ite Prod.snd, implies_true]

theorem Mod.planTranspose_kept : ∀ x0 x1 x2, (Mod.planTranspose x0 x1 x2).2.kept = x0.kept := by
  intro x0 x1 x2
  simp only [Mod.planTranspose, ↓kept_mk, kept_eta, ↓apply_ite Mod.kept, ite_self, Mod.srcPiece_kept, foldl_kept, foldl_kept1, foldl_kept2, foldl_kept3, foldl_kept4, ↓apply_ite Prod.snd, implies_true]

theorem Mod.planScatter_kept : ∀ x0 x1 x2, (Mod.planScatter x0 x1 x2).2.2.2.kept = x0.kept := by
  intro x0 x1 x2
  simp only [Mod.planScatter, ↓kept_mk, kept_eta, ↓apply_ite Mod.kept, ite_self, Mod.dmaRead_kept, foldl_kept, foldl_kept1, foldl_kept2, foldl_kept3, foldl_kept4, ↓apply_ite Prod.snd, implies_true]

theorem Mod.moveOut_kept : ∀ x0 x1 x2 x3, (Mod.moveOut x0 x1 x2 x3).2.kept = x0.kept := by
  intro x0 x1 x2 x3
  simp only [Mod.moveOut, ↓kept_mk, kept_eta, ↓apply_ite Mod.kept, ite_self, Mod.hostWriteAs_kept, foldl_kept, foldl_kept1, foldl_kept2, foldl_kept3, foldl_kept4, ↓apply_ite Prod.snd, implies_true]

theorem Mod.dmaFallow_kept : ∀ x0 x1 x2, (Mod.dmaFallow x0 x1 x2).2.kept = x0.kept := by
  intro x0 x1 x2
  simp only [Mod.dmaFallow, ↓kept_mk, kept_eta, ↓apply_ite Mod.kept, ite_self, Mod.withRick_kept, foldl_kept, foldl_kept1, foldl_kept2, foldl_kept3, foldl_kept4, ↓apply_ite Prod.snd, implies_true]

theorem Mod.pumpInjector_kept : ∀ x0 x1, (Mod.pumpInjector x0 x1).kept = x0.kept := by
  intro x0 x1
  simp only [Mod.pumpInjector, ↓kept_mk, kept_eta, ↓apply_ite Mod.kept, ite_self, foldl_kept, foldl_kept1, foldl_kept2, foldl_kept3, foldl_kept4, ↓apply_ite Prod.snd, implies_true]

theorem Mod.askHost_kept : ∀ x0 x1 x2 x3 x4 y, Mod.askHost x0 x1 x2 x3 x4 = some y → y.kept = x0.kept := by
  intro x0 x1 x2 x3 x4 y h
  unfold Mod.askHost at h
  (try simp only [] at h)
  repeat' split at h
  all_goals first | (cases h; done) | (cases h; first | rfl | simp only [↓kept_mk, kept_eta, ↓apply_ite Mod.kept, ite_self, Mod.sendPacket_kept, foldl_kept, foldl_kept1, foldl_kept2, foldl_kept3, foldl_kept4, ↓apply_ite Prod.snd, implies_true])

theorem Mod.askHost_getD : ∀ x0 x1 x2 x3 x4 y, y.kept = x0.kept → ((Mod.askHost x0 x1 x2 x3 x4).getD y).kept = x0.kept := by
  intro x0 x1 x2 x3 x4 y h
  cases e : Mod.askHost x0 x1 x2 x3 x4 with
  | none => exact h
  | some z => exact Mod.askHost_kept x0 x1 x2 x3 x4 z e

theorem Mod.pumpReads_kept : ∀ x0, (Mod.pumpReads x0).kept = x0.kept := by
  intro x0
  unfold Mod.pumpReads
  repeat' (first | with_reducible rfl | simp only [↓kept_mk, kept_eta, ↓apply_ite Mod.kept, ite_self, Mod.askHost_getD, foldl_kept, foldl_kept1, foldl_kept2, foldl_kept3, foldl_kept4, ↓apply_ite Prod.snd, implies_true] | (rw [Mod.askHost_kept _ _ _ _ _ _ ‹_›]) | split | refine (foldl_kept _ (fun m a => ?_) _ _).trans ?_ | refine (foldl_kept2 _ (fun m a => ?_) _ _).trans ?_ | refine (foldl_kept3 _ (fun m a => ?_) _ _).trans ?_ | refine (foldl_kept4 _ (fun m a => ?_) _ _).trans ?_)

theorem Mod.setXfer_kept : ∀ x0 x1, (Mod.setXfer x0 x1).kept = x0.kept := by
  intro x0 x1
  simp only [Mod.setXfer, ↓kept_mk, kept_eta, ↓apply_ite Mod.kept, ite_self, implies_true]

theorem Mod.queueDone_kept : ∀ x0 x1 x2 x3 x4 x5 x6, (Mod.queueDone x0 x1 x2 x3 x4 x5 x6).kept = x0.kept := by
  intro x0 x1 x2 x3 x4 x5 x6
  simp only [Mod.queueDone, ↓kept_mk, kept_eta, ↓apply_ite Mod.kept, ite_self, Mod.setDmaq_kept, Mod.raise_kept, Mod.settleQueue_kept, Mod.flushQueue_kept, implies_true]

theorem Mod.endXfer_kept : ∀ x0 x1 x2, (Mod.endXfer x0 x1 x2).kept = x0.kept := by
  intro x0 x1 x2
  unfold Mod.endXfer
  repeat' (split <;> first | with_reducible rfl | simp only [↓kept_mk, kept_eta, ↓apply_ite Mod.kept, ite_self, Mod.pumpReads_kept, Mod.queueDone_kept, Mod.freeTag_kept, implies_true] | skip)

theorem Mod.issueFault_kept : ∀ x0 x1 x2 x3 x4, (Mod.issueFault x0 x1 x2 x3 x4).kept = x0.kept := by
  intro x0 x1 x2 x3 x4
  simp only [Mod.issueFault, ↓kept_mk, kept_eta, ↓apply_ite Mod.kept, ite_self, Mod.dataFault_kept, Mod.freeTag_kept, Mod.raise_kept, foldl_kept, foldl_kept1, foldl_kept2, foldl_kept3, foldl_kept4, ↓apply_ite Prod.snd, implies_true]

theorem Mod.beginXfer_kept : ∀ x0 x1 x2 x3, (Mod.beginXfer x0 x1 x2 x3).kept = x0.kept := by
  intro x0 x1 x2 x3
  unfold Mod.beginXfer
  (try simp only [↓kept_mk, kept_eta, ↓apply_ite Mod.kept, ite_self, Mod.dmaFallow_kept, Mod.dmaRead_kept, Mod.moveOut_kept, Mod.planTranspose_kept, Mod.planScatter_kept, Mod.makeWrites_kept, Mod.pumpReads_kept, Mod.pumpInjector_kept, implies_true])
  repeat' (split <;> first | with_reducible rfl | simp only [↓kept_mk, kept_eta, ↓apply_ite Mod.kept, ite_self, Mod.dmaFallow_kept, Mod.dmaRead_kept, Mod.moveOut_kept, Mod.planTranspose_kept, Mod.planScatter_kept, Mod.makeWrites_kept, Mod.pumpReads_kept, Mod.pumpInjector_kept, implies_true] | skip)

theorem Mod.dmaStart_kept : ∀ x0 x1 x2 x3, (Mod.dmaStart x0 x1 x2 x3).kept = x0.kept := by
  intro x0 x1 x2 x3
  unfold Mod.dmaStart
  repeat' (split <;> first | with_reducible rfl | simp only [↓kept_mk, kept_eta, ↓apply_ite Mod.kept, ite_self, Mod.takeDesc_kept, Mod.endXfer_kept, Mod.beginXfer_kept, Mod.issueFault_kept, Mod.queueDone_kept, implies_true] | skip)

theorem Mod.completeXfer_kept : ∀ x0 x1, (Mod.completeXfer x0 x1).kept = x0.kept := by
  intro x0 x1
  simp only [Mod.completeXfer, ↓kept_mk, kept_eta, ↓apply_ite Mod.kept, ite_self, Mod.makeWrites_kept, Mod.settleMerges_kept, Mod.endXfer_kept, Mod.pumpInjector_kept, foldl_kept, foldl_kept1, foldl_kept2, foldl_kept3, foldl_kept4, ↓apply_ite Prod.snd, implies_true]

theorem Mod.transferCompletion_kept : ∀ x0 x1 x2, (Mod.transferCompletion x0 x1 x2).kept = x0.kept := by
  intro x0 x1 x2
  unfold Mod.transferCompletion
  repeat' (split <;> first | with_reducible rfl | simp only [↓kept_mk, kept_eta, ↓apply_ite Mod.kept, ite_self, Mod.completeXfer_kept, implies_true] | skip)

theorem Mod.hostData_kept : ∀ x0 x1 x2 x3 x4 x5 x6, (Mod.hostData x0 x1 x2 x3 x4 x5 x6).kept = x0.kept := by
  intro x0 x1 x2 x3 x4 x5 x6
  unfold Mod.hostData
  repeat' (split <;> first | with_reducible rfl | simp only [↓kept_mk, kept_eta, ↓apply_ite Mod.kept, ite_self, Mod.raise_kept, Mod.setXfer_kept, Mod.makeWrites_kept, Mod.moveOut_kept, Mod.pumpReads_kept, Mod.pumpInjector_kept, implies_true] | skip)

theorem Mod.hostWriteError_kept : ∀ x0 x1 x2, (Mod.hostWriteError x0 x1 x2).kept = x0.kept := by
  intro x0 x1 x2
  unfold Mod.hostWriteError
  repeat' (split <;> first | with_reducible rfl | simp only [↓kept_mk, kept_eta, ↓apply_ite Mod.kept, ite_self, Mod.raise_kept, Mod.setXfer_kept, implies_true] | skip)

theorem Mod.hostLost_kept : ∀ x0, (Mod.hostLost x0).kept = x0.kept := by
  intro x0
  simp only [Mod.hostLost, ↓kept_mk, kept_eta, ↓apply_ite Mod.kept, ite_self, Mod.raise_kept, Mod.setXfer_kept, foldl_kept, foldl_kept1, foldl_kept2, foldl_kept3, foldl_kept4, ↓apply_ite Prod.snd, implies_true]

theorem Mod.deadlineMiss_kept : ∀ x0 x1 x2, (Mod.deadlineMiss x0 x1 x2).kept = x0.kept := by
  intro x0 x1 x2
  simp only [Mod.deadlineMiss, ↓kept_mk, kept_eta, ↓apply_ite Mod.kept, ite_self, Mod.raise_kept, implies_true]

theorem Mod.abortXfers_kept : ∀ x0, (Mod.abortXfers x0).kept = x0.kept := by
  intro x0
  simp only [Mod.abortXfers, ↓kept_mk, kept_eta, ↓apply_ite Mod.kept, ite_self, Mod.endXfer_kept, Mod.raise_kept, foldl_kept, foldl_kept1, foldl_kept2, foldl_kept3, foldl_kept4, ↓apply_ite Prod.snd, implies_true]

theorem Mod.deliverHeldDma_kept : ∀ x0 x1 x2, (Mod.deliverHeldDma x0 x1 x2).kept = x0.kept := by
  intro x0 x1 x2
  simp only [Mod.deliverHeldDma, ↓kept_mk, kept_eta, ↓apply_ite Mod.kept, ite_self, Mod.flushQueue_kept, Mod.setDmaq_kept, foldl_kept, foldl_kept1, foldl_kept2, foldl_kept3, foldl_kept4, ↓apply_ite Prod.snd, implies_true]

end Sys2Proof.Machine
end

