-- ==== Sys2Proof/Laws/KeptAttn.lean ====
section
/-!
SUPPORT. What the functions of Machine/Attn.lean keep (see Laws/Kept.lean).
-/
set_option linter.unusedSimpArgs false
set_option linter.unusedVariables false
namespace Sys2Proof.Machine

theorem Mod.walkRead_kept : ∀ x0 x1 x2 x3 x4, (Mod.walkRead x0 x1 x2 x3 x4).2.kept = x0.kept := by
  intro x0 x1 x2 x3 x4
  simp only [Mod.walkRead, ↓kept_mk, kept_eta, ↓apply_ite Mod.kept, ite_self, Mod.coreReadStack_kept, foldl_kept, foldl_kept1, foldl_kept2, foldl_kept3, foldl_kept4, ↓apply_ite Prod.snd, implies_true]

theorem Mod.queueDesc_kept : ∀ x0 x1 x2 x3, (Mod.queueDesc x0 x1 x2 x3).kept = x0.kept := by
  intro x0 x1 x2 x3
  simp only [Mod.queueDesc, ↓kept_mk, kept_eta, ↓apply_ite Mod.kept, ite_self, implies_true]

theorem Mod.descArrive_kept : ∀ x0 x1 x2 x3, (Mod.descArrive x0 x1 x2 x3).kept = x0.kept := by
  intro x0 x1 x2 x3
  unfold Mod.descArrive
  repeat' (split <;> first | with_reducible rfl | simp only [↓kept_mk, kept_eta, ↓apply_ite Mod.kept, ite_self, Mod.setCell_kept, implies_true] | skip)

theorem Mod.walkPage_kept : ∀ x0 x1 x2 x3 x4 x5, (Mod.walkPage x0 x1 x2 x3 x4 x5).2.kept = x0.kept := by
  intro x0 x1 x2 x3 x4 x5
  unfold Mod.walkPage
  repeat' (split <;> first | with_reducible rfl | simp only [↓kept_mk, kept_eta, ↓apply_ite Mod.kept, ite_self, Mod.walkRead_kept, foldl_kept, foldl_kept1, foldl_kept2, foldl_kept3, foldl_kept4, ↓apply_ite Prod.snd, implies_true] | skip)

theorem Mod.walkFailed_kept : ∀ x0 x1 x2 x3, (Mod.walkFailed x0 x1 x2 x3).kept = x0.kept := by
  intro x0 x1 x2 x3
  unfold Mod.walkFailed
  repeat' (split <;> first | with_reducible rfl | simp only [↓kept_mk, kept_eta, ↓apply_ite Mod.kept, ite_self, Mod.raise_kept, implies_true] | skip)

theorem Mod.walkEntry_kept : ∀ x0 x1 x2 x3 x4, (Mod.walkEntry x0 x1 x2 x3 x4).kept = x0.kept := by
  intro x0 x1 x2 x3 x4
  simp only [Mod.walkEntry, ↓kept_mk, kept_eta, ↓apply_ite Mod.kept, ite_self, Mod.queueDesc_kept, Mod.walkRead_kept, Mod.walkPage_kept, Mod.walkFailed_kept, foldl_kept, foldl_kept1, foldl_kept2, foldl_kept3, foldl_kept4, ↓apply_ite Prod.snd, implies_true]

theorem Mod.walk_kept : ∀ x0 x1 x2, (Mod.walk x0 x1 x2).kept = x0.kept := by
  intro x0 x1 x2
  unfold Mod.walk
  repeat' (split <;> first | with_reducible rfl | simp only [↓kept_mk, kept_eta, ↓apply_ite Mod.kept, ite_self, Mod.readStack_kept, Mod.walkEntry_kept, Mod.walkRead_kept, implies_true] | skip)

theorem Mod.walksDone_kept : ∀ x0 x1, (Mod.walksDone x0 x1).kept = x0.kept := by
  intro x0 x1
  simp only [Mod.walksDone, ↓kept_mk, kept_eta, ↓apply_ite Mod.kept, ite_self, Mod.fenceClear_kept, implies_true]

theorem Mod.discardStep_kept : ∀ x0 x1 x2, (Mod.discardStep x0 x1 x2).kept = x0.kept := by
  intro x0 x1 x2
  simp only [Mod.discardStep, ↓kept_mk, kept_eta, ↓apply_ite Mod.kept, ite_self, Mod.setSeqField_kept, implies_true]

theorem Mod.slotRanges_kept : ∀ x0 x1 x2 x3, (Mod.slotRanges x0 x1 x2 x3).2.kept = x0.kept := by
  intro x0 x1 x2 x3
  simp only [Mod.slotRanges, ↓kept_mk, kept_eta, ↓apply_ite Mod.kept, ite_self, Mod.walkRead_kept, foldl_kept, foldl_kept1, foldl_kept2, foldl_kept3, foldl_kept4, ↓apply_ite Prod.snd, implies_true]

theorem Mod.copySlot_kept : ∀ x0 x1 x2 x3 x4, (Mod.copySlot x0 x1 x2 x3 x4).kept = x0.kept := by
  intro x0 x1 x2 x3 x4
  simp only [Mod.copySlot, ↓kept_mk, kept_eta, ↓apply_ite Mod.kept, ite_self, Mod.slotRanges_kept, Mod.deviceRead_kept, Mod.deviceWrite_kept, foldl_kept, foldl_kept1, foldl_kept2, foldl_kept3, foldl_kept4, ↓apply_ite Prod.snd, implies_true]

theorem Mod.commitSeq_kept : ∀ x0 x1 x2, (Mod.commitSeq x0 x1 x2).kept = x0.kept := by
  intro x0 x1 x2
  unfold Mod.commitSeq
  repeat' (split <;> first | with_reducible rfl | simp only [↓kept_mk, kept_eta, ↓apply_ite Mod.kept, ite_self, Mod.discardStep_kept, Mod.copySlot_kept, Mod.setSeqField_kept, foldl_kept, foldl_kept1, foldl_kept2, foldl_kept3, foldl_kept4, ↓apply_ite Prod.snd, implies_true] | skip)

theorem Mod.commitPrefill_kept : ∀ x0 x1 x2, (Mod.commitPrefill x0 x1 x2).kept = x0.kept := by
  intro x0 x1 x2
  unfold Mod.commitPrefill
  repeat' (split <;> first | with_reducible rfl | simp only [↓kept_mk, kept_eta, ↓apply_ite Mod.kept, ite_self, Mod.discardStep_kept, Mod.setSeqField_kept, implies_true] | skip)

theorem Mod.commitStep_kept : ∀ x0 x1, (Mod.commitStep x0 x1).kept = x0.kept := by
  intro x0 x1
  unfold Mod.commitStep
  repeat' (first | with_reducible rfl | simp only [↓kept_mk, kept_eta, ↓apply_ite Mod.kept, ite_self, Mod.commitSeq_kept, Mod.commitPrefill_kept, foldl_kept, foldl_kept1, foldl_kept2, foldl_kept3, foldl_kept4, ↓apply_ite Prod.snd, implies_true] | split | refine (foldl_kept _ (fun m a => ?_) _ _).trans ?_ | refine (foldl_kept2 _ (fun m a => ?_) _ _).trans ?_ | refine (foldl_kept3 _ (fun m a => ?_) _ _).trans ?_ | refine (foldl_kept4 _ (fun m a => ?_) _ _).trans ?_)

theorem Mod.setSub_kept : ∀ x0 x1, (Mod.setSub x0 x1).kept = x0.kept := by
  intro x0 x1
  simp only [Mod.setSub, ↓kept_mk, kept_eta, ↓apply_ite Mod.kept, ite_self, implies_true]

theorem Mod.pumpTokens_kept : ∀ x0 x1, (Mod.pumpTokens x0 x1).kept = x0.kept := by
  intro x0 x1
  unfold Mod.pumpTokens
  repeat' (first | with_reducible rfl | simp only [↓kept_mk, kept_eta, ↓apply_ite Mod.kept, ite_self, Mod.askHost_getD, Mod.setSub_kept, foldl_kept, foldl_kept1, foldl_kept2, foldl_kept3, foldl_kept4, ↓apply_ite Prod.snd, implies_true] | (rw [Mod.askHost_kept _ _ _ _ _ _ ‹_›]) | split | refine (foldl_kept _ (fun m a => ?_) _ _).trans ?_ | refine (foldl_kept2 _ (fun m a => ?_) _ _).trans ?_ | refine (foldl_kept3 _ (fun m a => ?_) _ _).trans ?_ | refine (foldl_kept4 _ (fun m a => ?_) _ _).trans ?_)

theorem Mod.applySub_kept : ∀ x0 x1, (Mod.applySub x0 x1).kept = x0.kept := by
  intro x0 x1
  unfold Mod.applySub
  repeat' (split <;> first | with_reducible rfl | simp only [↓kept_mk, kept_eta, ↓apply_ite Mod.kept, ite_self, Mod.setSub_kept, Mod.setSeqField_kept, Mod.pumpTokens_kept, Mod.seqWrite_kept, Mod.publishRefuse_kept, implies_true] | skip)

theorem Mod.postSubs_kept : ∀ x0 x1 x2, (Mod.postSubs x0 x1 x2).kept = x1.kept := by
  intro x0 x1 x2
  induction x0 generalizing x1 x2 with
  | zero =>
    unfold Mod.postSubs
    first | rfl | simp only [↓kept_mk, kept_eta, ↓apply_ite Mod.kept, ite_self, Mod.setMailbox_kept, implies_true]
  | succ n ih =>
    unfold Mod.postSubs
    (try simp only [ih, ↓kept_mk, kept_eta, ↓apply_ite Mod.kept, ite_self, Mod.setMailbox_kept, implies_true])
    repeat' (split <;> first | with_reducible rfl | simp only [ih, ↓kept_mk, kept_eta, ↓apply_ite Mod.kept, ite_self, Mod.setMailbox_kept, implies_true] | skip)

theorem Mod.settleSubs_kept : ∀ x0, (Mod.settleSubs x0).kept = x0.kept := by
  intro x0
  simp only [Mod.settleSubs, ↓kept_mk, kept_eta, ↓apply_ite Mod.kept, ite_self, Mod.postSubs_kept, foldl_kept, foldl_kept1, foldl_kept2, foldl_kept3, foldl_kept4, ↓apply_ite Prod.snd, implies_true]

theorem Mod.settleFences_kept : ∀ x0, (Mod.settleFences x0).kept = x0.kept := by
  intro x0
  simp only [Mod.settleFences, ↓kept_mk, kept_eta, ↓apply_ite Mod.kept, ite_self, Mod.settleSubs_kept, Mod.fenceClear_kept, implies_true]

theorem Mod.refuseLate_kept : ∀ x0 x1, (Mod.refuseLate x0 x1).kept = x0.kept := by
  intro x0 x1
  simp only [Mod.refuseLate, ↓kept_mk, kept_eta, ↓apply_ite Mod.kept, ite_self, Mod.raise_kept, Mod.setSub_kept, implies_true]

theorem Mod.dueSubs_kept : ∀ x0, (Mod.dueSubs x0).kept = x0.kept := by
  intro x0
  simp only [Mod.dueSubs, ↓kept_mk, kept_eta, ↓apply_ite Mod.kept, ite_self, Mod.refuseLate_kept, Mod.settleSubs_kept, Mod.applySub_kept, foldl_kept, foldl_kept1, foldl_kept2, foldl_kept3, foldl_kept4, ↓apply_ite Prod.snd, implies_true]

theorem Mod.mailboxRecord_kept : ∀ x0 x1, (Mod.mailboxRecord x0 x1).kept = x0.kept := by
  intro x0 x1
  simp only [Mod.mailboxRecord, ↓kept_mk, kept_eta, ↓apply_ite Mod.kept, ite_self, Mod.setMailbox_kept, Mod.postSubs_kept, Mod.refuseLate_kept, implies_true]

theorem Mod.subRow_kept : ∀ x0 x1 x2, (Mod.subRow x0 x1 x2).kept = x0.kept := by
  intro x0 x1 x2
  unfold Mod.subRow
  repeat' (split <;> first | with_reducible rfl | simp only [↓kept_mk, kept_eta, ↓apply_ite Mod.kept, ite_self, Mod.postSubs_kept, Mod.applySub_kept, implies_true] | skip)

theorem Mod.mailboxCompletion_kept : ∀ x0 x1, (Mod.mailboxCompletion x0 x1).kept = x0.kept := by
  intro x0 x1
  unfold Mod.mailboxCompletion
  (try simp only [↓kept_mk, kept_eta, ↓apply_ite Mod.kept, ite_self, Mod.setMailbox_kept, Mod.interrupt_kept, Mod.hostWrite_kept, implies_true])
  repeat' (split <;> first | with_reducible rfl | simp only [↓kept_mk, kept_eta, ↓apply_ite Mod.kept, ite_self, Mod.setMailbox_kept, Mod.interrupt_kept, Mod.hostWrite_kept, implies_true] | skip)

theorem Mod.tokensIn_kept : ∀ x0 x1, (Mod.tokensIn x0 x1).kept = x0.kept := by
  intro x0 x1
  simp only [Mod.tokensIn, ↓kept_mk, kept_eta, ↓apply_ite Mod.kept, ite_self, Mod.postSubs_kept, implies_true]

theorem Mod.tokenData_kept : ∀ x0 x1 x2 x3 x4 x5, (Mod.tokenData x0 x1 x2 x3 x4 x5).kept = x0.kept := by
  intro x0 x1 x2 x3 x4 x5
  unfold Mod.tokenData
  repeat' (split <;> first | with_reducible rfl | simp only [↓kept_mk, kept_eta, ↓apply_ite Mod.kept, ite_self, Mod.setSub_kept, Mod.pumpTokens_kept, Mod.tokensIn_kept, implies_true] | skip)

end Sys2Proof.Machine
end

