-- ==== Sys2Proof/Laws/KeptPace.lean ====
section
/-!
SUPPORT. What the functions of Machine/Pace.lean keep (see Laws/Kept.lean).
-/
set_option linter.unusedSimpArgs false
set_option linter.unusedVariables false
namespace Sys2Proof.Machine

theorem Mod.setPace_kept : ∀ x0 x1, (Mod.setPace x0 x1).kept = x0.kept := by
  intro x0 x1
  simp only [Mod.setPace, ↓kept_mk, kept_eta, ↓apply_ite Mod.kept, ite_self, implies_true]

theorem Mod.deferPace_kept : ∀ x0 x1, (Mod.deferPace x0 x1).kept = x0.kept := by
  intro x0 x1
  simp only [Mod.deferPace, ↓kept_mk, kept_eta, ↓apply_ite Mod.kept, ite_self, implies_true]

theorem Mod.movePace_kept : ∀ x0 x1, (Mod.movePace x0 x1).kept = x0.kept := by
  intro x0 x1
  simp only [Mod.movePace, ↓kept_mk, kept_eta, ↓apply_ite Mod.kept, ite_self, Mod.deferPace_kept, Mod.setPace_kept, implies_true]

theorem Mod.repace_kept : ∀ x0, (Mod.repace x0).kept = x0.kept := by
  intro x0
  simp only [Mod.repace, ↓kept_mk, kept_eta, ↓apply_ite Mod.kept, ite_self, Mod.setPace_kept, Mod.movePace_kept, implies_true]

theorem Mod.releasePace_kept : ∀ x0 x1, (Mod.releasePace x0 x1).kept = x0.kept := by
  intro x0 x1
  simp only [Mod.releasePace, ↓kept_mk, kept_eta, ↓apply_ite Mod.kept, ite_self, Mod.movePace_kept, implies_true]

theorem Mod.slewDone_kept : ∀ x0, (Mod.slewDone x0).kept = x0.kept := by
  intro x0
  unfold Mod.slewDone
  repeat' (split <;> first | with_reducible rfl | simp only [↓kept_mk, kept_eta, ↓apply_ite Mod.kept, ite_self, Mod.deferPace_kept, Mod.setPace_kept, implies_true] | skip)

theorem Mod.openHeaders_kept : ∀ x0 x1, (Mod.openHeaders x0 x1).kept = x0.kept := by
  intro x0 x1
  simp only [Mod.openHeaders, ↓kept_mk, kept_eta, ↓apply_ite Mod.kept, ite_self, Mod.setBand_kept, implies_true]

theorem Mod.bandDark_kept : ∀ x0 x1, (Mod.bandDark x0 x1).kept = x0.kept := by
  intro x0 x1
  simp only [Mod.bandDark, ↓kept_mk, kept_eta, ↓apply_ite Mod.kept, ite_self, Mod.openHeaders_kept, Mod.repace_kept, Mod.raise_kept, implies_true]

theorem Mod.darkenDying_kept : ∀ x0, (Mod.darkenDying x0).kept = x0.kept := by
  intro x0
  simp only [Mod.darkenDying, ↓kept_mk, kept_eta, ↓apply_ite Mod.kept, ite_self, Mod.bandDark_kept, foldl_kept, foldl_kept1, foldl_kept2, foldl_kept3, foldl_kept4, ↓apply_ite Prod.snd, implies_true]

theorem Mod.applyTrims_kept : ∀ x0, (Mod.applyTrims x0).kept = x0.kept := by
  intro x0
  simp only [Mod.applyTrims, ↓kept_mk, kept_eta, ↓apply_ite Mod.kept, ite_self, Mod.repace_kept, Mod.raise_kept, foldl_kept, foldl_kept1, foldl_kept2, foldl_kept3, foldl_kept4, ↓apply_ite Prod.snd, implies_true]

end Sys2Proof.Machine
end

