-- ==== Sys2Proof/Laws/KeptCalib.lean ====
section
/-!
SUPPORT. What the functions of Machine/Calib.lean keep (see Laws/Kept.lean).
-/
set_option linter.unusedSimpArgs false
set_option linter.unusedVariables false
namespace Sys2Proof.Machine

theorem Mod.applyWindow_kept : ∀ x0 x1, (Mod.applyWindow x0 x1).kept = x0.kept := by
  intro x0 x1
  simp only [Mod.applyWindow, ↓kept_mk, kept_eta, ↓apply_ite Mod.kept, ite_self, Mod.raise_kept, Mod.dataFault_kept, implies_true]

theorem Mod.calibrateAll_kept : ∀ x0 x1, (Mod.calibrateAll x0 x1).kept = x0.kept := by
  intro x0 x1
  simp only [Mod.calibrateAll, ↓kept_mk, kept_eta, ↓apply_ite Mod.kept, ite_self, Mod.applyWindow_kept, foldl_kept, foldl_kept1, foldl_kept2, foldl_kept3, foldl_kept4, ↓apply_ite Prod.snd, implies_true]

theorem Mod.recalNow_kept : ∀ x0 x1, (Mod.recalNow x0 x1).kept = x0.kept := by
  intro x0 x1
  simp only [Mod.recalNow, ↓kept_mk, kept_eta, ↓apply_ite Mod.kept, ite_self, Mod.applyWindow_kept, foldl_kept, foldl_kept1, foldl_kept2, foldl_kept3, foldl_kept4, ↓apply_ite Prod.snd, implies_true]

theorem Mod.recalibrate_kept : ∀ x0 x1, (Mod.recalibrate x0 x1).kept = x0.kept := by
  intro x0 x1
  simp only [Mod.recalibrate, ↓kept_mk, kept_eta, ↓apply_ite Mod.kept, ite_self, Mod.recalNow_kept, implies_true]

end Sys2Proof.Machine
end

