-- ==== Sys2Proof/Laws/KeptCellRun.lean ====
section
/-!
SUPPORT. What the functions of Machine/CellRun.lean keep (see Laws/Kept.lean).
-/
set_option linter.unusedSimpArgs false
set_option linter.unusedVariables false
namespace Sys2Proof.Machine

theorem Mod.onCell_kept : ∀ x0 x1 x2, (Mod.onCell x0 x1 x2).kept = x0.kept := by
  intro x0 x1 x2
  simp only [Mod.onCell, ↓kept_mk, kept_eta, ↓apply_ite Mod.kept, ite_self, Mod.setCell_kept, implies_true]

theorem Mod.residueFound_kept : ∀ x0 x1 x2 x3 x4, (Mod.residueFound x0 x1 x2 x3 x4).kept = x0.kept := by
  intro x0 x1 x2 x3 x4
  simp only [Mod.residueFound, ↓kept_mk, kept_eta, ↓apply_ite Mod.kept, ite_self, Mod.raise_kept, Mod.dataFault_kept, implies_true]

theorem Mod.wordCorrected_kept : ∀ x0 x1 x2, (Mod.wordCorrected x0 x1 x2).kept = x0.kept := by
  intro x0 x1 x2
  unfold Mod.wordCorrected
  simp only [↓kept_mk, kept_eta, ↓apply_ite Mod.kept, ite_self, Mod.raise_kept, Mod.onCell_kept, implies_true]

theorem Mod.wordLost_kept : ∀ x0 x1 x2 x3, (Mod.wordLost x0 x1 x2 x3).kept = x0.kept := by
  intro x0 x1 x2 x3
  unfold Mod.wordLost
  simp only [↓kept_mk, kept_eta, ↓apply_ite Mod.kept, ite_self, Mod.raise_kept, implies_true]

theorem Mod.crossMargin_kept : ∀ x0 x1 x2, (Mod.crossMargin x0 x1 x2).kept = x0.kept := by
  intro x0 x1 x2
  simp only [Mod.crossMargin, ↓kept_mk, kept_eta, ↓apply_ite Mod.kept, ite_self, Mod.raise_kept, implies_true]

theorem Mod.sendFlit_kept : ∀ x0 x1 x2 x3, (Mod.sendFlit x0 x1 x2 x3).kept = x0.kept := by
  intro x0 x1 x2 x3
  unfold Mod.sendFlit
  repeat' (split <;> first | with_reducible rfl | simp only [↓kept_mk, kept_eta, ↓apply_ite Mod.kept, ite_self, Mod.raise_kept, Mod.dataFault_kept, implies_true] | skip)

theorem Mod.applyFx_kept : ∀ x0 x1 x2, (Mod.applyFx x0 x1 x2).kept = x1.kept := by
  intro x0 x1 x2
  unfold Mod.applyFx
  repeat' (split <;> first | with_reducible rfl | simp only [↓kept_mk, kept_eta, ↓apply_ite Mod.kept, ite_self, Mod.raise_kept, Mod.dataFault_kept, Mod.residueFound_kept, Mod.onCell_kept, Mod.wordCorrected_kept, Mod.wordLost_kept, Mod.crossMargin_kept, Mod.sendFlit_kept, implies_true] | skip)

theorem Mod.putCell_kept : ∀ x0 x1 x2, (Mod.putCell x0 x1 x2).kept = x0.kept := by
  intro x0 x1 x2
  simp only [Mod.putCell, ↓kept_mk, kept_eta, ↓apply_ite Mod.kept, ite_self, Mod.applyFx_kept, Mod.setCell_kept, foldl_kept, foldl_kept1, foldl_kept2, foldl_kept3, foldl_kept4, ↓apply_ite Prod.snd, implies_true]

theorem Mod.runCell_kept : ∀ x0 x1 x2, (Mod.runCell x0 x1 x2).kept = x0.kept := by
  intro x0 x1 x2
  simp only [Mod.runCell, ↓kept_mk, kept_eta, ↓apply_ite Mod.kept, ite_self, Mod.putCell_kept, foldl_kept, foldl_kept1, foldl_kept2, foldl_kept3, foldl_kept4, ↓apply_ite Prod.snd, implies_true]

theorem Mod.l1Line_kept : ∀ x0 x1 x2, (Mod.l1Line x0 x1 x2).2.kept = x0.kept := by
  intro x0 x1 x2
  unfold Mod.l1Line
  (try simp only [↓kept_mk, kept_eta, ↓apply_ite Mod.kept, ite_self, Mod.setCell_kept, Mod.readStack_kept, Mod.onCell_kept, foldl_kept, foldl_kept1, foldl_kept2, foldl_kept3, foldl_kept4, ↓apply_ite Prod.snd, implies_true])
  repeat' (split <;> first | with_reducible rfl | simp only [↓kept_mk, kept_eta, ↓apply_ite Mod.kept, ite_self, Mod.setCell_kept, Mod.readStack_kept, Mod.onCell_kept, foldl_kept, foldl_kept1, foldl_kept2, foldl_kept3, foldl_kept4, ↓apply_ite Prod.snd, implies_true] | skip)

theorem Mod.gatherItem_kept : ∀ x0 x1 x2, (Mod.gatherItem x0 x1 x2).2.kept = x0.kept := by
  intro x0 x1 x2
  simp only [Mod.gatherItem, ↓kept_mk, kept_eta, ↓apply_ite Mod.kept, ite_self, Mod.l1Line_kept, foldl_kept, foldl_kept1, foldl_kept2, foldl_kept3, foldl_kept4, ↓apply_ite Prod.snd, implies_true]

theorem Mod.gather_kept : ∀ x0 x1 x2, (Mod.gather x0 x1 x2).kept = x0.kept := by
  intro x0 x1 x2
  unfold Mod.gather
  (try simp only [↓kept_mk, kept_eta, ↓apply_ite Mod.kept, ite_self, Mod.setCell_kept, Mod.raise_kept, Mod.dataFault_kept, Mod.applyFx_kept, Mod.gatherItem_kept, Mod.writeTilePieces_kept, foldl_kept, foldl_kept1, foldl_kept2, foldl_kept3, foldl_kept4, ↓apply_ite Prod.snd, implies_true])
  repeat' (split <;> first | with_reducible rfl | simp only [↓kept_mk, kept_eta, ↓apply_ite Mod.kept, ite_self, Mod.setCell_kept, Mod.raise_kept, Mod.dataFault_kept, Mod.applyFx_kept, Mod.gatherItem_kept, Mod.writeTilePieces_kept, foldl_kept, foldl_kept1, foldl_kept2, foldl_kept3, foldl_kept4, ↓apply_ite Prod.snd, implies_true] | skip)

theorem Mod.stepCell_kept : ∀ x0 x1 x2 x3 x4, (Mod.stepCell x0 x1 x2 x3 x4).kept = x1.kept := by
  intro x0 x1 x2 x3 x4
  unfold Mod.stepCell
  repeat' (split <;> first | with_reducible rfl | simp only [↓kept_mk, kept_eta, ↓apply_ite Mod.kept, ite_self, Mod.runCell_kept, Mod.gather_kept, implies_true] | skip)

theorem Mod.applyUpset_kept : ∀ x0 x1, (Mod.applyUpset x0 x1).kept = x0.kept := by
  intro x0 x1
  unfold Mod.applyUpset
  repeat' (split <;> first | with_reducible rfl | simp only [↓kept_mk, kept_eta, ↓apply_ite Mod.kept, ite_self, Mod.onCell_kept, Mod.crossMargin_kept, implies_true] | skip)

theorem Mod.pathsTick_kept : ∀ x0 x1, (Mod.pathsTick x0 x1).kept = x0.kept := by
  intro x0 x1
  simp only [Mod.pathsTick, ↓kept_mk, kept_eta, ↓apply_ite Mod.kept, ite_self, implies_true]

theorem Mod.round_kept : ∀ x0, (Mod.round x0).kept = x0.kept := by
  intro x0
  simp only [Mod.round, ↓kept_mk, kept_eta, ↓apply_ite Mod.kept, ite_self, Mod.pathsTick_kept, Mod.stepCell_kept, foldl_kept, foldl_kept1, foldl_kept2, foldl_kept3, foldl_kept4, ↓apply_ite Prod.snd, implies_true]

theorem Mod.rounds_kept : ∀ x0 x1 x2, (Mod.rounds x0 x1 x2).kept = x2.kept := by
  intro x0 x1 x2
  induction x0 generalizing x1 x2 with
  | zero =>
    unfold Mod.rounds
    first | rfl | simp only [↓kept_mk, kept_eta, ↓apply_ite Mod.kept, ite_self, Mod.round_kept, implies_true]
  | succ n ih =>
    unfold Mod.rounds
    (try simp only [ih, ↓kept_mk, kept_eta, ↓apply_ite Mod.kept, ite_self, Mod.round_kept, implies_true])
    repeat' (split <;> first | with_reducible rfl | simp only [ih, ↓kept_mk, kept_eta, ↓apply_ite Mod.kept, ite_self, Mod.round_kept, implies_true] | skip)

end Sys2Proof.Machine
end

