-- ==== Sys2Proof/Laws/KeptLea.lean ====
section
/-!
SUPPORT. What the functions of Machine/Lea.lean keep (see Laws/Kept.lean).
-/
set_option linter.unusedSimpArgs false
set_option linter.unusedVariables false
namespace Sys2Proof.Machine

theorem Mod.sendToken_kept : ∀ x0 x1 x2, (Mod.sendToken x0 x1 x2).kept = x0.kept := by
  intro x0 x1 x2
  simp only [Mod.sendToken, ↓kept_mk, kept_eta, ↓apply_ite Mod.kept, ite_self, Mod.hdgEmit_kept, foldl_kept, foldl_kept1, foldl_kept2, foldl_kept3, foldl_kept4, ↓apply_ite Prod.snd, implies_true]

theorem Mod.sendDown_kept : ∀ x0 x1, (Mod.sendDown x0 x1).kept = x0.kept := by
  intro x0 x1
  simp only [Mod.sendDown, ↓kept_mk, kept_eta, ↓apply_ite Mod.kept, ite_self, Mod.sendToken_kept, foldl_kept, foldl_kept1, foldl_kept2, foldl_kept3, foldl_kept4, ↓apply_ite Prod.snd, implies_true]

theorem Mod.sendUp_kept : ∀ x0 x1, (Mod.sendUp x0 x1).kept = x0.kept := by
  intro x0 x1
  unfold Mod.sendUp
  repeat' (split <;> first | with_reducible rfl | simp only [↓kept_mk, kept_eta, ↓apply_ite Mod.kept, ite_self, Mod.sendToken_kept, implies_true] | skip)

theorem Mod.haltStream_kept : ∀ x0, (Mod.haltStream x0).kept = x0.kept := by
  intro x0
  simp only [Mod.haltStream, ↓kept_mk, kept_eta, ↓apply_ite Mod.kept, ite_self, Mod.darkenDying_kept, implies_true]

theorem Mod.deliverHeld_kept : ∀ x0 x1 x2, (Mod.deliverHeld x0 x1 x2).kept = x0.kept := by
  intro x0 x1 x2
  simp only [Mod.deliverHeld, ↓kept_mk, kept_eta, ↓apply_ite Mod.kept, ite_self, Mod.deliverHeldDma_kept, implies_true]

theorem Mod.leaveRunning_kept : ∀ x0 x1, (Mod.leaveRunning x0 x1).kept = x0.kept := by
  intro x0 x1
  simp only [Mod.leaveRunning, ↓kept_mk, kept_eta, ↓apply_ite Mod.kept, ite_self, Mod.dropTransfers_kept, Mod.setLeaActive_kept, implies_true]

theorem Mod.leaveLea_kept : ∀ x0, (Mod.leaveLea x0).kept = x0.kept := by
  intro x0
  unfold Mod.leaveLea
  repeat' (split <;> first | with_reducible rfl | simp only [↓kept_mk, kept_eta, ↓apply_ite Mod.kept, ite_self, Mod.setLeaActive_kept, implies_true] | skip)

theorem Mod.abortEvents_kept : ∀ x0 x1, (Mod.abortEvents x0 x1).kept = x0.kept := by
  intro x0 x1
  simp only [Mod.abortEvents, ↓kept_mk, kept_eta, ↓apply_ite Mod.kept, ite_self, Mod.raise_kept, implies_true]

theorem Mod.abortNow_kept : ∀ x0 x1, (Mod.abortNow x0 x1).kept = x0.kept := by
  intro x0 x1
  simp only [Mod.abortNow, ↓kept_mk, kept_eta, ↓apply_ite Mod.kept, ite_self, Mod.leaveRunning_kept, Mod.deliverHeld_kept, Mod.haltStream_kept, Mod.abortEvents_kept, implies_true]

theorem Mod.takeAbort_kept : ∀ x0 x1, (Mod.takeAbort x0 x1).kept = x0.kept := by
  intro x0 x1
  simp only [Mod.takeAbort, ↓kept_mk, kept_eta, ↓apply_ite Mod.kept, ite_self, Mod.sendDown_kept, Mod.abortNow_kept, implies_true]

theorem Mod.flagAlive_kept : ∀ x0 x1, (Mod.flagAlive x0 x1).kept = x0.kept := by
  intro x0 x1
  simp only [Mod.flagAlive, ↓kept_mk, kept_eta, ↓apply_ite Mod.kept, ite_self, Mod.takeAbort_kept, Mod.sendUp_kept, implies_true]

theorem Mod.leaSignal_kept : ∀ x0, (Mod.leaSignal x0).kept = x0.kept := by
  intro x0
  simp only [Mod.leaSignal, ↓kept_mk, kept_eta, ↓apply_ite Mod.kept, ite_self, Mod.flagAlive_kept, implies_true]

theorem Mod.neighbourLost_kept : ∀ x0 x1, (Mod.neighbourLost x0 x1).kept = x0.kept := by
  intro x0 x1
  unfold Mod.neighbourLost
  repeat' (split <;> first | with_reducible rfl | simp only [↓kept_mk, kept_eta, ↓apply_ite Mod.kept, ite_self, Mod.takeAbort_kept, Mod.flagAlive_kept, implies_true] | skip)

theorem Mod.tryReport_kept : ∀ x0, (Mod.tryReport x0).1.kept = x0.kept := by
  intro x0
  unfold Mod.tryReport
  repeat' (split <;> first | with_reducible rfl | simp only [↓kept_mk, kept_eta, ↓apply_ite Mod.kept, ite_self, Mod.sendUp_kept, foldl_kept, foldl_kept1, foldl_kept2, foldl_kept3, foldl_kept4, ↓apply_ite Prod.snd, implies_true] | skip)

theorem Mod.takeReport_kept : ∀ x0 x1 x2, (Mod.takeReport x0 x1 x2).1.kept = x0.kept := by
  intro x0 x1 x2
  unfold Mod.takeReport
  repeat' (split <;> first | with_reducible rfl | simp only [↓kept_mk, kept_eta, ↓apply_ite Mod.kept, ite_self, Mod.sendToken_kept, Mod.tryReport_kept, foldl_kept, foldl_kept1, foldl_kept2, foldl_kept3, foldl_kept4, ↓apply_ite Prod.snd, implies_true] | skip)

theorem Mod.foreignToken_kept : ∀ x0, (Mod.foreignToken x0).kept = x0.kept := by
  intro x0
  simp only [Mod.foreignToken, ↓kept_mk, kept_eta, ↓apply_ite Mod.kept, ite_self, implies_true]

theorem Mod.resendTokens_kept : ∀ x0, (Mod.resendTokens x0).kept = x0.kept := by
  intro x0
  unfold Mod.resendTokens
  repeat' (split <;> first | with_reducible rfl | simp only [↓kept_mk, kept_eta, ↓apply_ite Mod.kept, ite_self, Mod.sendUp_kept, Mod.sendDown_kept, implies_true] | skip)

theorem Mod.aliveTimer_kept : ∀ x0, (Mod.aliveTimer x0).kept = x0.kept := by
  intro x0
  simp only [Mod.aliveTimer, ↓kept_mk, kept_eta, ↓apply_ite Mod.kept, ite_self, Mod.flagAlive_kept, Mod.sendUp_kept, Mod.sendDown_kept, implies_true]

end Sys2Proof.Machine
end

