-- ==== Sys2Proof/Laws/KeptSafe.lean ====
section
/-!
SUPPORT. What the functions of Machine/Safe.lean keep (see Laws/Kept.lean).
-/
set_option linter.unusedSimpArgs false
set_option linter.unusedVariables false
namespace Sys2Proof.Machine

theorem Mod.cairnNote_kept : ∀ x0 x1 x2 x3 x4, (Mod.cairnNote x0 x1 x2 x3 x4).kept = x0.kept := by
  intro x0 x1 x2 x3 x4
  simp only [Mod.cairnNote, ↓kept_mk, kept_eta, ↓apply_ite Mod.kept, ite_self, Mod.cairnPut_kept, implies_true]

theorem Mod.sealBody_kept : ∀ x0 x1, (Mod.sealBody x0 x1).2.kept = x0.kept := by
  intro x0 x1
  simp only [Mod.sealBody, ↓kept_mk, kept_eta, ↓apply_ite Mod.kept, ite_self, foldl_kept, foldl_kept1, foldl_kept2, foldl_kept3, foldl_kept4, ↓apply_ite Prod.snd, implies_true]

theorem Mod.cairnWrite_kept : ∀ x0 x1, (Mod.cairnWrite x0 x1).kept = x0.kept := by
  intro x0 x1
  unfold Mod.cairnWrite
  repeat' (split <;> first | with_reducible rfl | simp only [↓kept_mk, kept_eta, ↓apply_ite Mod.kept, ite_self, Mod.sealBody_kept, implies_true] | skip)

theorem Mod.ffClear_kept : ∀ x0, (Mod.ffClear x0).kept = x0.kept := by
  intro x0
  simp only [Mod.ffClear, ↓kept_mk, kept_eta, ↓apply_ite Mod.kept, ite_self, Mod.cairnNote_kept, implies_true]

theorem Mod.cairnPowerUp_kept : ∀ m, (Mod.cairnPowerUp m).kept = m.kept := by
  intro m
  unfold Mod.cairnPowerUp
  refine (foldl_kept _ (fun m n => Mod.raise_kept _ _ _ _) _ _).trans ?_
  refine (Mod.cairnNote_kept _ _ _ _ _).trans ?_
  split
  · rw [kept_mk, kept_eta]
  · refine (Mod.cairnNote_kept _ _ _ _ _).trans ?_
    rw [kept_mk, kept_eta]

theorem Mod.setStep_kept : ∀ x0 x1 x2, (Mod.setStep x0 x1 x2).kept = x0.kept := by
  intro x0 x1 x2
  simp only [Mod.setStep, ↓kept_mk, kept_eta, ↓apply_ite Mod.kept, ite_self, implies_true]

theorem Mod.failStep_kept : ∀ x0 x1, (Mod.failStep x0 x1).kept = x0.kept := by
  intro x0 x1
  unfold Mod.failStep
  repeat' (split <;> first | with_reducible rfl | simp only [↓kept_mk, kept_eta, ↓apply_ite Mod.kept, ite_self, Mod.setStep_kept, Mod.raise_kept, implies_true] | skip)

theorem Mod.endStep_kept : ∀ x0 x1, (Mod.endStep x0 x1).kept = x0.kept := by
  intro x0 x1
  unfold Mod.endStep
  repeat' (split <;> first | with_reducible rfl | simp only [↓kept_mk, kept_eta, ↓apply_ite Mod.kept, ite_self, Mod.setStep_kept, Mod.raise_kept, implies_true] | skip)

theorem Mod.selfRefresh_kept : ∀ x0, (Mod.selfRefresh x0).kept = x0.kept := by
  intro x0
  simp only [Mod.selfRefresh, ↓kept_mk, kept_eta, ↓apply_ite Mod.kept, ite_self, Mod.glnStopStack_kept, foldl_kept, foldl_kept1, foldl_kept2, foldl_kept3, foldl_kept4, ↓apply_ite Prod.snd, implies_true]

theorem Mod.enterSafe_kept : ∀ x0 x1, (Mod.enterSafe x0 x1).kept = x0.kept := by
  intro x0 x1
  simp only [Mod.enterSafe, ↓kept_mk, kept_eta, ↓apply_ite Mod.kept, ite_self, Mod.haltStream_kept, Mod.repace_kept, Mod.deliverHeld_kept, Mod.failStep_kept, Mod.leaSignal_kept, Mod.cairnNote_kept, Mod.selfRefresh_kept, Mod.raise_kept, implies_true]

theorem Mod.danger_kept : ∀ x0 x1 x2 x3 x4, (Mod.danger x0 x1 x2 x3 x4).kept = x0.kept := by
  intro x0 x1 x2 x3 x4
  simp only [Mod.danger, ↓kept_mk, kept_eta, ↓apply_ite Mod.kept, ite_self, Mod.enterSafe_kept, Mod.raise_kept, implies_true]

theorem Mod.leaveSafe_kept : ∀ x0 x1, (Mod.leaveSafe x0 x1).kept = x0.kept := by
  intro x0 x1
  simp only [Mod.leaveSafe, ↓kept_mk, kept_eta, ↓apply_ite Mod.kept, ite_self, Mod.raise_kept, Mod.repace_kept, implies_true]

theorem Mod.tryRelease_kept : ∀ x0, (Mod.tryRelease x0).kept = x0.kept := by
  intro x0
  simp only [Mod.tryRelease, ↓kept_mk, kept_eta, ↓apply_ite Mod.kept, ite_self, Mod.leaveSafe_kept, implies_true]

theorem Mod.safeReq_kept : ∀ x0, (Mod.safeReq x0).kept = x0.kept := by
  intro x0
  simp only [Mod.safeReq, ↓kept_mk, kept_eta, ↓apply_ite Mod.kept, ite_self, Mod.danger_kept, implies_true]

theorem Mod.readPlanTable_kept : ∀ x0 x1, (Mod.readPlanTable x0 x1).2.kept = x0.kept := by
  intro x0 x1
  simp only [Mod.readPlanTable, ↓kept_mk, kept_eta, ↓apply_ite Mod.kept, ite_self, Mod.readStack_kept, foldl_kept, foldl_kept1, foldl_kept2, foldl_kept3, foldl_kept4, ↓apply_ite Prod.snd, implies_true]

theorem Mod.fpPlan_kept : ∀ x0 x1, (Mod.fpPlan x0 x1).2.kept = x0.kept := by
  intro x0 x1
  unfold Mod.fpPlan
  repeat' (first | with_reducible rfl | refine ((congrArg (fun p => p.2.kept) ‹Mod.readPlanTable _ _ = _›).symm.trans (Mod.readPlanTable_kept _ _)).trans ?_ | simp only [↓kept_mk, kept_eta, ↓apply_ite Mod.kept, ite_self, Mod.readPlanTable_kept, foldl_kept, foldl_kept1, foldl_kept2, foldl_kept3, foldl_kept4, ↓apply_ite Prod.snd, implies_true] | split | refine (foldl_kept _ (fun m a => ?_) _ _).trans ?_ | refine (foldl_kept2 _ (fun m a => ?_) _ _).trans ?_ | refine (foldl_kept3 _ (fun m a => ?_) _ _).trans ?_ | refine (foldl_kept4 _ (fun m a => ?_) _ _).trans ?_)

theorem Mod.pieceCrc_kept : ∀ x0 x1, (Mod.pieceCrc x0 x1).2.kept = x0.kept := by
  intro x0 x1
  simp only [Mod.pieceCrc, ↓kept_mk, kept_eta, ↓apply_ite Mod.kept, ite_self, Mod.withStacks_kept, foldl_kept, foldl_kept1, foldl_kept2, foldl_kept3, foldl_kept4, ↓apply_ite Prod.snd, implies_true]

theorem Mod.shardDigest_kept : ∀ x0 x1 x2, (Mod.shardDigest x0 x1 x2).2.kept = x0.kept := by
  intro x0 x1 x2
  simp only [Mod.shardDigest, ↓kept_mk, kept_eta, ↓apply_ite Mod.kept, ite_self, Mod.pieceCrc_kept, foldl_kept, foldl_kept1, foldl_kept2, foldl_kept3, foldl_kept4, ↓apply_ite Prod.snd, implies_true]

theorem Mod.fpPassRun_kept : ∀ x0, (Mod.fpPassRun x0).kept = x0.kept := by
  intro x0
  simp only [Mod.fpPassRun, ↓kept_mk, kept_eta, ↓apply_ite Mod.kept, ite_self, Mod.onRick_kept, Mod.shardDigest_kept, Mod.coreWriteStack_kept, foldl_kept, foldl_kept1, foldl_kept2, foldl_kept3, foldl_kept4, ↓apply_ite Prod.snd, implies_true]

theorem Mod.fpLate_kept : ∀ x0, (Mod.fpLate x0).kept = x0.kept := by
  intro x0
  simp only [Mod.fpLate, ↓kept_mk, kept_eta, ↓apply_ite Mod.kept, ite_self, Mod.raise_kept, implies_true]

theorem Mod.fpVerdict_kept : ∀ x0 x1, (Mod.fpVerdict x0 x1).kept = x0.kept := by
  intro x0 x1
  simp only [Mod.fpVerdict, ↓kept_mk, kept_eta, ↓apply_ite Mod.kept, ite_self, Mod.cairnNote_kept, Mod.raise_kept, Mod.enterSafe_kept, implies_true]

theorem Mod.disarm_kept : ∀ x0, (Mod.disarm x0).kept = x0.kept := by
  intro x0
  unfold Mod.disarm
  repeat' (split <;> first | with_reducible rfl | simp only [↓kept_mk, kept_eta, ↓apply_ite Mod.kept, ite_self, implies_true] | skip)

theorem Mod.fiArm_kept : ∀ x0, (Mod.fiArm x0).kept = x0.kept := by
  intro x0
  simp only [Mod.fiArm, ↓kept_mk, kept_eta, ↓apply_ite Mod.kept, ite_self, Mod.raise_kept, implies_true]

theorem Mod.mcSignal_kept : ∀ x0, (Mod.mcSignal x0).kept = x0.kept := by
  intro x0
  simp only [Mod.mcSignal, ↓kept_mk, kept_eta, ↓apply_ite Mod.kept, ite_self, implies_true]

end Sys2Proof.Machine
end

