-- ==== Sys2Proof/Laws/KeptPower.lean ====
section
/-!
SUPPORT. What the functions of Machine/Power.lean keep (see Laws/Kept.lean).
-/
set_option linter.unusedSimpArgs false
set_option linter.unusedVariables false
namespace Sys2Proof.Machine

theorem Mod.bandDying_kept : ∀ x0 x1, (Mod.bandDying x0 x1).kept = x0.kept := by
  intro x0 x1
  simp only [Mod.bandDying, ↓kept_mk, kept_eta, ↓apply_ite Mod.kept, ite_self, Mod.leaveLea_kept, Mod.setBand_kept, Mod.bandDark_kept, implies_true]

theorem phases_set (f : Fuses) (b n : Nat) (x : BitVec 24) :
    Safety.FusesBurned f { f with phases := Map.set 0#24 f.phases b (Map.get 0#24 f.phases b ||| x) } := by
  constructor <;> first | exact fun _ h => h | exact Nat.le_refl _ | rfl | skip
  intro c p h
  by_cases e : c = b
  · subst e
    rw [Map.get_set_ne_default]
    · simp [h]
    · intro z
      have := congrArg (fun y => BitVec.getLsbD y p) z
      simp [h] at this
  · rw [Map.get_set_of_ne _ _ _ e]; exact h

theorem Mod.phaseFailed_follows : ∀ (m : Mod) b phase, m.kept.Follows (Mod.phaseFailed m b phase).kept := by
  intro m b phase
  unfold Mod.phaseFailed
  extract_lets old fz m1 f m2
  have h1 : m.kept.Follows m1.kept := ⟨phases_set _ _ 0 _, fun _ => Nat.le_refl _, fun h => ⟨h.1, h.2, h.3, h.4, h.5, h.6, h.7, h.8⟩⟩
  have h2 : m2.kept = m1.kept := by simp only [m2, ↓kept_mk, kept_eta, ↓apply_ite Mod.kept, ite_self, Mod.repace_kept, Mod.raise_kept, Mod.bandDying_kept, Mod.danger_kept, Mod.bandDark_kept, Mod.leaveLea_kept, foldl_kept, implies_true]
  clear_value m2 m1
  repeat' split
  all_goals first | exact follows_refl _ | (simp only [↓kept_mk, kept_eta, ↓apply_ite Mod.kept, ite_self, Mod.repace_kept, Mod.raise_kept, Mod.bandDying_kept, Mod.danger_kept, Mod.bandDark_kept, Mod.leaveLea_kept, foldl_kept, implies_true, h2]; exact h1)

theorem Mod.phaseLimitTimeout_kept : ∀ x0, (Mod.phaseLimitTimeout x0).kept = x0.kept := by
  intro x0
  simp only [Mod.phaseLimitTimeout, ↓kept_mk, kept_eta, ↓apply_ite Mod.kept, ite_self, Mod.leaSignal_kept, Mod.haltStream_kept, Mod.mgmtFault_kept, implies_true]

theorem Mod.overcurrent_kept : ∀ x0 x1 x2, (Mod.overcurrent x0 x1 x2).kept = x0.kept := by
  intro x0 x1 x2
  simp only [Mod.overcurrent, ↓kept_mk, kept_eta, ↓apply_ite Mod.kept, ite_self, Mod.danger_kept, Mod.openHeaders_kept, implies_true]

theorem Mod.railFault_kept : ∀ x0 x1 x2, (Mod.railFault x0 x1 x2).kept = x0.kept := by
  intro x0 x1 x2
  simp only [Mod.railFault, ↓kept_mk, kept_eta, ↓apply_ite Mod.kept, ite_self, Mod.mgmtFault_kept, Mod.raise_kept, Mod.leaSignal_kept, Mod.haltStream_kept, foldl_kept, foldl_kept1, foldl_kept2, foldl_kept3, foldl_kept4, ↓apply_ite Prod.snd, implies_true]

theorem Mod.undervolt_kept : ∀ x0, (Mod.undervolt x0).kept = x0.kept := by
  intro x0
  simp only [Mod.undervolt, ↓kept_mk, kept_eta, ↓apply_ite Mod.kept, ite_self, Mod.repace_kept, Mod.raise_kept, implies_true]

theorem Mod.undervoltEnd_kept : ∀ x0, (Mod.undervoltEnd x0).kept = x0.kept := by
  intro x0
  simp only [Mod.undervoltEnd, ↓kept_mk, kept_eta, ↓apply_ite Mod.kept, ite_self, Mod.repace_kept, implies_true]

theorem Mod.publish_kept : ∀ x0 x1, (Mod.publish x0 x1).kept = x0.kept := by
  intro x0 x1
  simp only [Mod.publish, ↓kept_mk, kept_eta, ↓apply_ite Mod.kept, ite_self, foldl_kept, foldl_kept1, foldl_kept2, foldl_kept3, foldl_kept4, ↓apply_ite Prod.snd, implies_true]

theorem Mod.capWatch_kept : ∀ x0, (Mod.capWatch x0).kept = x0.kept := by
  intro x0
  simp only [Mod.capWatch, ↓kept_mk, kept_eta, ↓apply_ite Mod.kept, ite_self, Mod.raise_kept, implies_true]

theorem Mod.window_follows : ∀ (m : Mod) w, m.kept.Follows (Mod.window m w).kept := by
  intro m w
  unfold Mod.window
  have h := Mod.publish_kept m w
  revert h
  generalize m.publish w = m1
  intro h
  simp only [↓kept_mk, kept_eta, ↓apply_ite Mod.kept, ite_self, Mod.publish_kept, Mod.repace_kept, Mod.capWatch_kept, foldl_kept, implies_true]
  rw [← h]
  refine ⟨fusesBurned_refl _, fun _ => Nat.le_refl _, fun g => ⟨g.1, ?_, (fun _ e => by cases e), g.4, g.5, g.6, g.7, g.8⟩⟩
  have g2 := g.2
  have g3 := g.3
  show 650 ≤ (m1.power.capNext.getD m1.power.capW).toNat ∧ (m1.power.capNext.getD m1.power.capW).toNat ≤ 3000
  change ∀ v, m1.power.capNext = some v → _ at g3
  cases e : m1.power.capNext with
  | none => exact g2
  | some v => exact g3 v e

theorem Mod.droopStart_kept : ∀ x0 x1, (Mod.droopStart x0 x1).kept = x0.kept := by
  intro x0 x1
  unfold Mod.droopStart
  repeat' (split <;> first | with_reducible rfl | simp only [↓kept_mk, kept_eta, ↓apply_ite Mod.kept, ite_self, Mod.setBand_kept, Mod.deferPace_kept, implies_true] | skip)

theorem Mod.severeDroop_kept : ∀ x0 x1 x2, (Mod.severeDroop x0 x1 x2).kept = x0.kept := by
  intro x0 x1 x2
  simp only [Mod.severeDroop, ↓kept_mk, kept_eta, ↓apply_ite Mod.kept, ite_self, Mod.droopStart_kept, Mod.raise_kept, Mod.setPace_kept, Mod.repace_kept, implies_true]

theorem Mod.droopEnd_kept : ∀ x0, (Mod.droopEnd x0).kept = x0.kept := by
  intro x0
  unfold Mod.droopEnd
  repeat' (split <;> first | with_reducible rfl | simp only [↓kept_mk, kept_eta, ↓apply_ite Mod.kept, ite_self, Mod.repace_kept, Mod.movePace_kept, implies_true] | skip)

theorem Mod.severeEnd_kept : ∀ x0, (Mod.severeEnd x0).kept = x0.kept := by
  intro x0
  simp only [Mod.severeEnd, ↓kept_mk, kept_eta, ↓apply_ite Mod.kept, ite_self, Mod.repace_kept, implies_true]

theorem Mod.crossStall_kept : ∀ x0 x1, (Mod.crossStall x0 x1).kept = x0.kept := by
  intro x0 x1
  simp only [Mod.crossStall, ↓kept_mk, kept_eta, ↓apply_ite Mod.kept, ite_self, Mod.droopStart_kept, implies_true]

theorem Mod.crossStallEnd_kept : ∀ x0 x1 x2, (Mod.crossStallEnd x0 x1 x2).kept = x0.kept := by
  intro x0 x1 x2
  simp only [Mod.crossStallEnd, ↓kept_mk, kept_eta, ↓apply_ite Mod.kept, ite_self, Mod.recalibrate_kept, implies_true]

theorem Mod.trimBand_follows : ∀ (m : Mod) b, m.kept.Follows (Mod.trimBand m b).kept := by
  intro m b
  unfold Mod.trimBand
  extract_lets t
  split
  · simp only [↓kept_mk, kept_eta, ↓apply_ite Mod.kept, ite_self, Mod.raise_kept, Mod.setBand_kept, foldl_kept, implies_true]
    have key : ∀ n, Map.get 0 (Map.set 0 m.power.trims b (t + 25)) n = if n = b then t + 25 else Map.get 0 m.power.trims n := by
      intro n
      split
      · subst n; exact Map.get_set_ne_default _ _ _ (Nat.succ_ne_zero _)
      · exact Map.get_set_of_ne _ _ _ ‹_›
    refine ⟨fusesBurned_refl _, fun n => ?_, fun g => ⟨g.1, g.2, g.3, fun n => ?_, g.5, g.6, g.7, g.8⟩⟩
    · show Map.get 0 m.power.trims n ≤ Map.get 0 (Map.set 0 m.power.trims b (t + 25)) n
      rw [key]; split
      · subst n; simp only [t]; omega
      · exact Nat.le_refl _
    · show Map.get 0 (Map.set 0 m.power.trims b (t + 25)) n ≤ 400
      rw [key]; split
      · assumption
      · exact g.4 n
  · simp only [↓kept_mk, kept_eta, ↓apply_ite Mod.kept, ite_self, Mod.raise_kept, Mod.setBand_kept, foldl_kept, implies_true]; exact follows_refl _

theorem Mod.ageingCheck_follows : ∀ x0 x1, (Mod.kept x0).Follows (Mod.ageingCheck x0 x1).kept := by
  intro x0 x1
  unfold Mod.ageingCheck
  repeat' (first | with_reducible exact follows_refl _ | simp only [↓kept_mk, kept_eta, ↓apply_ite Mod.kept, ite_self, foldl_kept, foldl_kept2, ↓apply_ite Prod.snd, implies_true] | split | refine follows_trans (Mod.trimBand_follows _ _) ?_ | refine follows_trans (foldl_follows _ (fun m a => ?_) _ _) ?_)

theorem Mod.hintRamp_kept : ∀ x0, (Mod.hintRamp x0).kept = x0.kept := by
  intro x0
  unfold Mod.hintRamp
  repeat' (split <;> first | with_reducible rfl | simp only [↓kept_mk, kept_eta, ↓apply_ite Mod.kept, ite_self, implies_true] | skip)

theorem Mod.boostEnd_kept : ∀ x0, (Mod.boostEnd x0).kept = x0.kept := by
  intro x0
  simp only [Mod.boostEnd, ↓kept_mk, kept_eta, ↓apply_ite Mod.kept, ite_self, implies_true]

end Sys2Proof.Machine
end

