-- ==== Sys2Proof/Laws/KeptStream.lean ====
section
/-!
SUPPORT. What the functions of Machine/Stream.lean keep (see Laws/Kept.lean).
-/
set_option linter.unusedSimpArgs false
set_option linter.unusedVariables false
namespace Sys2Proof.Machine

theorem Mod.streamFault_kept : ∀ x0 x1 x2, (Mod.streamFault x0 x1 x2).kept = x0.kept := by
  intro x0 x1 x2
  simp only [Mod.streamFault, ↓kept_mk, kept_eta, ↓apply_ite Mod.kept, ite_self, Mod.dataFault_kept, Mod.raise_kept, Mod.leaSignal_kept, Mod.haltStream_kept, implies_true]

theorem Mod.loopFault_kept : ∀ x0, (Mod.loopFault x0).kept = x0.kept := by
  intro x0
  simp only [Mod.loopFault, ↓kept_mk, kept_eta, ↓apply_ite Mod.kept, ite_self, Mod.streamFault_kept, implies_true]

theorem Mod.loopStep_kept : ∀ x0 x1, (Mod.loopStep x0 x1).kept = x0.kept := by
  intro x0 x1
  unfold Mod.loopStep
  repeat' (split <;> first | with_reducible rfl | simp only [↓kept_mk, kept_eta, ↓apply_ite Mod.kept, ite_self, Mod.loopFault_kept, implies_true] | skip)

theorem Mod.settlePhase_kept : ∀ x0 x1, (Mod.settlePhase x0 x1).kept = x1.kept := by
  intro x0 x1
  induction x0 generalizing x1 with
  | zero =>
    unfold Mod.settlePhase
    first | rfl | simp only [↓kept_mk, kept_eta, ↓apply_ite Mod.kept, ite_self, Mod.leaSignal_kept, Mod.haltStream_kept, Mod.dataFault_kept, Mod.streamFault_kept, Mod.loopStep_kept, implies_true]
  | succ n ih =>
    unfold Mod.settlePhase
    (try simp only [ih, ↓kept_mk, kept_eta, ↓apply_ite Mod.kept, ite_self, Mod.leaSignal_kept, Mod.haltStream_kept, Mod.dataFault_kept, Mod.streamFault_kept, Mod.loopStep_kept, implies_true])
    repeat' (split <;> first | with_reducible rfl | simp only [ih, ↓kept_mk, kept_eta, ↓apply_ite Mod.kept, ite_self, Mod.leaSignal_kept, Mod.haltStream_kept, Mod.dataFault_kept, Mod.streamFault_kept, Mod.loopStep_kept, implies_true] | skip)

theorem Mod.settled_kept : ∀ x0, (Mod.settled x0).kept = x0.kept := by
  intro x0
  simp only [Mod.settled, ↓kept_mk, kept_eta, ↓apply_ite Mod.kept, ite_self, Mod.settlePhase_kept, implies_true]

theorem Mod.bundleFetch_kept : ∀ x0 x1 x2, (Mod.bundleFetch x0 x1 x2).kept = x0.kept := by
  intro x0 x1 x2
  unfold Mod.bundleFetch
  repeat' (split <;> first | with_reducible rfl | simp only [↓kept_mk, kept_eta, ↓apply_ite Mod.kept, ite_self, Mod.withStacks_kept, Mod.raise_kept, Mod.settled_kept, implies_true] | skip)

theorem Mod.slip_kept : ∀ x0 x1, (Mod.slip x0 x1).kept = x0.kept := by
  intro x0 x1
  simp only [Mod.slip, ↓kept_mk, kept_eta, ↓apply_ite Mod.kept, ite_self, Mod.raise_kept, foldl_kept, foldl_kept1, foldl_kept2, foldl_kept3, foldl_kept4, ↓apply_ite Prod.snd, implies_true]

theorem Mod.nextPermit_kept : ∀ x0, (Mod.nextPermit x0).kept = x0.kept := by
  intro x0
  simp only [Mod.nextPermit, ↓kept_mk, kept_eta, ↓apply_ite Mod.kept, ite_self, implies_true]

theorem Mod.permitPeriod_kept : ∀ x0 x1, (Mod.permitPeriod x0 x1).kept = x0.kept := by
  intro x0 x1
  simp only [Mod.permitPeriod, ↓kept_mk, kept_eta, ↓apply_ite Mod.kept, ite_self, Mod.settled_kept, Mod.slip_kept, Mod.nextPermit_kept, implies_true]

theorem Mod.bindIssue_kept : ∀ x0 x1 x2 x3 x4 x5 x6, (Mod.bindIssue x0 x1 x2 x3 x4 x5 x6).kept = x0.kept := by
  intro x0 x1 x2 x3 x4 x5 x6
  simp only [Mod.bindIssue, ↓kept_mk, kept_eta, ↓apply_ite Mod.kept, ite_self, implies_true]

theorem Mod.issue_kept : ∀ x0 x1 x2 x3, (Mod.issue x0 x1 x2 x3).kept = x0.kept := by
  intro x0 x1 x2 x3
  simp only [Mod.issue, ↓kept_mk, kept_eta, ↓apply_ite Mod.kept, ite_self, Mod.issueFault_kept, Mod.takeDesc_kept, Mod.bindIssue_kept, implies_true]

theorem Mod.issueD_kept : ∀ x0 x1 x2 x3 x4, (Mod.issueD x0 x1 x2 x3 x4).kept = x0.kept := by
  intro x0 x1 x2 x3 x4
  unfold Mod.issueD
  repeat' (split <;> first | with_reducible rfl | simp only [↓kept_mk, kept_eta, ↓apply_ite Mod.kept, ite_self, Mod.bindIssue_kept, Mod.raise_kept, Mod.dataFault_kept, implies_true] | skip)

theorem Mod.waitq_kept : ∀ x0 x1 x2, (Mod.waitq x0 x1 x2).kept = x0.kept := by
  intro x0 x1 x2
  unfold Mod.waitq
  (try simp only [↓kept_mk, kept_eta, ↓apply_ite Mod.kept, ite_self, Mod.setCell_kept, Mod.raise_kept, Mod.dataFault_kept, implies_true])
  repeat' (split <;> first | with_reducible rfl | simp only [↓kept_mk, kept_eta, ↓apply_ite Mod.kept, ite_self, Mod.setCell_kept, Mod.raise_kept, Mod.dataFault_kept, implies_true] | skip)

theorem Mod.postq_kept : ∀ x0 x1 x2, (Mod.postq x0 x1 x2).kept = x0.kept := by
  intro x0 x1 x2
  simp only [Mod.postq, ↓kept_mk, kept_eta, ↓apply_ite Mod.kept, ite_self, implies_true]

theorem Mod.sbOp_kept : ∀ x0 x1, (Mod.sbOp x0 x1).kept = x0.kept := by
  intro x0 x1
  unfold Mod.sbOp
  repeat' (split <;> first | with_reducible rfl | simp only [↓kept_mk, kept_eta, ↓apply_ite Mod.kept, ite_self, Mod.waitq_kept, Mod.postq_kept, foldl_kept, foldl_kept1, foldl_kept2, foldl_kept3, foldl_kept4, ↓apply_ite Prod.snd, implies_true] | skip)

theorem Mod.laneInject_kept : ∀ x0 x1, (Mod.laneInject x0 x1).kept = x0.kept := by
  intro x0 x1
  simp only [Mod.laneInject, ↓kept_mk, kept_eta, ↓apply_ite Mod.kept, ite_self, Mod.pumpInjector_kept, implies_true]

theorem Mod.laneBroadcast_kept : ∀ x0 x1 x2, (Mod.laneBroadcast x0 x1 x2).kept = x0.kept := by
  intro x0 x1 x2
  unfold Mod.laneBroadcast
  repeat' (split <;> first | with_reducible rfl | simp only [↓kept_mk, kept_eta, ↓apply_ite Mod.kept, ite_self, implies_true] | skip)

theorem Mod.broadcastPop_kept : ∀ x0 x1, (Mod.broadcastPop x0 x1).kept = x0.kept := by
  intro x0 x1
  simp only [Mod.broadcastPop, ↓kept_mk, kept_eta, ↓apply_ite Mod.kept, ite_self, foldl_kept, foldl_kept1, foldl_kept2, foldl_kept3, foldl_kept4, ↓apply_ite Prod.snd, implies_true]

theorem Mod.lanes_kept : ∀ x0 x1, (Mod.lanes x0 x1).kept = x0.kept := by
  intro x0 x1
  simp only [Mod.lanes, ↓kept_mk, kept_eta, ↓apply_ite Mod.kept, ite_self, Mod.laneInject_kept, Mod.laneBroadcast_kept, Mod.broadcastPop_kept, foldl_kept, foldl_kept1, foldl_kept2, foldl_kept3, foldl_kept4, ↓apply_ite Prod.snd, implies_true]

theorem Mod.takeHint_kept : ∀ x0 x1, (Mod.takeHint x0 x1).kept = x0.kept := by
  intro x0 x1
  simp only [Mod.takeHint, ↓kept_mk, kept_eta, ↓apply_ite Mod.kept, ite_self, implies_true]

theorem Mod.rowCell_kept : ∀ x0 x1 x2 x3 x4 x5, (Mod.rowCell x0 x1 x2 x3 x4 x5).kept = x4.kept := by
  intro x0 x1 x2 x3 x4 x5
  simp only [Mod.rowCell, ↓kept_mk, kept_eta, ↓apply_ite Mod.kept, ite_self, Mod.stepCell_kept, implies_true]

theorem Mod.illegalRow_kept : ∀ x0 x1 x2, (Mod.illegalRow x0 x1 x2).kept = x0.kept := by
  intro x0 x1 x2
  simp only [Mod.illegalRow, ↓kept_mk, kept_eta, ↓apply_ite Mod.kept, ite_self, Mod.raise_kept, Mod.dataFault_kept, foldl_kept, foldl_kept1, foldl_kept2, foldl_kept3, foldl_kept4, ↓apply_ite Prod.snd, implies_true]

theorem Mod.rowStep_kept : ∀ x0 x1 x2 x3 x4, (Mod.rowStep x0 x1 x2 x3 x4).kept = x3.kept := by
  intro x0 x1 x2 x3 x4
  unfold Mod.rowStep
  repeat' (split <;> first | with_reducible rfl | simp only [↓kept_mk, kept_eta, ↓apply_ite Mod.kept, ite_self, Mod.illegalRow_kept, Mod.rowCell_kept, Mod.issue_kept, Mod.issueD_kept, Mod.sbOp_kept, foldl_kept, foldl_kept1, foldl_kept2, foldl_kept3, foldl_kept4, ↓apply_ite Prod.snd, implies_true] | skip)

theorem Mod.takeStep_kept : ∀ x0 x1 x2 x3 x4, (Mod.takeStep x0 x1 x2 x3 x4).kept = x0.kept := by
  intro x0 x1 x2 x3 x4
  simp only [Mod.takeStep, ↓kept_mk, kept_eta, ↓apply_ite Mod.kept, ite_self, Mod.applyUpset_kept, Mod.takeHint_kept, Mod.lanes_kept, Mod.rowStep_kept, Mod.pathsTick_kept, Mod.settled_kept, foldl_kept, foldl_kept1, foldl_kept2, foldl_kept3, foldl_kept4, ↓apply_ite Prod.snd, implies_true]

theorem Mod.programStep_kept : ∀ x0 x1 x2 x3, (Mod.programStep x0 x1 x2 x3).kept = x0.kept := by
  intro x0 x1 x2 x3
  unfold Mod.programStep
  (try simp only [↓kept_mk, kept_eta, ↓apply_ite Mod.kept, ite_self, Mod.settled_kept, Mod.leaSwap_kept, Mod.streamFault_kept, Mod.rounds_kept, Mod.takeStep_kept, foldl_kept, foldl_kept1, foldl_kept2, foldl_kept3, foldl_kept4, ↓apply_ite Prod.snd, implies_true])
  repeat' (split <;> first | with_reducible rfl | simp only [↓kept_mk, kept_eta, ↓apply_ite Mod.kept, ite_self, Mod.settled_kept, Mod.leaSwap_kept, Mod.streamFault_kept, Mod.rounds_kept, Mod.takeStep_kept, foldl_kept, foldl_kept1, foldl_kept2, foldl_kept3, foldl_kept4, ↓apply_ite Prod.snd, implies_true] | skip)

theorem Mod.loopBegin_kept : ∀ x0, (Mod.loopBegin x0).kept = x0.kept := by
  intro x0
  unfold Mod.loopBegin
  (try simp only [↓kept_mk, kept_eta, ↓apply_ite Mod.kept, ite_self, Mod.settled_kept, Mod.loopStep_kept, implies_true])
  repeat' (split <;> first | with_reducible rfl | simp only [↓kept_mk, kept_eta, ↓apply_ite Mod.kept, ite_self, Mod.settled_kept, Mod.loopStep_kept, implies_true] | skip)

theorem Mod.loopEnd_kept : ∀ x0, (Mod.loopEnd x0).kept = x0.kept := by
  intro x0
  unfold Mod.loopEnd
  (try simp only [↓kept_mk, kept_eta, ↓apply_ite Mod.kept, ite_self, Mod.settled_kept, Mod.loopStep_kept, implies_true])
  repeat' (split <;> first | with_reducible rfl | simp only [↓kept_mk, kept_eta, ↓apply_ite Mod.kept, ite_self, Mod.settled_kept, Mod.loopStep_kept, implies_true] | skip)

theorem Mod.hintNow_kept : ∀ x0, (Mod.hintNow x0).kept = x0.kept := by
  intro x0
  unfold Mod.hintNow
  (try simp only [↓kept_mk, kept_eta, ↓apply_ite Mod.kept, ite_self, Mod.settled_kept, Mod.takeHint_kept, implies_true])
  repeat' (split <;> first | with_reducible rfl | simp only [↓kept_mk, kept_eta, ↓apply_ite Mod.kept, ite_self, Mod.settled_kept, Mod.takeHint_kept, implies_true] | skip)

theorem Mod.restart_kept : ∀ x0, (Mod.restart x0).kept = x0.kept := by
  intro x0
  unfold Mod.restart
  (try simp only [↓kept_mk, kept_eta, ↓apply_ite Mod.kept, ite_self, Mod.settled_kept, implies_true])
  repeat' (split <;> first | with_reducible rfl | simp only [↓kept_mk, kept_eta, ↓apply_ite Mod.kept, ite_self, Mod.settled_kept, implies_true] | skip)

theorem Mod.stepsOf_kept : ∀ x0 x1 x2 x3 x4, (Mod.stepsOf x0 x1 x2 x3 x4).kept = x2.kept := by
  intro x0 x1 x2 x3 x4
  induction x0 generalizing x1 x2 x3 x4 with
  | zero =>
    unfold Mod.stepsOf
    first | rfl | simp only [↓kept_mk, kept_eta, ↓apply_ite Mod.kept, ite_self, Mod.stepCell_kept, implies_true]
  | succ n ih =>
    unfold Mod.stepsOf
    (try simp only [ih, ↓kept_mk, kept_eta, ↓apply_ite Mod.kept, ite_self, Mod.stepCell_kept, implies_true])
    repeat' (split <;> first | with_reducible rfl | simp only [ih, ↓kept_mk, kept_eta, ↓apply_ite Mod.kept, ite_self, Mod.stepCell_kept, implies_true] | skip)

theorem Mod.landCell_kept : ∀ x0 x1, (Mod.landCell x0 x1).kept = x0.kept := by
  intro x0 x1
  simp only [Mod.landCell, ↓kept_mk, kept_eta, ↓apply_ite Mod.kept, ite_self, Mod.onCell_kept, implies_true]

theorem Mod.runSlot_kept : ∀ x0 x1 x2 x3, (Mod.runSlot x0 x1 x2 x3).kept = x0.kept := by
  intro x0 x1 x2 x3
  simp only [Mod.runSlot, ↓kept_mk, kept_eta, ↓apply_ite Mod.kept, ite_self, Mod.applyUpset_kept, Mod.stepsOf_kept, Mod.stepCell_kept, Mod.landCell_kept, foldl_kept, foldl_kept1, foldl_kept2, foldl_kept3, foldl_kept4, ↓apply_ite Prod.snd, implies_true]

theorem Mod.runVx_kept : ∀ x0 x1 x2 x3 x4, (Mod.runVx x0 x1 x2 x3 x4).kept = x0.kept := by
  intro x0 x1 x2 x3 x4
  simp only [Mod.runVx, ↓kept_mk, kept_eta, ↓apply_ite Mod.kept, ite_self, Mod.runSlot_kept, implies_true]

theorem Mod.runMv_kept : ∀ x0 x1 x2 x3 x4, (Mod.runMv x0 x1 x2 x3 x4).kept = x0.kept := by
  intro x0 x1 x2 x3 x4
  simp only [Mod.runMv, ↓kept_mk, kept_eta, ↓apply_ite Mod.kept, ite_self, Mod.runSlot_kept, implies_true]

theorem Mod.runAdv_kept : ∀ x0 x1 x2, (Mod.runAdv x0 x1 x2).kept = x0.kept := by
  intro x0 x1 x2
  simp only [Mod.runAdv, ↓kept_mk, kept_eta, ↓apply_ite Mod.kept, ite_self, Mod.runCell_kept, implies_true]

theorem Mod.runAdvance_kept : ∀ x0 x1, (Mod.runAdvance x0 x1).kept = x0.kept := by
  intro x0 x1
  simp only [Mod.runAdvance, ↓kept_mk, kept_eta, ↓apply_ite Mod.kept, ite_self, Mod.stepsOf_kept, implies_true]

theorem Mod.runSwap_kept : ∀ x0 x1 x2 x3, (Mod.runSwap x0 x1 x2 x3).kept = x0.kept := by
  intro x0 x1 x2 x3
  simp only [Mod.runSwap, ↓kept_mk, kept_eta, ↓apply_ite Mod.kept, ite_self, Mod.stepsOf_kept, Mod.applyUpset_kept, Mod.runCell_kept, Mod.onCell_kept, foldl_kept, foldl_kept1, foldl_kept2, foldl_kept3, foldl_kept4, ↓apply_ite Prod.snd, implies_true]

theorem Mod.runDrain_kept : ∀ x0 x1, (Mod.runDrain x0 x1).kept = x0.kept := by
  intro x0 x1
  simp only [Mod.runDrain, ↓kept_mk, kept_eta, ↓apply_ite Mod.kept, ite_self, Mod.runCell_kept, implies_true]

theorem Mod.runCtx_kept : ∀ x0 x1 x2, (Mod.runCtx x0 x1 x2).kept = x0.kept := by
  intro x0 x1 x2
  simp only [Mod.runCtx, ↓kept_mk, kept_eta, ↓apply_ite Mod.kept, ite_self, Mod.stepsOf_kept, Mod.runCell_kept, Mod.onCell_kept, implies_true]

theorem Mod.runRow_kept : ∀ x0 x1 x2 x3 x4, (Mod.runRow x0 x1 x2 x3 x4).kept = x0.kept := by
  intro x0 x1 x2 x3 x4
  simp only [Mod.runRow, ↓kept_mk, kept_eta, ↓apply_ite Mod.kept, ite_self, Mod.rowStep_kept, implies_true]

theorem Mod.debugRead_kept : ∀ x0 x1, (Mod.debugRead x0 x1).kept = x0.kept := by
  intro x0 x1
  simp only [Mod.debugRead, ↓kept_mk, kept_eta, ↓apply_ite Mod.kept, ite_self, implies_true]

end Sys2Proof.Machine
end

