-- ==== Sys2Proof/Laws/KeptUnits.lean ====
section
/-!
SUPPORT. What the functions of Machine/Units.lean keep (see Laws/Kept.lean).
-/
set_option linter.unusedSimpArgs false
set_option linter.unusedVariables false
namespace Sys2Proof.Machine

theorem Mod.mismatchFound_kept : ∀ x0 x1 x2, (Mod.mismatchFound x0 x1 x2).kept = x0.kept := by
  intro x0 x1 x2
  simp only [Mod.mismatchFound, ↓kept_mk, kept_eta, ↓apply_ite Mod.kept, ite_self, Mod.setUnit_kept, Mod.raise_kept, Mod.cairnNote_kept, implies_true]

theorem Mod.compareUnit_kept : ∀ x0 x1 x2, (Mod.compareUnit x0 x1 x2).kept = x0.kept := by
  intro x0 x1 x2
  simp only [Mod.compareUnit, ↓kept_mk, kept_eta, ↓apply_ite Mod.kept, ite_self, Mod.setUnit_kept, Mod.mismatchFound_kept, implies_true]

theorem Mod.compareStates_kept : ∀ x0 x1, (Mod.compareStates x0 x1).kept = x0.kept := by
  intro x0 x1
  simp only [Mod.compareStates, ↓kept_mk, kept_eta, ↓apply_ite Mod.kept, ite_self, Mod.setUnit_kept, Mod.compareUnit_kept, foldl_kept, foldl_kept1, foldl_kept2, foldl_kept3, foldl_kept4, ↓apply_ite Prod.snd, implies_true]

theorem Mod.forceUnits_kept : ∀ x0, (Mod.forceUnits x0).kept = x0.kept := by
  intro x0
  simp only [Mod.forceUnits, ↓kept_mk, kept_eta, ↓apply_ite Mod.kept, ite_self, implies_true]

theorem Mod.forceTimeout_kept : ∀ x0, (Mod.forceTimeout x0).kept = x0.kept := by
  intro x0
  simp only [Mod.forceTimeout, ↓kept_mk, kept_eta, ↓apply_ite Mod.kept, ite_self, Mod.leaSignal_kept, Mod.haltStream_kept, Mod.forceUnits_kept, Mod.mgmtFault_kept, implies_true]

theorem Mod.mismatchClear_kept : ∀ x0, (Mod.mismatchClear x0).kept = x0.kept := by
  intro x0
  simp only [Mod.mismatchClear, ↓kept_mk, kept_eta, ↓apply_ite Mod.kept, ite_self, Mod.setUnit_kept, foldl_kept, foldl_kept1, foldl_kept2, foldl_kept3, foldl_kept4, ↓apply_ite Prod.snd, implies_true]

end Sys2Proof.Machine
end

