-- ==== Sys2Proof/Laws/KeptBarrier.lean ====
section
/-!
SUPPORT. What the functions of Machine/Barrier.lean keep (see Laws/Kept.lean).
-/
set_option linter.unusedSimpArgs false
set_option linter.unusedVariables false
namespace Sys2Proof.Machine

theorem Mod.loadPrograms_kept : ∀ x0 x1, (Mod.loadPrograms x0 x1).kept = x0.kept := by
  intro x0 x1
  simp only [Mod.loadPrograms, ↓kept_mk, kept_eta, ↓apply_ite Mod.kept, ite_self, Mod.writeStore_kept, foldl_kept, foldl_kept1, foldl_kept2, foldl_kept3, foldl_kept4, ↓apply_ite Prod.snd, implies_true]

theorem Mod.startImage_kept : ∀ x0 x1 x2, (Mod.startImage x0 x1 x2).kept = x0.kept := by
  intro x0 x1 x2
  unfold Mod.startImage
  repeat' (split <;> first | with_reducible rfl | simp only [↓kept_mk, kept_eta, ↓apply_ite Mod.kept, ite_self, Mod.mapCells_kept, Mod.setPace_kept, Mod.loadPrograms_kept, Mod.loadTransfers_kept, Mod.raise_kept, Mod.haltStream_kept, foldl_kept, foldl_kept1, foldl_kept2, foldl_kept3, foldl_kept4, ↓apply_ite Prod.snd, implies_true] | skip)

theorem Mod.stageRotation_kept : ∀ x0, (Mod.stageRotation x0).kept = x0.kept := by
  intro x0
  unfold Mod.stageRotation
  repeat' (split <;> first | with_reducible rfl | simp only [↓kept_mk, kept_eta, ↓apply_ite Mod.kept, ite_self, implies_true] | skip)

theorem rotOff_follows (k : Kept) : k.Follows { k with rotEnable := 0#8 } :=
  ⟨fusesBurned_refl _, fun _ => Nat.le_refl _, fun h => ⟨h.1, h.2, h.3, h.4, Nat.zero_le _, h.6, h.7, h.8⟩⟩

theorem Mod.swapPlanting_follows : ∀ m : Mod, m.kept.Follows (Mod.swapPlanting m).kept := by
  intro m
  unfold Mod.swapPlanting
  repeat' (first | exact follows_refl _ | exact rotOff_follows _ | simp only [↓kept_mk, kept_eta, ↓apply_ite Mod.kept, ite_self, Mod.raise_kept, foldl_kept, implies_true] | split)

theorem Mod.optimiser_kept : ∀ x0 x1, (Mod.optimiser x0 x1).kept = x0.kept := by
  intro x0 x1
  unfold Mod.optimiser
  repeat' (split <;> first | with_reducible rfl | simp only [↓kept_mk, kept_eta, ↓apply_ite Mod.kept, ite_self, Mod.raise_kept, implies_true] | skip)

theorem Mod.atBarrier_follows : ∀ x0 x1 x2 x3 x4, (Mod.kept x0).Follows (Mod.atBarrier x0 x1 x2 x3 x4).kept := by
  intro x0 x1 x2 x3 x4
  unfold Mod.atBarrier
  repeat' (first | with_reducible exact follows_refl _ | simp only [↓kept_mk, kept_eta, ↓apply_ite Mod.kept, ite_self, Mod.mapCells_kept, Mod.applyTrims_kept, Mod.darkenDying_kept, Mod.forceUnits_kept, Mod.recalibrate_kept, Mod.stageRotation_kept, Mod.settleFences_kept, Mod.optimiser_kept, Mod.commitStep_kept, Mod.dueSubs_kept, foldl_kept, foldl_kept2, ↓apply_ite Prod.snd, implies_true] | split | refine follows_trans (Mod.swapPlanting_follows _) ?_ | refine follows_trans (foldl_follows _ (fun m a => ?_) _ _) ?_)

theorem Mod.formed_kept : ∀ x0 x1 x2, (Mod.formed x0 x1 x2).kept = x0.kept := by
  intro x0 x1 x2
  simp only [Mod.formed, ↓kept_mk, kept_eta, ↓apply_ite Mod.kept, ite_self, Mod.startImage_kept, Mod.raise_kept, implies_true]

theorem Mod.diverge_kept : ∀ x0 x1 x2, (Mod.diverge x0 x1 x2).kept = x0.kept := by
  intro x0 x1 x2
  simp only [Mod.diverge, ↓kept_mk, kept_eta, ↓apply_ite Mod.kept, ite_self, Mod.deliverHeld_kept, Mod.leaveRunning_kept, Mod.haltStream_kept, Mod.danger_kept, implies_true]

theorem Mod.applyRelease_follows : ∀ x0 x1 x2, (Mod.kept x0).Follows (Mod.applyRelease x0 x1 x2).kept := by
  intro x0 x1 x2
  unfold Mod.applyRelease
  repeat' (first | with_reducible exact follows_refl _ | simp only [↓kept_mk, kept_eta, ↓apply_ite Mod.kept, ite_self, Mod.sendDown_kept, Mod.formed_kept, Mod.diverge_kept, Mod.deliverHeld_kept, Mod.raise_kept, Mod.leaveRunning_kept, Mod.haltStream_kept, Mod.releasePace_kept, Mod.settled_kept, foldl_kept, foldl_kept2, ↓apply_ite Prod.snd, implies_true] | split | refine follows_trans (Mod.atBarrier_follows _ _ _ _ _) ?_ | refine follows_trans (foldl_follows _ (fun m a => ?_) _ _) ?_)

theorem Mod.andRelease_follows : ∀ r x, (Mod.kept r.1).Follows (Mod.andRelease r x).kept := by
  intro r x
  unfold Mod.andRelease
  split
  · exact Mod.applyRelease_follows _ _ _
  · exact follows_refl _

theorem Mod.takeBarrier_follows : ∀ x0 x1 x2, (Mod.kept x0).Follows (Mod.takeBarrier x0 x1 x2).kept := by
  intro x0 x1 x2
  unfold Mod.takeBarrier
  repeat' (first | with_reducible exact follows_refl _ | simp only [↓kept_mk, kept_eta, ↓apply_ite Mod.kept, ite_self, Mod.settled_kept, Mod.rounds_kept, Mod.abortNow_kept, Mod.tryReport_kept, foldl_kept, foldl_kept2, ↓apply_ite Prod.snd, implies_true] | split | refine follows_trans (Mod.atBarrier_follows _ _ _ _ _) ?_ | refine follows_trans (Mod.andRelease_follows _ _) ?_ | refine follows_trans (foldl_follows _ (fun m a => ?_) _ _) ?_)

theorem Mod.barrierOverdue_kept : ∀ x0, (Mod.barrierOverdue x0).kept = x0.kept := by
  intro x0
  simp only [Mod.barrierOverdue, ↓kept_mk, kept_eta, ↓apply_ite Mod.kept, ite_self, Mod.leaSignal_kept, Mod.haltStream_kept, Mod.dataFault_kept, Mod.raise_kept, implies_true]

theorem Mod.endStream_kept : ∀ x0, (Mod.endStream x0).kept = x0.kept := by
  intro x0
  unfold Mod.endStream
  (try simp only [↓kept_mk, kept_eta, ↓apply_ite Mod.kept, ite_self, Mod.settled_kept, Mod.leaSignal_kept, Mod.haltStream_kept, implies_true])
  repeat' (split <;> first | with_reducible rfl | simp only [↓kept_mk, kept_eta, ↓apply_ite Mod.kept, ite_self, Mod.settled_kept, Mod.leaSignal_kept, Mod.haltStream_kept, implies_true] | skip)

theorem Mod.leaStart_follows : ∀ x0 x1, (Mod.kept x0).Follows (Mod.leaStart x0 x1).kept := by
  intro x0 x1
  unfold Mod.leaStart
  repeat' (first | with_reducible exact follows_refl _ | simp only [↓kept_mk, kept_eta, ↓apply_ite Mod.kept, ite_self, Mod.leaSwap_kept, Mod.tryReport_kept, foldl_kept, foldl_kept2, ↓apply_ite Prod.snd, implies_true] | split | refine follows_trans (Mod.andRelease_follows _ _) ?_ | refine follows_trans (foldl_follows _ (fun m a => ?_) _ _) ?_)

theorem Mod.formationTimeout_kept : ∀ x0, (Mod.formationTimeout x0).kept = x0.kept := by
  intro x0
  simp only [Mod.formationTimeout, ↓kept_mk, kept_eta, ↓apply_ite Mod.kept, ite_self, implies_true]

theorem Mod.leaLeave_kept : ∀ x0, (Mod.leaLeave x0).kept = x0.kept := by
  intro x0
  simp only [Mod.leaLeave, ↓kept_mk, kept_eta, ↓apply_ite Mod.kept, ite_self, Mod.setLeaActive_kept, implies_true]

theorem Mod.takeToken_follows : ∀ x0 x1 x2 x3, (Mod.kept x0).Follows (Mod.takeToken x0 x1 x2 x3).kept := by
  intro x0 x1 x2 x3
  unfold Mod.takeToken
  repeat' (first | with_reducible exact follows_refl _ | simp only [↓kept_mk, kept_eta, ↓apply_ite Mod.kept, ite_self, Mod.foreignToken_kept, Mod.takeReport_kept, Mod.flagAlive_kept, Mod.takeAbort_kept, foldl_kept, foldl_kept2, ↓apply_ite Prod.snd, implies_true] | split | refine follows_trans (Mod.andRelease_follows _ _) ?_ | refine follows_trans (Mod.applyRelease_follows _ _ _) ?_ | refine follows_trans (foldl_follows _ (fun m a => ?_) _ _) ?_)

end Sys2Proof.Machine
end

