-- ==== Sys2Proof/Laws/KeptLinkRows.lean ====
section
/-!
SUPPORT. What the functions of Machine/LinkRows.lean keep (see Laws/Kept.lean).
-/
set_option linter.unusedSimpArgs false
set_option linter.unusedVariables false
namespace Sys2Proof.Machine

theorem Mod.flitToken_follows : ∀ x0 x1 x2 x3, (Mod.kept x0).Follows (Mod.flitToken x0 x1 x2 x3).kept := by
  intro x0 x1 x2 x3
  unfold Mod.flitToken
  repeat' (first | with_reducible exact follows_refl _ | simp only [↓kept_mk, kept_eta, ↓apply_ite Mod.kept, ite_self, foldl_kept, foldl_kept2, ↓apply_ite Prod.snd, implies_true] | split | refine follows_trans (Mod.takeToken_follows _ _ _ _) ?_ | refine follows_trans (foldl_follows _ (fun m a => ?_) _ _) ?_)

theorem Mod.leaFlit_follows : ∀ x0 x1 x2 x3 x4, (Mod.kept x0).Follows (Mod.leaFlit x0 x1 x2 x3 x4).kept := by
  intro x0 x1 x2 x3 x4
  unfold Mod.leaFlit
  repeat' (first | with_reducible exact follows_refl _ | simp only [↓kept_mk, kept_eta, ↓apply_ite Mod.kept, ite_self, Mod.takeFlit_kept, Mod.laneTakes_kept, Mod.sendSettled_kept, Mod.drainRecv_kept, Mod.setPort_kept, foldl_kept, foldl_kept2, ↓apply_ite Prod.snd, implies_true] | split | refine follows_trans (Mod.flitToken_follows _ _ _ _) ?_ | refine Mod.takeFlit_follows _ _ _ _ _ _ (fun m => ?_) | refine follows_trans (Mod.takeFlit_follows _ _ _ _ _ _ (fun m => ?_)) ?_ | refine follows_trans (foldl_follows _ (fun m a => ?_) _ _) ?_)

theorem Mod.beFlit_follows : ∀ x0 x1 x2 x3 x4, (Mod.kept x0).Follows (Mod.beFlit x0 x1 x2 x3 x4).kept := by
  intro x0 x1 x2 x3 x4
  unfold Mod.beFlit
  repeat' (first | with_reducible exact follows_refl _ | simp only [↓kept_mk, kept_eta, ↓apply_ite Mod.kept, ite_self, Mod.takeFlit_kept, Mod.laneTakes_kept, Mod.sendSettled_kept, Mod.takeBe_kept, foldl_kept, foldl_kept2, ↓apply_ite Prod.snd, implies_true] | split | refine follows_trans (Mod.flitToken_follows _ _ _ _) ?_ | refine Mod.takeFlit_follows _ _ _ _ _ _ (fun m => ?_) | refine follows_trans (Mod.takeFlit_follows _ _ _ _ _ _ (fun m => ?_)) ?_ | refine follows_trans (foldl_follows _ (fun m a => ?_) _ _) ?_)

theorem Mod.idleFlit_follows : ∀ x0 x1 x2 x3 x4, (Mod.kept x0).Follows (Mod.idleFlit x0 x1 x2 x3 x4).kept := by
  intro x0 x1 x2 x3 x4
  unfold Mod.idleFlit
  repeat' (first | with_reducible exact follows_refl _ | simp only [↓kept_mk, kept_eta, ↓apply_ite Mod.kept, ite_self, Mod.takeFlit_kept, Mod.sendSettled_kept, foldl_kept, foldl_kept2, ↓apply_ite Prod.snd, implies_true] | split | refine follows_trans (Mod.flitToken_follows _ _ _ _) ?_ | refine Mod.takeFlit_follows _ _ _ _ _ _ (fun m => ?_) | refine follows_trans (Mod.takeFlit_follows _ _ _ _ _ _ (fun m => ?_)) ?_ | refine follows_trans (foldl_follows _ (fun m a => ?_) _ _) ?_)

theorem Mod.storePeer_kept : ∀ x0 x1 x2, (Mod.storePeer x0 x1 x2).kept = x0.kept := by
  intro x0 x1 x2
  simp only [Mod.storePeer, ↓kept_mk, kept_eta, ↓apply_ite Mod.kept, ite_self, Mod.setPort_kept, Mod.raise_kept, implies_true]

theorem Mod.portIdentDone_kept : ∀ x0 x1, (Mod.portIdentDone x0 x1).kept = x0.kept := by
  intro x0 x1
  simp only [Mod.portIdentDone, ↓kept_mk, kept_eta, ↓apply_ite Mod.kept, ite_self, Mod.portEnterUp_kept, implies_true]

theorem Mod.portIdent_kept : ∀ x0 x1 x2, (Mod.portIdent x0 x1 x2).kept = x0.kept := by
  intro x0 x1 x2
  simp only [Mod.portIdent, ↓kept_mk, kept_eta, ↓apply_ite Mod.kept, ite_self, Mod.portIdentDone_kept, Mod.storePeer_kept, Mod.setPort_kept, Mod.emitLink_kept, implies_true]

theorem Mod.portLaneReset_kept : ∀ x0 x1 x2, (Mod.portLaneReset x0 x1 x2).kept = x0.kept := by
  intro x0 x1 x2
  simp only [Mod.portLaneReset, ↓kept_mk, kept_eta, ↓apply_ite Mod.kept, ite_self, Mod.pumpLane_kept, Mod.setPort_kept, Mod.emitLink_kept, Mod.sendSettled_kept, implies_true]

theorem Mod.linkFlit_kept : ∀ x0 x1 x2 x3 x4, (Mod.linkFlit x0 x1 x2 x3 x4).kept = x0.kept := by
  intro x0 x1 x2 x3 x4
  simp only [Mod.linkFlit, ↓kept_mk, kept_eta, ↓apply_ite Mod.kept, ite_self, Mod.takeFlit_kept, Mod.sendSettled_kept, Mod.portIdent_kept, Mod.portLaneReset_kept, implies_true]

theorem Mod.portReplayTimeout_kept : ∀ x0 x1 x2, (Mod.portReplayTimeout x0 x1 x2).kept = x0.kept := by
  intro x0 x1 x2
  simp only [Mod.portReplayTimeout, ↓kept_mk, kept_eta, ↓apply_ite Mod.kept, ite_self, Mod.replayLane_kept, Mod.setPort_kept, Mod.portRetrain_kept, implies_true]

theorem Mod.portSignal_kept : ∀ x0 x1, (Mod.portSignal x0 x1).kept = x0.kept := by
  intro x0 x1
  simp only [Mod.portSignal, ↓kept_mk, kept_eta, ↓apply_ite Mod.kept, ite_self, Mod.setPort_kept, implies_true]

theorem Mod.portSignalDone_kept : ∀ x0 x1, (Mod.portSignalDone x0 x1).kept = x0.kept := by
  intro x0 x1
  simp only [Mod.portSignalDone, ↓kept_mk, kept_eta, ↓apply_ite Mod.kept, ite_self, Mod.setPort_kept, implies_true]

theorem Mod.portAlignDone_kept : ∀ x0 x1, (Mod.portAlignDone x0 x1).kept = x0.kept := by
  intro x0 x1
  simp only [Mod.portAlignDone, ↓kept_mk, kept_eta, ↓apply_ite Mod.kept, ite_self, Mod.sendIdent_kept, Mod.setPort_kept, implies_true]

theorem Mod.portTimeout_kept : ∀ x0 x1, (Mod.portTimeout x0 x1).kept = x0.kept := by
  intro x0 x1
  simp only [Mod.portTimeout, ↓kept_mk, kept_eta, ↓apply_ite Mod.kept, ite_self, Mod.portAttemptFailed_kept, implies_true]

theorem Mod.portUe_kept : ∀ x0 x1, (Mod.portUe x0 x1).kept = x0.kept := by
  intro x0 x1
  simp only [Mod.portUe, ↓kept_mk, kept_eta, ↓apply_ite Mod.kept, ite_self, Mod.setPort_kept, Mod.portRetrain_kept, implies_true]

theorem Mod.portFec_kept : ∀ x0 x1 x2 x3, (Mod.portFec x0 x1 x2 x3).kept = x0.kept := by
  intro x0 x1 x2 x3
  simp only [Mod.portFec, ↓kept_mk, kept_eta, ↓apply_ite Mod.kept, ite_self, Mod.setPort_kept, Mod.raise_kept, implies_true]

theorem Mod.portRetrainReq_kept : ∀ x0 x1, (Mod.portRetrainReq x0 x1).kept = x0.kept := by
  intro x0 x1
  unfold Mod.portRetrainReq
  repeat' (split <;> first | with_reducible rfl | simp only [↓kept_mk, kept_eta, ↓apply_ite Mod.kept, ite_self, Mod.portRetrain_kept, Mod.portDown_kept, Mod.portRevive_kept, implies_true] | skip)

theorem Mod.setJnl_kept : ∀ x0 x1, (Mod.setJnl x0 x1).kept = x0.kept := by
  intro x0 x1
  simp only [Mod.setJnl, ↓kept_mk, kept_eta, ↓apply_ite Mod.kept, ite_self, Mod.interrupt_kept, implies_true]

theorem Mod.jnlLost_kept : ∀ x0 x1 x2, (Mod.jnlLost x0 x1 x2).kept = x0.kept := by
  intro x0 x1 x2
  simp only [Mod.jnlLost, ↓kept_mk, kept_eta, ↓apply_ite Mod.kept, ite_self, Mod.setJnl_kept, Mod.raise_kept, Mod.hostLost_kept, implies_true]

theorem Mod.jnlFailed_kept : ∀ x0, (Mod.jnlFailed x0).kept = x0.kept := by
  intro x0
  simp only [Mod.jnlFailed, ↓kept_mk, kept_eta, ↓apply_ite Mod.kept, ite_self, Mod.raise_kept, Mod.jnlLost_kept, implies_true]

theorem Mod.jnlAttemptFailed_kept : ∀ x0, (Mod.jnlAttemptFailed x0).kept = x0.kept := by
  intro x0
  simp only [Mod.jnlAttemptFailed, ↓kept_mk, kept_eta, ↓apply_ite Mod.kept, ite_self, Mod.setJnl_kept, Mod.jnlFailed_kept, Mod.jnlLost_kept, implies_true]

theorem Mod.jnlRetrain_kept : ∀ x0 x1, (Mod.jnlRetrain x0 x1).kept = x0.kept := by
  intro x0 x1
  simp only [Mod.jnlRetrain, ↓kept_mk, kept_eta, ↓apply_ite Mod.kept, ite_self, Mod.jnlFailed_kept, Mod.setJnl_kept, implies_true]

theorem Mod.jnlResend_kept : ∀ x0, (Mod.jnlResend x0).kept = x0.kept := by
  intro x0
  simp only [Mod.jnlResend, ↓kept_mk, kept_eta, ↓apply_ite Mod.kept, ite_self, Mod.jnlEmit_kept, foldl_kept, foldl_kept1, foldl_kept2, foldl_kept3, foldl_kept4, ↓apply_ite Prod.snd, implies_true]

theorem Mod.jnlEnterUp_kept : ∀ x0, (Mod.jnlEnterUp x0).kept = x0.kept := by
  intro x0
  simp only [Mod.jnlEnterUp, ↓kept_mk, kept_eta, ↓apply_ite Mod.kept, ite_self, Mod.setJnl_kept, Mod.jnlResend_kept, Mod.raise_kept, Mod.sendPacket_kept, Mod.jnlPump_kept, foldl_kept, foldl_kept1, foldl_kept2, foldl_kept3, foldl_kept4, ↓apply_ite Prod.snd, implies_true]

theorem Mod.jnlSendLink_kept : ∀ x0 x1 x2, (Mod.jnlSendLink x0 x1 x2).kept = x0.kept := by
  intro x0 x1 x2
  simp only [Mod.jnlSendLink, ↓kept_mk, kept_eta, ↓apply_ite Mod.kept, ite_self, Mod.jnlEmit_kept, implies_true]

theorem Mod.jnlSendIdent_kept : ∀ x0, (Mod.jnlSendIdent x0).kept = x0.kept := by
  intro x0
  simp only [Mod.jnlSendIdent, ↓kept_mk, kept_eta, ↓apply_ite Mod.kept, ite_self, Mod.jnlSendLink_kept, Mod.setJnl_kept, implies_true]

theorem Mod.jnlRepeatLinks_kept : ∀ x0, (Mod.jnlRepeatLinks x0).kept = x0.kept := by
  intro x0
  simp only [Mod.jnlRepeatLinks, ↓kept_mk, kept_eta, ↓apply_ite Mod.kept, ite_self, Mod.jnlSendLink_kept, foldl_kept, foldl_kept1, foldl_kept2, foldl_kept3, foldl_kept4, ↓apply_ite Prod.snd, implies_true]

theorem Mod.jnlIdentDone_kept : ∀ x0, (Mod.jnlIdentDone x0).kept = x0.kept := by
  intro x0
  simp only [Mod.jnlIdentDone, ↓kept_mk, kept_eta, ↓apply_ite Mod.kept, ite_self, Mod.jnlEnterUp_kept, implies_true]

theorem maxRead_follows (k : Kept) (rd : Nat) (h : ¬(rd % 64 ≠ 0 ∨ rd < 64 ∨ 4096 < rd)) :
    k.Follows { k with maxRead := rd } :=
  ⟨fusesBurned_refl _, fun _ => Nat.le_refl _, fun g => ⟨g.1, g.2, g.3, g.4, g.5, g.6, g.7, by simp only; omega⟩⟩

theorem Mod.jnlTakeIdent_follows : ∀ (m : Mod) pl, m.kept.Follows (Mod.jnlTakeIdent m pl).kept := by
  intro m pl
  unfold Mod.jnlTakeIdent
  extract_lets h body rd t store
  have hs : ∀ x : Mod, (store x).kept = { x.kept with maxRead := rd } := fun x => by
    simp only [store, ↓kept_mk, kept_eta, ↓apply_ite Mod.kept, ite_self, Mod.jnlAttemptFailed_kept, Mod.jnlIdentDone_kept, Mod.setJnl_kept, Mod.jnlSendLink_kept, foldl_kept, implies_true]; exact Eq.refl _
  clear_value store rd
  split
  · split
    · simp only [↓kept_mk, kept_eta, ↓apply_ite Mod.kept, ite_self, Mod.jnlAttemptFailed_kept, Mod.jnlIdentDone_kept, Mod.setJnl_kept, Mod.jnlSendLink_kept, foldl_kept, implies_true]; exact follows_refl _
    · exact follows_refl _
  · repeat' (first | exact follows_refl _ | exact maxRead_follows _ _ ‹_› | simp only [↓kept_mk, kept_eta, ↓apply_ite Mod.kept, ite_self, Mod.jnlAttemptFailed_kept, Mod.jnlIdentDone_kept, Mod.setJnl_kept, Mod.jnlSendLink_kept, foldl_kept, implies_true, hs] | split)

theorem Mod.jnlIdent_follows : ∀ x0 x1 x2, (Mod.kept x0).Follows (Mod.jnlIdent x0 x1 x2).kept := by
  intro x0 x1 x2
  unfold Mod.jnlIdent
  repeat' (first | with_reducible exact follows_refl _ | simp only [↓kept_mk, kept_eta, ↓apply_ite Mod.kept, ite_self, foldl_kept, foldl_kept2, ↓apply_ite Prod.snd, implies_true] | split | refine follows_trans (Mod.jnlTakeIdent_follows _ _) ?_ | refine follows_trans (foldl_follows _ (fun m a => ?_) _ _) ?_)

theorem Mod.jnlReplayTimeout_kept : ∀ x0, (Mod.jnlReplayTimeout x0).kept = x0.kept := by
  intro x0
  simp only [Mod.jnlReplayTimeout, ↓kept_mk, kept_eta, ↓apply_ite Mod.kept, ite_self, Mod.jnlRetrain_kept, Mod.jnlResend_kept, implies_true]

theorem Mod.jnlSignal_kept : ∀ x0, (Mod.jnlSignal x0).kept = x0.kept := by
  intro x0
  simp only [Mod.jnlSignal, ↓kept_mk, kept_eta, ↓apply_ite Mod.kept, ite_self, Mod.setJnl_kept, implies_true]

theorem Mod.jnlSignalDone_kept : ∀ x0, (Mod.jnlSignalDone x0).kept = x0.kept := by
  intro x0
  simp only [Mod.jnlSignalDone, ↓kept_mk, kept_eta, ↓apply_ite Mod.kept, ite_self, Mod.setJnl_kept, implies_true]

theorem Mod.jnlAlignDone_kept : ∀ x0, (Mod.jnlAlignDone x0).kept = x0.kept := by
  intro x0
  simp only [Mod.jnlAlignDone, ↓kept_mk, kept_eta, ↓apply_ite Mod.kept, ite_self, Mod.jnlSendIdent_kept, Mod.setJnl_kept, implies_true]

theorem Mod.jnlTimeout_kept : ∀ x0, (Mod.jnlTimeout x0).kept = x0.kept := by
  intro x0
  simp only [Mod.jnlTimeout, ↓kept_mk, kept_eta, ↓apply_ite Mod.kept, ite_self, Mod.jnlAttemptFailed_kept, implies_true]

theorem Mod.jnlUe_kept : ∀ x0, (Mod.jnlUe x0).kept = x0.kept := by
  intro x0
  simp only [Mod.jnlUe, ↓kept_mk, kept_eta, ↓apply_ite Mod.kept, ite_self, Mod.jnlRetrain_kept, implies_true]

theorem Mod.jnlFec_kept : ∀ x0 x1 x2, (Mod.jnlFec x0 x1 x2).kept = x0.kept := by
  intro x0 x1 x2
  simp only [Mod.jnlFec, ↓kept_mk, kept_eta, ↓apply_ite Mod.kept, ite_self, Mod.raise_kept, implies_true]

theorem Mod.jnlRetrainReq_kept : ∀ x0, (Mod.jnlRetrainReq x0).kept = x0.kept := by
  intro x0
  unfold Mod.jnlRetrainReq
  (try simp only [↓kept_mk, kept_eta, ↓apply_ite Mod.kept, ite_self, Mod.jnlRetrain_kept, Mod.setJnl_kept, Mod.clearFault_kept, implies_true])
  repeat' (split <;> first | with_reducible rfl | simp only [↓kept_mk, kept_eta, ↓apply_ite Mod.kept, ite_self, Mod.jnlRetrain_kept, Mod.setJnl_kept, Mod.clearFault_kept, implies_true] | skip)

theorem Mod.refclkLost_kept : ∀ x0, (Mod.refclkLost x0).kept = x0.kept := by
  intro x0
  simp only [Mod.refclkLost, ↓kept_mk, kept_eta, ↓apply_ite Mod.kept, ite_self, Mod.portDown_kept, Mod.jnlLost_kept, foldl_kept, foldl_kept1, foldl_kept2, foldl_kept3, foldl_kept4, ↓apply_ite Prod.snd, implies_true]

theorem Mod.refclkBack_kept : ∀ x0, (Mod.refclkBack x0).kept = x0.kept := by
  intro x0
  simp only [Mod.refclkBack, ↓kept_mk, kept_eta, ↓apply_ite Mod.kept, ite_self, implies_true]

end Sys2Proof.Machine
end

