-- ==== Sys2Proof/Laws/KeptSecurity.lean ====
section
/-!
SUPPORT. What the functions of Machine/Security.lean keep (see Laws/Kept.lean).
-/
set_option linter.unusedSimpArgs false
set_option linter.unusedVariables false
namespace Sys2Proof.Machine

theorem Mod.secResult_kept : ∀ x0 x1, (Mod.secResult x0 x1).kept = x0.kept := by
  intro x0 x1
  simp only [Mod.secResult, ↓kept_mk, kept_eta, ↓apply_ite Mod.kept, ite_self, implies_true]

theorem Mod.verified_kept : ∀ x0 x1 x2, (Mod.verified x0 x1 x2).kept = x0.kept := by
  intro x0 x1 x2
  simp only [Mod.verified, ↓kept_mk, kept_eta, ↓apply_ite Mod.kept, ite_self, Mod.secResult_kept, Mod.raise_kept, implies_true]

theorem Mod.readPackage_kept : ∀ x0 x1, (Mod.readPackage x0 x1).2.kept = x0.kept := by
  intro x0 x1
  simp only [Mod.readPackage, ↓kept_mk, kept_eta, ↓apply_ite Mod.kept, ite_self, Mod.readStack_kept, foldl_kept, foldl_kept1, foldl_kept2, foldl_kept3, foldl_kept4, ↓apply_ite Prod.snd, implies_true]

theorem Mod.leaveTest_kept : ∀ x0, (Mod.leaveTest x0).kept = x0.kept := by
  intro x0
  simp only [Mod.leaveTest, ↓kept_mk, kept_eta, ↓apply_ite Mod.kept, ite_self, Mod.raise_kept, implies_true]

theorem Mod.endSession_kept : ∀ x0 x1, (Mod.endSession x0 x1).kept = x0.kept := by
  intro x0 x1
  unfold Mod.endSession
  repeat' (split <;> first | with_reducible rfl | simp only [↓kept_mk, kept_eta, ↓apply_ite Mod.kept, ite_self, Mod.disarm_kept, Mod.raise_kept, Mod.leaveTest_kept, implies_true] | skip)

theorem Mod.authReq_kept : ∀ x0 x1, (Mod.authReq x0 x1).2.kept = x0.kept := by
  intro x0 x1
  simp only [Mod.authReq, ↓kept_mk, kept_eta, ↓apply_ite Mod.kept, ite_self, foldl_kept, foldl_kept1, foldl_kept2, foldl_kept3, foldl_kept4, ↓apply_ite Prod.snd, implies_true]

theorem Mod.authResponse_kept : ∀ x0 x1, (Mod.authResponse x0 x1).2.kept = x0.kept := by
  intro x0 x1
  unfold Mod.authResponse
  repeat' (split <;> first | with_reducible rfl | simp only [↓kept_mk, kept_eta, ↓apply_ite Mod.kept, ite_self, Mod.secResult_kept, foldl_kept, foldl_kept1, foldl_kept2, foldl_kept3, foldl_kept4, ↓apply_ite Prod.snd, implies_true] | skip)

theorem Mod.responseVerified_kept : ∀ x0 x1, (Mod.responseVerified x0 x1).kept = x0.kept := by
  intro x0 x1
  unfold Mod.responseVerified
  repeat' (split <;> first | with_reducible rfl | simp only [↓kept_mk, kept_eta, ↓apply_ite Mod.kept, ite_self, Mod.raise_kept, implies_true] | skip)

theorem Mod.authClose_kept : ∀ x0, (Mod.authClose x0).kept = x0.kept := by
  intro x0
  simp only [Mod.authClose, ↓kept_mk, kept_eta, ↓apply_ite Mod.kept, ite_self, Mod.endSession_kept, implies_true]

theorem Mod.challengeExpired_kept : ∀ x0, (Mod.challengeExpired x0).kept = x0.kept := by
  intro x0
  simp only [Mod.challengeExpired, ↓kept_mk, kept_eta, ↓apply_ite Mod.kept, ite_self, implies_true]

theorem Mod.lockoutEnd_kept : ∀ x0, (Mod.lockoutEnd x0).kept = x0.kept := by
  intro x0
  simp only [Mod.lockoutEnd, ↓kept_mk, kept_eta, ↓apply_ite Mod.kept, ite_self, implies_true]

theorem Mod.setProfile_kept : ∀ x0 x1, (Mod.setProfile x0 x1).kept = x0.kept := by
  intro x0 x1
  unfold Mod.setProfile
  (try simp only [↓kept_mk, kept_eta, ↓apply_ite Mod.kept, ite_self, Mod.endSession_kept, implies_true])
  repeat' (split <;> first | with_reducible rfl | simp only [↓kept_mk, kept_eta, ↓apply_ite Mod.kept, ite_self, Mod.endSession_kept, implies_true] | skip)

theorem pkgSvn_lt (h : Bytes) : pkgSvn h < 256 := by
  unfold pkgSvn field; omega

theorem svn_toNat (a : BitVec 8) (n : Nat) (h : n < 256) : a.toNat ≤ (BitVec.ofNat 8 (max a.toNat n)).toNat := by
  have := a.isLt
  rw [BitVec.toNat_ofNat, Nat.mod_eq_of_lt (by omega)]
  exact Nat.le_max_left _ _

theorem svns_follow (k : Kept) (a b : Nat) (ha : a < 256) (hb : b < 256) :
    k.Follows { k with fuses := { k.fuses with
      mcSvn := BitVec.ofNat 8 (max k.fuses.mcSvn.toNat a), ccSvn := BitVec.ofNat 8 (max k.fuses.ccSvn.toNat b) } } :=
  ⟨⟨Eq.refl _, fun _ h => h, fun _ _ h => h, fun _ h => h, svn_toNat _ _ ha, svn_toNat _ _ hb, Eq.refl _, Eq.refl _,
    Eq.refl _, Eq.refl _, Eq.refl _, Eq.refl _, Eq.refl _⟩, fun _ => Nat.le_refl _,
    fun h => ⟨h.1, h.2, h.3, h.4, h.5, h.6, h.7, h.8⟩⟩

theorem svns_follow_one (k : Kept) (a : Nat) (ha : a < 256) :
    k.Follows { k with fuses := { k.fuses with
      mcSvn := BitVec.ofNat 8 (max k.fuses.mcSvn.toNat a), ccSvn := BitVec.ofNat 8 k.fuses.ccSvn.toNat } } := by
  have h := svns_follow k a 0 ha (by omega)
  rwa [Nat.max_eq_left (Nat.zero_le _)] at h

theorem Mod.svnCommit_follows : ∀ m : Mod, m.kept.Follows (Mod.svnCommit m).kept := by
  intro m
  unfold Mod.svnCommit
  extract_lets mc cc f m1
  rw [Mod.raise_kept]
  simp only [m1, mc, cc]
  split
  · exact svns_follow m.kept _ _ (pkgSvn_lt _) (Nat.lt_of_lt_of_le (BitVec.isLt _) (by decide))
  · exact svns_follow_one m.kept _ (pkgSvn_lt _)

theorem Mod.fwRevoke_follows : ∀ (m : Mod) v, m.kept.Follows (Mod.fwRevoke m v).2.kept := by
  intro m v
  have h : m.kept.Follows { m.kept with fuses := { m.kept.fuses with revoked := m.kept.fuses.revoked ||| v } } :=
    ⟨⟨Eq.refl _, fun _ h => h, fun _ _ h => h, fun _ h => by simp [h], Nat.le_refl _, Nat.le_refl _, Eq.refl _,
      Eq.refl _, Eq.refl _, Eq.refl _, Eq.refl _, Eq.refl _, Eq.refl _⟩, fun _ => Nat.le_refl _,
      fun h => ⟨h.1, h.2, h.3, h.4, h.5, h.6, h.7, h.8⟩⟩
  unfold Mod.fwRevoke
  extract_lets service cc f
  clear_value service cc
  split
  · exact follows_refl _
  · split
    · exact follows_refl _
    · simp only [↓kept_mk, kept_eta, ↓apply_ite Mod.kept, ite_self, Mod.raise_kept, foldl_kept, implies_true, f]; exact h

theorem Mod.setOwnerKey_kept : ∀ x0 x1, (Mod.setOwnerKey x0 x1).kept = x0.kept := by
  intro x0 x1
  simp only [Mod.setOwnerKey, ↓kept_mk, kept_eta, ↓apply_ite Mod.kept, ite_self, Mod.raise_kept, implies_true]

theorem Mod.setImageKey_kept : ∀ x0 x1, (Mod.setImageKey x0 x1).kept = x0.kept := by
  intro x0 x1
  simp only [Mod.setImageKey, ↓kept_mk, kept_eta, ↓apply_ite Mod.kept, ite_self, Mod.raise_kept, implies_true]

theorem Mod.setFwSlot_kept : ∀ x0 x1, (Mod.setFwSlot x0 x1).2.kept = x0.kept := by
  intro x0 x1
  simp only [Mod.setFwSlot, ↓kept_mk, kept_eta, ↓apply_ite Mod.kept, ite_self, foldl_kept, foldl_kept1, foldl_kept2, foldl_kept3, foldl_kept4, ↓apply_ite Prod.snd, implies_true]

theorem Mod.fwChunk_kept : ∀ x0 x1, (Mod.fwChunk x0 x1).2.kept = x0.kept := by
  intro x0 x1
  simp only [Mod.fwChunk, ↓kept_mk, kept_eta, ↓apply_ite Mod.kept, ite_self, foldl_kept, foldl_kept1, foldl_kept2, foldl_kept3, foldl_kept4, ↓apply_ite Prod.snd, implies_true]

theorem Mod.fwCommit_kept : ∀ x0, (Mod.fwCommit x0).2.kept = x0.kept := by
  intro x0
  simp only [Mod.fwCommit, ↓kept_mk, kept_eta, ↓apply_ite Mod.kept, ite_self, foldl_kept, foldl_kept1, foldl_kept2, foldl_kept3, foldl_kept4, ↓apply_ite Prod.snd, implies_true]

theorem Mod.commitVerified_kept : ∀ x0, (Mod.commitVerified x0).2.kept = x0.kept := by
  intro x0
  unfold Mod.commitVerified
  repeat' (split <;> first | with_reducible rfl | simp only [↓kept_mk, kept_eta, ↓apply_ite Mod.kept, ite_self, Mod.verified_kept, foldl_kept, foldl_kept1, foldl_kept2, foldl_kept3, foldl_kept4, ↓apply_ite Prod.snd, implies_true] | skip)

theorem Mod.attGo_kept : ∀ x0, (Mod.attGo x0).2.kept = x0.kept := by
  intro x0
  simp only [Mod.attGo, ↓kept_mk, kept_eta, ↓apply_ite Mod.kept, ite_self, foldl_kept, foldl_kept1, foldl_kept2, foldl_kept3, foldl_kept4, ↓apply_ite Prod.snd, implies_true]

theorem Mod.attestSigned_kept : ∀ x0, (Mod.attestSigned x0).kept = x0.kept := by
  intro x0
  simp only [Mod.attestSigned, ↓kept_mk, kept_eta, ↓apply_ite Mod.kept, ite_self, Mod.raise_kept, implies_true]

theorem Mod.setDbgHalt_kept : ∀ x0 x1, (Mod.setDbgHalt x0 x1).2.kept = x0.kept := by
  intro x0 x1
  simp only [Mod.setDbgHalt, ↓kept_mk, kept_eta, ↓apply_ite Mod.kept, ite_self, foldl_kept, foldl_kept1, foldl_kept2, foldl_kept3, foldl_kept4, ↓apply_ite Prod.snd, implies_true]

end Sys2Proof.Machine
end

