-- ==== Sys2Proof/Laws/KeptImage.lean ====
section
/-!
SUPPORT. What the functions of Machine/Image.lean keep (see Laws/Kept.lean).
-/
set_option linter.unusedSimpArgs false
set_option linter.unusedVariables false
namespace Sys2Proof.Machine

theorem Mod.attnChecks_kept : ∀ x0 x1 x2, (Mod.attnChecks x0 x1 x2).2.kept = x0.kept := by
  intro x0 x1 x2
  induction x2 generalizing x0 x1 with
  | nil =>
    unfold Mod.attnChecks
    first | rfl | simp only [↓kept_mk, kept_eta, ↓apply_ite Mod.kept, ite_self, Mod.readStack_kept, foldl_kept, foldl_kept1, foldl_kept2, foldl_kept3, foldl_kept4, ↓apply_ite Prod.snd, implies_true]
  | cons a t ih =>
    unfold Mod.attnChecks
    (try simp only [ih, ↓kept_mk, kept_eta, ↓apply_ite Mod.kept, ite_self, Mod.readStack_kept, foldl_kept, foldl_kept1, foldl_kept2, foldl_kept3, foldl_kept4, ↓apply_ite Prod.snd, implies_true])
    repeat' (split <;> first | with_reducible rfl | simp only [ih, ↓kept_mk, kept_eta, ↓apply_ite Mod.kept, ite_self, Mod.readStack_kept, foldl_kept, foldl_kept1, foldl_kept2, foldl_kept3, foldl_kept4, ↓apply_ite Prod.snd, implies_true] | skip)

theorem Mod.loadBytes_kept : ∀ x0 x1 x2, (Mod.loadBytes x0 x1 x2).2.kept = x0.kept := by
  intro x0 x1 x2
  simp only [Mod.loadBytes, ↓kept_mk, kept_eta, ↓apply_ite Mod.kept, ite_self, Mod.readStack_kept, foldl_kept, foldl_kept1, foldl_kept2, foldl_kept3, foldl_kept4, ↓apply_ite Prod.snd, implies_true]

theorem Mod.loadSections_kept : ∀ x0 x1, (Mod.loadSections x0 x1).2.kept = x0.kept := by
  intro x0 x1
  induction x1 generalizing x0 with
  | nil =>
    unfold Mod.loadSections
    first | rfl | simp only [↓kept_mk, kept_eta, ↓apply_ite Mod.kept, ite_self, Mod.loadBytes_kept, foldl_kept, foldl_kept1, foldl_kept2, foldl_kept3, foldl_kept4, ↓apply_ite Prod.snd, implies_true]
  | cons a t ih =>
    unfold Mod.loadSections
    (try simp only [ih, ↓kept_mk, kept_eta, ↓apply_ite Mod.kept, ite_self, Mod.loadBytes_kept, foldl_kept, foldl_kept1, foldl_kept2, foldl_kept3, foldl_kept4, ↓apply_ite Prod.snd, implies_true])
    repeat' (split <;> first | with_reducible rfl | simp only [ih, ↓kept_mk, kept_eta, ↓apply_ite Mod.kept, ite_self, Mod.loadBytes_kept, foldl_kept, foldl_kept1, foldl_kept2, foldl_kept3, foldl_kept4, ↓apply_ite Prod.snd, implies_true] | skip)

theorem Mod.imgSignature_kept : ∀ x0 x1 x2 x3, (Mod.imgSignature x0 x1 x2 x3).2.kept = x0.kept := by
  intro x0 x1 x2 x3
  simp only [Mod.imgSignature, ↓kept_mk, kept_eta, ↓apply_ite Mod.kept, ite_self, Mod.raise_kept, Mod.secResult_kept, foldl_kept, foldl_kept1, foldl_kept2, foldl_kept3, foldl_kept4, ↓apply_ite Prod.snd, implies_true]

theorem Mod.imgChecks_kept : ∀ x0 x1 x2 x3, (Mod.imgChecks x0 x1 x2 x3).2.2.kept = x0.kept := by
  intro x0 x1 x2 x3
  simp only [Mod.imgChecks, ↓kept_mk, kept_eta, ↓apply_ite Mod.kept, ite_self, Mod.loadSections_kept, Mod.imgSignature_kept, Mod.attnChecks_kept, foldl_kept, foldl_kept1, foldl_kept2, foldl_kept3, foldl_kept4, ↓apply_ite Prod.snd, implies_true]

theorem Mod.setLocks_kept : ∀ x0, (Mod.setLocks x0).kept = x0.kept := by
  intro x0
  simp only [Mod.setLocks, ↓kept_mk, kept_eta, ↓apply_ite Mod.kept, ite_self, implies_true]

theorem Mod.installImage_kept : ∀ x0 x1, (Mod.installImage x0 x1).kept = x0.kept := by
  intro x0 x1
  simp only [Mod.installImage, ↓kept_mk, kept_eta, ↓apply_ite Mod.kept, ite_self, Mod.raise_kept, Mod.setLocks_kept, implies_true]

theorem Mod.loadImage_kept : ∀ x0 x1 x2, (Mod.loadImage x0 x1 x2).2.kept = x0.kept := by
  intro x0 x1 x2
  unfold Mod.loadImage
  repeat' (first | with_reducible rfl | refine ((congrArg (fun p => p.2.2.kept) ‹Mod.imgChecks _ _ _ _ = _›).symm.trans (Mod.imgChecks_kept _ _ _ _)).trans ?_ | refine ((congrArg (fun p => p.2.kept) ‹Mod.loadBytes _ _ _ = _›).symm.trans (Mod.loadBytes_kept _ _ _)).trans ?_ | simp only [↓kept_mk, kept_eta, ↓apply_ite Mod.kept, ite_self, Mod.loadBytes_kept, Mod.imgChecks_kept, Mod.installImage_kept, foldl_kept, foldl_kept1, foldl_kept2, foldl_kept3, foldl_kept4, ↓apply_ite Prod.snd, implies_true] | split | refine (foldl_kept _ (fun m a => ?_) _ _).trans ?_ | refine (foldl_kept2 _ (fun m a => ?_) _ _).trans ?_ | refine (foldl_kept3 _ (fun m a => ?_) _ _).trans ?_ | refine (foldl_kept4 _ (fun m a => ?_) _ _).trans ?_)

end Sys2Proof.Machine
end

