-- ==== Sys2Proof/Laws/KeptThermal.lean ====
section
/-!
SUPPORT. What the functions of Machine/Thermal.lean keep (see Laws/Kept.lean).
-/
set_option linter.unusedSimpArgs false
set_option linter.unusedVariables false
namespace Sys2Proof.Machine

theorem Mod.formControl_kept : ∀ x0 x1, (Mod.formControl x0 x1).kept = x0.kept := by
  intro x0 x1
  simp only [Mod.formControl, ↓kept_mk, kept_eta, ↓apply_ite Mod.kept, ite_self, implies_true]

theorem Mod.beaconWatch_kept : ∀ x0 x1, (Mod.beaconWatch x0 x1).kept = x0.kept := by
  intro x0 x1
  simp only [Mod.beaconWatch, ↓kept_mk, kept_eta, ↓apply_ite Mod.kept, ite_self, Mod.raise_kept, implies_true]

theorem Mod.sampleSpot_kept : ∀ x0 x1 x2 x3, (Mod.sampleSpot x0 x1 x2 x3).kept = x0.kept := by
  intro x0 x1 x2 x3
  simp only [Mod.sampleSpot, ↓kept_mk, kept_eta, ↓apply_ite Mod.kept, ite_self, Mod.raise_kept, implies_true]

theorem Mod.thmDanger_kept : ∀ x0 x1, (Mod.thmDanger x0 x1).kept = x0.kept := by
  intro x0 x1
  simp only [Mod.thmDanger, ↓kept_mk, kept_eta, ↓apply_ite Mod.kept, ite_self, Mod.danger_kept, implies_true]

theorem Mod.dangerWatch_kept : ∀ x0, (Mod.dangerWatch x0).kept = x0.kept := by
  intro x0
  simp only [Mod.dangerWatch, ↓kept_mk, kept_eta, ↓apply_ite Mod.kept, ite_self, Mod.thmDanger_kept, foldl_kept, foldl_kept1, foldl_kept2, foldl_kept3, foldl_kept4, ↓apply_ite Prod.snd, implies_true]

theorem Mod.maxWatch_kept : ∀ x0, (Mod.maxWatch x0).kept = x0.kept := by
  intro x0
  simp only [Mod.maxWatch, ↓kept_mk, kept_eta, ↓apply_ite Mod.kept, ite_self, Mod.raise_kept, implies_true]

theorem Mod.hotSpots_kept : ∀ x0 x1, (Mod.hotSpots x0 x1).kept = x0.kept := by
  intro x0 x1
  simp only [Mod.hotSpots, ↓kept_mk, kept_eta, ↓apply_ite Mod.kept, ite_self, Mod.sampleSpot_kept, Mod.beaconWatch_kept, Mod.formControl_kept, Mod.repace_kept, Mod.maxWatch_kept, Mod.dangerWatch_kept, foldl_kept, foldl_kept1, foldl_kept2, foldl_kept3, foldl_kept4, ↓apply_ite Prod.snd, implies_true]

theorem Mod.layerWatch_kept : ∀ x0 x1, (Mod.layerWatch x0 x1).kept = x0.kept := by
  intro x0 x1
  simp only [Mod.layerWatch, ↓kept_mk, kept_eta, ↓apply_ite Mod.kept, ite_self, Mod.formControl_kept, Mod.raise_kept, implies_true]

theorem Mod.estimates_kept : ∀ x0, (Mod.estimates x0).kept = x0.kept := by
  intro x0
  simp only [Mod.estimates, ↓kept_mk, kept_eta, ↓apply_ite Mod.kept, ite_self, Mod.layerWatch_kept, Mod.repace_kept, Mod.beaconWatch_kept, Mod.formControl_kept, foldl_kept, foldl_kept1, foldl_kept2, foldl_kept3, foldl_kept4, ↓apply_ite Prod.snd, implies_true]

theorem Mod.sampleStack_kept : ∀ x0 x1 x2, (Mod.sampleStack x0 x1 x2).kept = x0.kept := by
  intro x0 x1 x2
  simp only [Mod.sampleStack, ↓kept_mk, kept_eta, ↓apply_ite Mod.kept, ite_self, Mod.raise_kept, implies_true]

theorem Mod.scan_kept : ∀ x0 x1, (Mod.scan x0 x1).kept = x0.kept := by
  intro x0 x1
  simp only [Mod.scan, ↓kept_mk, kept_eta, ↓apply_ite Mod.kept, ite_self, Mod.sampleStack_kept, Mod.repace_kept, Mod.selfRefresh_kept, foldl_kept, foldl_kept1, foldl_kept2, foldl_kept3, foldl_kept4, ↓apply_ite Prod.snd, implies_true]

theorem Mod.thermalWindow_kept : ∀ x0, (Mod.thermalWindow x0).kept = x0.kept := by
  intro x0
  simp only [Mod.thermalWindow, ↓kept_mk, kept_eta, ↓apply_ite Mod.kept, ite_self, Mod.repace_kept, Mod.raise_kept, implies_true]

theorem Mod.flowWatch_kept : ∀ x0, (Mod.flowWatch x0).kept = x0.kept := by
  intro x0
  simp only [Mod.flowWatch, ↓kept_mk, kept_eta, ↓apply_ite Mod.kept, ite_self, Mod.raise_kept, implies_true]

theorem Mod.coolantLost_kept : ∀ x0 x1, (Mod.coolantLost x0 x1).kept = x0.kept := by
  intro x0 x1
  simp only [Mod.coolantLost, ↓kept_mk, kept_eta, ↓apply_ite Mod.kept, ite_self, Mod.danger_kept, Mod.repace_kept, implies_true]

theorem Mod.flowSample_kept : ∀ x0 x1 x2 x3 x4, (Mod.flowSample x0 x1 x2 x3 x4).kept = x0.kept := by
  intro x0 x1 x2 x3 x4
  simp only [Mod.flowSample, ↓kept_mk, kept_eta, ↓apply_ite Mod.kept, ite_self, Mod.flowWatch_kept, Mod.coolantLost_kept, implies_true]

theorem Mod.flowAverage_kept : ∀ x0, (Mod.flowAverage x0).kept = x0.kept := by
  intro x0
  simp only [Mod.flowAverage, ↓kept_mk, kept_eta, ↓apply_ite Mod.kept, ite_self, Mod.repace_kept, Mod.raise_kept, implies_true]

theorem Mod.lowHeld_kept : ∀ x0, (Mod.lowHeld x0).kept = x0.kept := by
  intro x0
  simp only [Mod.lowHeld, ↓kept_mk, kept_eta, ↓apply_ite Mod.kept, ite_self, Mod.raise_kept, Mod.mgmtFault_kept, Mod.haltStream_kept, implies_true]

theorem Mod.coolantTemps_kept : ∀ x0 x1 x2, (Mod.coolantTemps x0 x1 x2).kept = x0.kept := by
  intro x0 x1 x2
  simp only [Mod.coolantTemps, ↓kept_mk, kept_eta, ↓apply_ite Mod.kept, ite_self, Mod.raise_kept, implies_true]

theorem Mod.lossCompare_kept : ∀ x0, (Mod.lossCompare x0).kept = x0.kept := by
  intro x0
  unfold Mod.lossCompare
  repeat' (split <;> first | with_reducible rfl | simp only [↓kept_mk, kept_eta, ↓apply_ite Mod.kept, ite_self, Mod.openHeaders_kept, foldl_kept, foldl_kept1, foldl_kept2, foldl_kept3, foldl_kept4, ↓apply_ite Prod.snd, implies_true] | skip)

end Sys2Proof.Machine
end

