-- ==== Sys2Proof/Laws/KeptBoot.lean ====
section
/-!
SUPPORT. What the functions of Machine/Boot.lean keep (see Laws/Kept.lean).
-/
set_option linter.unusedSimpArgs false
set_option linter.unusedVariables false
namespace Sys2Proof.Machine

theorem Mod.stepGo_kept : ∀ m n v g, (∀ x : Mod, (g x).kept = x.kept) → (Mod.stepGo m n v g).2.kept = m.kept := by
  intro m n v g h
  unfold Mod.stepGo
  simp only [h, ↓kept_mk, kept_eta, ↓apply_ite Mod.kept, ite_self, Mod.setStep_kept, foldl_kept, implies_true, ↓apply_ite Prod.snd]

theorem Mod.railsBegin_kept : ∀ x0, (Mod.railsBegin x0).kept = x0.kept := by
  intro x0
  simp only [Mod.railsBegin, ↓kept_mk, kept_eta, ↓apply_ite Mod.kept, ite_self, Mod.failStep_kept, implies_true]

theorem Mod.clearMetadata_kept : ∀ x0, (Mod.clearMetadata x0).kept = x0.kept := by
  intro x0
  simp only [Mod.clearMetadata, ↓kept_mk, kept_eta, ↓apply_ite Mod.kept, ite_self, implies_true]

theorem Mod.trainBegin_kept : ∀ x0, (Mod.trainBegin x0).kept = x0.kept := by
  intro x0
  simp only [Mod.trainBegin, ↓kept_mk, kept_eta, ↓apply_ite Mod.kept, ite_self, Mod.clearMetadata_kept, Mod.jnlRetrainReq_kept, implies_true]

theorem Mod.startBegin_kept : ∀ x0 x1, (Mod.startBegin x0 x1).kept = x0.kept := by
  intro x0 x1
  simp only [Mod.startBegin, ↓kept_mk, kept_eta, ↓apply_ite Mod.kept, ite_self, Mod.failStep_kept, Mod.startImage_kept, foldl_kept, foldl_kept1, foldl_kept2, foldl_kept3, foldl_kept4, ↓apply_ite Prod.snd, implies_true]

theorem Mod.go_kept : ∀ x0 x1 x2 x3, (Mod.go x0 x1 x2 x3).2.kept = x0.kept := by
  intro x0 x1 x2 x3
  simp only [Mod.go, ↓kept_mk, kept_eta, ↓apply_ite Mod.kept, ite_self, Mod.stepGo_kept, Mod.railsBegin_kept, Mod.trainBegin_kept, Mod.startBegin_kept, foldl_kept, foldl_kept1, foldl_kept2, foldl_kept3, foldl_kept4, ↓apply_ite Prod.snd, implies_true]

theorem Mod.trainEnd_kept : ∀ x0 x1, (Mod.trainEnd x0 x1).kept = x0.kept := by
  intro x0 x1
  simp only [Mod.trainEnd, ↓kept_mk, kept_eta, ↓apply_ite Mod.kept, ite_self, Mod.calibrateAll_kept, Mod.dataFault_kept, Mod.failStep_kept, Mod.jnlFailed_kept, Mod.endStep_kept, foldl_kept, foldl_kept1, foldl_kept2, foldl_kept3, foldl_kept4, ↓apply_ite Prod.snd, implies_true]

theorem Mod.bandFailed_kept : ∀ x0 x1, (Mod.bandFailed x0 x1).kept = x0.kept := by
  intro x0 x1
  simp only [Mod.bandFailed, ↓kept_mk, kept_eta, ↓apply_ite Mod.kept, ite_self, Mod.mgmtFault_kept, Mod.openHeaders_kept, implies_true]

theorem Mod.bringBands_kept : ∀ x0 x1 x2, (Mod.bringBands x0 x1 x2).2.kept = x0.kept := by
  intro x0 x1 x2
  induction x1 generalizing x0 x2 with
  | nil =>
    unfold Mod.bringBands
    first | rfl | simp only [↓kept_mk, kept_eta, ↓apply_ite Mod.kept, ite_self, Mod.bandFailed_kept, Mod.setBand_kept, foldl_kept, foldl_kept1, foldl_kept2, foldl_kept3, foldl_kept4, ↓apply_ite Prod.snd, implies_true]
  | cons a t ih =>
    unfold Mod.bringBands
    (try simp only [ih, ↓kept_mk, kept_eta, ↓apply_ite Mod.kept, ite_self, Mod.bandFailed_kept, Mod.setBand_kept, foldl_kept, foldl_kept1, foldl_kept2, foldl_kept3, foldl_kept4, ↓apply_ite Prod.snd, implies_true])
    repeat' (split <;> first | with_reducible rfl | simp only [ih, ↓kept_mk, kept_eta, ↓apply_ite Mod.kept, ite_self, Mod.bandFailed_kept, Mod.setBand_kept, foldl_kept, foldl_kept1, foldl_kept2, foldl_kept3, foldl_kept4, ↓apply_ite Prod.snd, implies_true] | skip)

theorem Mod.headersEnd_kept : ∀ x0 x1, (Mod.headersEnd x0 x1).kept = x0.kept := by
  intro x0 x1
  simp only [Mod.headersEnd, ↓kept_mk, kept_eta, ↓apply_ite Mod.kept, ite_self, Mod.bringBands_kept, Mod.endStep_kept, Mod.failStep_kept, implies_true]

theorem Mod.firmwareEnd_kept : ∀ x0 x1, (Mod.firmwareEnd x0 x1).kept = x0.kept := by
  intro x0 x1
  unfold Mod.firmwareEnd
  repeat' (first | with_reducible rfl | refine ((congrArg (fun p => p.2.kept) ‹Mod.readPackage _ _ = _›).symm.trans (Mod.readPackage_kept _ _)).trans ?_ | simp only [↓kept_mk, kept_eta, ↓apply_ite Mod.kept, ite_self, Mod.readPackage_kept, Mod.failStep_kept, Mod.verified_kept, Mod.endStep_kept, Mod.setLocks_kept, implies_true] | split | refine (foldl_kept _ (fun m a => ?_) _ _).trans ?_ | refine (foldl_kept2 _ (fun m a => ?_) _ _).trans ?_ | refine (foldl_kept3 _ (fun m a => ?_) _ _).trans ?_ | refine (foldl_kept4 _ (fun m a => ?_) _ _).trans ?_)

theorem Mod.emptyRicks_kept : ∀ x0, (Mod.emptyRicks x0).kept = x0.kept := by
  intro x0
  simp only [Mod.emptyRicks, ↓kept_mk, kept_eta, ↓apply_ite Mod.kept, ite_self, Mod.onRick_kept, foldl_kept, foldl_kept1, foldl_kept2, foldl_kept3, foldl_kept4, ↓apply_ite Prod.snd, implies_true]

theorem Mod.unsowTested_kept : ∀ x0, (Mod.unsowTested x0).kept = x0.kept := by
  intro x0
  simp only [Mod.unsowTested, ↓kept_mk, kept_eta, ↓apply_ite Mod.kept, ite_self, Mod.onStacks_kept, foldl_kept, foldl_kept1, foldl_kept2, foldl_kept3, foldl_kept4, ↓apply_ite Prod.snd, implies_true]

theorem Mod.selfTestEnd_kept : ∀ x0 x1, (Mod.selfTestEnd x0 x1).kept = x0.kept := by
  intro x0 x1
  simp only [Mod.selfTestEnd, ↓kept_mk, kept_eta, ↓apply_ite Mod.kept, ite_self, Mod.unsowTested_kept, Mod.emptyRicks_kept, Mod.raise_kept, Mod.dataFault_kept, Mod.endStep_kept, Mod.failStep_kept, foldl_kept, foldl_kept1, foldl_kept2, foldl_kept3, foldl_kept4, ↓apply_ite Prod.snd, implies_true]

theorem Mod.imageEnd_kept : ∀ x0 x1 x2, (Mod.imageEnd x0 x1 x2).kept = x0.kept := by
  intro x0 x1 x2
  simp only [Mod.imageEnd, ↓kept_mk, kept_eta, ↓apply_ite Mod.kept, ite_self, Mod.loadImage_kept, Mod.endStep_kept, Mod.failStep_kept, implies_true]

theorem Mod.stepCompletion_kept : ∀ x0 x1, (Mod.stepCompletion x0 x1).kept = x0.kept := by
  intro x0 x1
  unfold Mod.stepCompletion
  repeat' (split <;> first | with_reducible rfl | simp only [↓kept_mk, kept_eta, ↓apply_ite Mod.kept, ite_self, Mod.failStep_kept, Mod.endStep_kept, Mod.trainEnd_kept, Mod.headersEnd_kept, Mod.firmwareEnd_kept, Mod.selfTestEnd_kept, Mod.imageEnd_kept, implies_true] | skip)

theorem Mod.stepTimeout_kept : ∀ x0, (Mod.stepTimeout x0).kept = x0.kept := by
  intro x0
  simp only [Mod.stepTimeout, ↓kept_mk, kept_eta, ↓apply_ite Mod.kept, ite_self, Mod.failStep_kept, implies_true]

theorem Mod.runSlot'_kept : ∀ x0 x1, (Mod.runSlot' x0 x1).kept = x0.kept := by
  intro x0 x1
  simp only [Mod.runSlot', ↓kept_mk, kept_eta, ↓apply_ite Mod.kept, ite_self, implies_true]

theorem Mod.bootFirmware_kept : ∀ x0, (Mod.bootFirmware x0).kept = x0.kept := by
  intro x0
  simp only [Mod.bootFirmware, ↓kept_mk, kept_eta, ↓apply_ite Mod.kept, ite_self, Mod.runSlot'_kept, Mod.secResult_kept, Mod.raise_kept, Mod.mgmtFault_kept, implies_true]

theorem Mod.bootMessage_kept : ∀ x0, (Mod.bootMessage x0).kept = x0.kept := by
  intro x0
  simp only [Mod.bootMessage, ↓kept_mk, kept_eta, ↓apply_ite Mod.kept, ite_self, Mod.sendFrame_kept, implies_true]

theorem Mod.announce_kept : ∀ x0, (Mod.announce x0).kept = x0.kept := by
  intro x0
  simp only [Mod.announce, ↓kept_mk, kept_eta, ↓apply_ite Mod.kept, ite_self, Mod.bootMessage_kept, Mod.raise_kept, implies_true]

theorem Mod.checkPlan_kept : ∀ x0, (Mod.checkPlan x0).kept = x0.kept := by
  intro x0
  simp only [Mod.checkPlan, ↓kept_mk, kept_eta, ↓apply_ite Mod.kept, ite_self, Mod.raise_kept, Mod.mgmtFault_kept, implies_true]

/-- The part after a reset that keeps the fuses. -/
def restKept (f : Fuses) (trims : Map Nat) : Kept := ⟨f, trims, 160#8, 3000#16, none, 1#8, 60#8, 1#16, 4096⟩

theorem restKept_follows (k : Kept) : k.Follows (restKept k.fuses k.trims) where
  fuses := fusesBurned_refl _
  trims _ := Nat.le_refl _
  inRange h :=
    have p : 35 ≤ (160#8).toNat ∧ (160#8).toNat ≤ 160 := by decide
    have c : 650 ≤ (3000#16).toNat ∧ (3000#16).toNat ≤ 3000 := by decide
    have e : (1#8).toNat ≤ 1 := by decide
    have r : 10 ≤ (60#8).toNat ∧ (60#8).toNat ≤ 200 := by decide
    have i : 1 ≤ (1#16).toNat ∧ (1#16).toNat ≤ 3600 := by decide
    have x : 4096 % 64 = 0 ∧ 64 ≤ 4096 ∧ 4096 ≤ 4096 := by decide
    ⟨p, c, (fun _ e => by cases e), h.4, e, r, i, x⟩

theorem afterReset_kept (fuses now can cairn sec trims mm bootMs clock) :
    (Mod.afterReset fuses now can cairn sec trims mm bootMs clock).kept = restKept fuses trims := Eq.refl _

theorem Mod.freshAfter_follows : ∀ m : Mod, m.kept.Follows (Mod.freshAfter m).kept := by
  intro m
  have h : (Mod.freshAfter m).kept = restKept m.kept.fuses m.kept.trims := Eq.refl _
  rw [h]
  exact restKept_follows _

theorem Mod.fullResetNow_follows : ∀ x0, (Mod.kept x0).Follows (Mod.fullResetNow x0).kept := by
  intro x0
  unfold Mod.fullResetNow
  repeat' (first | with_reducible exact follows_refl _ | simp only [↓kept_mk, kept_eta, ↓apply_ite Mod.kept, ite_self, Mod.bootFirmware_kept, Mod.checkPlan_kept, foldl_kept, foldl_kept2, ↓apply_ite Prod.snd, implies_true] | split | refine follows_trans (Mod.freshAfter_follows _) ?_ | refine follows_trans (foldl_follows _ (fun m a => ?_) _ _) ?_)

theorem Mod.bootUp_follows : ∀ (m : Mod) a b c, m.kept.Follows (Mod.bootUp m a b c).kept := by
  intro m a b c
  unfold Mod.bootUp
  split
  · split
    · simp only [↓kept_mk, kept_eta, ↓apply_ite Mod.kept, ite_self, Mod.bootFirmware_kept, Mod.mcSignal_kept, Mod.emcy_kept, Mod.announce_kept, Mod.checkPlan_kept, Mod.cairnPowerUp_kept, Mod.raise_kept, foldl_kept, implies_true]; exact follows_refl _
    · exact follows_refl _
  · extract_lets node ck clock n cn bt hd jn m1 m2 m3
    have h1 : m1.kept = restKept m.kept.fuses m.kept.trims := Eq.refl _
    have h2 : m2.kept = m1.kept := by simp only [m2, ↓kept_mk, kept_eta, ↓apply_ite Mod.kept, ite_self, Mod.bootFirmware_kept, Mod.mcSignal_kept, Mod.emcy_kept, Mod.announce_kept, Mod.checkPlan_kept, Mod.cairnPowerUp_kept, Mod.raise_kept, foldl_kept, implies_true]
    clear_value m2 m1
    have h3 : (m3.announce).kept = m2.kept := by simp only [m3, ↓kept_mk, kept_eta, ↓apply_ite Mod.kept, ite_self, Mod.bootFirmware_kept, Mod.mcSignal_kept, Mod.emcy_kept, Mod.announce_kept, Mod.checkPlan_kept, Mod.cairnPowerUp_kept, Mod.raise_kept, foldl_kept, implies_true]
    rw [h3, h2, h1]
    exact restKept_follows _

theorem Mod.powerLost_follows : ∀ m : Mod, m.kept.Follows (Mod.powerLost m).kept := by
  intro m
  have h : (Mod.powerLost m).kept = restKept (m.cairnWrite true).kept.fuses (m.cairnWrite true).kept.trims := Eq.refl _
  rw [h, Mod.cairnWrite_kept]
  exact restKept_follows _

theorem Mod.saveCells_kept : ∀ x0 x1, (Mod.saveCells x0 x1).kept = x0.kept := by
  intro x0 x1
  simp only [Mod.saveCells, ↓kept_mk, kept_eta, ↓apply_ite Mod.kept, ite_self, Mod.runCtx_kept, Mod.runDrain_kept, foldl_kept, foldl_kept1, foldl_kept2, foldl_kept3, foldl_kept4, ↓apply_ite Prod.snd, implies_true]

theorem Mod.clearStream_kept : ∀ x0, (Mod.clearStream x0).kept = x0.kept := by
  intro x0
  simp only [Mod.clearStream, ↓kept_mk, kept_eta, ↓apply_ite Mod.kept, ite_self, Mod.haltStream_kept, Mod.mapCells_kept, Mod.settleFences_kept, implies_true]

theorem Mod.resetDies_kept : ∀ x0 x1, (Mod.resetDies x0 x1).kept = x0.kept := by
  intro x0 x1
  simp only [Mod.resetDies, ↓kept_mk, kept_eta, ↓apply_ite Mod.kept, ite_self, Mod.mapCells_kept, Mod.glnLoseCompletions_kept, implies_true]

theorem Mod.computeReset_kept : ∀ x0 x1 x2, (Mod.computeReset x0 x1 x2).kept = x0.kept := by
  intro x0 x1 x2
  simp only [Mod.computeReset, ↓kept_mk, kept_eta, ↓apply_ite Mod.kept, ite_self, Mod.saveCells_kept, Mod.haltStream_kept, Mod.leaSignal_kept, Mod.resetDies_kept, Mod.clearStream_kept, Mod.emptyRicks_kept, implies_true]

theorem Mod.restartCores_kept : ∀ x0 x1, (Mod.restartCores x0 x1).kept = x0.kept := by
  intro x0 x1
  simp only [Mod.restartCores, ↓kept_mk, kept_eta, ↓apply_ite Mod.kept, ite_self, Mod.postSubs_kept, foldl_kept, foldl_kept1, foldl_kept2, foldl_kept3, foldl_kept4, ↓apply_ite Prod.snd, implies_true]

theorem Mod.disableQueues_kept : ∀ x0, (Mod.disableQueues x0).kept = x0.kept := by
  intro x0
  simp only [Mod.disableQueues, ↓kept_mk, kept_eta, ↓apply_ite Mod.kept, ite_self, Mod.abortXfers_kept, implies_true]

theorem Mod.disableBeqs_kept : ∀ x0, (Mod.disableBeqs x0).kept = x0.kept := by
  intro x0
  simp only [Mod.disableBeqs, ↓kept_mk, kept_eta, ↓apply_ite Mod.kept, ite_self, Mod.beSettle_kept, foldl_kept, foldl_kept1, foldl_kept2, foldl_kept3, foldl_kept4, ↓apply_ite Prod.snd, implies_true]

theorem Mod.lowerReset_kept : ∀ x0, (Mod.lowerReset x0).kept = x0.kept := by
  intro x0
  simp only [Mod.lowerReset, ↓kept_mk, kept_eta, ↓apply_ite Mod.kept, ite_self, Mod.leaSignal_kept, Mod.dropTransfers_kept, Mod.clearStream_kept, implies_true]

theorem Mod.quiesceTimeout_kept : ∀ x0, (Mod.quiesceTimeout x0).kept = x0.kept := by
  intro x0
  simp only [Mod.quiesceTimeout, ↓kept_mk, kept_eta, ↓apply_ite Mod.kept, ite_self, Mod.abortXfers_kept, implies_true]

theorem Mod.lowerResetEnd_kept : ∀ x0 x1, (Mod.lowerResetEnd x0 x1).kept = x0.kept := by
  intro x0 x1
  simp only [Mod.lowerResetEnd, ↓kept_mk, kept_eta, ↓apply_ite Mod.kept, ite_self, Mod.calibrateAll_kept, Mod.emptyRicks_kept, Mod.disableBeqs_kept, Mod.disableQueues_kept, Mod.restartCores_kept, Mod.resetDies_kept, implies_true]

theorem Mod.partialReset_kept : ∀ x0, (Mod.partialReset x0).2.kept = x0.kept := by
  intro x0
  simp only [Mod.partialReset, ↓kept_mk, kept_eta, ↓apply_ite Mod.kept, ite_self, Mod.postSubs_kept, Mod.clearFault_kept, Mod.portRetrainReq_kept, Mod.jnlRetrainReq_kept, foldl_kept, foldl_kept1, foldl_kept2, foldl_kept3, foldl_kept4, ↓apply_ite Prod.snd, implies_true]

theorem Mod.resetEnds_kept : ∀ x0 x1, (Mod.resetEnds x0 x1).kept = x0.kept := by
  intro x0 x1
  unfold Mod.resetEnds
  repeat' (split <;> first | with_reducible rfl | simp only [↓kept_mk, kept_eta, ↓apply_ite Mod.kept, ite_self, Mod.raise_kept, implies_true] | skip)

theorem Mod.resetBegin_follows : ∀ x0 x1 x2, (Mod.kept x0).Follows (Mod.resetBegin x0 x1 x2).kept := by
  intro x0 x1 x2
  unfold Mod.resetBegin
  repeat' (first | with_reducible exact follows_refl _ | simp only [↓kept_mk, kept_eta, ↓apply_ite Mod.kept, ite_self, Mod.failStep_kept, Mod.computeReset_kept, Mod.lowerReset_kept, Mod.partialReset_kept, foldl_kept, foldl_kept2, ↓apply_ite Prod.snd, implies_true] | split | refine follows_trans (Mod.fullResetNow_follows _) ?_ | refine follows_trans (foldl_follows _ (fun m a => ?_) _ _) ?_)

theorem Mod.resetCmd_follows : ∀ x0 x1, (Mod.kept x0).Follows (Mod.resetCmd x0 x1).2.kept := by
  intro x0 x1
  unfold Mod.resetCmd
  repeat' (first | with_reducible exact follows_refl _ | simp only [↓kept_mk, kept_eta, ↓apply_ite Mod.kept, ite_self, Mod.resetEnds_kept, foldl_kept, foldl_kept2, ↓apply_ite Prod.snd, implies_true] | split | refine follows_trans (Mod.resetBegin_follows _ _ _) ?_ | refine follows_trans (foldl_follows _ (fun m a => ?_) _ _) ?_)

theorem Mod.resetCompletion_kept : ∀ x0 x1, (Mod.resetCompletion x0 x1).kept = x0.kept := by
  intro x0 x1
  unfold Mod.resetCompletion
  repeat' (split <;> first | with_reducible rfl | simp only [↓kept_mk, kept_eta, ↓apply_ite Mod.kept, ite_self, Mod.restartCores_kept, Mod.tryRelease_kept, Mod.lowerResetEnd_kept, Mod.leaveSafe_kept, Mod.resetEnds_kept, implies_true] | skip)

theorem Mod.resetPin_follows : ∀ x0, (Mod.kept x0).Follows (Mod.resetPin x0).kept := by
  intro x0
  unfold Mod.resetPin
  repeat' (first | with_reducible exact follows_refl _ | simp only [↓kept_mk, kept_eta, ↓apply_ite Mod.kept, ite_self, Mod.resetEnds_kept, foldl_kept, foldl_kept2, ↓apply_ite Prod.snd, implies_true] | split | refine follows_trans (Mod.resetBegin_follows _ _ _) ?_ | refine follows_trans (foldl_follows _ (fun m a => ?_) _ _) ?_)

theorem Mod.resetPinHigh_kept : ∀ x0, (Mod.resetPinHigh x0).kept = x0.kept := by
  intro x0
  simp only [Mod.resetPinHigh, ↓kept_mk, kept_eta, ↓apply_ite Mod.kept, ite_self, implies_true]

theorem Mod.mcWatchdog_kept : ∀ x0, (Mod.mcWatchdog x0).kept = x0.kept := by
  intro x0
  simp only [Mod.mcWatchdog, ↓kept_mk, kept_eta, ↓apply_ite Mod.kept, ite_self, Mod.raise_kept, Mod.resetEnds_kept, Mod.failStep_kept, Mod.enterSafe_kept, Mod.endSession_kept, implies_true]

theorem Mod.fwVerified_follows : ∀ x0, (Mod.kept x0).Follows (Mod.fwVerified x0).kept := by
  intro x0
  unfold Mod.fwVerified
  repeat' (first | with_reducible exact follows_refl _ | simp only [↓kept_mk, kept_eta, ↓apply_ite Mod.kept, ite_self, Mod.commitVerified_kept, Mod.runSlot'_kept, Mod.secResult_kept, Mod.checkPlan_kept, Mod.announce_kept, Mod.leaveSafe_kept, foldl_kept, foldl_kept2, ↓apply_ite Prod.snd, implies_true] | split | refine follows_trans (Mod.freshAfter_follows _) ?_ | refine follows_trans (foldl_follows _ (fun m a => ?_) _ _) ?_)

end Sys2Proof.Machine
end

