-- ==== Sys2Proof/Laws/KeptRegs.lean ====
section
/-!
SUPPORT. What the functions of Machine/Regs.lean keep (see Laws/Kept.lean).
-/
set_option linter.unusedSimpArgs false
set_option linter.unusedVariables false
namespace Sys2Proof.Machine

theorem Mod.writeDmaReg_kept : ∀ x0 x1 x2 x3 x4 y, Mod.writeDmaReg x0 x1 x2 x3 x4 = some y → y.kept = x0.kept := by
  intro x0 x1 x2 x3 x4 y h
  unfold Mod.writeDmaReg at h
  (try simp only [] at h)
  repeat' split at h
  all_goals first | (cases h; done) | (cases h; first | rfl | simp only [↓kept_mk, kept_eta, ↓apply_ite Mod.kept, ite_self, Mod.dmaqCtrl_kept, Mod.setDmaq_kept, Mod.dmaqHead_kept, foldl_kept, foldl_kept1, foldl_kept2, foldl_kept3, foldl_kept4, ↓apply_ite Prod.snd, implies_true])

theorem Mod.writeDmaReg_getD : ∀ x0 x1 x2 x3 x4 y, y.kept = x0.kept → ((Mod.writeDmaReg x0 x1 x2 x3 x4).getD y).kept = x0.kept := by
  intro x0 x1 x2 x3 x4 y h
  cases e : Mod.writeDmaReg x0 x1 x2 x3 x4 with
  | none => exact h
  | some z => exact Mod.writeDmaReg_kept x0 x1 x2 x3 x4 z e

theorem Mod.beqHead_kept : ∀ x0 x1 x2, (Mod.beqHead x0 x1 x2).kept = x0.kept := by
  intro x0 x1 x2
  simp only [Mod.beqHead, ↓kept_mk, kept_eta, ↓apply_ite Mod.kept, ite_self, Mod.beqPump_kept, Mod.setBeq_kept, implies_true]

theorem Mod.beqCtrl_kept : ∀ x0 x1 x2, (Mod.beqCtrl x0 x1 x2).kept = x0.kept := by
  intro x0 x1 x2
  simp only [Mod.beqCtrl, ↓kept_mk, kept_eta, ↓apply_ite Mod.kept, ite_self, Mod.beqPump_kept, Mod.setBeq_kept, implies_true]

theorem Mod.writeBeReg_kept : ∀ x0 x1 x2 x3 y, Mod.writeBeReg x0 x1 x2 x3 = some y → y.kept = x0.kept := by
  intro x0 x1 x2 x3 y h
  unfold Mod.writeBeReg at h
  (try simp only [] at h)
  repeat' split at h
  all_goals first | (cases h; done) | (cases h; first | rfl | simp only [↓kept_mk, kept_eta, ↓apply_ite Mod.kept, ite_self, Mod.beqCtrl_kept, Mod.setBeq_kept, Mod.beqHead_kept, foldl_kept, foldl_kept1, foldl_kept2, foldl_kept3, foldl_kept4, ↓apply_ite Prod.snd, implies_true])

theorem Mod.writeBeReg_getD : ∀ x0 x1 x2 x3 y, y.kept = x0.kept → ((Mod.writeBeReg x0 x1 x2 x3).getD y).kept = x0.kept := by
  intro x0 x1 x2 x3 y h
  cases e : Mod.writeBeReg x0 x1 x2 x3 with
  | none => exact h
  | some z => exact Mod.writeBeReg_kept x0 x1 x2 x3 z e

theorem Mod.rickCmd_kept : ∀ x0 x1 x2 x3 x4, (Mod.rickCmd x0 x1 x2 x3 x4).kept = x0.kept := by
  intro x0 x1 x2 x3 x4
  simp only [Mod.rickCmd, ↓kept_mk, kept_eta, ↓apply_ite Mod.kept, ite_self, Mod.onRick_kept, foldl_kept, foldl_kept1, foldl_kept2, foldl_kept3, foldl_kept4, ↓apply_ite Prod.snd, implies_true]

theorem Mod.onSlice_kept : ∀ x0 x1 x2, (Mod.onSlice x0 x1 x2).kept = x0.kept := by
  intro x0 x1 x2
  simp only [Mod.onSlice, ↓kept_mk, kept_eta, ↓apply_ite Mod.kept, ite_self, implies_true]

theorem Mod.writeRickReg_kept : ∀ x0 x1 x2 x3 x4 y, Mod.writeRickReg x0 x1 x2 x3 x4 = some y → y.kept = x0.kept := by
  intro x0 x1 x2 x3 x4 y h
  unfold Mod.writeRickReg at h
  (try simp only [] at h)
  repeat' split at h
  all_goals first | (cases h; done) | (cases h; first | rfl | simp only [↓kept_mk, kept_eta, ↓apply_ite Mod.kept, ite_self, Mod.rickCmd_kept, Mod.onSlice_kept, foldl_kept, foldl_kept1, foldl_kept2, foldl_kept3, foldl_kept4, ↓apply_ite Prod.snd, implies_true])

theorem Mod.writeRickReg_getD : ∀ x0 x1 x2 x3 x4 y, y.kept = x0.kept → ((Mod.writeRickReg x0 x1 x2 x3 x4).getD y).kept = x0.kept := by
  intro x0 x1 x2 x3 x4 y h
  cases e : Mod.writeRickReg x0 x1 x2 x3 x4 with
  | none => exact h
  | some z => exact Mod.writeRickReg_kept x0 x1 x2 x3 x4 z e

theorem Mod.glnCtrlFields_kept : ∀ x0 x1 x2, (Mod.glnCtrlFields x0 x1 x2).kept = x0.kept := by
  intro x0 x1 x2
  simp only [Mod.glnCtrlFields, ↓kept_mk, kept_eta, ↓apply_ite Mod.kept, ite_self, Mod.rejectGln_kept, Mod.setGln_kept, implies_true]

theorem Mod.glnCtrlAbort_kept : ∀ x0 x1 x2, (Mod.glnCtrlAbort x0 x1 x2).kept = x0.kept := by
  intro x0 x1 x2
  simp only [Mod.glnCtrlAbort, ↓kept_mk, kept_eta, ↓apply_ite Mod.kept, ite_self, Mod.glnAbort_kept, Mod.glnCtrlFields_kept, foldl_kept, foldl_kept1, foldl_kept2, foldl_kept3, foldl_kept4, ↓apply_ite Prod.snd, implies_true]

theorem Mod.glnCtrl_kept : ∀ x0 x1 x2, (Mod.glnCtrl x0 x1 x2).kept = x0.kept := by
  intro x0 x1 x2
  simp only [Mod.glnCtrl, ↓kept_mk, kept_eta, ↓apply_ite Mod.kept, ite_self, Mod.glnGo_kept, Mod.glnCtrlAbort_kept, Mod.glnCtrlFields_kept, foldl_kept, foldl_kept1, foldl_kept2, foldl_kept3, foldl_kept4, ↓apply_ite Prod.snd, implies_true]

theorem Mod.writeGlnArea_kept : ∀ x0 x1 x2 x3 y, Mod.writeGlnArea x0 x1 x2 x3 = some y → y.kept = x0.kept := by
  intro x0 x1 x2 x3 y h
  unfold Mod.writeGlnArea at h
  (try simp only [] at h)
  repeat' split at h
  all_goals first | (cases h; done) | (cases h; first | rfl | simp only [↓kept_mk, kept_eta, ↓apply_ite Mod.kept, ite_self, Mod.writeGlnReg_kept, Mod.glnCtrl_kept, Mod.glnCtrlFields_kept, foldl_kept, foldl_kept1, foldl_kept2, foldl_kept3, foldl_kept4, ↓apply_ite Prod.snd, implies_true])

theorem Mod.writeGlnArea_getD : ∀ x0 x1 x2 x3 y, y.kept = x0.kept → ((Mod.writeGlnArea x0 x1 x2 x3).getD y).kept = x0.kept := by
  intro x0 x1 x2 x3 y h
  cases e : Mod.writeGlnArea x0 x1 x2 x3 with
  | none => exact h
  | some z => exact Mod.writeGlnArea_kept x0 x1 x2 x3 z e

theorem Mod.writeStores_kept : ∀ x0 x1 x2 x3, (Mod.writeStores x0 x1 x2 x3).kept = x0.kept := by
  intro x0 x1 x2 x3
  simp only [Mod.writeStores, ↓kept_mk, kept_eta, ↓apply_ite Mod.kept, ite_self, Mod.writeStore_kept, Mod.rejectGln_kept, foldl_kept, foldl_kept1, foldl_kept2, foldl_kept3, foldl_kept4, ↓apply_ite Prod.snd, implies_true]

theorem Mod.writeBroadcast_kept : ∀ x0 x1 x2 y, Mod.writeBroadcast x0 x1 x2 = some y → y.kept = x0.kept := by
  intro x0 x1 x2 y h
  unfold Mod.writeBroadcast at h
  (try simp only [] at h)
  repeat' split at h
  all_goals first | exact Mod.writeGlnArea_kept _ _ _ _ _ h | (cases h; done) | (obtain rfl := Option.some.inj h; repeat' (first | with_reducible rfl | simp only [↓kept_mk, kept_eta, ↓apply_ite Mod.kept, ite_self, Mod.writeStores_kept, Mod.writeGlnArea_getD, foldl_kept, foldl_kept1, foldl_kept2, foldl_kept3, foldl_kept4, ↓apply_ite Prod.snd, implies_true] | split | refine (foldl_kept _ (fun m a => ?_) _ _).trans ?_))

theorem Mod.writeBroadcast_getD : ∀ x0 x1 x2 y, y.kept = x0.kept → ((Mod.writeBroadcast x0 x1 x2).getD y).kept = x0.kept := by
  intro x0 x1 x2 y h
  cases e : Mod.writeBroadcast x0 x1 x2 with
  | none => exact h
  | some z => exact Mod.writeBroadcast_kept x0 x1 x2 z e

theorem Mod.seqWriteAll_kept : ∀ x0 x1 x2 x3 x4, (Mod.seqWriteAll x0 x1 x2 x3 x4).kept = x1.kept := by
  intro x0 x1 x2 x3 x4
  induction x0 generalizing x1 x2 x3 x4 with
  | zero =>
    unfold Mod.seqWriteAll
    first | rfl | simp only [↓kept_mk, kept_eta, ↓apply_ite Mod.kept, ite_self, Mod.seqWriteIn_kept, implies_true]
  | succ n ih =>
    unfold Mod.seqWriteAll
    (try simp only [ih, ↓kept_mk, kept_eta, ↓apply_ite Mod.kept, ite_self, Mod.seqWriteIn_kept, implies_true])
    repeat' (split <;> first | with_reducible rfl | simp only [ih, ↓kept_mk, kept_eta, ↓apply_ite Mod.kept, ite_self, Mod.seqWriteIn_kept, implies_true] | skip)

theorem Mod.writeFence_some : ∀ m off bs y, Mod.writeFence m off bs = some y → y.kept = m.kept := by
  intro m off bs y h
  unfold Mod.writeFence at h
  generalize off / 8 * 8 = k at h
  split at h
  · rw [← Option.some.inj h, apply_ite Mod.kept]
    simp only [↓kept_mk, kept_eta, ↓apply_ite Mod.kept, ite_self, Mod.settleFences_kept, Mod.fenceWrite_kept, foldl_kept, implies_true]
  · rw [← Option.some.inj h]
  · cases h

theorem Mod.writeFence_kept : ∀ m off bs y, Mod.writeFence m off bs = some y → y.kept = m.kept := Mod.writeFence_some

theorem Mod.regWrite_kept : ∀ x0 x1 x2 x3 x4 y, Mod.regWrite x0 x1 x2 x3 x4 = some y → y.kept = x0.kept := by
  intro x0 x1 x2 x3 x4 y h
  unfold Mod.regWrite at h
  (try simp only [] at h)
  repeat' split at h
  all_goals first | exact Mod.writeRickReg_kept _ _ _ _ _ _ h | exact Mod.writeDmaReg_kept _ _ _ _ _ _ h | exact Mod.writeFence_kept _ _ _ _ h | exact Mod.writeGlnArea_kept _ _ _ _ _ h | exact Mod.writeBeReg_kept _ _ _ _ _ h | exact Mod.writeBroadcast_kept _ _ _ _ h | (cases h; done) | (obtain rfl := Option.some.inj h; repeat' (first | with_reducible rfl | simp only [↓kept_mk, kept_eta, ↓apply_ite Mod.kept, ite_self, Mod.seqWriteAll_kept, Mod.writeStores_kept, Mod.writeRickReg_getD, Mod.writeDmaReg_getD, Mod.writeFence_kept, Mod.writeGlnArea_getD, Mod.writeBeReg_getD, Mod.writeBroadcast_getD, foldl_kept, foldl_kept1, foldl_kept2, foldl_kept3, foldl_kept4, ↓apply_ite Prod.snd, implies_true] | split | refine (foldl_kept _ (fun m a => ?_) _ _).trans ?_))

theorem Mod.regWrite_getD : ∀ x0 x1 x2 x3 x4 y, y.kept = x0.kept → ((Mod.regWrite x0 x1 x2 x3 x4).getD y).kept = x0.kept := by
  intro x0 x1 x2 x3 x4 y h
  cases e : Mod.regWrite x0 x1 x2 x3 x4 with
  | none => exact h
  | some z => exact Mod.regWrite_kept x0 x1 x2 x3 x4 z e

theorem Mod.regStore_kept : ∀ x0 x1 x2 x3 x4, (Mod.regStore x0 x1 x2 x3 x4).kept = x0.kept := by
  intro x0 x1 x2 x3 x4
  simp only [Mod.regStore, ↓kept_mk, kept_eta, ↓apply_ite Mod.kept, ite_self, Mod.regWrite_getD, Mod.countDiscard_kept, implies_true]

end Sys2Proof.Machine
end

