-- ==== Sys2Proof/Laws/KeptObjects.lean ====
section
/-!
SUPPORT. What the functions of Machine/Objects.lean keep (see Laws/Kept.lean).
-/
set_option linter.unusedSimpArgs false
set_option linter.unusedVariables false
namespace Sys2Proof.Machine

theorem Mod.setTpdo_kept : ∀ x0 x1 x2, (Mod.setTpdo x0 x1 x2).kept = x0.kept := by
  intro x0 x1 x2
  simp only [Mod.setTpdo, ↓kept_mk, kept_eta, ↓apply_ite Mod.kept, ite_self, implies_true]

end Sys2Proof.Machine
end

