-- ==== Sys2Proof/Laws/KeptDictionary.lean ====
section
/-!
SUPPORT. What the functions of Machine/Dictionary.lean keep (see Laws/Kept.lean).
-/
set_option linter.unusedSimpArgs false
set_option linter.unusedVariables false
namespace Sys2Proof.Machine

theorem inRange_follows (lo hi v m k) (h : lo ≤ v → v ≤ hi → (Mod.kept m).Follows (Mod.kept k.2)) :
    (Mod.kept m).Follows (Mod.kept (inRange lo hi v m k).2) := by
  unfold inRange
  split
  · exact follows_refl _
  · split
    · exact follows_refl _
    · exact h (by omega) (by omega)

theorem inRange_kept (lo hi v m k) (h : (Mod.kept k.2) = m.kept) : (Mod.kept (inRange lo hi v m k).2) = m.kept := by
  unfold inRange
  simp only [↓apply_ite Prod.snd, ↓apply_ite Mod.kept, h, ite_self]

theorem onlyOne_follows (v m k) (h : (Mod.kept m).Follows (Mod.kept k.2)) :
    (Mod.kept m).Follows (Mod.kept (onlyOne v m k).2) := by
  unfold onlyOne
  split
  · exact h
  · exact follows_refl _

theorem onlyOne_kept (v m k) (h : (Mod.kept k.2) = m.kept) : (Mod.kept (onlyOne v m k).2) = m.kept := by
  unfold onlyOne
  simp only [↓apply_ite Prod.snd, ↓apply_ite Mod.kept, h, ite_self]

theorem Mod.setMapCount_kept : ∀ x0 x1 x2, (Mod.setMapCount x0 x1 x2).2.kept = x0.kept := by
  intro x0 x1 x2
  simp only [Mod.setMapCount, ↓kept_mk, kept_eta, ↓apply_ite Mod.kept, ite_self, Mod.setTpdo_kept, foldl_kept, foldl_kept1, foldl_kept2, foldl_kept3, foldl_kept4, ↓apply_ite Prod.snd, implies_true]

theorem Mod.setMapEntry_kept : ∀ x0 x1 x2 x3, (Mod.setMapEntry x0 x1 x2 x3).2.kept = x0.kept := by
  intro x0 x1 x2 x3
  simp only [Mod.setMapEntry, ↓kept_mk, kept_eta, ↓apply_ite Mod.kept, ite_self, Mod.setTpdo_kept, foldl_kept, foldl_kept1, foldl_kept2, foldl_kept3, foldl_kept4, ↓apply_ite Prod.snd, implies_true]

theorem Mod.setConsumer_kept : ∀ x0 x1, (Mod.setConsumer x0 x1).2.kept = x0.kept := by
  intro x0 x1
  simp only [Mod.setConsumer, ↓kept_mk, kept_eta, ↓apply_ite Mod.kept, ite_self, inRange_kept, foldl_kept, foldl_kept1, foldl_kept2, foldl_kept3, foldl_kept4, ↓apply_ite Prod.snd, implies_true]

theorem Mod.commWrite_kept : ∀ x0 x1 x2 x3, (Mod.commWrite x0 x1 x2 x3).2.kept = x0.kept := by
  intro x0 x1 x2 x3
  unfold Mod.commWrite
  repeat' (split <;> first | with_reducible rfl | simp only [↓kept_mk, kept_eta, ↓apply_ite Mod.kept, ite_self, Mod.setConsumer_kept, Mod.setTpdo_kept, Mod.setMapCount_kept, Mod.setMapEntry_kept, foldl_kept, foldl_kept1, foldl_kept2, foldl_kept3, foldl_kept4, ↓apply_ite Prod.snd, implies_true] | skip)

theorem retired_follows (k : Kept) (row col : Nat) :
    k.Follows { k with fuses := { k.fuses with retired := Map.set 0 k.fuses.retired row (col + 1) } } := by
  refine ⟨⟨Eq.refl _, fun r h => ?_, fun _ _ h => h, fun _ h => h, Nat.le_refl _, Nat.le_refl _, Eq.refl _, Eq.refl _,
    Eq.refl _, Eq.refl _, Eq.refl _, Eq.refl _, Eq.refl _⟩, fun _ => Nat.le_refl _,
    fun h => ⟨h.1, h.2, h.3, h.4, h.5, h.6, h.7, h.8⟩⟩
  show Map.get 0 (Map.set 0 k.fuses.retired row (col + 1)) r ≠ 0
  by_cases e : r = row
  · subst e
    rw [Map.get_set_ne_default _ _ _ (Nat.succ_ne_zero _)]
    exact Nat.succ_ne_zero _
  · rw [Map.get_set_of_ne _ _ _ e]; exact h

theorem Mod.retire_follows : ∀ (m : Mod) v, m.kept.Follows (Mod.retire m v).2.kept := by
  intro m v
  unfold Mod.retire
  extract_lets row col e f p m1
  clear_value row col e
  split
  · exact follows_refl _
  · split
    · exact follows_refl _
    · simp only [↓kept_mk, kept_eta, ↓apply_ite Mod.kept, ite_self, Mod.raise_kept, foldl_kept, implies_true, m1, f]
      exact retired_follows m.kept row col

theorem Mod.identityWrite_follows : ∀ x0 x1 x2 x3 x4, (Mod.kept x0).Follows (Mod.identityWrite x0 x1 x2 x3 x4).2.kept := by
  intro x0 x1 x2 x3 x4
  unfold Mod.identityWrite
  repeat' (first | with_reducible exact follows_refl _ | simp only [↓kept_mk, kept_eta, ↓apply_ite Mod.kept, ite_self, inRange_kept, onlyOne_kept, Mod.mismatchClear_kept, Mod.go_kept, Mod.setStep_kept, foldl_kept, foldl_kept2, ↓apply_ite Prod.snd, implies_true] | split | refine follows_trans (Mod.retire_follows _ _) ?_ | refine follows_trans (Mod.resetCmd_follows _ _) ?_ | refine inRange_follows _ _ _ _ _ (fun _ _ => ?_) | refine follows_trans (inRange_follows _ _ _ _ _ (fun _ _ => ?_)) ?_ | refine onlyOne_follows _ _ _ ?_ | refine follows_trans (onlyOne_follows _ _ _ ?_) ?_ | refine follows_trans (foldl_follows _ (fun m a => ?_) _ _) ?_)

theorem ofNat_range {w lo hi v : Nat} (a : lo ≤ v) (b : v ≤ hi) (c : hi < 2 ^ w) :
    lo ≤ (BitVec.ofNat w v).toNat ∧ (BitVec.ofNat w v).toNat ≤ hi := by
  rw [BitVec.toNat_ofNat, Nat.mod_eq_of_lt (by omega)]; exact ⟨a, b⟩

theorem Mod.powerWrite_follows : ∀ (m : Mod) i s v, m.kept.Follows (Mod.powerWrite m i s v).2.kept := by
  intro m i s v
  unfold Mod.powerWrite
  extract_lets t
  split
  · refine inRange_follows _ _ _ _ _ (fun a b => ?_)
    simp only [↓kept_mk, kept_eta, ↓apply_ite Mod.kept, ite_self, inRange_kept, Mod.repace_kept, foldl_kept, implies_true]
    exact ⟨fusesBurned_refl _, fun _ => Nat.le_refl _,
      fun h => ⟨ofNat_range a b (by decide), h.2, h.3, h.4, h.5, h.6, h.7, h.8⟩⟩
  · refine inRange_follows _ _ _ _ _ (fun a b => ?_)
    simp only [↓kept_mk, kept_eta, ↓apply_ite Mod.kept, ite_self, inRange_kept, Mod.repace_kept, foldl_kept, implies_true]
    exact ⟨fusesBurned_refl _, fun _ => Nat.le_refl _,
      fun h => ⟨h.1, h.2, fun _ e => (Option.some.inj e) ▸ ofNat_range a b (by decide), h.4, h.5, h.6, h.7, h.8⟩⟩
  · split
    · exact follows_refl _
    · simp only [↓kept_mk, kept_eta, ↓apply_ite Mod.kept, ite_self, inRange_kept, Mod.repace_kept, foldl_kept, implies_true, t]
      exact ⟨fusesBurned_refl _, fun _ => Nat.le_refl _,
        fun h => ⟨h.1, h.2, h.3, h.4, (ofNat_range (Nat.zero_le _) (by omega) (by decide)).2, h.6, h.7, h.8⟩⟩
  · refine inRange_follows _ _ _ _ _ (fun a b => ?_)
    simp only [↓kept_mk, kept_eta, ↓apply_ite Mod.kept, ite_self, inRange_kept, Mod.repace_kept, foldl_kept, implies_true, t]
    exact ⟨fusesBurned_refl _, fun _ => Nat.le_refl _,
      fun h => ⟨h.1, h.2, h.3, h.4, h.5, ofNat_range a b (by decide), h.7, h.8⟩⟩
  · refine inRange_follows _ _ _ _ _ (fun a b => ?_)
    simp only [↓kept_mk, kept_eta, ↓apply_ite Mod.kept, ite_self, inRange_kept, Mod.repace_kept, foldl_kept, implies_true, t]
    exact ⟨fusesBurned_refl _, fun _ => Nat.le_refl _,
      fun h => ⟨h.1, h.2, h.3, h.4, h.5, h.6, ofNat_range a b (by decide), h.8⟩⟩

theorem Mod.memoryWrite_kept : ∀ x0 x1 x2 x3 x4, (Mod.memoryWrite x0 x1 x2 x3 x4).2.kept = x0.kept := by
  intro x0 x1 x2 x3 x4
  unfold Mod.memoryWrite
  repeat' (split <;> first | with_reducible rfl | simp only [↓kept_mk, kept_eta, ↓apply_ite Mod.kept, ite_self, onlyOne_kept, Mod.placeCommit_kept, inRange_kept, Mod.setTest_kept, Mod.testCmd_kept, foldl_kept, foldl_kept1, foldl_kept2, foldl_kept3, foldl_kept4, ↓apply_ite Prod.snd, implies_true] | skip)

theorem Mod.fabricWrite_kept : ∀ x0 x1 x2 x3 x4, (Mod.fabricWrite x0 x1 x2 x3 x4).2.kept = x0.kept := by
  intro x0 x1 x2 x3 x4
  unfold Mod.fabricWrite
  repeat' (split <;> first | with_reducible rfl | simp only [↓kept_mk, kept_eta, ↓apply_ite Mod.kept, ite_self, Mod.portRetrainReq_kept, inRange_kept, Mod.identAll_kept, onlyOne_kept, Mod.jnlRetrainReq_kept, Mod.fiArm_kept, foldl_kept, foldl_kept1, foldl_kept2, foldl_kept3, foldl_kept4, ↓apply_ite Prod.snd, implies_true] | skip)

theorem Mod.safetyWrite_kept : ∀ x0 x1 x2 x3, (Mod.safetyWrite x0 x1 x2 x3).2.kept = x0.kept := by
  intro x0 x1 x2 x3
  unfold Mod.safetyWrite
  repeat' (split <;> first | with_reducible rfl | simp only [↓kept_mk, kept_eta, ↓apply_ite Mod.kept, ite_self, onlyOne_kept, Mod.safeReq_kept, inRange_kept, Mod.fpPlan_kept, Mod.fpVerdict_kept, Mod.ffClear_kept, foldl_kept, foldl_kept1, foldl_kept2, foldl_kept3, foldl_kept4, ↓apply_ite Prod.snd, implies_true] | skip)

theorem Mod.securityWrite_follows : ∀ x0 x1 x2 x3 x4, (Mod.kept x0).Follows (Mod.securityWrite x0 x1 x2 x3 x4).2.kept := by
  intro x0 x1 x2 x3 x4
  unfold Mod.securityWrite
  repeat' (first | with_reducible exact follows_refl _ | simp only [↓kept_mk, kept_eta, ↓apply_ite Mod.kept, ite_self, Mod.setProfile_kept, onlyOne_kept, inRange_kept, Mod.setOwnerKey_kept, Mod.setImageKey_kept, Mod.attGo_kept, Mod.authReq_kept, Mod.authResponse_kept, Mod.authClose_kept, Mod.setFwSlot_kept, Mod.fwChunk_kept, Mod.fwCommit_kept, Mod.setDbgHalt_kept, foldl_kept, foldl_kept2, ↓apply_ite Prod.snd, implies_true] | split | refine follows_trans (Mod.svnCommit_follows _) ?_ | refine follows_trans (Mod.fwRevoke_follows _ _) ?_ | refine inRange_follows _ _ _ _ _ (fun _ _ => ?_) | refine follows_trans (inRange_follows _ _ _ _ _ (fun _ _ => ?_)) ?_ | refine onlyOne_follows _ _ _ ?_ | refine follows_trans (onlyOne_follows _ _ _ ?_) ?_ | refine follows_trans (foldl_follows _ (fun m a => ?_) _ _) ?_)

theorem Mod.leaCommit_kept : ∀ x0, (Mod.leaCommit x0).2.kept = x0.kept := by
  intro x0
  simp only [Mod.leaCommit, ↓kept_mk, kept_eta, ↓apply_ite Mod.kept, ite_self, foldl_kept, foldl_kept1, foldl_kept2, foldl_kept3, foldl_kept4, ↓apply_ite Prod.snd, implies_true]

theorem Mod.leaStage_kept : ∀ x0 x1, (Mod.leaStage x0 x1).2.kept = x0.kept := by
  intro x0 x1
  simp only [Mod.leaStage, ↓kept_mk, kept_eta, ↓apply_ite Mod.kept, ite_self, foldl_kept, foldl_kept1, foldl_kept2, foldl_kept3, foldl_kept4, ↓apply_ite Prod.snd, implies_true]

theorem Mod.setLeaSize_kept : ∀ x0 x1, (Mod.setLeaSize x0 x1).2.kept = x0.kept := by
  intro x0 x1
  simp only [Mod.setLeaSize, ↓kept_mk, kept_eta, ↓apply_ite Mod.kept, ite_self, inRange_kept, Mod.leaStage_kept, foldl_kept, foldl_kept1, foldl_kept2, foldl_kept3, foldl_kept4, ↓apply_ite Prod.snd, implies_true]

theorem Mod.streamWrite_follows : ∀ x0 x1 x2 x3 x4, (Mod.kept x0).Follows (Mod.streamWrite x0 x1 x2 x3 x4).2.kept := by
  intro x0 x1 x2 x3 x4
  unfold Mod.streamWrite
  repeat' (first | with_reducible exact follows_refl _ | simp only [↓kept_mk, kept_eta, ↓apply_ite Mod.kept, ite_self, Mod.leaStage_kept, Mod.setLeaSize_kept, inRange_kept, onlyOne_kept, Mod.leaCommit_kept, Mod.leaLeave_kept, foldl_kept, foldl_kept2, ↓apply_ite Prod.snd, implies_true] | split | refine follows_trans (Mod.leaStart_follows _ _) ?_ | refine inRange_follows _ _ _ _ _ (fun _ _ => ?_) | refine follows_trans (inRange_follows _ _ _ _ _ (fun _ _ => ?_)) ?_ | refine onlyOne_follows _ _ _ ?_ | refine follows_trans (onlyOne_follows _ _ _ ?_) ?_ | refine follows_trans (foldl_follows _ (fun m a => ?_) _ _) ?_)

theorem Mod.objEffect_follows : ∀ x0 x1 x2 x3 x4, (Mod.kept x0).Follows (Mod.objEffect x0 x1 x2 x3 x4).2.kept := by
  intro x0 x1 x2 x3 x4
  unfold Mod.objEffect
  repeat' (first | with_reducible exact follows_refl _ | simp only [↓kept_mk, kept_eta, ↓apply_ite Mod.kept, ite_self, Mod.commWrite_kept, Mod.memoryWrite_kept, Mod.fabricWrite_kept, Mod.safetyWrite_kept, foldl_kept, foldl_kept2, ↓apply_ite Prod.snd, implies_true] | split | refine follows_trans (Mod.identityWrite_follows _ _ _ _ _) ?_ | refine follows_trans (Mod.powerWrite_follows _ _ _ _) ?_ | refine follows_trans (Mod.securityWrite_follows _ _ _ _ _) ?_ | refine follows_trans (Mod.streamWrite_follows _ _ _ _ _) ?_ | refine follows_trans (foldl_follows _ (fun m a => ?_) _ _) ?_)

theorem Mod.objWrite_follows : ∀ x0 x1 x2 x3 x4, (Mod.kept x0).Follows (Mod.objWrite x0 x1 x2 x3 x4).2.kept := by
  intro x0 x1 x2 x3 x4
  unfold Mod.objWrite
  repeat' (first | with_reducible exact follows_refl _ | simp only [↓kept_mk, kept_eta, ↓apply_ite Mod.kept, ite_self, foldl_kept, foldl_kept2, ↓apply_ite Prod.snd, implies_true] | split | refine follows_trans (Mod.objEffect_follows _ _ _ _ _) ?_ | refine follows_trans (foldl_follows _ (fun m a => ?_) _ _) ?_)

theorem Mod.objRead_kept : ∀ x0 x1 x2, (Mod.objRead x0 x1 x2).2.kept = x0.kept := by
  intro x0 x1 x2
  unfold Mod.objRead
  repeat' (split <;> first | with_reducible rfl | simp only [↓kept_mk, kept_eta, ↓apply_ite Mod.kept, ite_self, Mod.debugRead_kept, foldl_kept, foldl_kept1, foldl_kept2, foldl_kept3, foldl_kept4, ↓apply_ite Prod.snd, implies_true] | skip)

theorem Mod.answer_kept : ∀ x0 x1 x2 x3 x4, (Mod.answer x0 x1 x2 x3 x4).kept = x0.kept := by
  intro x0 x1 x2 x3 x4
  simp only [Mod.answer, ↓kept_mk, kept_eta, ↓apply_ite Mod.kept, ite_self, Mod.injected_kept, implies_true]

theorem Mod.request_follows : ∀ m g, (∀ x : Mod, x.kept.Follows (g x).kept) → (Mod.kept m).Follows (Mod.request m g).kept := by
  intro m g h
  unfold Mod.request
  split
  · exact follows_refl _
  · split
    · simp only [↓kept_mk, kept_eta, ↓apply_ite Mod.kept, ite_self, Mod.injected_kept, foldl_kept, implies_true]; exact follows_refl _
    · exact h m

theorem Mod.request_kept : ∀ m g, (∀ x : Mod, (g x).kept = x.kept) → (Mod.request m g).kept = m.kept := by
  intro m g h
  unfold Mod.request
  simp only [h, ↓kept_mk, kept_eta, ↓apply_ite Mod.kept, ite_self, Mod.injected_kept, foldl_kept, implies_true]

theorem Mod.whileOpen_kept : ∀ x0 x1 x2 x3 x4, (Mod.whileOpen x0 x1 x2 x3 x4).kept = x0.kept := by
  intro x0 x1 x2 x3 x4
  simp only [Mod.whileOpen, ↓kept_mk, kept_eta, ↓apply_ite Mod.kept, ite_self, Mod.answer_kept, implies_true]

theorem Mod.sdoWhole_follows : ∀ x0 x1 x2 x3 x4 x5, (Mod.kept x0).Follows (Mod.sdoWhole x0 x1 x2 x3 x4 x5).kept := by
  intro x0 x1 x2 x3 x4 x5
  unfold Mod.sdoWhole
  repeat' (first | with_reducible exact follows_refl _ | simp only [↓kept_mk, kept_eta, ↓apply_ite Mod.kept, ite_self, Mod.request_kept, Mod.whileOpen_kept, Mod.answer_kept, foldl_kept, foldl_kept2, ↓apply_ite Prod.snd, implies_true] | split | refine follows_trans (Mod.objWrite_follows _ _ _ _ _) ?_ | refine Mod.request_follows _ _ (fun m => ?_) | refine follows_trans (Mod.request_follows _ _ (fun m => ?_)) ?_ | refine follows_trans (foldl_follows _ (fun m a => ?_) _ _) ?_)

theorem Mod.sdoPut_follows : ∀ x0 x1 x2 x3 x4 x5, (Mod.kept x1).Follows (@Mod.sdoPut x0 x1 x2 x3 x4 x5).kept := by
  intro x0 x1 x2 x3 x4 x5
  unfold Mod.sdoPut
  repeat' (first | with_reducible exact follows_refl _ | simp only [↓kept_mk, kept_eta, ↓apply_ite Mod.kept, ite_self, foldl_kept, foldl_kept2, ↓apply_ite Prod.snd, implies_true] | split | refine follows_trans (Mod.sdoWhole_follows _ _ _ _ _ _) ?_ | refine follows_trans (foldl_follows _ (fun m a => ?_) _ _) ?_)

theorem Mod.sdoDownload_follows : ∀ x0 x1 x2 x3 x4 x5 x6 x7, (Mod.kept x0).Follows (Mod.sdoDownload x0 x1 x2 x3 x4 x5 x6 x7).kept := by
  intro x0 x1 x2 x3 x4 x5 x6 x7
  unfold Mod.sdoDownload
  repeat' (first | with_reducible exact follows_refl _ | simp only [↓kept_mk, kept_eta, ↓apply_ite Mod.kept, ite_self, Mod.request_kept, Mod.answer_kept, Mod.whileOpen_kept, foldl_kept, foldl_kept2, ↓apply_ite Prod.snd, implies_true] | split | refine follows_trans (Mod.objWrite_follows _ _ _ _ _) ?_ | refine Mod.request_follows _ _ (fun m => ?_) | refine follows_trans (Mod.request_follows _ _ (fun m => ?_)) ?_ | refine follows_trans (foldl_follows _ (fun m a => ?_) _ _) ?_)

theorem Mod.sdoUpload_kept : ∀ x0 x1 x2 x3 x4, (Mod.sdoUpload x0 x1 x2 x3 x4).kept = x0.kept := by
  intro x0 x1 x2 x3 x4
  unfold Mod.sdoUpload
  repeat' (first | with_reducible rfl | refine ((congrArg (fun p => p.2.kept) ‹Mod.objRead _ _ _ = _›).symm.trans (Mod.objRead_kept _ _ _)).trans ?_ | simp only [↓kept_mk, kept_eta, ↓apply_ite Mod.kept, ite_self, Mod.request_kept, Mod.answer_kept, Mod.whileOpen_kept, Mod.objRead_kept, implies_true] | split | refine (foldl_kept _ (fun m a => ?_) _ _).trans ?_ | refine (foldl_kept2 _ (fun m a => ?_) _ _).trans ?_ | refine (foldl_kept3 _ (fun m a => ?_) _ _).trans ?_ | refine (foldl_kept4 _ (fun m a => ?_) _ _).trans ?_ | refine (Mod.request_kept _ _ (fun m => ?_)).trans ?_)

theorem Mod.closeTransfer_kept : ∀ x0, (Mod.closeTransfer x0).kept = x0.kept := by
  intro x0
  simp only [Mod.closeTransfer, ↓kept_mk, kept_eta, ↓apply_ite Mod.kept, ite_self, implies_true]

theorem Mod.downSegment_follows : ∀ x0 x1 x2 x3 x4, (Mod.kept x0).Follows (Mod.downSegment x0 x1 x2 x3 x4).kept := by
  intro x0 x1 x2 x3 x4
  unfold Mod.downSegment
  repeat' (first | with_reducible exact follows_refl _ | simp only [↓kept_mk, kept_eta, ↓apply_ite Mod.kept, ite_self, Mod.answer_kept, Mod.closeTransfer_kept, foldl_kept, foldl_kept2, ↓apply_ite Prod.snd, implies_true] | split | refine follows_trans (Mod.objWrite_follows _ _ _ _ _) ?_ | refine follows_trans (foldl_follows _ (fun m a => ?_) _ _) ?_)

theorem Mod.upSegment_kept : ∀ x0 x1, (Mod.upSegment x0 x1).kept = x0.kept := by
  intro x0 x1
  simp only [Mod.upSegment, ↓kept_mk, kept_eta, ↓apply_ite Mod.kept, ite_self, Mod.answer_kept, implies_true]

theorem Mod.sdoSegmentRow_follows : ∀ x0 x1 x2 x3 x4, (Mod.kept x0).Follows (Mod.sdoSegmentRow x0 x1 x2 x3 x4).kept := by
  intro x0 x1 x2 x3 x4
  unfold Mod.sdoSegmentRow
  repeat' (first | with_reducible exact follows_refl _ | simp only [↓kept_mk, kept_eta, ↓apply_ite Mod.kept, ite_self, Mod.request_kept, Mod.answer_kept, Mod.upSegment_kept, foldl_kept, foldl_kept2, ↓apply_ite Prod.snd, implies_true] | split | refine follows_trans (Mod.downSegment_follows _ _ _ _ _) ?_ | refine Mod.request_follows _ _ (fun m => ?_) | refine follows_trans (Mod.request_follows _ _ (fun m => ?_)) ?_ | refine follows_trans (foldl_follows _ (fun m a => ?_) _ _) ?_)

theorem Mod.sdoTimeout_kept : ∀ x0, (Mod.sdoTimeout x0).kept = x0.kept := by
  intro x0
  unfold Mod.sdoTimeout
  repeat' (split <;> first | with_reducible rfl | simp only [↓kept_mk, kept_eta, ↓apply_ite Mod.kept, ite_self, Mod.answer_kept, Mod.closeTransfer_kept, implies_true] | skip)

end Sys2Proof.Machine
end

