-- ==== Sys2Proof/Laws/KeptNode.lean ====
section
/-!
SUPPORT. What the functions of Machine/Node.lean keep (see Laws/Kept.lean).
-/
set_option linter.unusedSimpArgs false
set_option linter.unusedVariables false
namespace Sys2Proof.Machine

theorem Mod.otherFrame_follows : ∀ m g, (∀ x : Mod, x.kept.Follows (g x).kept) → (Mod.kept m).Follows (Mod.otherFrame m g).kept := by
  intro m g h
  unfold Mod.otherFrame
  split
  · exact follows_refl _
  · split
    · simp only [↓kept_mk, kept_eta, ↓apply_ite Mod.kept, ite_self, Mod.injected_kept, foldl_kept, implies_true]; exact follows_refl _
    · exact h m

theorem Mod.otherFrame_kept : ∀ m g, (∀ x : Mod, (g x).kept = x.kept) → (Mod.otherFrame m g).kept = m.kept := by
  intro m g h
  unfold Mod.otherFrame
  simp only [h, ↓kept_mk, kept_eta, ↓apply_ite Mod.kept, ite_self, Mod.injected_kept, foldl_kept, implies_true]

theorem Mod.setNmt_kept : ∀ x0 x1, (Mod.setNmt x0 x1).kept = x0.kept := by
  intro x0 x1
  simp only [Mod.setNmt, ↓kept_mk, kept_eta, ↓apply_ite Mod.kept, ite_self, Mod.raise_kept, implies_true]

theorem Mod.nmtCommand_kept : ∀ x0 x1, (Mod.nmtCommand x0 x1).kept = x0.kept := by
  intro x0 x1
  simp only [Mod.nmtCommand, ↓kept_mk, kept_eta, ↓apply_ite Mod.kept, ite_self, Mod.otherFrame_kept, Mod.setNmt_kept, implies_true]

theorem Mod.resetComm_kept : ∀ x0, (Mod.resetComm x0).kept = x0.kept := by
  intro x0
  simp only [Mod.resetComm, ↓kept_mk, kept_eta, ↓apply_ite Mod.kept, ite_self, Mod.otherFrame_kept, Mod.setNmt_kept, Mod.raise_kept, Mod.bootMessage_kept, implies_true]

theorem Mod.heartbeat_kept : ∀ x0, (Mod.heartbeat x0).kept = x0.kept := by
  intro x0
  simp only [Mod.heartbeat, ↓kept_mk, kept_eta, ↓apply_ite Mod.kept, ite_self, Mod.sendFrame_kept, implies_true]

theorem Mod.heartbeatFrom_kept : ∀ x0 x1, (Mod.heartbeatFrom x0 x1).kept = x0.kept := by
  intro x0 x1
  simp only [Mod.heartbeatFrom, ↓kept_mk, kept_eta, ↓apply_ite Mod.kept, ite_self, Mod.injected_kept, implies_true]

theorem Mod.heartbeatLost_kept : ∀ x0, (Mod.heartbeatLost x0).kept = x0.kept := by
  intro x0
  unfold Mod.heartbeatLost
  repeat' (split <;> first | with_reducible rfl | simp only [↓kept_mk, kept_eta, ↓apply_ite Mod.kept, ite_self, Mod.danger_kept, implies_true] | skip)

theorem Mod.queuePdo_kept : ∀ x0 x1, (Mod.queuePdo x0 x1).kept = x0.kept := by
  intro x0 x1
  simp only [Mod.queuePdo, ↓kept_mk, kept_eta, ↓apply_ite Mod.kept, ite_self, Mod.setTpdo_kept, Mod.raise_kept, implies_true]

theorem Mod.syncPdo_kept : ∀ x0 x1, (Mod.syncPdo x0 x1).kept = x0.kept := by
  intro x0 x1
  simp only [Mod.syncPdo, ↓kept_mk, kept_eta, ↓apply_ite Mod.kept, ite_self, Mod.setTpdo_kept, Mod.queuePdo_kept, implies_true]

theorem Mod.sync_kept : ∀ x0 x1, (Mod.sync x0 x1).kept = x0.kept := by
  intro x0 x1
  simp only [Mod.sync, ↓kept_mk, kept_eta, ↓apply_ite Mod.kept, ite_self, Mod.otherFrame_kept, Mod.syncPdo_kept, foldl_kept, foldl_kept1, foldl_kept2, foldl_kept3, foldl_kept4, ↓apply_ite Prod.snd, implies_true]

theorem Mod.pdoTimer_kept : ∀ x0 x1, (Mod.pdoTimer x0 x1).kept = x0.kept := by
  intro x0 x1
  simp only [Mod.pdoTimer, ↓kept_mk, kept_eta, ↓apply_ite Mod.kept, ite_self, Mod.queuePdo_kept, implies_true]

theorem Mod.pdoSent_kept : ∀ x0 x1, (Mod.pdoSent x0 x1).kept = x0.kept := by
  intro x0 x1
  unfold Mod.pdoSent
  repeat' (split <;> first | with_reducible rfl | simp only [↓kept_mk, kept_eta, ↓apply_ite Mod.kept, ite_self, Mod.sendFrame_kept, Mod.setTpdo_kept, implies_true] | skip)

theorem Mod.busOff_kept : ∀ x0, (Mod.busOff x0).kept = x0.kept := by
  intro x0
  simp only [Mod.busOff, ↓kept_mk, kept_eta, ↓apply_ite Mod.kept, ite_self, Mod.raise_kept, implies_true]

theorem Mod.busOn_kept : ∀ x0, (Mod.busOn x0).kept = x0.kept := by
  intro x0
  simp only [Mod.busOn, ↓kept_mk, kept_eta, ↓apply_ite Mod.kept, ite_self, implies_true]

theorem Mod.errorUpdate_kept : ∀ x0, (Mod.errorUpdate x0).kept = x0.kept := by
  intro x0
  simp only [Mod.errorUpdate, ↓kept_mk, kept_eta, ↓apply_ite Mod.kept, ite_self, implies_true]

end Sys2Proof.Machine
end

