-- ==== Sys2Proof/Laws/KeptWindow.lean ====
section
/-!
SUPPORT. What the functions of Machine/Window.lean keep (see Laws/Kept.lean).
-/
set_option linter.unusedSimpArgs false
set_option linter.unusedVariables false
namespace Sys2Proof.Machine

theorem Mod.setMask_kept : ∀ x0 x1, (Mod.setMask x0 x1).kept = x0.kept := by
  intro x0 x1
  simp only [Mod.setMask, ↓kept_mk, kept_eta, ↓apply_ite Mod.kept, ite_self, Mod.sendInterrupt_kept, foldl_kept, foldl_kept1, foldl_kept2, foldl_kept3, foldl_kept4, ↓apply_ite Prod.snd, implies_true]

theorem Mod.clearPend_kept : ∀ x0 x1, (Mod.clearPend x0 x1).kept = x0.kept := by
  intro x0 x1
  simp only [Mod.clearPend, ↓kept_mk, kept_eta, ↓apply_ite Mod.kept, ite_self, implies_true]

theorem Mod.writeGlobal_kept : ∀ x0 x1 x2 y, Mod.writeGlobal x0 x1 x2 = some y → y.kept = x0.kept := by
  intro x0 x1 x2 y h
  unfold Mod.writeGlobal at h
  (try simp only [] at h)
  repeat' split at h
  all_goals first | (cases h; done) | (obtain rfl := Option.some.inj h; repeat' (first | with_reducible rfl | simp only [↓kept_mk, kept_eta, ↓apply_ite Mod.kept, ite_self, Mod.setMask_kept, Mod.clearPend_kept, foldl_kept, foldl_kept1, foldl_kept2, foldl_kept3, foldl_kept4, ↓apply_ite Prod.snd, implies_true] | split | refine (foldl_kept _ (fun m a => ?_) _ _).trans ?_))

theorem Mod.writeGlobal_getD : ∀ x0 x1 x2 y, y.kept = x0.kept → ((Mod.writeGlobal x0 x1 x2).getD y).kept = x0.kept := by
  intro x0 x1 x2 y h
  cases e : Mod.writeGlobal x0 x1 x2 with
  | none => exact h
  | some z => exact Mod.writeGlobal_kept x0 x1 x2 z e

theorem Mod.unassignedWin_kept : ∀ x0, (Mod.unassignedWin x0).kept = x0.kept := by
  intro x0
  simp only [Mod.unassignedWin, ↓kept_mk, kept_eta, ↓apply_ite Mod.kept, ite_self, implies_true]

theorem Mod.apertureWrite_kept : ∀ x0 x1 x2 x3 x4, (Mod.apertureWrite x0 x1 x2 x3 x4).kept = x0.kept := by
  intro x0 x1 x2 x3 x4
  unfold Mod.apertureWrite
  repeat' (split <;> first | with_reducible rfl | simp only [↓kept_mk, kept_eta, ↓apply_ite Mod.kept, ite_self, Mod.writeStack_kept, Mod.writeCore_kept, Mod.countDiscard_kept, Mod.regStore_kept, implies_true] | skip)

theorem Mod.apertureRead_kept : ∀ x0 x1 x2, (Mod.apertureRead x0 x1 x2).2.kept = x0.kept := by
  intro x0 x1 x2
  unfold Mod.apertureRead
  repeat' (split <;> first | with_reducible rfl | simp only [↓kept_mk, kept_eta, ↓apply_ite Mod.kept, ite_self, Mod.readStack_kept, foldl_kept, foldl_kept1, foldl_kept2, foldl_kept3, foldl_kept4, ↓apply_ite Prod.snd, implies_true] | skip)

theorem Mod.winReg_kept (m off bs r) (h : ∀ y, r = some y → y.kept = Mod.kept m) : (Mod.winReg m off bs r).kept = m.kept := by
  unfold Mod.winReg
  cases r with
  | none => simp only [Option.getD_none, ite_self, ↓kept_mk, kept_eta, ↓apply_ite Mod.kept, ite_self, Mod.unassignedWin_kept, foldl_kept, implies_true]
  | some y => simp only [Option.getD_some, ↓apply_ite Mod.kept, h y (Eq.refl _), ↓kept_mk, kept_eta, ↓apply_ite Mod.kept, ite_self, Mod.unassignedWin_kept, foldl_kept, implies_true]

theorem Mod.winWrite_kept : ∀ m off bs ep comps, (Mod.winWrite m off bs ep comps).kept = Mod.kept m := by
  intro m off bs ep comps
  unfold Mod.winWrite
  split
  · simp only [↓kept_mk, kept_eta, ↓apply_ite Mod.kept, ite_self, Mod.unassignedWin_kept, Mod.winReg_kept, Mod.writeGlobal_getD, Mod.writeDmaReg_getD, Mod.writeMailbox_getD, Mod.seqWriteAll_kept, Mod.writeFence_kept, Mod.apertureWrite_kept, foldl_kept, implies_true]
  · split
    · exact Mod.winReg_kept _ _ _ _ (fun y => Mod.writeGlobal_kept _ _ _ y)
    · exact Mod.winReg_kept _ _ _ _ (fun y => Mod.writeDmaReg_kept _ _ _ _ _ y)
    · split
      · exact Mod.winReg_kept _ _ _ _ (fun y => Mod.writeMailbox_kept _ _ _ _ y)
      · simp only [↓kept_mk, kept_eta, ↓apply_ite Mod.kept, ite_self, Mod.unassignedWin_kept, Mod.winReg_kept, Mod.writeGlobal_getD, Mod.writeDmaReg_getD, Mod.writeMailbox_getD, Mod.seqWriteAll_kept, Mod.writeFence_kept, Mod.apertureWrite_kept, foldl_kept, implies_true]
    · simp only [↓kept_mk, kept_eta, ↓apply_ite Mod.kept, ite_self, Mod.unassignedWin_kept, Mod.winReg_kept, Mod.writeGlobal_getD, Mod.writeDmaReg_getD, Mod.writeMailbox_getD, Mod.seqWriteAll_kept, Mod.writeFence_kept, Mod.apertureWrite_kept, foldl_kept, implies_true]
    · exact Mod.winReg_kept _ _ _ _ (fun y => Mod.writeFence_kept _ _ _ y)
    · exact Eq.refl _
    · simp only [↓kept_mk, kept_eta, ↓apply_ite Mod.kept, ite_self, Mod.unassignedWin_kept, Mod.winReg_kept, Mod.writeGlobal_getD, Mod.writeDmaReg_getD, Mod.writeMailbox_getD, Mod.seqWriteAll_kept, Mod.writeFence_kept, Mod.apertureWrite_kept, foldl_kept, implies_true]
    · simp only [↓kept_mk, kept_eta, ↓apply_ite Mod.kept, ite_self, Mod.unassignedWin_kept, Mod.winReg_kept, Mod.writeGlobal_getD, Mod.writeDmaReg_getD, Mod.writeMailbox_getD, Mod.seqWriteAll_kept, Mod.writeFence_kept, Mod.apertureWrite_kept, foldl_kept, implies_true]

theorem Mod.winRegRead_kept : ∀ x0 x1 x2 x3, (Mod.winRegRead x0 x1 x2 x3).2.kept = x0.kept := by
  intro x0 x1 x2 x3
  simp only [Mod.winRegRead, ↓kept_mk, kept_eta, ↓apply_ite Mod.kept, ite_self, Mod.unassignedWin_kept, foldl_kept, foldl_kept1, foldl_kept2, foldl_kept3, foldl_kept4, ↓apply_ite Prod.snd, implies_true]

theorem Mod.winRead_kept : ∀ x0 x1 x2, (Mod.winRead x0 x1 x2).2.kept = x0.kept := by
  intro x0 x1 x2
  unfold Mod.winRead
  repeat' (split <;> first | with_reducible rfl | simp only [↓kept_mk, kept_eta, ↓apply_ite Mod.kept, ite_self, Mod.winRegRead_kept, Mod.apertureRead_kept, foldl_kept, foldl_kept1, foldl_kept2, foldl_kept3, foldl_kept4, ↓apply_ite Prod.snd, implies_true] | skip)

theorem Mod.serveHost_kept : ∀ x0 x1, (Mod.serveHost x0 x1).kept = x0.kept := by
  intro x0 x1
  simp only [Mod.serveHost, ↓kept_mk, kept_eta, ↓apply_ite Mod.kept, ite_self, Mod.winWrite_kept, Mod.winRead_kept, Mod.sendPacket_kept, foldl_kept, foldl_kept1, foldl_kept2, foldl_kept3, foldl_kept4, ↓apply_ite Prod.snd, implies_true]

theorem Mod.hostPump_kept : ∀ x0 x1, (Mod.hostPump x0 x1).kept = x1.kept := by
  intro x0 x1
  induction x0 generalizing x1 with
  | zero =>
    unfold Mod.hostPump
    first | rfl | simp only [↓kept_mk, kept_eta, ↓apply_ite Mod.kept, ite_self, Mod.setGln_kept, Mod.holdEnded_kept, Mod.serveHost_kept, implies_true]
  | succ n ih =>
    unfold Mod.hostPump
    (try simp only [ih, ↓kept_mk, kept_eta, ↓apply_ite Mod.kept, ite_self, Mod.setGln_kept, Mod.holdEnded_kept, Mod.serveHost_kept, implies_true])
    repeat' (split <;> first | with_reducible rfl | simp only [ih, ↓kept_mk, kept_eta, ↓apply_ite Mod.kept, ite_self, Mod.setGln_kept, Mod.holdEnded_kept, Mod.serveHost_kept, implies_true] | skip)

theorem Mod.pumpHost_kept : ∀ x0, (Mod.pumpHost x0).kept = x0.kept := by
  intro x0
  simp only [Mod.pumpHost, ↓kept_mk, kept_eta, ↓apply_ite Mod.kept, ite_self, Mod.hostPump_kept, implies_true]

theorem Mod.hostRequest_kept : ∀ x0 x1, (Mod.hostRequest x0 x1).kept = x0.kept := by
  intro x0 x1
  simp only [Mod.hostRequest, ↓kept_mk, kept_eta, ↓apply_ite Mod.kept, ite_self, Mod.pumpHost_kept, implies_true]

theorem Mod.memoryWritePacket_kept : ∀ x0 x1 x2 x3 x4, (Mod.memoryWritePacket x0 x1 x2 x3 x4).kept = x0.kept := by
  intro x0 x1 x2 x3 x4
  simp only [Mod.memoryWritePacket, ↓kept_mk, kept_eta, ↓apply_ite Mod.kept, ite_self, Mod.hostRequest_kept, implies_true]

theorem Mod.memoryReadPacket_kept : ∀ x0 x1 x2 x3, (Mod.memoryReadPacket x0 x1 x2 x3).kept = x0.kept := by
  intro x0 x1 x2 x3
  simp only [Mod.memoryReadPacket, ↓kept_mk, kept_eta, ↓apply_ite Mod.kept, ite_self, Mod.sendPacket_kept, Mod.hostRequest_kept, implies_true]

theorem Mod.hostReg_kept : ∀ x0 x1 x2, (Mod.hostReg x0 x1 x2).kept = x0.kept := by
  intro x0 x1 x2
  simp only [Mod.hostReg, ↓kept_mk, kept_eta, ↓apply_ite Mod.kept, ite_self, Mod.memoryWritePacket_kept, implies_true]

theorem Mod.hostCompletion_kept : ∀ x0 x1 x2 x3 x4, (Mod.hostCompletion x0 x1 x2 x3 x4).kept = x0.kept := by
  intro x0 x1 x2 x3 x4
  unfold Mod.hostCompletion
  repeat' (split <;> first | with_reducible rfl | simp only [↓kept_mk, kept_eta, ↓apply_ite Mod.kept, ite_self, Mod.hostWriteError_kept, Mod.hostData_kept, Mod.tokenData_kept, implies_true] | skip)

theorem Mod.takePacket_kept : ∀ x0 x1 x2, (Mod.takePacket x0 x1 x2).kept = x0.kept := by
  intro x0 x1 x2
  unfold Mod.takePacket
  repeat' (split <;> first | with_reducible rfl | simp only [↓kept_mk, kept_eta, ↓apply_ite Mod.kept, ite_self, Mod.memoryWritePacket_kept, Mod.memoryReadPacket_kept, Mod.hostCompletion_kept, implies_true] | skip)

theorem Mod.jnlAck_kept : ∀ x0 x1 x2, (Mod.jnlAck x0 x1 x2).kept = x0.kept := by
  intro x0 x1 x2
  simp only [Mod.jnlAck, ↓kept_mk, kept_eta, ↓apply_ite Mod.kept, ite_self, Mod.jnlPump_kept, Mod.jnlResend_kept, implies_true]

theorem Mod.jnlPayload_kept : ∀ x0 x1 x2, (Mod.jnlPayload x0 x1 x2).kept = x0.kept := by
  intro x0 x1 x2
  simp only [Mod.jnlPayload, ↓kept_mk, kept_eta, ↓apply_ite Mod.kept, ite_self, Mod.takePacket_kept, foldl_kept, foldl_kept1, foldl_kept2, foldl_kept3, foldl_kept4, ↓apply_ite Prod.snd, implies_true]

theorem Mod.jnlData_kept : ∀ x0 x1 x2 x3, (Mod.jnlData x0 x1 x2 x3).kept = x0.kept := by
  intro x0 x1 x2 x3
  simp only [Mod.jnlData, ↓kept_mk, kept_eta, ↓apply_ite Mod.kept, ite_self, Mod.jnlAck_kept, Mod.setJnl_kept, Mod.jnlPayload_kept, implies_true]

theorem Mod.registerWrite_kept : ∀ x0 x1 x2 x3 x4 x5, (Mod.registerWrite x0 x1 x2 x3 x4 x5).kept = x0.kept := by
  intro x0 x1 x2 x3 x4 x5
  unfold Mod.registerWrite
  repeat' (split <;> first | with_reducible rfl | simp only [↓kept_mk, kept_eta, ↓apply_ite Mod.kept, ite_self, Mod.memoryWritePacket_kept, Mod.regStore_kept, Mod.writeCore_kept, implies_true] | skip)

theorem Mod.unassignedAccess_kept : ∀ x0 x1 x2 x3 x4 x5, (Mod.unassignedAccess x0 x1 x2 x3 x4 x5).kept = x0.kept := by
  intro x0 x1 x2 x3 x4 x5
  unfold Mod.unassignedAccess
  repeat' (split <;> first | with_reducible rfl | simp only [↓kept_mk, kept_eta, ↓apply_ite Mod.kept, ite_self, Mod.memoryWritePacket_kept, Mod.memoryReadPacket_kept, Mod.countDiscard_kept, Mod.regWrite_getD, implies_true] | skip)

theorem Mod.hrmLine_kept : ∀ x0 x1 x2 x3, (Mod.hrmLine x0 x1 x2 x3).kept = x0.kept := by
  intro x0 x1 x2 x3
  simp only [Mod.hrmLine, ↓kept_mk, kept_eta, ↓apply_ite Mod.kept, ite_self, Mod.coreWriteStack_kept, implies_true]

end Sys2Proof.Machine
end

