-- ==== Sys2Proof/Laws/KeptCommand.lean ====
section
/-!
SUPPORT. What the functions of Machine/Command.lean keep (see Laws/Kept.lean).
-/
set_option linter.unusedSimpArgs false
set_option linter.unusedVariables false
namespace Sys2Proof.Machine

theorem Mod.emptyRows_kept : ∀ x0 x1, (Mod.emptyRows x0 x1).kept = x0.kept := by
  intro x0 x1
  simp only [Mod.emptyRows, ↓kept_mk, kept_eta, ↓apply_ite Mod.kept, ite_self, implies_true]

theorem Mod.idle_kept : ∀ x0, (Mod.idle x0).kept = x0.kept := by
  intro x0
  simp only [Mod.idle, ↓kept_mk, kept_eta, ↓apply_ite Mod.kept, ite_self, Mod.pumpHost_kept, Mod.leaSwap_kept, implies_true]

end Sys2Proof.Machine
end

