-- ==== Sys2Proof/Laws/Reports.lean ====
section
/-!
SUPPORT. What a report keeps and adds, step by step, and the frames of the operations that make up entering the safe
state.
-/
namespace Sys2Proof.Machine

theorem onlyReports_of {m n : Mod} (hq : n.quiet = m.quiet) (hc : n.canRest = m.canRest) : Safety.OnlyReports m n := by
  unfold Safety.OnlyReports
  have h2 : ({ m.can with out := n.can.out } : Can) = n.can := by
    simp only [Mod.canRest, Can.mk.injEq] at hc
    cases hm : m.can; cases hn : n.can
    simp_all
  rw [h2]
  simp only [Mod.quiet, Mod.mk.injEq] at hq
  cases m; cases n
  simp_all

theorem Mod.raise_only (m : Mod) (e u p) : Safety.OnlyReports m (m.raise e u p) :=
  onlyReports_of (Mod.raise_quiet _ _ _ _) (Mod.raise_canRest _ _ _ _)

/-- the link part that only sending changes -/
theorem jnlPump_keeps (n : Nat) (m : Mod) : (Mod.jnlPump n m).jnl.intPend = m.jnl.intPend ∧ (Mod.jnlPump n m).log = m.log ∧ (Mod.jnlPump n m).cairn = m.cairn
   ∧ (Mod.jnlPump n m).can = m.can ∧ (m.inject.armed = false → (Mod.jnlPump n m).inject = m.inject) := by
  induction n generalizing m with
  | zero => exact ⟨rfl, rfl, rfl, rfl, fun _ => rfl⟩
  | succ n ih =>
    unfold Mod.jnlPump
    extract_lets l
    split
    · exact ⟨rfl, rfl, rfl, rfl, fun _ => rfl⟩
    · split
      · rename_i f rest _ _
        extract_lets l1
        generalize hm1 : ({ m with jnl := { m.jnl with lane := l1 } } : Mod) = m1
        have a1 : m1.jnl.intPend = m.jnl.intPend := by rw [← hm1]
        have a2 : m1.log = m.log := by rw [← hm1]
        have a3 : m1.cairn = m.cairn := by rw [← hm1]
        have a4 : m1.can = m.can := by rw [← hm1]
        have a5 : m1.inject = m.inject := by rw [← hm1]
        have P : ∀ (k : Mod) t d ln g, (k.passFlit t d ln g).2.jnl = k.jnl ∧ (k.passFlit t d ln g).2.log = k.log ∧ (k.passFlit t d ln g).2.cairn = k.cairn ∧ (k.passFlit t d ln g).2.can = k.can
           ∧ (k.inject.armed = false → (k.passFlit t d ln g).2.inject = k.inject) := by
          intro k t d ln g
          unfold Mod.passFlit
          extract_lets i par mine
          split
          · exact ⟨rfl, rfl, rfl, rfl, fun _ => rfl⟩
          · rename_i hh
            have hh2 : k.inject.armed = true := (Decidable.not_not.1 hh).1
            refine ⟨?_, ?_, ?_, ?_, fun q => by rw [q] at hh2; cases hh2⟩ <;> repeat' split
            all_goals rfl
        obtain ⟨e1, e2, e3, e4, e5⟩ := ih (m1.jnlEmit true l.next f)
        have E : (m1.jnlEmit true l.next f).jnl.intPend = m1.jnl.intPend ∧ (m1.jnlEmit true l.next f).log = m1.log ∧ (m1.jnlEmit true l.next f).cairn = m1.cairn
          ∧ (m1.jnlEmit true l.next f).can = m1.can ∧ (m1.inject.armed = false → (m1.jnlEmit true l.next f).inject = m1.inject) := by
          unfold Mod.jnlEmit
          obtain ⟨p1, p2, p3, p4, p5⟩ := P m1 36 true 0 (jnlStamp m1.jnl.lane l.next f)
          exact ⟨by dsimp only; rw [p1], p2, p3, p4, p5⟩
        obtain ⟨f1, f2, f3, f4, f5⟩ := E
        refine ⟨by rw [e1, f1, a1], by rw [e2, f2, a2], by rw [e3, f3, a3], by rw [e4, f4, a4], fun q => ?_⟩
        have q1 : m1.inject.armed = false := by rw [a5]; exact q
        have q2 := f5 q1
        rw [e5 (by rw [q2]; exact q1), q2, a5]
      · exact ⟨rfl, rfl, rfl, rfl, fun _ => rfl⟩

theorem sendPacket_keeps (m : Mod) (p) : (m.sendPacket p).jnl.intPend = m.jnl.intPend ∧ (m.sendPacket p).log = m.log ∧ (m.sendPacket p).cairn = m.cairn
   ∧ (m.sendPacket p).can = m.can ∧ (m.inject.armed = false → (m.sendPacket p).inject = m.inject) := by
  unfold Mod.sendPacket
  split
  · extract_lets l j m1
    obtain ⟨h1, h2, h3, h4, h5⟩ := jnlPump_keeps 512 m1
    exact ⟨h1, h2, h3, h4, h5⟩
  · exact ⟨rfl, rfl, rfl, rfl, fun _ => rfl⟩

theorem interrupt_80 (m : Mod) : (m.interrupt 80).jnl.intPend.getLsbD 80 = true ∧ (m.interrupt 80).log = m.log ∧ (m.interrupt 80).cairn = m.cairn
   ∧ (m.interrupt 80).can = m.can ∧ (m.inject.armed = false → (m.interrupt 80).inject = m.inject) := by
  unfold Mod.interrupt
  split
  · rename_i h
    exact ⟨h, rfl, rfl, rfl, fun _ => rfl⟩
  · extract_lets j m1
    have k : m1.jnl.intPend.getLsbD 80 = true := by
      show (m.jnl.intPend ||| BitVec.ofNat 82 (2 ^ 80)).getLsbD 80 = true
      rw [BitVec.getLsbD_or]
      have : (BitVec.ofNat 82 (2 ^ 80)).getLsbD 80 = true := by decide
      rw [this, Bool.or_true]
    split
    · exact ⟨k, rfl, rfl, rfl, fun _ => rfl⟩
    · unfold Mod.sendInterrupt
      obtain ⟨h1, h2, h3, h4, h5⟩ := sendPacket_keeps m1 ⟨packetHeader 4 true false 80 0 0 0, []⟩
      exact ⟨by rw [h1]; exact k, h2, h3, h4, h5⟩

theorem emcy_keeps (m : Mod) (r) : (m.emcy r).log = m.log ∧ (m.emcy r).cairn = m.cairn ∧ (m.emcy r).jnl = m.jnl ∧ (m.inject.armed = false → (m.emcy r).inject = m.inject)
  ∧ (m.inject.armed = false → (m.emcy r).can.out = m.can.out ++
      (if m.log.emcySeverity.toNat ≤ r.event.severity.code ∧ m.can.nmt ≠ .stopped ∧ m.can.busOff = false ∧ m.boot.mcDown = false
        then [⟨0x80 + m.can.activeNodeId.toNat, [0x00#8, 0xFF#8, m.can.errorRegister] ++ leBytes 2 r.event.code
          ++ [BitVec.ofNat 8 r.event.severity.code] ++ leBytes 8 r.index.toNat⟩]
        else [])) := by
  unfold Mod.emcy
  split
  · rename_i h
    unfold Mod.sendFrame
    by_cases hb : m.can.busOff = true ∨ m.boot.mcDown = true
    · rw [if_pos (by simpa using hb)]
      refine ⟨rfl, rfl, rfl, fun _ => rfl, fun _ => ?_⟩
      rw [if_neg]; simp
      intro z; rcases hb with hb | hb <;> simp [hb] at z ⊢
    · rw [if_neg (by simpa using hb)]
      by_cases hd : m.dropsFrame true 3 = true
      · rw [if_pos hd]
        have : m.inject.armed = true := by
          cases q : m.inject.armed with
          | true => rfl
          | false => rw [Mod.dropsFrame_calm q] at hd; cases hd
        refine ⟨rfl, rfl, rfl, fun q => (by rw [q] at this; cases this), fun q => (by rw [q] at this; cases this)⟩
      · rw [if_neg hd]
        refine ⟨rfl, rfl, rfl, fun _ => rfl, fun _ => ?_⟩
        rw [if_pos]
        · rfl
        · simp only [not_or, Bool.not_eq_true] at hb
          exact ⟨h.1, h.2, hb.1, hb.2⟩
  · rename_i h
    refine ⟨rfl, rfl, rfl, fun _ => rfl, fun _ => ?_⟩
    rw [if_neg (fun z => h ⟨z.1, z.2.1⟩), List.append_nil]

theorem logOne_keeps (m : Mod) (e u p) : (m.logOne e u p).log = m.log.push (m.record e u p) ∧ (m.logOne e u p).cairn = m.cairn ∧ (m.logOne e u p).jnl.intPend.getLsbD 80 = true
  ∧ (m.inject.armed = false → (m.logOne e u p).inject = m.inject) ∧ (m.inject.armed = false → (m.logOne e u p).can.out = m.can.out ++
      (if m.log.emcySeverity.toNat ≤ e.severity.code ∧ m.can.nmt ≠ .stopped ∧ m.can.busOff = false ∧ m.boot.mcDown = false
        then [⟨0x80 + m.can.activeNodeId.toNat, [0x00#8, 0xFF#8, m.can.errorRegister] ++ leBytes 2 e.code
          ++ [BitVec.ofNat 8 e.severity.code] ++ leBytes 8 m.log.next.toNat⟩]
        else [])) := by
  unfold Mod.logOne
  extract_lets r m1
  obtain ⟨a1, a2, a3, a4, a5⟩ := emcy_keeps ({ m with log := m.log.push r }) r
  obtain ⟨b1, b2, b3, b4, b5⟩ := interrupt_80 m1
  refine ⟨by rw [b2]; exact a1, by rw [b3]; exact a2, b1, fun q => ?_, fun q => ?_⟩
  · have q1 := a4 q
    rw [b5 (by exact (congrArg Inject.armed q1).trans q)]; exact q1
  · rw [b4]
    have := a5 q
    have ps : (m.log.push r).emcySeverity = m.log.emcySeverity := by
      unfold Log.push; split
      · rfl
      · split <;> rfl
    rw [show m1 = ({ m with log := m.log.push r } : Mod).emcy r from rfl, this]
    dsimp only
    rw [ps]
    rfl

theorem push_short (l : Log) (r) (h : l.ring.length < 1024) : l.push r = { l with ring := l.ring ++ [r], next := l.next + 1 } := by
  unfold Log.push; rw [if_pos h]

theorem logEvent_short (m : Mod) (e u p) (h : m.log.ring.length < 1024) : m.logEvent e u p = m.logOne e u p := by
  unfold Mod.logEvent
  extract_lets m1
  rw [if_neg]
  have : m1.log = m.log.push (m.record e u p) := (logOne_keeps m e u p).1
  rw [this, push_short _ _ h]
  intro z; exact z.1 rfl

theorem logEvent_keeps (m : Mod) (e u p) : (m.logEvent e u p).cairn = m.cairn ∧ (m.logEvent e u p).jnl.intPend.getLsbD 80 = true
  ∧ (m.inject.armed = false → (m.logEvent e u p).inject = m.inject) := by
  unfold Mod.logEvent
  extract_lets m1
  obtain ⟨a1, a2, a3, a4, _⟩ := logOne_keeps m e u p
  split
  · obtain ⟨b1, b2, b3, b4, _⟩ := logOne_keeps ({ m1 with log := { m1.log with lostRaised := m.clock.timeUs / 1000000 + 1 } }) .logUnreadLost noUnit []
    refine ⟨b2.trans a2, b3, fun q => ?_⟩
    have q1 := a4 q
    rw [b4 (by exact (congrArg Inject.armed q1).trans q)]; exact q1
  · exact ⟨a2, a3, a4⟩

theorem cairnPut_keeps (m : Mod) (p) (h : m.jnl.intPend.getLsbD 80 = true) : (m.cairnPut p).cairn = (m.cairn.enqueue p).1 ∧ (m.cairnPut p).jnl.intPend.getLsbD 80 = true
  ∧ (m.inject.armed = false → (m.cairnPut p).inject = m.inject) := by
  unfold Mod.cairnPut
  extract_lets r m1
  split
  · obtain ⟨a1, a2, a3⟩ := logEvent_keeps m1 .cairnDropped noUnit []
    exact ⟨a1, a2, a3⟩
  · exact ⟨rfl, h, fun _ => rfl⟩

theorem setPace_frame (m : Mod) (v) : ∃ p, m.setPace v = { m with power := p } ∧ p.bands = m.power.bands := by
  unfold Mod.setPace; split <;> exact ⟨_, rfl, rfl⟩

theorem movePace_frame (m : Mod) (v) : ∃ p, m.movePace v = { m with power := p } ∧ p.bands = m.power.bands := by
  unfold Mod.movePace
  dsimp only
  split
  · exact ⟨_, rfl, rfl⟩
  · split
    · unfold Mod.deferPace; split <;> exact ⟨_, rfl, rfl⟩
    · split
      · obtain ⟨p, hp, hb⟩ := setPace_frame m v
        rw [hp]; exact ⟨_, rfl, hb⟩
      · exact ⟨_, rfl, rfl⟩

theorem repace_aux (k : Mod) (b : Prop) [Decidable b] : ∃ p, (if k.running = false then { k with power := { k.power with slewTo := none, deferred := none } }
  else
    let m2 := if k.atOnce < k.power.paceNow.toNat then k.setPace k.atOnce else k
    if b then
      { m2 with power := { m2.power with
          slewTo := m2.power.slewTo.map (fun p => min p m2.atOnce)
          deferred := m2.power.deferred.map (fun p => min p m2.atOnce) } }
    else m2.movePace m2.allowance) = { k with power := p } ∧ p.bands = k.power.bands := by
  split
  · exact ⟨_, rfl, rfl⟩
  · have h2 : ∃ p2, (if k.atOnce < k.power.paceNow.toNat then k.setPace k.atOnce else k) = { k with power := p2 } ∧ p2.bands = k.power.bands := by
      split
      · exact setPace_frame k k.atOnce
      · exact ⟨_, rfl, rfl⟩
    obtain ⟨p2, e2, hb2⟩ := h2
    dsimp only
    rw [e2]
    split
    · exact ⟨_, rfl, hb2⟩
    · obtain ⟨p3, e3, hb3⟩ := movePace_frame ({ k with power := p2 } : Mod) ({ k with power := p2 } : Mod).allowance
      exact ⟨p3, e3, hb3.trans hb2⟩

theorem repace_frame (m : Mod) : ∃ p, m.repace = { m with power := p } ∧ p.bands = m.power.bands := by
  unfold Mod.repace
  extract_lets src m1
  obtain ⟨p, e, hb⟩ := repace_aux m1 (m.lea.st = .running)
  exact ⟨p, e, hb⟩

theorem foldl_rel {α : Type} {P : Mod → Prop} {R : Mod → Mod → Prop} (refl : ∀ k, R k k) (trans : ∀ a b c, R a b → R b c → R a c)
    (keep : ∀ a b, P a → R a b → P b) (f : Mod → α → Mod) (h : ∀ k a, P k → R k (f k a)) (l : List α) (m : Mod) (hm : P m) : R m (l.foldl f m) := by
  induction l generalizing m with
  | nil => exact refl m
  | cons a t ih => exact trans _ _ _ (h m a hm) (ih _ (keep _ _ hm (h m a hm)))

theorem glnStopStack_none (m : Mod) (s) (h : m.gln.cells = []) : m.glnStopStack s = m := by
  unfold Mod.glnStopStack; rw [h]; rfl

theorem selfRefresh_frame (m : Mod) (hg : m.gln.cells = []) : ∃ x, m.selfRefresh = { m with memStacks := x } ∧ x.dram = m.memStacks.dram := by
  unfold Mod.selfRefresh
  refine foldl_rel (P := fun k => k.gln.cells = []) (R := fun k n => ∃ x, n = { k with memStacks := x } ∧ x.dram = k.memStacks.dram)
    (fun k => ⟨_, rfl, rfl⟩) ?_ ?_ _ ?_ _ m hg
  · rintro a b c ⟨x, rfl, hx⟩ ⟨y, rfl, hy⟩; exact ⟨y, rfl, hy.trans hx⟩
  · rintro a b h ⟨x, rfl, hx⟩; exact h
  · intro k s hk
    dsimp only
    split
    · rw [glnStopStack_none _ _ (by exact hk)]
      exact ⟨_, rfl, rfl⟩
    · split
      · exact ⟨_, rfl, rfl⟩
      · exact ⟨_, rfl, rfl⟩

theorem failStep_frame (m : Mod) (st) : ∃ b p n, m.failStep st = n ∧ Safety.OnlyReports { m with boot := b, power := p } n ∧ b.work = m.boot.work ∧ p.paceNow = m.power.paceNow
   ∧ b.run = none := by
  unfold Mod.failStep
  split
  · rename_i h; exact ⟨m.boot, m.power, m, rfl, rfl, rfl, rfl, h⟩
  · dsimp only
    split
    · exact ⟨_, _, _, rfl, Mod.raise_only _ _ _ _, rfl, rfl, rfl⟩
    · exact ⟨_, _, _, rfl, Mod.raise_only _ _ _ _, rfl, rfl, rfl⟩

theorem cairnPut_only (m : Mod) (p) : Safety.OnlyReports m (m.cairnPut p) :=
  onlyReports_of (Mod.cairnPut_quiet _ _) (Mod.cairnPut_canRest _ _)

theorem only_exists {m n : Mod} (h : Safety.OnlyReports m n) : ∃ a b c d e, n = { m with log := a, can := { m.can with out := b }, cairn := c, jnl := d, inject := e } :=
  ⟨_, _, _, _, _, h⟩

/-- With no injection armed a report leaves the injection objects. -/
theorem raise_calm {m : Mod} (h : m.inject.armed = false) (e u p) : (m.raise e u p).inject = m.inject := by
  unfold Mod.raise
  extract_lets r m1
  obtain ⟨a1, a2, a3⟩ := logEvent_keeps m e u p
  have q1 : m1.inject = m.inject := a3 h
  split
  · rw [(cairnPut_keeps m1 _ a2).2.2 (by rw [q1]; exact h), q1]
  · exact q1

/-- A report leaves the node serving as it was. -/
theorem raise_serving (m : Mod) (e u p) : (m.raise e u p).serving = m.serving := by
  unfold Mod.serving
  rw [Mod.raise_can_nmt, Mod.raise_can_busOff, Mod.raise_boot]

end Sys2Proof.Machine
end

