-- ==== Sys2Proof/Laws/Writes.lean ====
section
/-!
SUPPORT. What a write of each object that a command writes does once its checks have passed, and its row.
-/
namespace Sys2Proof.Machine

set_option maxRecDepth 40000 in
theorem effect_1016_1 (m : Mod) (bs : Bytes) (x : ObjIn) :
    m.objEffect 0x1016 1 bs x =
      m.setConsumer (BitVec.ofNat 32 (leNat bs)) := by
  unfold Mod.objEffect
  rfl

set_option maxRecDepth 40000 in
theorem row_1016_1 :
    objExists 0x1016 = true ∧ objRow 0x1016 1 = some ⟨0x1016, 1, 0x01, 1, .u32, .rw, 0⟩ := by decide

theorem check_1016_1 (m : Mod) : m.writeCheck 0x1016 1 4 = 0 :=
  Mod.writeCheck_pass row_1016_1.1 row_1016_1.2 rfl (Mod.mayWrite_rw rfl) rfl

set_option maxRecDepth 40000 in
theorem effect_2001_2 (m : Mod) (bs : Bytes) (x : ObjIn) :
    m.objEffect 0x2001 2 bs x =
      inRange 0 127 (leNat bs) m (0, { m with can := { m.can with nodeIdOverride := BitVec.ofNat 8 (leNat bs) } }) := by
  unfold Mod.objEffect
  rfl

set_option maxRecDepth 40000 in
theorem row_2001_2 :
    objExists 0x2001 = true ∧ objRow 0x2001 2 = some ⟨0x2001, 1, 0x02, 1, .u8, .rw, 0⟩ := by decide

theorem check_2001_2 (m : Mod) : m.writeCheck 0x2001 2 1 = 0 :=
  Mod.writeCheck_pass row_2001_2.1 row_2001_2.2 rfl (Mod.mayWrite_rw rfl) rfl

set_option maxRecDepth 40000 in
theorem effect_2010_7 (m : Mod) (bs : Bytes) (x : ObjIn) :
    m.objEffect 0x2010 7 bs x =
      m.retire (BitVec.ofNat 16 (leNat bs)) := by
  unfold Mod.objEffect
  rfl

set_option maxRecDepth 40000 in
theorem row_2010_7 :
    objExists 0x2010 = true ∧ objRow 0x2010 7 = some ⟨0x2010, 1, 0x07, 1, .u16, .auth, 0⟩ := by decide

theorem check_2010_7 (m : Mod) (h : m.hasRight 0 = true) : m.writeCheck 0x2010 7 2 = 0 :=
  Mod.writeCheck_pass row_2010_7.1 row_2010_7.2 rfl (by simpa [Mod.mayWrite] using h) rfl

theorem noauth_2010_7 (m : Mod) (n : Nat) (h : m.hasRight 0 = false) : m.writeCheck 0x2010 7 n = 0x08000020 :=
  Mod.writeCheck_auth row_2010_7.1 row_2010_7.2 rfl (by simpa [Mod.mayWrite] using h)

set_option maxRecDepth 40000 in
theorem effect_2210_1 (m : Mod) (bs : Bytes) (x : ObjIn) :
    m.objEffect 0x2210 1 bs x =
      onlyOne (leNat bs) m (m.go 1 x.variants x.barrier.programs) := by
  unfold Mod.objEffect
  rfl

set_option maxRecDepth 40000 in
theorem row_2210_1 :
    objExists 0x2210 = true ∧ objRow 0x2210 1 = some ⟨0x2210, 7, 0x01, 1, .u8, .wo, 0⟩ := by decide

theorem check_2210_1 (m : Mod) : m.writeCheck 0x2210 1 1 = 0 :=
  Mod.writeCheck_pass row_2210_1.1 row_2210_1.2 rfl (Mod.mayWrite_rw rfl) rfl

set_option maxRecDepth 40000 in
theorem effect_2211_1 (m : Mod) (bs : Bytes) (x : ObjIn) :
    m.objEffect 0x2211 1 bs x =
      onlyOne (leNat bs) m (m.go 2 x.variants x.barrier.programs) := by
  unfold Mod.objEffect
  rfl

set_option maxRecDepth 40000 in
theorem row_2211_1 :
    objExists 0x2211 = true ∧ objRow 0x2211 1 = some ⟨0x2210, 7, 0x01, 1, .u8, .wo, 0⟩ := by decide

theorem check_2211_1 (m : Mod) : m.writeCheck 0x2211 1 1 = 0 :=
  Mod.writeCheck_pass row_2211_1.1 row_2211_1.2 rfl (Mod.mayWrite_rw rfl) rfl

set_option maxRecDepth 40000 in
theorem effect_2212_1 (m : Mod) (bs : Bytes) (x : ObjIn) :
    m.objEffect 0x2212 1 bs x =
      onlyOne (leNat bs) m (m.go 3 x.variants x.barrier.programs) := by
  unfold Mod.objEffect
  rfl

set_option maxRecDepth 40000 in
theorem row_2212_1 :
    objExists 0x2212 = true ∧ objRow 0x2212 1 = some ⟨0x2210, 7, 0x01, 1, .u8, .wo, 0⟩ := by decide

theorem check_2212_1 (m : Mod) : m.writeCheck 0x2212 1 1 = 0 :=
  Mod.writeCheck_pass row_2212_1.1 row_2212_1.2 rfl (Mod.mayWrite_rw rfl) rfl

set_option maxRecDepth 40000 in
theorem effect_2213_1 (m : Mod) (bs : Bytes) (x : ObjIn) :
    m.objEffect 0x2213 1 bs x =
      onlyOne (leNat bs) m (m.go 4 x.variants x.barrier.programs) := by
  unfold Mod.objEffect
  rfl

set_option maxRecDepth 40000 in
theorem row_2213_1 :
    objExists 0x2213 = true ∧ objRow 0x2213 1 = some ⟨0x2210, 7, 0x01, 1, .u8, .wo, 0⟩ := by decide

theorem check_2213_1 (m : Mod) : m.writeCheck 0x2213 1 1 = 0 :=
  Mod.writeCheck_pass row_2213_1.1 row_2213_1.2 rfl (Mod.mayWrite_rw rfl) rfl

set_option maxRecDepth 40000 in
theorem effect_2214_1 (m : Mod) (bs : Bytes) (x : ObjIn) :
    m.objEffect 0x2214 1 bs x =
      onlyOne (leNat bs) m (m.go 5 x.variants x.barrier.programs) := by
  unfold Mod.objEffect
  rfl

set_option maxRecDepth 40000 in
theorem row_2214_1 :
    objExists 0x2214 = true ∧ objRow 0x2214 1 = some ⟨0x2210, 7, 0x01, 1, .u8, .wo, 0⟩ := by decide

theorem check_2214_1 (m : Mod) : m.writeCheck 0x2214 1 1 = 0 :=
  Mod.writeCheck_pass row_2214_1.1 row_2214_1.2 rfl (Mod.mayWrite_rw rfl) rfl

set_option maxRecDepth 40000 in
theorem effect_2215_1 (m : Mod) (bs : Bytes) (x : ObjIn) :
    m.objEffect 0x2215 1 bs x =
      onlyOne (leNat bs) m (m.go 6 x.variants x.barrier.programs) := by
  unfold Mod.objEffect
  rfl

set_option maxRecDepth 40000 in
theorem row_2215_1 :
    objExists 0x2215 = true ∧ objRow 0x2215 1 = some ⟨0x2210, 7, 0x01, 1, .u8, .wo, 0⟩ := by decide

theorem check_2215_1 (m : Mod) : m.writeCheck 0x2215 1 1 = 0 :=
  Mod.writeCheck_pass row_2215_1.1 row_2215_1.2 rfl (Mod.mayWrite_rw rfl) rfl

set_option maxRecDepth 40000 in
theorem effect_2216_1 (m : Mod) (bs : Bytes) (x : ObjIn) :
    m.objEffect 0x2216 1 bs x =
      onlyOne (leNat bs) m (m.go 7 x.variants x.barrier.programs) := by
  unfold Mod.objEffect
  rfl

set_option maxRecDepth 40000 in
theorem row_2216_1 :
    objExists 0x2216 = true ∧ objRow 0x2216 1 = some ⟨0x2210, 7, 0x01, 1, .u8, .wo, 0⟩ := by decide

theorem check_2216_1 (m : Mod) : m.writeCheck 0x2216 1 1 = 0 :=
  Mod.writeCheck_pass row_2216_1.1 row_2216_1.2 rfl (Mod.mayWrite_rw rfl) rfl

set_option maxRecDepth 40000 in
theorem effect_2400_1 (m : Mod) (bs : Bytes) (x : ObjIn) :
    m.objEffect 0x2400 1 bs x =
      if unitExists (BitVec.ofNat 32 (leNat bs)) then
        (0, { m with units := { m.units with unitSelect := BitVec.ofNat 32 (leNat bs) } })
      else (abValue, m) := by
  unfold Mod.objEffect
  rfl

set_option maxRecDepth 40000 in
theorem row_2400_1 :
    objExists 0x2400 = true ∧ objRow 0x2400 1 = some ⟨0x2400, 1, 0x01, 1, .u32, .rw, 0⟩ := by decide

theorem check_2400_1 (m : Mod) : m.writeCheck 0x2400 1 4 = 0 :=
  Mod.writeCheck_pass row_2400_1.1 row_2400_1.2 rfl (Mod.mayWrite_rw rfl) rfl

set_option maxRecDepth 40000 in
theorem effect_2402_0 (m : Mod) (bs : Bytes) (x : ObjIn) :
    m.objEffect 0x2402 0 bs x =
      onlyOne (leNat bs) m (0, m.mismatchClear) := by
  unfold Mod.objEffect
  rfl

set_option maxRecDepth 40000 in
theorem row_2402_0 :
    objExists 0x2402 = true ∧ objRow 0x2402 0 = some ⟨0x2402, 1, 0x00, 1, .u8, .wo, 0⟩ := by decide

theorem check_2402_0 (m : Mod) : m.writeCheck 0x2402 0 1 = 0 :=
  Mod.writeCheck_pass row_2402_0.1 row_2402_0.2 rfl (Mod.mayWrite_rw rfl) rfl

set_option maxRecDepth 40000 in
theorem effect_2480_1 (m : Mod) (bs : Bytes) (x : ObjIn) :
    m.objEffect 0x2480 1 bs x =
      m.resetCmd (BitVec.ofNat 16 (leNat bs)) := by
  unfold Mod.objEffect
  rfl

set_option maxRecDepth 40000 in
theorem row_2480_1 :
    objExists 0x2480 = true ∧ objRow 0x2480 1 = some ⟨0x2480, 1, 0x01, 1, .u16, .wo, 0⟩ := by decide

theorem check_2480_1 (m : Mod) : m.writeCheck 0x2480 1 2 = 0 :=
  Mod.writeCheck_pass row_2480_1.1 row_2480_1.2 rfl (Mod.mayWrite_rw rfl) rfl

set_option maxRecDepth 40000 in
theorem effect_2820_1 (m : Mod) (bs : Bytes) (x : ObjIn) :
    m.objEffect 0x2820 1 bs x =
      inRange 35 160 (leNat bs) m
        (0, ({ m with power := { m.power with paceLimit := BitVec.ofNat 8 (leNat bs) } } : Mod).repace) := by
  unfold Mod.objEffect
  rfl

set_option maxRecDepth 40000 in
theorem row_2820_1 :
    objExists 0x2820 = true ∧ objRow 0x2820 1 = some ⟨0x2820, 1, 0x01, 1, .u8, .rw, 0⟩ := by decide

theorem check_2820_1 (m : Mod) : m.writeCheck 0x2820 1 1 = 0 :=
  Mod.writeCheck_pass row_2820_1.1 row_2820_1.2 rfl (Mod.mayWrite_rw rfl) rfl

set_option maxRecDepth 40000 in
theorem effect_2830_1 (m : Mod) (bs : Bytes) (x : ObjIn) :
    m.objEffect 0x2830 1 bs x =
      inRange 650 3000 (leNat bs) m 
        (0, { m with power := { m.power with capNext := some (BitVec.ofNat 16 (leNat bs)) } }) := by
  unfold Mod.objEffect
  rfl

set_option maxRecDepth 40000 in
theorem row_2830_1 :
    objExists 0x2830 = true ∧ objRow 0x2830 1 = some ⟨0x2830, 1, 0x01, 1, .u16, .rw, 0⟩ := by decide

theorem check_2830_1 (m : Mod) : m.writeCheck 0x2830 1 2 = 0 :=
  Mod.writeCheck_pass row_2830_1.1 row_2830_1.2 rfl (Mod.mayWrite_rw rfl) rfl

set_option maxRecDepth 40000 in
theorem effect_3000_2 (m : Mod) (bs : Bytes) (x : ObjIn) :
    m.objEffect 0x3000 2 bs x =
      onlyOne (leNat bs) m m.placeCommit := by
  unfold Mod.objEffect
  rfl

set_option maxRecDepth 40000 in
theorem row_3000_2 :
    objExists 0x3000 = true ∧ objRow 0x3000 2 = some ⟨0x3000, 1, 0x02, 1, .u8, .wo, 0⟩ := by decide

theorem check_3000_2 (m : Mod) : m.writeCheck 0x3000 2 1 = 0 :=
  Mod.writeCheck_pass row_3000_2.1 row_3000_2.2 rfl (Mod.mayWrite_rw rfl) rfl

set_option maxRecDepth 40000 in
theorem effect_3040_1 (m : Mod) (bs : Bytes) (x : ObjIn) :
    m.objEffect 0x3040 1 bs x =
      inRange 0 1 (leNat bs) m (m.setTest (leNat bs == 1)) := by
  unfold Mod.objEffect
  rfl

set_option maxRecDepth 40000 in
theorem row_3040_1 :
    objExists 0x3040 = true ∧ objRow 0x3040 1 = some ⟨0x3040, 1, 0x01, 1, .u8, .auth, 2⟩ := by decide

theorem check_3040_1 (m : Mod) (h : m.hasRight 2 = true) : m.writeCheck 0x3040 1 1 = 0 :=
  Mod.writeCheck_pass row_3040_1.1 row_3040_1.2 rfl (by simpa [Mod.mayWrite] using h) rfl

theorem noauth_3040_1 (m : Mod) (n : Nat) (h : m.hasRight 2 = false) : m.writeCheck 0x3040 1 n = 0x08000020 :=
  Mod.writeCheck_auth row_3040_1.1 row_3040_1.2 rfl (by simpa [Mod.mayWrite] using h)

set_option maxRecDepth 40000 in
theorem effect_3040_5 (m : Mod) (bs : Bytes) (x : ObjIn) :
    m.objEffect 0x3040 5 bs x =
      inRange 1 3 (leNat bs) m (m.testCmd (leNat bs)) := by
  unfold Mod.objEffect
  rfl

set_option maxRecDepth 40000 in
theorem row_3040_5 :
    objExists 0x3040 = true ∧ objRow 0x3040 5 = some ⟨0x3040, 1, 0x05, 1, .u8, .wo, 0⟩ := by decide

theorem check_3040_5 (m : Mod) : m.writeCheck 0x3040 5 1 = 0 :=
  Mod.writeCheck_pass row_3040_5.1 row_3040_5.2 rfl (Mod.mayWrite_rw rfl) rfl

set_option maxRecDepth 40000 in
theorem effect_3803_0 (m : Mod) (bs : Bytes) (x : ObjIn) :
    m.objEffect 0x3803 0 bs x =
      if 35 < leNat bs then (abValue, m) else (0, m.portRetrainReq (leNat bs)) := by
  unfold Mod.objEffect
  rfl

set_option maxRecDepth 40000 in
theorem row_3803_0 :
    objExists 0x3803 = true ∧ objRow 0x3803 0 = some ⟨0x3803, 1, 0x00, 1, .u8, .wo, 0⟩ := by decide

theorem check_3803_0 (m : Mod) : m.writeCheck 0x3803 0 1 = 0 :=
  Mod.writeCheck_pass row_3803_0.1 row_3803_0.2 rfl (Mod.mayWrite_rw rfl) rfl

set_option maxRecDepth 40000 in
theorem effect_3841_0 (m : Mod) (bs : Bytes) (x : ObjIn) :
    m.objEffect 0x3841 0 bs x =
      onlyOne (leNat bs) m (0, m.jnlRetrainReq) := by
  unfold Mod.objEffect
  rfl

set_option maxRecDepth 40000 in
theorem row_3841_0 :
    objExists 0x3841 = true ∧ objRow 0x3841 0 = some ⟨0x3841, 1, 0x00, 1, .u8, .wo, 0⟩ := by decide

theorem check_3841_0 (m : Mod) : m.writeCheck 0x3841 0 1 = 0 :=
  Mod.writeCheck_pass row_3841_0.1 row_3841_0.2 rfl (Mod.mayWrite_rw rfl) rfl

set_option maxRecDepth 40000 in
theorem effect_3880_5 (m : Mod) (bs : Bytes) (x : ObjIn) :
    m.objEffect 0x3880 5 bs x =
      onlyOne (leNat bs) m (0, m.fiArm) := by
  unfold Mod.objEffect
  rfl

set_option maxRecDepth 40000 in
theorem row_3880_5 :
    objExists 0x3880 = true ∧ objRow 0x3880 5 = some ⟨0x3880, 1, 0x05, 1, .u8, .auth, 2⟩ := by decide

theorem check_3880_5 (m : Mod) (h : m.hasRight 2 = true) : m.writeCheck 0x3880 5 1 = 0 :=
  Mod.writeCheck_pass row_3880_5.1 row_3880_5.2 rfl (by simpa [Mod.mayWrite] using h) rfl

theorem noauth_3880_5 (m : Mod) (n : Nat) (h : m.hasRight 2 = false) : m.writeCheck 0x3880 5 n = 0x08000020 :=
  Mod.writeCheck_auth row_3880_5.1 row_3880_5.2 rfl (by simpa [Mod.mayWrite] using h)

set_option maxRecDepth 40000 in
theorem effect_3C00_5 (m : Mod) (bs : Bytes) (x : ObjIn) :
    m.objEffect 0x3C00 5 bs x =
      onlyOne (leNat bs) m (0, m.safeReq) := by
  unfold Mod.objEffect
  rfl

set_option maxRecDepth 40000 in
theorem row_3C00_5 :
    objExists 0x3C00 = true ∧ objRow 0x3C00 5 = some ⟨0x3C00, 1, 0x05, 1, .u8, .auth, 0⟩ := by decide

theorem check_3C00_5 (m : Mod) (h : m.hasRight 0 = true) : m.writeCheck 0x3C00 5 1 = 0 :=
  Mod.writeCheck_pass row_3C00_5.1 row_3C00_5.2 rfl (by simpa [Mod.mayWrite] using h) rfl

theorem noauth_3C00_5 (m : Mod) (n : Nat) (h : m.hasRight 0 = false) : m.writeCheck 0x3C00 5 n = 0x08000020 :=
  Mod.writeCheck_auth row_3C00_5.1 row_3C00_5.2 rfl (by simpa [Mod.mayWrite] using h)

set_option maxRecDepth 40000 in
theorem effect_3C20_1 (m : Mod) (bs : Bytes) (x : ObjIn) :
    m.objEffect 0x3C20 1 bs x =
      ((if (m.fpPlan (BitVec.ofNat 64 (leNat bs))).1 then 0 else abValue),
        (m.fpPlan (BitVec.ofNat 64 (leNat bs))).2) := by
  unfold Mod.objEffect
  rfl

set_option maxRecDepth 40000 in
theorem row_3C20_1 :
    objExists 0x3C20 = true ∧ objRow 0x3C20 1 = some ⟨0x3C20, 1, 0x01, 1, .u64, .rw, 0⟩ := by decide

theorem check_3C20_1 (m : Mod) : m.writeCheck 0x3C20 1 8 = 0 :=
  Mod.writeCheck_pass row_3C20_1.1 row_3C20_1.2 rfl (Mod.mayWrite_rw rfl) rfl

set_option maxRecDepth 40000 in
theorem effect_3C20_4 (m : Mod) (bs : Bytes) (x : ObjIn) :
    m.objEffect 0x3C20 4 bs x =
      if 2 < field (leNat bs) 16 8 ∨ m.fpr.shards.length ≤ field (leNat bs) 0 16 then (abValue, m)
      else if m.passKnown (field (leNat bs) 32 32) = false then (abState, m)
      else (0, m.fpVerdict (BitVec.ofNat 64 (leNat bs) &&& 0xFFFFFFFF00FFFFFF#64)) := by
  unfold Mod.objEffect
  rfl

set_option maxRecDepth 40000 in
theorem row_3C20_4 :
    objExists 0x3C20 = true ∧ objRow 0x3C20 4 = some ⟨0x3C20, 1, 0x04, 1, .u64, .rw, 0⟩ := by decide

theorem check_3C20_4 (m : Mod) : m.writeCheck 0x3C20 4 8 = 0 :=
  Mod.writeCheck_pass row_3C20_4.1 row_3C20_4.2 rfl (Mod.mayWrite_rw rfl) rfl

set_option maxRecDepth 40000 in
theorem effect_4001_4 (m : Mod) (bs : Bytes) (x : ObjIn) :
    m.objEffect 0x4001 4 bs x =
      onlyOne (leNat bs) m (0, m.ffClear) := by
  unfold Mod.objEffect
  rfl

set_option maxRecDepth 40000 in
theorem row_4001_4 :
    objExists 0x4001 = true ∧ objRow 0x4001 4 = some ⟨0x4001, 1, 0x04, 1, .u8, .auth, 0⟩ := by decide

theorem check_4001_4 (m : Mod) (h : m.hasRight 0 = true) : m.writeCheck 0x4001 4 1 = 0 :=
  Mod.writeCheck_pass row_4001_4.1 row_4001_4.2 rfl (by simpa [Mod.mayWrite] using h) rfl

theorem noauth_4001_4 (m : Mod) (n : Nat) (h : m.hasRight 0 = false) : m.writeCheck 0x4001 4 n = 0x08000020 :=
  Mod.writeCheck_auth row_4001_4.1 row_4001_4.2 rfl (by simpa [Mod.mayWrite] using h)

set_option maxRecDepth 40000 in
theorem effect_4400_1 (m : Mod) (bs : Bytes) (x : ObjIn) :
    m.objEffect 0x4400 1 bs x =
      if 7 < leNat bs then (abValue, m) else (0, m.setProfile (BitVec.ofNat 8 (leNat bs))) := by
  unfold Mod.objEffect
  rfl

set_option maxRecDepth 40000 in
theorem row_4400_1 :
    objExists 0x4400 = true ∧ objRow 0x4400 1 = some ⟨0x4400, 1, 0x01, 1, .u8, .auth, 0⟩ := by decide

theorem check_4400_1 (m : Mod) (h : m.hasRight 0 = true) : m.writeCheck 0x4400 1 1 = 0 :=
  Mod.writeCheck_pass row_4400_1.1 row_4400_1.2 rfl (by simpa [Mod.mayWrite] using h) rfl

theorem noauth_4400_1 (m : Mod) (n : Nat) (h : m.hasRight 0 = false) : m.writeCheck 0x4400 1 n = 0x08000020 :=
  Mod.writeCheck_auth row_4400_1.1 row_4400_1.2 rfl (by simpa [Mod.mayWrite] using h)

set_option maxRecDepth 40000 in
theorem effect_4400_5 (m : Mod) (bs : Bytes) (x : ObjIn) :
    m.objEffect 0x4400 5 bs x =
      onlyOne (leNat bs) m (0, m.svnCommit) := by
  unfold Mod.objEffect
  rfl

set_option maxRecDepth 40000 in
theorem row_4400_5 :
    objExists 0x4400 = true ∧ objRow 0x4400 5 = some ⟨0x4400, 1, 0x05, 1, .u8, .auth, 0⟩ := by decide

theorem check_4400_5 (m : Mod) (h : m.hasRight 0 = true) : m.writeCheck 0x4400 5 1 = 0 :=
  Mod.writeCheck_pass row_4400_5.1 row_4400_5.2 rfl (by simpa [Mod.mayWrite] using h) rfl

theorem noauth_4400_5 (m : Mod) (n : Nat) (h : m.hasRight 0 = false) : m.writeCheck 0x4400 5 n = 0x08000020 :=
  Mod.writeCheck_auth row_4400_5.1 row_4400_5.2 rfl (by simpa [Mod.mayWrite] using h)

set_option maxRecDepth 40000 in
theorem effect_4401_7 (m : Mod) (bs : Bytes) (x : ObjIn) :
    m.objEffect 0x4401 7 bs x =
      inRange 1 15 (leNat bs) m (m.fwRevoke (BitVec.ofNat 8 (leNat bs))) := by
  unfold Mod.objEffect
  rfl

set_option maxRecDepth 40000 in
theorem row_4401_7 :
    objExists 0x4401 = true ∧ objRow 0x4401 7 = some ⟨0x4401, 1, 0x07, 1, .u8, .auth, 0⟩ := by decide

theorem check_4401_7 (m : Mod) (h : m.hasRight 0 = true) : m.writeCheck 0x4401 7 1 = 0 :=
  Mod.writeCheck_pass row_4401_7.1 row_4401_7.2 rfl (by simpa [Mod.mayWrite] using h) rfl

theorem noauth_4401_7 (m : Mod) (n : Nat) (h : m.hasRight 0 = false) : m.writeCheck 0x4401 7 n = 0x08000020 :=
  Mod.writeCheck_auth row_4401_7.1 row_4401_7.2 rfl (by simpa [Mod.mayWrite] using h)

set_option maxRecDepth 40000 in
theorem effect_4410_3 (m : Mod) (bs : Bytes) (x : ObjIn) :
    m.objEffect 0x4410 3 bs x =
      (0, m.setOwnerKey bs) := by
  unfold Mod.objEffect
  rfl

set_option maxRecDepth 40000 in
theorem row_4410_3 :
    objExists 0x4410 = true ∧ objRow 0x4410 3 = some ⟨0x4410, 1, 0x03, 1, (.oct 64), .auth, 0⟩ := by decide

theorem check_4410_3 (m : Mod) (h : m.ownerMayWrite = true) : m.writeCheck 0x4410 3 64 = 0 :=
  Mod.writeCheck_pass row_4410_3.1 row_4410_3.2 rfl (by simpa [Mod.mayWrite] using h) rfl

theorem noauth_4410_3 (m : Mod) (n : Nat) (h : m.ownerMayWrite = false) : m.writeCheck 0x4410 3 n = 0x08000020 :=
  Mod.writeCheck_auth row_4410_3.1 row_4410_3.2 rfl (by simpa [Mod.mayWrite] using h)

set_option maxRecDepth 40000 in
theorem effect_4410_4 (m : Mod) (bs : Bytes) (x : ObjIn) :
    m.objEffect 0x4410 4 bs x =
      (0, m.setImageKey bs) := by
  unfold Mod.objEffect
  rfl

set_option maxRecDepth 40000 in
theorem row_4410_4 :
    objExists 0x4410 = true ∧ objRow 0x4410 4 = some ⟨0x4410, 1, 0x04, 1, (.oct 64), .auth, 0⟩ := by decide

theorem check_4410_4 (m : Mod) (h : m.hasRight 0 = true) : m.writeCheck 0x4410 4 64 = 0 :=
  Mod.writeCheck_pass row_4410_4.1 row_4410_4.2 rfl (by simpa [Mod.mayWrite] using h) rfl

theorem noauth_4410_4 (m : Mod) (n : Nat) (h : m.hasRight 0 = false) : m.writeCheck 0x4410 4 n = 0x08000020 :=
  Mod.writeCheck_auth row_4410_4.1 row_4410_4.2 rfl (by simpa [Mod.mayWrite] using h)

set_option maxRecDepth 40000 in
theorem effect_4420_2 (m : Mod) (bs : Bytes) (x : ObjIn) :
    m.objEffect 0x4420 2 bs x =
      onlyOne (leNat bs) m m.attGo := by
  unfold Mod.objEffect
  rfl

set_option maxRecDepth 40000 in
theorem row_4420_2 :
    objExists 0x4420 = true ∧ objRow 0x4420 2 = some ⟨0x4420, 1, 0x02, 1, .u8, .wo, 0⟩ := by decide

theorem check_4420_2 (m : Mod) : m.writeCheck 0x4420 2 1 = 0 :=
  Mod.writeCheck_pass row_4420_2.1 row_4420_2.2 rfl (Mod.mayWrite_rw rfl) rfl

set_option maxRecDepth 40000 in
theorem effect_4430_1 (m : Mod) (bs : Bytes) (x : ObjIn) :
    m.objEffect 0x4430 1 bs x =
      m.authReq (BitVec.ofNat 32 (leNat bs)) := by
  unfold Mod.objEffect
  rfl

set_option maxRecDepth 40000 in
theorem row_4430_1 :
    objExists 0x4430 = true ∧ objRow 0x4430 1 = some ⟨0x4430, 1, 0x01, 1, .u32, .wo, 0⟩ := by decide

theorem check_4430_1 (m : Mod) : m.writeCheck 0x4430 1 4 = 0 :=
  Mod.writeCheck_pass row_4430_1.1 row_4430_1.2 rfl (Mod.mayWrite_rw rfl) rfl

set_option maxRecDepth 40000 in
theorem effect_4430_3 (m : Mod) (bs : Bytes) (x : ObjIn) :
    m.objEffect 0x4430 3 bs x =
      m.authResponse bs := by
  unfold Mod.objEffect
  rfl

set_option maxRecDepth 40000 in
theorem row_4430_3 :
    objExists 0x4430 = true ∧ objRow 0x4430 3 = some ⟨0x4430, 1, 0x03, 1, (.oct 64), .wo, 0⟩ := by decide

theorem check_4430_3 (m : Mod) : m.writeCheck 0x4430 3 64 = 0 :=
  Mod.writeCheck_pass row_4430_3.1 row_4430_3.2 rfl (Mod.mayWrite_rw rfl) rfl

set_option maxRecDepth 40000 in
theorem effect_4430_5 (m : Mod) (bs : Bytes) (x : ObjIn) :
    m.objEffect 0x4430 5 bs x =
      onlyOne (leNat bs) m (0, m.authClose) := by
  unfold Mod.objEffect
  rfl

set_option maxRecDepth 40000 in
theorem row_4430_5 :
    objExists 0x4430 = true ∧ objRow 0x4430 5 = some ⟨0x4430, 1, 0x05, 1, .u8, .wo, 0⟩ := by decide

theorem check_4430_5 (m : Mod) : m.writeCheck 0x4430 5 1 = 0 :=
  Mod.writeCheck_pass row_4430_5.1 row_4430_5.2 rfl (Mod.mayWrite_rw rfl) rfl

set_option maxRecDepth 40000 in
theorem effect_4440_3 (m : Mod) (bs : Bytes) (x : ObjIn) :
    m.objEffect 0x4440 3 bs x =
      m.fwChunk bs := by
  unfold Mod.objEffect
  rfl

set_option maxRecDepth 40000 in
theorem row_4440_3 :
    objExists 0x4440 = true ∧ objRow 0x4440 3 = some ⟨0x4440, 1, 0x03, 1, .bytes, .wo, 0⟩ := by decide

theorem check_4440_3 (m : Mod) (n : Nat) (hn : n ≤ 4096) : m.writeCheck 0x4440 3 n = 0 :=
  Mod.writeCheck_pass row_4440_3.1 row_4440_3.2 rfl (Mod.mayWrite_rw rfl) (by simpa [ObjTy.takes, ObjTy.len] using hn)

set_option maxRecDepth 40000 in
theorem effect_4440_4 (m : Mod) (bs : Bytes) (x : ObjIn) :
    m.objEffect 0x4440 4 bs x =
      onlyOne (leNat bs) m m.fwCommit := by
  unfold Mod.objEffect
  rfl

set_option maxRecDepth 40000 in
theorem row_4440_4 :
    objExists 0x4440 = true ∧ objRow 0x4440 4 = some ⟨0x4440, 1, 0x04, 1, .u8, .wo, 0⟩ := by decide

theorem check_4440_4 (m : Mod) : m.writeCheck 0x4440 4 1 = 0 :=
  Mod.writeCheck_pass row_4440_4.1 row_4440_4.2 rfl (Mod.mayWrite_rw rfl) rfl

set_option maxRecDepth 40000 in
theorem effect_4450_1 (m : Mod) (bs : Bytes) (x : ObjIn) :
    m.objEffect 0x4450 1 bs x =
      inRange 0 1 (leNat bs) m (m.setDbgHalt (BitVec.ofNat 8 (leNat bs))) := by
  unfold Mod.objEffect
  rfl

set_option maxRecDepth 40000 in
theorem row_4450_1 :
    objExists 0x4450 = true ∧ objRow 0x4450 1 = some ⟨0x4450, 1, 0x01, 1, .u8, .auth, 1⟩ := by decide

theorem check_4450_1 (m : Mod) (h : m.hasRight 1 = true) : m.writeCheck 0x4450 1 1 = 0 :=
  Mod.writeCheck_pass row_4450_1.1 row_4450_1.2 rfl (by simpa [Mod.mayWrite] using h) rfl

theorem noauth_4450_1 (m : Mod) (n : Nat) (h : m.hasRight 1 = false) : m.writeCheck 0x4450 1 n = 0x08000020 :=
  Mod.writeCheck_auth row_4450_1.1 row_4450_1.2 rfl (by simpa [Mod.mayWrite] using h)

set_option maxRecDepth 40000 in
theorem effect_4800_2 (m : Mod) (bs : Bytes) (x : ObjIn) :
    m.objEffect 0x4800 2 bs x =
      m.setLeaSize (BitVec.ofNat 16 (leNat bs)) := by
  unfold Mod.objEffect
  rfl

set_option maxRecDepth 40000 in
theorem row_4800_2 :
    objExists 0x4800 = true ∧ objRow 0x4800 2 = some ⟨0x4800, 1, 0x02, 1, .u16, .rw, 0⟩ := by decide

theorem check_4800_2 (m : Mod) : m.writeCheck 0x4800 2 2 = 0 :=
  Mod.writeCheck_pass row_4800_2.1 row_4800_2.2 rfl (Mod.mayWrite_rw rfl) rfl

set_option maxRecDepth 40000 in
theorem effect_4800_7 (m : Mod) (bs : Bytes) (x : ObjIn) :
    m.objEffect 0x4800 7 bs x =
      onlyOne (leNat bs) m m.leaCommit := by
  unfold Mod.objEffect
  rfl

set_option maxRecDepth 40000 in
theorem row_4800_7 :
    objExists 0x4800 = true ∧ objRow 0x4800 7 = some ⟨0x4800, 1, 0x07, 1, .u8, .wo, 0⟩ := by decide

theorem check_4800_7 (m : Mod) : m.writeCheck 0x4800 7 1 = 0 :=
  Mod.writeCheck_pass row_4800_7.1 row_4800_7.2 rfl (Mod.mayWrite_rw rfl) rfl

set_option maxRecDepth 40000 in
theorem effect_4801_1 (m : Mod) (bs : Bytes) (x : ObjIn) :
    m.objEffect 0x4801 1 bs x =
      if leNat bs = 1 then (0, m.leaStart x.barrier) else if leNat bs = 2 then (0, m.leaLeave) else (abValue, m) := by
  unfold Mod.objEffect
  rfl

set_option maxRecDepth 40000 in
theorem row_4801_1 :
    objExists 0x4801 = true ∧ objRow 0x4801 1 = some ⟨0x4801, 1, 0x01, 1, .u8, .wo, 0⟩ := by decide

theorem check_4801_1 (m : Mod) : m.writeCheck 0x4801 1 1 = 0 :=
  Mod.writeCheck_pass row_4801_1.1 row_4801_1.2 rfl (Mod.mayWrite_rw rfl) rfl

set_option maxRecDepth 40000 in
theorem effect_4801_2 (m : Mod) (bs : Bytes) (x : ObjIn) :
    m.objEffect 0x4801 2 bs x =
      onlyOne (leNat bs) m
        (if m.lea.st = .running then (0, { m with lea := { m.lea with stopReq := true } }) else (abState, m)) := by
  unfold Mod.objEffect
  rfl

set_option maxRecDepth 40000 in
theorem row_4801_2 :
    objExists 0x4801 = true ∧ objRow 0x4801 2 = some ⟨0x4801, 1, 0x02, 1, .u8, .wo, 0⟩ := by decide

theorem check_4801_2 (m : Mod) : m.writeCheck 0x4801 2 1 = 0 :=
  Mod.writeCheck_pass row_4801_2.1 row_4801_2.2 rfl (Mod.mayWrite_rw rfl) rfl

end Sys2Proof.Machine
end

