-- ==== Sys2Proof/WellFormed.lean ====
section
/-!
DEFINITION. Which terms are commands: the relations between operands that their types do not say. The meanings are total,
and take any term.
-/
namespace Sys2Proof

open Machine

/-- A register write has 4 or 8 bytes and is aligned to them (R11, R374). -/
def regForm (addr : Nat) (data : Bytes) : Bool :=
  decide ((data.length = 4 ∨ data.length = 8) ∧ addr % data.length = 0)

/-- An access lies in the window of 64 MiB (R373), or in the 52-bit address space (R9). -/
def placeForm (window : Bool) (addr len : Nat) : Bool := decide (addr + len ≤ if window then 2 ^ 26 else 2 ^ 52)

/-- An expedited request carries all of its data: at most 4 bytes, or 56 in an FD frame (R390). -/
def sdoForm (fd : Bool) (size : Nat) (data : Option Bytes) : Bool :=
  match data with
  | none => true
  | some bs => decide (bs.length = size ∧ size ≤ if fd then 56 else 4)

/-- Errors on the bridge fall within the 36 bytes of a code word (R206). -/
def errForm (err : Bytes) : Bool := decide (err.length ≤ 36)

/-- An upset falls on a word that the store has: 65,536 words of tile memory (R164), 98,304 of Loam (R167), 2,048 of side
memory (R320); a residue on a logical row and column of an array (R62). -/
def upsetForm : Upset → Bool
  | .flip _ store word _ => decide (word < if store.val = 0 then 65536 else if store.val = 1 then 98304 else 2048)
  | .cross _ masks => decide (masks.length ≤ 65536)
  | .margin _ _ => true
  | .residue _ _ row col => decide (row < 16 ∧ col < 512)

/-- Every upset of a step has its form. -/
def upsetsForm (ups : List Upset) : Bool := ups.all upsetForm

/-- A window's first passing tap is not after its last (R175). -/
def windowsForm (ws : List CrossWindow) : Bool := ws.all (fun w => decide (w.lo ≤ w.hi))

/-- One verdict for a sequence, one prefill count for a sequence, one value for a store word. -/
def barrierForm (x : BarrierIn) : Bool :=
  windowsForm x.windows && decide (x.close.prefill.map (fun e => e.1)).Nodup && decide (x.programs.map (fun e => e.1)).Nodup
  && (match x.close.decode with
    | none => true
    | some vs => decide (vs.map (fun v => v.entry)).Nodup)

/-- What comes with a write fits. -/
def objForm (x : ObjIn) : Bool := barrierForm x.barrier

/-- A scan reads 64 diodes in each Loam layer, 16 in the cap and 48 in the stacks (R445). -/
def sensorForm (r : SensorReadings) : Bool :=
  decide (r.loam1.length = 64 ∧ r.loam2.length = 64 ∧ r.cap.length = 16 ∧ r.memStacks.length = 48)
  && r.cells.all (fun e => decide (e.1 < 4704))


/-- The operands of a command fit each other: lengths, ranges and alignment, as the spec gives the command its form. -/
def Instr.wf : Instr → Bool
  | .registerWrite window addr data _ _ => regForm addr.toNat data && placeForm window addr.toNat data.length
  | .unassignedAccess window write addr len data => placeForm window addr.toNat (if write then data.length else len)
      && decide (len ≤ 4096 ∧ data.length ≤ 4096)
  | .sdoDownload _ fd _ _ size data input => sdoForm fd size data && objForm input
  | .sdoUpload _ _ _ _ => true
  | .sdoSegment fd data _ input => decide (data.length ≤ if fd then 56 else 7) && objForm input
  | .sdoSegmentTimeout => true
  | .inputPowerLost => true
  | .boot _ _ _ => true
  | .retire _ _ => true
  | .permitPeriod _ => true
  | .programStep ups hosts _ => upsetsForm ups && decide (hosts.map (fun h => h.1)).Nodup
  | .bundleFetch _ count => decide (0 < count)
  | .nop => true
  | .loopBegin => true
  | .loopEnd => true
  | .streamEnd => true
  | .restart => true
  | .heavyPhaseHint => true
  | .hintRamp => true
  | .boostEnd => true
  | .localBarrier input => barrierForm input
  | .leaBarrier input => barrierForm input
  | .leaPhaseBoundary input => barrierForm input
  | .descriptorArrival _ _ _ => true
  | .adv _ _ => true
  | .advance _ => true
  | .swap _ _ ups => upsetsForm ups
  | .swapSaved _ _ ups => upsetsForm ups
  | .tileDrain _ => true
  | .ctxSave _ => true
  | .ctxRestore _ => true
  | .add _ _ ups => upsetsForm ups
  | .mul _ _ ups => upsetsForm ups
  | .fma _ _ ups _ => upsetsForm ups
  | .max _ _ ups => upsetsForm ups
  | .min _ _ ups => upsetsForm ups
  | .cvt _ _ ups => upsetsForm ups
  | .quant _ _ ups => upsetsForm ups
  | .exp _ _ ups => upsetsForm ups
  | .rcp _ _ ups => upsetsForm ups
  | .rsqrt _ _ ups => upsetsForm ups
  | .rowstat _ _ ups => upsetsForm ups
  | .norm _ _ ups => upsetsForm ups
  | .softmax _ _ ups => upsetsForm ups
  | .softmaxBwd _ _ ups => upsetsForm ups
  | .normBwd _ _ ups => upsetsForm ups
  | .rowsum _ _ ups => upsetsForm ups
  | .rowmax _ _ ups => upsetsForm ups
  | .flagRead _ _ ups => upsetsForm ups
  | .copy _ _ ups => upsetsForm ups
  | .loamIn _ _ ups => upsetsForm ups
  | .loamOut _ _ ups => upsetsForm ups
  | .loamXchg _ _ ups => upsetsForm ups
  | .link _ _ ups => upsetsForm ups
  | .meshTx _ _ ups => upsetsForm ups
  | .meshRx _ _ ups => upsetsForm ups
  | .laneTx _ _ ups => upsetsForm ups
  | .laneRx _ _ ups => upsetsForm ups
  | .gather _ _ ups => upsetsForm ups
  | .issue _ _ _ _ _ _ => true
  | .issueD _ _ _ _ _ _ => true
  | .waitq _ _ => true
  | .postq _ _ _ => true
  | .waittag _ _ => true
  | .debugRead _ => true
  | .leaSize _ _ => true
  | .leaCommit _ _ => true
  | .leaStart _ input => barrierForm input
  | .leave _ => true
  | .stopReq _ _ => true
  | .report _ _ input => barrierForm input
  | .release _ _ input => barrierForm input
  | .alive _ _ input => barrierForm input
  | .abort _ _ input => barrierForm input
  | .aliveTimer => true
  | .neighbourLost _ => true
  | .formationTimeout => true
  | .barrierOverdue => true
  | .tokenResend => true
  | .placeCommit _ _ => true
  | .stackRead _ _ err => errForm err
  | .stackWrite _ data _ _ => decide (0 < data.length)
  | .mergeTimerExpiry _ => true
  | .unsowRequest _ _ => true
  | .scrubRead _ err => errForm err
  | .scrubOverdue _ => true
  | .refresh _ _ => true
  | .testEnable _ _ => true
  | .rawWrite _ => true
  | .rawRead _ => true
  | .decodeRead _ => true
  | .glnCtrlGo _ _ => true
  | .glnCtrlAbort _ _ => true
  | .programStoreWrite _ _ _ => true
  | .programStart _ => true
  | .glnNop _ => true
  | .halt _ => true
  | .jmp _ => true
  | .bz _ => true
  | .loop _ => true
  | .movi _ => true
  | .movhi _ => true
  | .movp _ => true
  | .addi _ => true
  | .glnAdd _ => true
  | .xori _ => true
  | .shli _ => true
  | .putr _ => true
  | .ld _ => true
  | .st _ => true
  | .lds _ => true
  | .ldsa _ => true
  | .latch _ => true
  | .qst _ => true
  | .vins _ => true
  | .lda _ => true
  | .crc _ => true
  | .vadd _ => true
  | .vmul _ => true
  | .vfma _ => true
  | .vmax _ => true
  | .vmin _ => true
  | .vrcp _ => true
  | .vrsq _ => true
  | .vsplat _ => true
  | .vsum _ => true
  | .vamax _ => true
  | .glnWatchdog _ => true
  | .glnCompletion _ _ _ => true
  | .pin _ _ _ => true
  | .unpin _ _ _ => true
  | .fallow _ _ _ => true
  | .clean _ _ _ => true
  | .cleanDrop _ _ _ => true
  | .rickRead _ len _ _ _ err => errForm err && decide (0 < len)
  | .rickWrite _ data _ _ _ _ => decide (0 < data.length)
  | .missFill _ region => decide (region < 0x60000000)
  | .streamBypassTimeout _ _ => true
  | .rickInterval => true
  | .dmaqHead _ _ _ => true
  | .dmaqCtrlEnable _ _ => true
  | .dmaCopy _ _ => true
  | .transpose _ _ => true
  | .scatter _ _ => true
  | .dmaFallow _ _ => true
  | .transferCompletion _ => true
  | .deadlineDue _ _ => true
  | .resetQuiesceTimeout => true
  | .publishWrite _ _ _ => true
  | .seqtFence _ => true
  | .fenceClear _ => true
  | .walk _ _ => true
  | .openSub _ => true
  | .prompt _ => true
  | .publish _ => true
  | .candidates _ => true
  | .closeSub _ => true
  | .leaFlit _ flit _ input => decide (flit.length = 512) && barrierForm input
  | .idleFlit _ flit _ input => decide (flit.length = 512) && barrierForm input
  | .ident _ flit _ => decide (flit.length = 512)
  | .laneReset _ flit _ => decide (flit.length = 512)
  | .linkFlitRepeat _ => true
  | .identTimer => true
  | .replayTimeout _ _ => true
  | .portSignalDetected _ => true
  | .portSignalDone _ => true
  | .portAlignDone _ => true
  | .portStateTimeout _ => true
  | .portCodewordUe _ => true
  | .fecWindow _ corrected received => decide (corrected ≤ received)
  | .retrainReq _ _ => true
  | .leaTransferDue _ _ => true
  | .hdgBeqHead _ _ => true
  | .beWrite _ => true
  | .beAck _ => true
  | .ackTimeout _ => true
  | .jnlIdent flit _ => decide (flit.length = 256)
  | .memoryWrite _ data _ _ => decide (data.length ≤ 8191)
  | .memoryRead _ len _ => decide (len ≤ 8191)
  | .completion _ data _ _ => decide (data.length ≤ 4096)
  | .jnlReplayTimeout => true
  | .jnlSignalDetected => true
  | .jnlSignalDone => true
  | .jnlAlignDone => true
  | .jnlStateTimeout => true
  | .jnlCodewordUe => true
  | .jnlFecWindow corrected received => decide (corrected ≤ received)
  | .jnlRetrainReq _ _ => true
  | .jnlIntPend _ _ => true
  | .jnlIntMask _ _ => true
  | .hrmCopy _ _ data => decide (data.length = 128)
  | .ccmbInHead _ _ => true
  | .mailboxRecord _ => true
  | .mailboxCompletion _ => true
  | .nmtStart => true
  | .nmtStop => true
  | .enterPreOperational => true
  | .resetNode => true
  | .resetCommunication => true
  | .heartbeat => true
  | .consumedHeartbeat _ => true
  | .mgmtHeartbeatLost => true
  | .consumerHb _ _ => true
  | .sync _ => true
  | .tpdoEventTimer _ => true
  | .canBusOff => true
  | .busOffRecovery => true
  | .stateComparison _ => true
  | .forceTimeout => true
  | .mismatchClear _ _ => true
  | .errorRegisterUpdate => true
  | .rails _ _ => true
  | .train _ _ => true
  | .headers _ _ => true
  | .firmware _ _ => true
  | .selfTest _ _ => true
  | .imageLoad _ _ _ => true
  | .start _ _ _ => true
  | .stepCompletion found => windowsForm found.windows && decide (found.memStacks.Nodup)
  | .stepBoundExpiry => true
  | .computeReset _ _ _ => true
  | .lowerDieFullReset _ => true
  | .fullReset _ => true
  | .partialReset _ => true
  | .resetCompletion windows => windowsForm windows
  | .resetN => true
  | .phaseOvercurrent _ _ => true
  | .phaseLimitTimeout => true
  | .regulatorOvercurrent _ _ => true
  | .railToleranceTimeout _ _ => true
  | .inputUndervoltage => true
  | .undervoltRecovery => true
  | .telemetryWindow measured => decide (measured.railMv.length = 7 ∧ measured.current.length = 45 ∧
      measured.senseMv.length = 16)
  | .capW _ _ => true
  | .paceLimit _ _ => true
  | .slewComplete => true
  | .droop _ => true
  | .severeDroop _ _ => true
  | .droopCleared => true
  | .droopReductionEnd => true
  | .crossingStallEnd _ windows => windowsForm windows
  | .ageingCheck _ => true
  | .hotSpotSample pairs => decide (pairs.length = 128)
  | .sensorScan readings => sensorForm readings
  | .crossLayerEstimate => true
  | .thermalWindow => true
  | .flowSample _ _ _ _ => true
  | .flowAverage => true
  | .lowHeld => true
  | .coolantTempSample _ _ => true
  | .lossComparison => true
  | .mcSignal => true
  | .mcWatchdog => true
  | .safeReq _ _ => true
  | .cairnRecordWrite => true
  | .ffClear _ _ => true
  | .fpPlanAddr _ _ => true
  | .fingerprintPass => true
  | .fpPassLate => true
  | .fpVerdict _ _ => true
  | .fiArm _ _ => true
  | .attGo _ _ => true
  | .attestSigned => true
  | .authReq _ _ => true
  | .authResponse _ _ => true
  | .responseVerified svcKey => decide (svcKey.length = 64)
  | .authClose _ _ => true
  | .durationEnd => true
  | .challengeExpiry => true
  | .lockoutEnd => true
  | .secProfile _ _ => true
  | .svnCommit _ _ => true
  | .fwRevoke _ _ => true
  | .ownerKey _ _ => true
  | .imageKey _ _ => true
  | .fwChunk _ _ => true
  | .fwCommit _ _ => true
  | .dbgHalt _ _ => true
  | .dbgAcc _ => true
  | .refclkLost => true
  | .refclkRestored => true
  | .beFlit _ flit _ input => decide (flit.length = 512) && barrierForm input
  | .jnlFlit flit _ _ => decide (flit.length = 256)
  | .resetNReleased => true
  | .fwCommitVerified => true
  | .tpdoSent _ => true
  | .crossingStall _ => true

end Sys2Proof
end

section
/-!
PROOFS. Register accesses: writes of the registers of the apertures and of the window, and accesses where nothing lies
(R10, R11, R188, R267, R374 to R376).
-/
namespace Sys2Proof.Machine

/-! ### Values of registers -/

/-- A whole register of 8 bytes, at an offset that is aligned, is an access that a register takes. -/
theorem regAligned_regBytes {off : Nat} (h : off % 8 = 0) (v : BitVec 64) : regAligned off (regBytes v).length = true := by
  simp [regAligned, length_regBytes, h]

/-- The apertures begin at a multiple of 8: an offset in them is aligned where its device address is. -/
theorem regAligned_offset {a n : Nat} (lo : 0x8000300000000 ≤ a) :
    regAligned (a - 0x8000300000000) n = decide ((n = 4 ∨ n = 8) ∧ a % n = 0) := by
  refine decide_eq_decide.mpr (and_congr_right fun size => ?_)
  rcases size with rfl | rfl <;> omega

/-- A write of all 8 bytes leaves nothing of the old value. -/
theorem regMerge_regBytes {off : Nat} (h : off % 8 = 0) (old : Nat) (v : BitVec 64) :
    regMerge old off (regBytes v) = v.toNat := by
  have whole : (leBytes 8 old).drop 8 = [] := List.drop_of_length_le (Nat.le_of_eq (length_leBytes 8 old))
  simp [regMerge, h, length_regBytes, whole, leNat_regBytes]

/-- Two saturating steps by 1 are one by 2. -/
theorem satAdd_one_one {w : Nat} (v : BitVec w) : satAdd (satAdd v 1) 1 = satAdd v 2 := by
  have room : 0 < 2 ^ w := Nat.two_pow_pos w
  have inRange : min (v.toNat + 1) (2 ^ w - 1) < 2 ^ w := by omega
  simp only [satAdd, BitVec.toNat_ofNat, Nat.mod_eq_of_lt inRange]
  congr 1
  omega

/-! ### The register apertures -/

theorem regionAt_register {a : Nat} (lo : 0x8000300000000 ≤ a) (hi : a < 0x8000310000000) :
    regionAt a = .register (a - 0x8000300000000) := by
  unfold regionAt
  rw [if_neg (by omega), if_neg (by omega), if_neg (by omega), if_pos ⟨lo, hi⟩]

theorem regionAt_above {a : Nat} (h : 0x8000310000000 ≤ a) : regionAt a = .unassigned := by
  unfold regionAt
  rw [if_neg (by omega), if_neg (by omega), if_neg (by omega), if_neg (by omega)]

theorem regBlock_dma {o : Nat} (lo : 0x2000000 ≤ o) (hi : o < 0x2040000) :
    regBlock o = .dma ((o - 0x2000000) / 0x1000) (o % 0x1000) := by
  unfold regBlock
  rw [if_neg (by omega), if_neg (by omega), if_pos ⟨lo, hi⟩]

/-- A write at a device address of the apertures is one at its offset. -/
theorem Mod.registerWrite_register (m : Mod) {a o : Nat} (ho : o < 0x10000000) (ha : a = 0x8000300000000 + o) (bs : Bytes)
    (writer : BitVec 32) (comps : Nat) :
    m.registerWrite false a bs writer comps = m.regStore o bs writer comps := by
  have region : regionAt a = .register o := by
    rw [regionAt_register (by omega) (by omega), show a - 0x8000300000000 = o by omega]
  simp only [Mod.registerWrite, Bool.false_eq_true, if_false, region]

/-- A write in the registers of the DMA queues that is not of 4 or 8 aligned bytes is discarded and counted. -/
theorem Mod.regStore_dma_misaligned (m : Mod) {o : Nat} (lo : 0x2000000 ≤ o) (hi : o < 0x2040000) {bs : Bytes}
    (h : regAligned o bs.length = false) (writer : BitVec 32) (comps : Nat) :
    m.regStore o bs writer comps = m.countDiscard 2 (regBase + o) := by
  simp [Mod.regStore, Mod.regWrite, regBlock_dma lo hi, h]

/-- A write of a whole register of a DMA queue. -/
theorem Mod.regStore_dma (m : Mod) {q off : Nat} (hq : q < 64) (hoff : off < 0x1000) (h8 : off % 8 = 0) (v : BitVec 64)
    (writer : BitVec 32) (comps : Nat) {n : Mod} (h : m.writeDmaReg q off (regBytes v) comps = some n) :
    m.regStore (0x2000000 + q * 0x1000 + off) (regBytes v) writer comps = n := by
  have block : regBlock (0x2000000 + q * 0x1000 + off) = .dma q off := by
    rw [regBlock_dma (by omega) (by omega)]
    congr 1 <;> omega
  have aligned := regAligned_regBytes (off := 0x2000000 + q * 0x1000 + off) (by omega) v
  simp [Mod.regStore, Mod.regWrite, block, aligned, h]

/-- REGISTER_WRITE of a whole register of a DMA queue, at its device address `base + q * 0x1000`, gives what the register's
own write gives. -/
theorem turns_registerWrite_dma {m n : Mod} (powered : m.boot.powered = true) {base off : Nat}
    (hbase : base = 0x8000302000000 + off) (hoff : off < 0x1000) (h8 : off % 8 = 0) (q : Fin 64) (v : BitVec 64)
    (writer : BitVec 32) (comps : Nat) (h : m.writeDmaReg q.val off (regBytes v) comps = some n) :
    Safety.Turns m (.registerWrite false (BitVec.ofNat 64 (base + q.val * 0x1000)) (regBytes v) writer comps) n := by
  have hq := q.isLt
  apply turns_registerWrite powered
  rw [BitVec.toNat_ofNat, Nat.mod_eq_of_lt (by omega),
    Mod.registerWrite_register m (o := 0x2000000 + q.val * 0x1000 + off) (by omega) (by omega)]
  exact Mod.regStore_dma m hq hoff h8 v writer comps h

/-- DMAQ_RING_BASE takes its value without the reserved bits 5:0. -/
theorem Mod.writeDmaReg_ringBase (m : Mod) (q : Nat) (v : BitVec 64) (comps : Nat) :
    m.writeDmaReg q 0x08 (regBytes v) comps
      = some (m.setDmaq q { m.dmaq q with ringBase := BitVec.ofNat 64 (v.toNat / 64 * 64) }) := by
  have whole : v.toNat - v.toNat % 64 = v.toNat / 64 * 64 := by omega
  simp [Mod.writeDmaReg, Mod.readDmaReg, regMerge_regBytes, whole]

/-- DMAQ_RING_SIZE takes 4 to 16. -/
theorem Mod.writeDmaReg_ringSize (m : Mod) (q : Nat) (v : BitVec 64) (comps : Nat) :
    m.writeDmaReg q 0x10 (regBytes v) comps
      = some (if 4 ≤ v.toNat % 32 ∧ v.toNat % 32 ≤ 16 then m.setDmaq q { m.dmaq q with ringSize := v.setWidth 5 } else m) := by
  have low : BitVec.ofNat 5 v.toNat = v.setWidth 5 := by
    apply BitVec.eq_of_toNat_eq; rw [BitVec.toNat_ofNat, BitVec.toNat_setWidth]
  simp [Mod.writeDmaReg, Mod.readDmaReg, regMerge_regBytes, ringSizeOk, field, low]

/-- DMAQ_STATUS takes nothing. -/
theorem Mod.writeDmaReg_status (m : Mod) (q : Nat) (v : BitVec 64) (comps : Nat) :
    m.writeDmaReg q 0x40 (regBytes v) comps = some m := by
  simp [Mod.writeDmaReg, Mod.readDmaReg]

/-! ### Discarded accesses -/

/-- The first discarded access, at a 52-bit address, leaves the address with the kind of the discard above it; later ones
leave the register as it is. -/
theorem firstDiscard_address (s : Stacks) {a : BitVec 64} (k : Nat) (ha : a.toNat < 2 ^ 52) :
    (if decide (s.mapUnassigned ≠ 0#32 ∨ s.regUnassigned ≠ 0#32 ∨ s.authDiscards ≠ 0#32) then s.firstUnassigned
      else BitVec.ofNat 64 (a.toNat % 2 ^ 52 + k * 2 ^ 52))
      = if s.mapUnassigned = 0#32 ∧ s.regUnassigned = 0#32 ∧ s.authDiscards = 0#32 then a + BitVec.ofNat 64 (k * 2 ^ 52)
        else s.firstUnassigned := by
  have address : BitVec.ofNat 64 (a.toNat % 2 ^ 52 + k * 2 ^ 52) = a + BitVec.ofNat 64 (k * 2 ^ 52) := by
    rw [Nat.mod_eq_of_lt ha, BitVec.ofNat_add, BitVec.ofNat_toNat, BitVec.setWidth_eq]
  have later : (s.mapUnassigned ≠ 0#32 ∨ s.regUnassigned ≠ 0#32 ∨ s.authDiscards ≠ 0#32)
      ↔ ¬ (s.mapUnassigned = 0#32 ∧ s.regUnassigned = 0#32 ∧ s.authDiscards = 0#32) := by
    simp only [ne_eq, Decidable.not_and_iff_not_or_not]
  simp only [decide_eq_true_eq, later]
  by_cases first : s.mapUnassigned = 0#32 ∧ s.regUnassigned = 0#32 ∧ s.authDiscards = 0#32
  · rw [if_neg (not_not_intro first), if_pos first, address]
  · rw [if_pos first, if_neg first]

/-- A write where nothing lies is counted in MAP_UNASSIGNED. -/
theorem Mod.countDiscard_map (m : Mod) {a : BitVec 64} (ha : a.toNat < 2 ^ 52) :
    m.countDiscard 1 a.toNat = { m with memStacks := { m.memStacks with
      mapUnassigned := satAdd m.memStacks.mapUnassigned 1
      firstUnassigned :=
        if m.memStacks.mapUnassigned = 0#32 ∧ m.memStacks.regUnassigned = 0#32 ∧ m.memStacks.authDiscards = 0#32 then
          a + 0x10000000000000#64
        else m.memStacks.firstUnassigned } } := by
  simp only [Mod.countDiscard, firstDiscard_address m.memStacks 1 ha]
  simp

/-- A write of a register that nothing takes is counted in REG_UNASSIGNED. -/
theorem Mod.countDiscard_reg (m : Mod) {a : BitVec 64} (ha : a.toNat < 2 ^ 52) :
    m.countDiscard 2 a.toNat = { m with memStacks := { m.memStacks with
      regUnassigned := satAdd m.memStacks.regUnassigned 1
      firstUnassigned :=
        if m.memStacks.mapUnassigned = 0#32 ∧ m.memStacks.regUnassigned = 0#32 ∧ m.memStacks.authDiscards = 0#32 then
          a + 0x20000000000000#64
        else m.memStacks.firstUnassigned } } := by
  simp only [Mod.countDiscard, firstDiscard_address m.memStacks 2 ha]
  simp

/-! ### The window -/

/-- No program holds a host request outside the sliding aperture. -/
theorem Mod.reqHeldAt_outside (m : Mod) {r : HostReq} (h : ∀ o, winBlock r.off ≠ .aperture o) : m.reqHeldAt r = none := by
  unfold Mod.reqHeldAt
  split
  · next o block => exact absurd block (h o)
  · rfl

/-- While the link is UP and no request is held, a write outside the aperture is served at once. -/
theorem Mod.hostRequest_served {m n : Mod} {r : HostReq} (up : m.jnl.train.st = .up) (free : m.jnl.hostQ = [])
    (fresh : r.heldAt = none) (outside : ∀ o, winBlock r.off ≠ .aperture o) (served : m.serveHost r = n)
    (still : n.jnl.hostQ = []) : m.hostRequest r = n := by
  have emptied : ({ m with jnl := { m.jnl with hostQ := [] } } : Mod) = m := by rw [← free]
  simp [Mod.hostRequest, up, free, Mod.pumpHost, Mod.hostPump, Mod.reqHeldAt_outside _ outside, fresh, emptied, served, still]

theorem Mod.registerWrite_window (m : Mod) (off : Nat) (bs : Bytes) (writer : BitVec 32) (comps : Nat) :
    m.registerWrite true off bs writer comps = m.memoryWritePacket off bs false comps := rfl

theorem Mod.unassignedAccess_windowWrite (m : Mod) (off len : Nat) (bs : Bytes) :
    m.unassignedAccess true true off len bs = m.memoryWritePacket off bs false 0 := rfl

/-- A write of 1 to 4,096 bytes of the host is a request. -/
theorem Mod.memoryWritePacket_request (m : Mod) (off : Nat) {bs : Bytes} (least : 0 < bs.length) (most : bs.length ≤ 4096)
    (ep : Bool) (comps : Nat) :
    m.memoryWritePacket off bs ep comps = m.hostRequest ⟨true, off, bs, 0, ep, 0, comps, none⟩ := by
  have taken : ¬ (bs = [] ∨ 4096 < bs.length) := by
    rw [← List.length_eq_zero_iff]; omega
  rw [Mod.memoryWritePacket, if_neg taken]

/-- While the link is down the window takes no write. -/
theorem Mod.memoryWritePacket_down {m : Mod} (down : m.jnl.train.st ≠ .up) (off : Nat) (bs : Bytes) (ep : Bool)
    (comps : Nat) : m.memoryWritePacket off bs ep comps = m := by
  simp [Mod.memoryWritePacket, Mod.hostRequest, down]

/-- A write of the window's aperture base takes bits 51:20 of its value. -/
theorem Mod.winWrite_apertureBase (m : Mod) (v : BitVec 64) (ep : Bool) (comps : Nat) :
    m.winWrite 0x10 (regBytes v) ep comps
      = { m with jnl := { m.jnl with apertureBase := BitVec.ofNat 64 (v.toNat / 2 ^ 20 % 2 ^ 32 * 2 ^ 20) } } := by
  have block : winBlock 0x10 = .globals 0x10 := rfl
  have aligned : regAligned 0x10 (regBytes v).length = true := regAligned_regBytes rfl v
  simp only [Mod.winWrite, block, Mod.answers, Bool.true_eq_false, if_false, Mod.winReg, aligned, if_true, Mod.writeGlobal,
    Mod.readGlobal, regMerge_regBytes (off := 0x10) rfl, Option.getD_some, field]

/-- The aperture base is no queue: proved for a variable value, which spares the kernel from evaluating the field's own. -/
theorem Mod.hostQ_with_apertureBase (m : Mod) (x : BitVec 64) :
    ({ m with jnl := { m.jnl with apertureBase := x } } : Mod).jnl.hostQ = m.jnl.hostQ := rfl

/-- A request of the host to write the aperture base is one part. -/
theorem Mod.serveHost_apertureBase (m : Mod) (v : BitVec 64) (comps : Nat) :
    m.serveHost ⟨true, 0x10, regBytes v, 0, false, 0, comps, none⟩
      = { m with jnl := { m.jnl with apertureBase := BitVec.ofNat 64 (v.toNat / 2 ^ 20 % 2 ^ 32 * 2 ^ 20) } } := by
  have len : (regBytes v).length = 8 := length_regBytes v
  have block : winBlock 0x10 = .globals 0x10 := by simp [winBlock]
  have onePart : winParts 0x10 8 = [(0x10, 8)] := by simp [winParts, block]
  have whole : (regBytes v).take 8 = regBytes v := List.take_of_length_le (by omega)
  rw [← Mod.winWrite_apertureBase m v false comps]
  simp only [Mod.serveHost, if_true, len, onePart, List.foldl_cons, List.foldl_nil, Nat.sub_self, List.drop_zero, whole]

/-- While the link is UP and no request is held, the host's write of the aperture base takes effect at once. -/
theorem Mod.memoryWritePacket_apertureBase {m : Mod} (up : m.jnl.train.st = .up) (free : m.jnl.hostQ = []) (v : BitVec 64)
    (comps : Nat) :
    m.memoryWritePacket 0x10 (regBytes v) false comps
      = { m with jnl := { m.jnl with apertureBase := BitVec.ofNat 64 (v.toNat / 2 ^ 20 % 2 ^ 32 * 2 ^ 20) } } := by
  have len : (regBytes v).length = 8 := length_regBytes v
  have outside : ∀ o, winBlock 0x10 ≠ .aperture o := by simp [winBlock]
  rw [Mod.memoryWritePacket_request m _ (by omega) (by omega)]
  exact Mod.hostRequest_served up free rfl outside (Mod.serveHost_apertureBase m v comps)
    ((Mod.hostQ_with_apertureBase m _).trans free)

theorem winBlock_none {o : Nat} (lo : 0x600000 ≤ o) (hi : o < 0x800000) : winBlock o = .none := by
  unfold winBlock
  rw [if_neg (by omega), if_neg (by omega), if_neg (by omega), if_neg (by omega), if_neg (by omega), if_neg (by omega),
    if_neg (by omega)]

/-- A write at an unassigned offset of the window only counts. -/
theorem Mod.winWrite_none (m : Mod) {o : Nat} (h : winBlock o = .none) (bs : Bytes) (ep : Bool) (comps : Nat) :
    m.winWrite o bs ep comps = m.unassignedWin := by
  simp [Mod.winWrite, h]

/-- Of a request at an unassigned offset each part counts once: one part, or two where it crosses a 4 KiB boundary. -/
theorem Mod.serveHost_unassigned (m : Mod) {off : Nat} (lo : 0x600000 ≤ off) (hi : off < 0x700000) (bs : Bytes)
    (ep : Bool) (comps : Nat) :
    m.serveHost ⟨true, off, bs, 0, ep, 0, comps, none⟩ = { m with jnl := { m.jnl with
      unassigned := satAdd m.jnl.unassigned (if off % 4096 + bs.length ≤ 4096 then 1 else 2) } } := by
  have begins : winBlock off = .none := winBlock_none lo (by omega)
  have goesOn : winBlock (off + (4096 - off % 4096)) = .none := winBlock_none (by omega) (by omega)
  by_cases fits : off % 4096 + bs.length ≤ 4096
  · have one : bs.length ≤ 4096 - off % 4096 := by omega
    simp [Mod.serveHost, winParts, begins, one, fits, Mod.winWrite_none, Mod.unassignedWin]
  · have two : ¬ bs.length ≤ 4096 - off % 4096 := by omega
    simp [Mod.serveHost, winParts, begins, goesOn, two, fits, Mod.winWrite_none, Mod.unassignedWin, satAdd_one_one]

end Sys2Proof.Machine
end

section
/-!
PROOFS. The statements about register writes and unassigned accesses.
-/
namespace Sys2Proof

open Machine

/-- Settles O9: the address decodes to the register, whose write equation says what it takes. -/
theorem registerWriteGivesFieldsTheirValues : Obligations.RegisterWriteGivesFieldsTheirValues := by
  unfold Obligations.RegisterWriteGivesFieldsTheirValues
  intro m writer comps q powered
  refine ⟨fun v => ⟨?ringBase, ?ringSize, ?status, ?apertureUp, ?apertureDown⟩, ?misaligned⟩
  case ringBase =>
    exact turns_registerWrite_dma powered (off := 0x08) rfl (by decide) rfl q v writer comps
      (Mod.writeDmaReg_ringBase m q.val v comps)
  case ringSize =>
    exact turns_registerWrite_dma powered (off := 0x10) rfl (by decide) rfl q v writer comps
      (Mod.writeDmaReg_ringSize m q.val v comps)
  case status =>
    exact turns_registerWrite_dma powered (off := 0x40) rfl (by decide) rfl q v writer comps
      (Mod.writeDmaReg_status m q.val v comps)
  case apertureUp =>
    intro up free
    apply turns_registerWrite powered
    rw [Mod.registerWrite_window]
    exact Mod.memoryWritePacket_apertureBase up free v comps
  case apertureDown =>
    intro down
    apply turns_registerWrite powered
    rw [Mod.registerWrite_window, Mod.memoryWritePacket_down down]
  case misaligned =>
    intro bs a lo hi ill
    have unaligned : regAligned (a.toNat - 0x8000300000000) bs.length = false := by
      rw [regAligned_offset (by omega)]
      exact decide_eq_false ill
    apply turns_registerWrite powered
    rw [Mod.registerWrite_register m (o := a.toNat - 0x8000300000000) (by omega) (by omega),
      Mod.regStore_dma_misaligned m (by omega) (by omega) unaligned,
      show regBase + (a.toNat - 0x8000300000000) = a.toNat by unfold regBase; omega,
      Mod.countDiscard_reg m (by omega)]

/-- Settles O10: nothing lies at the address, or in the blocks of the window that the request's parts fall in. -/
theorem unassignedAccessIsDiscardedAndCounted : Obligations.UnassignedAccessIsDiscardedAndCounted := by
  unfold Obligations.UnassignedAccessIsDiscardedAndCounted
  intro m a len data powered
  refine ⟨fun lo hi => ⟨?write, ?read⟩, ?window⟩
  case write =>
    apply turns_unassignedAccess powered
    simp [Mod.unassignedAccess, regionAt_above lo, Mod.countDiscard_map m hi]
  case read =>
    apply turns_unassignedAccess powered
    simp [Mod.unassignedAccess, regionAt_above lo]
  case window =>
    intro lo hi up _ free least most
    have block : winBlock a.toNat = .none := winBlock_none lo (by omega)
    apply turns_unassignedAccess powered
    rw [Mod.unassignedAccess_windowWrite, Mod.memoryWritePacket_request m _ least most]
    exact Mod.hostRequest_served up free rfl (by simp [block]) (Mod.serveHost_unassigned m lo hi data false 0) free

end Sys2Proof
end

section
/-!
PROOFS. How a step takes its command, and what no command does without input power (R22, R23).
-/
namespace Sys2Proof.Machine

/-- Every command but BOOT acts on the module alone, and only under input power. -/
theorem exec_on (c : Instr) (notBoot : ∀ straps low ms, c ≠ .boot straps low ms) : ∃ f, ∀ s, exec c s = s.on f := by
  cases c
  case boot straps low ms => exact absurd rfl (notBoot straps low ms)
  all_goals exact ⟨_, fun s => by unfold exec; rfl⟩

end Sys2Proof.Machine

namespace Sys2Proof

open Machine

/-- Settles O1: the step's own equation for a queue that is not empty. -/
theorem stepRunsFrontCommand : Obligations.StepRunsFrontCommand := by
  unfold Obligations.StepRunsFrontCommand
  intro c rest m
  rfl

/-- Settles O3: a command other than BOOT acts through the module's power. -/
theorem nothingHappensWithoutPower : Obligations.NothingHappensWithoutPower := by
  unfold Obligations.NothingHappensWithoutPower
  intro c s unpowered notBoot
  obtain ⟨f, acts⟩ := exec_on c notBoot
  rw [acts s, State.on_unpowered unpowered]

end Sys2Proof
end

section
/-!
PROOFS. Resets, boot and the loss of power: what a reset command is refused for and begins with, what its completion ends
with, what retirement asks, and how the module boots (R51, R411, R421 to R423, R460, R464).
-/
namespace Sys2Proof.Machine

/-! ### RESET_CMD (R421) -/

/-- The bytes of a number of whole bytes spell it. -/
theorem ofNat_leNat_regBytes {w : Nat} (v : BitVec w) : BitVec.ofNat w (leNat (regBytes v)) = v := by
  rw [leNat_regBytes, BitVec.ofNat_toNat, BitVec.setWidth_eq]

/-- A write of a number that passes its checks has its effect, and the module it leaves answers as it may. -/
theorem Mod.sdoPut_answered {m n : Mod} {w c : Nat} {v : BitVec w} {i sub : Nat} (serves : Safety.Serves m) (fd : Bool)
    (check : m.writeCheck i sub ((w + 7) / 8) = 0) (effect : m.objEffect i sub (regBytes v) ObjIn.none = (c, n)) :
    m.sdoPut fd i sub v = n.answer fd i sub (sdoWritten c) := by
  have written : m.objWrite i sub (regBytes v) ObjIn.none = (c, n) := by
    rw [Mod.objWrite_normal serves.normal _ _ _ _ (by rw [length_regBytes]; exact check), effect]
  rw [Mod.sdoPut, Mod.sdoWhole, Mod.request_serving serves.serving serves.calm]
  simp [serves.closed, written]

/-- RESET_CMD of a kind of R421 is refused while another reset runs, except for a full reset, which ends it. -/
theorem Mod.resetCmd_resetWord (m : Mod) {kind : Nat} {save : Bool} (least : 1 ≤ kind) (most : kind ≤ 6)
    (saves : save = true → kind ≤ 3) :
    m.resetCmd (resetWord kind save) =
      if m.boot.rst.isSome = true ∧ kind ≠ 5 then (abState, m) else (0, (m.resetEnds 0x70#8).resetBegin kind save) := by
  have value : (resetWord kind save).toNat = kind + if save then 256 else 0 := by
    rw [resetWord, BitVec.toNat_ofNat, Nat.mod_eq_of_lt]
    split <;> omega
  have kindField : field (resetWord kind save).toNat 0 4 = kind := by
    rw [value, field]; split <;> omega
  have saveBit : bitOf (resetWord kind save).toNat 8 = save := by
    rw [value, bitOf, Nat.testBit_eq_decide_div_mod_eq]
    cases save <;> simp <;> omega
  have reserved : field (resetWord kind save).toNat 4 4 = 0 ∧ field (resetWord kind save).toNat 9 7 = 0 := by
    rw [value, field, field]; split <;> omega
  have valid : ¬ (0 ≠ 0 ∨ 0 ≠ 0 ∨ kind = 0 ∨ 6 < kind ∨ (save = true ∧ 3 < kind)) := by
    simp only [not_or, not_and]
    exact ⟨by omega, by omega, by omega, by omega, fun saved => by have := saves saved; omega⟩
  simp only [Mod.resetCmd, kindField, saveBit, reserved]
  rw [if_neg valid]

/-- A reset command is refused while a reset runs. -/
theorem Mod.sdoPut_reset_refused {m : Mod} (serves : Safety.Serves m) (fd : Bool) {kind : Nat} {save : Bool}
    (least : 1 ≤ kind) (most : kind ≤ 6) (saves : save = true → kind ≤ 3) (other : kind ≠ 5)
    (running : m.boot.rst.isSome = true) :
    m.sdoPut fd 0x2480 1 (resetWord kind save) = Safety.refused m fd 0x2480 1 0x08000022 := by
  refine Mod.sdoPut_refused serves fd (check_2480_1 m) ?_ (by decide) serves.serving serves.calm
  rw [effect_2480_1, ofNat_leNat_regBytes, Mod.resetCmd_resetWord m least most saves, if_pos ⟨running, other⟩, abState]

/-- With no reset running, or for a full reset, the reset begins, and the module that it leaves answers. -/
theorem Mod.sdoPut_reset_begins {m : Mod} (serves : Safety.Serves m) (fd : Bool) {kind : Nat} {save : Bool}
    (least : 1 ≤ kind) (most : kind ≤ 6) (saves : save = true → kind ≤ 3) (admitted : m.boot.rst = none ∨ kind = 5) :
    m.sdoPut fd 0x2480 1 (resetWord kind save)
      = ((m.resetEnds 0x70#8).resetBegin kind save).answer fd 0x2480 1 .done := by
  have free : ¬ (m.boot.rst.isSome = true ∧ kind ≠ 5) := by
    rintro ⟨running, other⟩
    rcases admitted with none | full
    · simp [none] at running
    · exact other full
  refine Mod.sdoPut_answered (c := 0) (v := resetWord kind save) serves fd (check_2480_1 m) ?_
  rw [effect_2480_1, ofNat_leNat_regBytes, Mod.resetCmd_resetWord m least most saves, if_neg free]

/-- With no reset running there is none to end. -/
theorem Mod.resetEnds_idle {m : Mod} (idle : m.boot.rst = none) (st : BitVec 8) : m.resetEnds st = m := by
  simp [Mod.resetEnds, idle]

/-! ### The resets of R422 and R423 begin -/

/-- The record of a running reset. -/
def Mod.withReset (m : Mod) (kind : Nat) (st : BitVec 8) : Mod :=
  { m with boot := { m.boot with rst := some ⟨kind, st⟩ } }

/-- The dies that a compute reset takes: one, or both. -/
def computeDies (kind : Fin 3) (die : Nat) : Bool := if kind.val = 2 then true else die == kind.val

theorem computeDies_lower : computeDies 0 = fun d => d == 0 := rfl
theorem computeDies_upper : computeDies 1 = fun d => d == 1 := rfl
theorem computeDies_both : computeDies 2 = fun _ => true := rfl

theorem Mod.resetBegin_compute (m : Mod) (kind : Fin 3) (save : Bool) :
    m.resetBegin (kind.val + 1) save
      = ((m.failStep 0x70#8).computeReset (computeDies kind) save).withReset (kind.val + 1) 0#8 := by
  match kind with
  | 0 => rw [computeDies_lower]; rfl
  | 1 => rw [computeDies_upper]; rfl
  | 2 => rw [computeDies_both]; rfl

theorem Mod.resetBegin_lower (m : Mod) : m.resetBegin 4 false = (m.failStep 0x70#8).lowerReset.withReset 4 0#8 := rfl

theorem Mod.resetBegin_full (m : Mod) : m.resetBegin 5 false = (m.failStep 0x70#8).fullResetNow.withReset 5 0#8 := rfl

theorem Mod.resetBegin_partial (m : Mod) :
    m.resetBegin 6 false = (m.failStep 0x70#8).partialReset.2.withReset 6 (m.failStep 0x70#8).partialReset.1 := rfl

/-- What a partial reset does to a submission of its control core: it ends with ABORTED_BY_RESET. -/
def Submission.cutBy (s : Submission) (core : Nat) : Submission :=
  if s.core = core then { s with applied := true, status := 0x70#8, fence := none, asked := s.total, got := s.total } else s

/-- A partial reset of one control core (R423). -/
def Mod.coreReset (m : Mod) (core : Nat) : Mod :=
  let emptied : Mod := { m with
    rick := dropCoreL1s m.rick (fun c => c == core)
    attn := { m.attn with subs := m.attn.subs.map (fun s => s.cutBy core) }
    chip := { m.chip with
      completions := Map.keep m.chip.completions (fun k => k != core)
      outbox := Map.keep m.chip.outbox (fun k => bandOf (k / 4) != core) }
    gln := { m.gln with queues := Map.keep m.gln.queues (fun k => k != core) } }
  (emptied.clearFault 3 core).postSubs 256 core

theorem Mod.partialReset_core {m : Mod} (cls : m.boot.resetUnit.toNat / 65536 = 3) (notRun : m.effective 0 0 ≠ .run) :
    m.partialReset = (0#8, m.coreReset (m.boot.resetUnit.toNat % 65536)) := by
  unfold Mod.partialReset
  rw [if_pos ⟨cls, notRun⟩]
  rfl

theorem Mod.partialReset_port {m : Mod} (cls : m.boot.resetUnit.toNat / 65536 = 7) :
    m.partialReset = (0#8, m.portRetrainReq (m.boot.resetUnit.toNat % 65536)) := by
  unfold Mod.partialReset
  rw [if_neg (by omega), if_pos cls]

theorem Mod.partialReset_jnl {m : Mod} (cls : m.boot.resetUnit.toNat / 65536 = 8) :
    m.partialReset = (0#8, m.jnlRetrainReq) := by
  unfold Mod.partialReset
  rw [if_neg (by omega), if_neg (by omega), if_pos cls]

/-- No other unit takes a partial reset, and no control core while the module runs. -/
theorem Mod.partialReset_refused {m : Mod} (notPort : m.boot.resetUnit.toNat / 65536 ≠ 7)
    (notJnl : m.boot.resetUnit.toNat / 65536 ≠ 8)
    (noCore : m.boot.resetUnit.toNat / 65536 ≠ 3 ∨ m.effective 0 0 = .run) : m.partialReset = (0xCF#8, m) := by
  have core : ¬ (m.boot.resetUnit.toNat / 65536 = 3 ∧ m.effective 0 0 ≠ .run) := by
    rintro ⟨cls, notRun⟩
    exact noCore.elim (fun other => other cls) notRun
  unfold Mod.partialReset
  rw [if_neg core, if_neg notPort, if_neg notJnl]

/-- With no reset running a partial reset begins, with the status that it has met. -/
theorem Mod.sdoPut_partialReset {m n : Mod} {st : BitVec 8} (serves : Safety.Serves m) (fd : Bool)
    (idle : m.boot.rst = none) (met : (m.failStep 0x70#8).partialReset = (st, n)) :
    m.sdoPut fd 0x2480 1 (resetWord 6 false) = (n.withReset 6 st).answer fd 0x2480 1 .done := by
  rw [Mod.sdoPut_reset_begins serves fd (by decide) (by decide) (by decide) (.inl idle), Mod.resetEnds_idle idle,
    Mod.resetBegin_partial, met]

/-! ### The end of a reset (R421, R464) -/

/-- What the completion of a reset does first, by its kind. -/
def Mod.resetRest (m : Mod) (kind : Nat) (ws : List CrossWindow) : Mod :=
  if kind = 1 then m.restartCores (fun d => d == 0)
  else if kind = 2 then m.restartCores (fun d => d == 1)
  else if kind = 3 then (m.restartCores (fun _ => true)).tryRelease
  else if kind = 4 then m.lowerResetEnd ws
  else if kind = 5 ∧ m.safe.active = true then m.leaveSafe 5
  else m

theorem Mod.resetCompletion_idle {m : Mod} (idle : m.boot.rst = none) (ws : List CrossWindow) :
    m.resetCompletion ws = m := by
  simp [Mod.resetCompletion, idle]

section
variable (m : Mod) (ws : List CrossWindow)
theorem Mod.resetRest_dieL : m.resetRest 1 ws = m.restartCores (fun d => d == 0) := by simp [Mod.resetRest]
theorem Mod.resetRest_dieU : m.resetRest 2 ws = m.restartCores (fun d => d == 1) := by simp [Mod.resetRest]
theorem Mod.resetRest_bothDies : m.resetRest 3 ws = (m.restartCores (fun _ => true)).tryRelease := by
  simp [Mod.resetRest]
theorem Mod.resetRest_lower : m.resetRest 4 ws = m.lowerResetEnd ws := by simp [Mod.resetRest]
theorem Mod.resetRest_full : m.resetRest 5 ws = if m.safe.active then m.leaveSafe 5 else m := by
  simp [Mod.resetRest]
theorem Mod.resetRest_partial : m.resetRest 6 ws = m := by simp [Mod.resetRest]
end

/-- A running reset ends with the status it has met, or with SAFE_STATE while the safe state holds. -/
theorem Mod.resetCompletion_running {m n : Mod} {r : ResetRun} (running : m.boot.rst = some r) {ws : List CrossWindow}
    (rest : m.resetRest r.kind ws = n) :
    m.resetCompletion ws
      = n.resetEnds (if r.status ≠ 0#8 then r.status else if n.safe.active then 0xD1#8 else 0#8) := by
  subst rest
  unfold Mod.resetCompletion
  rw [running]
  rfl

/-- The bits of SAFE_CAUSE that a kind 3 reset can release, given whether the module has cooled and its consumed heartbeat
is back (R464). -/
def releaseMask (cool back : Bool) : BitVec 16 := BitVec.ofNat 16 (b2n cool * 4 + 16 + b2n back * 32 + 128 + 256)

theorem getLsbD_releaseMask (cool back : Bool) (b : Nat) :
    (releaseMask cool back).getLsbD b = true ↔ (b = 2 ∧ cool = true) ∨ b = 4 ∨ (b = 5 ∧ back = true) ∨ b = 7 ∨ b = 8 := by
  by_cases inside : b < 16
  · revert b cool back
    decide
  · rw [BitVec.getLsbD_of_ge _ _ (by omega)]
    simp only [Bool.false_eq_true, false_iff]
    omega

/-- One word lies in another when each of its bits does. -/
theorem and_not_eq_zero_iff {w : Nat} (x y : BitVec w) :
    x &&& ~~~y = 0#w ↔ ∀ b : Nat, x.getLsbD b = true → y.getLsbD b = true := by
  constructor
  · intro zero b bit
    have inside : b < w := BitVec.lt_of_getLsbD bit
    have h := congrArg (fun z => z.getLsbD b) zero
    simpa [bit, inside] using h
  · intro covered
    apply BitVec.eq_of_getLsbD_eq
    intro b inside
    have h := covered b
    cases bit : x.getLsbD b <;> simp_all

/-- Every bit of a cause is one that a kind 3 reset can release (R464). -/
def CauseFree (cause : BitVec 16) (cool back : Bool) : Prop :=
  (∀ b : Nat, cause.getLsbD b = true → b = 2 ∨ b = 4 ∨ b = 5 ∨ b = 7 ∨ b = 8)
    ∧ (cause.getLsbD 2 = true → cool = true) ∧ (cause.getLsbD 5 = true → back = true)

theorem and_not_releaseMask (cause : BitVec 16) (cool back : Bool) :
    cause &&& ~~~(releaseMask cool back) = 0#16 ↔ CauseFree cause cool back := by
  simp only [and_not_eq_zero_iff, getLsbD_releaseMask, CauseFree]
  constructor
  · intro covered
    refine ⟨fun b bit => ?_, fun bit => ?_, fun bit => ?_⟩
    · have := covered b bit
      omega
    · simpa using covered 2 bit
    · simpa using covered 5 bit
  · rintro ⟨known, cooled, returned⟩ b bit
    rcases known b bit with rfl | rfl | rfl | rfl | rfl
    · exact .inl ⟨rfl, cooled bit⟩
    · exact .inr (.inl rfl)
    · exact .inr (.inr (.inl ⟨rfl, returned bit⟩))
    · exact .inr (.inr (.inr (.inl rfl)))
    · exact .inr (.inr (.inr (.inr rfl)))

/-- A kind 3 reset releases the safe state when it can release every cause. -/
theorem Mod.tryRelease_free {n : Mod} {cool : Bool} (mask : n.releasable = releaseMask cool n.can.hbBack)
    (active : n.safe.active = true)
    (free : CauseFree n.safe.cause cool n.can.hbBack) : n.tryRelease = n.leaveSafe 3 := by
  unfold Mod.tryRelease
  rw [mask, if_pos ⟨active, (and_not_releaseMask _ _ _).mpr free⟩]

/-- Otherwise the safe state stays as it was. -/
theorem Mod.tryRelease_held {n : Mod} {cool : Bool} (mask : n.releasable = releaseMask cool n.can.hbBack)
    (kept : n.safe.active = false ∨ ¬ CauseFree n.safe.cause cool n.can.hbBack) : n.tryRelease = n := by
  have stays : ¬ (n.safe.active = true ∧ n.safe.cause &&& ~~~(releaseMask cool n.can.hbBack) = 0#16) := by
    rintro ⟨active, covered⟩
    rcases kept with off | notFree
    · simp [off] at active
    · exact notFree ((and_not_releaseMask _ _ _).mp covered)
  unfold Mod.tryRelease
  rw [mask, if_neg stays]

/-! ### Retirement (R51) -/

/-- The logical row that a retirement request names. -/
def retireRow (v : BitVec 16) : Nat := 48 * (v.toNat / 4096 % 2) + v.toNat / 64 % 64

/-- A retirement request has its form. -/
def RetireSound (v : BitVec 16) : Prop :=
  32768 ≤ v.toNat ∧ v.toNat / 8192 % 4 = 0 ∧ v.toNat / 64 % 64 ≤ 47 ∧ v.toNat % 64 ≤ 48

/-- The module can retire the position that a request names. -/
def Mod.RetireFits (m : Mod) (v : BitVec 16) : Prop :=
  m.readyOrFenced = true ∧ m.plan.retire = 0#16 ∧ isUsable m.plan (cellAt (retireRow v) (v.toNat % 64)) = true
    ∧ shortRow (rowEntry m.plan.rowMap (retireRow v)) = false ∧ field (rowEntry m.plan.rowMap (retireRow v)) 12 2 = 0

/-- The module once it has retired a position: the field fuse is burned, and the event raised. -/
def Mod.retired (m : Mod) (v : BitVec 16) : Mod :=
  ({ m with
    fuses := { m.fuses with retired := Map.set 0 m.fuses.retired (retireRow v) (v.toNat % 64 + 1) }
    plan := { m.plan with retire := v } } : Mod).raise .retireAccepted (unitId 2 (cellAt (retireRow v) (v.toNat % 64)))
      (payload [i2 (cellAt (retireRow v) (v.toNat % 64))])

theorem bitOf_top (v : BitVec 16) : bitOf v.toNat 15 = false ↔ v.toNat < 32768 := by
  have := v.isLt
  rw [bitOf, Nat.testBit_eq_decide_div_mod_eq, decide_eq_false_iff_not]
  omega

/-- The form that `Mod.retire` refuses is that of a request that is not sound. -/
theorem retire_form (v : BitVec 16) :
    (bitOf v.toNat 15 = false ∨ field v.toNat 13 2 ≠ 0 ∨ 47 < field v.toNat 6 6 ∨ 48 < field v.toNat 0 6)
      ↔ ¬ RetireSound v := by
  rw [bitOf_top, RetireSound, field, field, field]
  omega

theorem Mod.retire_unsound (m : Mod) {v : BitVec 16} (unsound : ¬ RetireSound v) : m.retire v = (abValue, m) := by
  unfold Mod.retire
  exact if_pos ((retire_form v).mpr unsound)

/-- The fields of a request spell the row and the column. -/
theorem retire_place (v : BitVec 16) :
    48 * field v.toNat 12 1 + field v.toNat 6 6 = retireRow v ∧ field v.toNat 0 6 = v.toNat % 64 := by
  simp [field, retireRow]

/-- A sound request is refused where the module cannot retire the position. -/
theorem Mod.retire_refusal (m : Mod) (v : BitVec 16) :
    (m.readyOrFenced = false ∨ m.plan.retire ≠ 0#16 ∨ isUsable m.plan (cellAt (retireRow v) (v.toNat % 64)) = false
      ∨ shortRow (rowEntry m.plan.rowMap (retireRow v)) = true ∨ field (rowEntry m.plan.rowMap (retireRow v)) 12 2 ≠ 0)
      ↔ ¬ m.RetireFits v := by
  simp only [Mod.RetireFits, Decidable.not_and_iff_not_or_not, Bool.not_eq_true, Bool.not_eq_false, ne_eq]

theorem Mod.retire_unfit {m : Mod} {v : BitVec 16} (sound : RetireSound v) (unfit : ¬ m.RetireFits v) :
    m.retire v = (abState, m) := by
  simp only [Mod.retire]
  rw [if_neg (fun form => (retire_form v).mp form sound)]
  simp only [retire_place]
  rw [if_pos ((m.retire_refusal v).mpr unfit)]

theorem Mod.retire_fits {m : Mod} {v : BitVec 16} (sound : RetireSound v) (fits : m.RetireFits v) :
    m.retire v = (0, m.retired v) := by
  simp only [Mod.retire]
  rw [if_neg (fun form => (retire_form v).mp form sound)]
  simp only [retire_place]
  rw [if_neg (fun refused => (m.retire_refusal v).mp refused fits)]
  rfl

/-- A write of a retirement request under ADMIN does what `Mod.retire` says, and the module it leaves answers. -/
theorem Mod.sdoPut_retire {m n : Mod} {v : BitVec 16} {c : Nat} (serves : Safety.Serves m) (fd : Bool)
    (right : m.hasRight 0 = true) (effect : m.retire v = (c, n)) :
    m.sdoPut fd 0x2010 7 v = n.answer fd 0x2010 7 (sdoWritten c) := by
  refine Mod.sdoPut_answered serves fd (check_2010_7 m right) ?_
  rw [effect_2010_7, ofNat_leNat_regBytes, effect]

theorem Mod.sdoPut_retire_refused {m : Mod} {v : BitVec 16} {c : Nat} (serves : Safety.Serves m) (fd : Bool)
    (right : m.hasRight 0 = true) (effect : m.retire v = (c, m)) (refusal : c ≠ 0) :
    m.sdoPut fd 0x2010 7 v = Safety.refused m fd 0x2010 7 c := by
  rw [Mod.sdoPut_retire serves fd right effect, Mod.answer_serving serves.serving serves.calm, refused_eq _ _ _ _ refusal]

/-! ### What a full reset leaves (R412, R422) -/

theorem Mod.freshAfter_notDone (n : Mod) : ∀ x ∈ n.freshAfter.boot.steps, x.st = .notDone := by
  show ∀ x ∈ List.replicate 7 StepObj.reset, x.st = .notDone
  decide

/-! ### Boot (R391, R411, R460) -/

theorem turns_boot {m n : Mod} {straps : BitVec 7} {low : Bool} {ms : BitVec 32} (h : m.bootUp straps low ms = n) :
    Safety.Turns m (.boot straps low ms) n := by
  intro q
  unfold exec execBoot
  rw [← h]

/-- A module that runs has nothing to boot. -/
theorem Mod.bootUp_idle {m : Mod} (powered : m.boot.powered = true) (up : m.boot.mcDown = false) (straps : BitVec 7)
    (low : Bool) (ms : BitVec 32) : m.bootUp straps low ms = m := by
  rw [Mod.bootUp, if_pos powered, if_neg (by simp [up])]

/-- While the management controller restarts, its watch has nothing to do. -/
theorem Mod.mcWatchdog_idle {m : Mod} (down : m.boot.mcDown = true) : m.mcWatchdog = m := by
  rw [Mod.mcWatchdog, if_pos down]

theorem Mod.announce_recovery {m : Mod} (recovery : m.sec.recovery = true) : m.announce = m.bootMessage := by
  rw [Mod.announce, if_pos recovery]

theorem Mod.announce_normal {m : Mod} (normal : m.sec.recovery = false) :
    m.announce = m.bootMessage.raise .buBoot noUnit (payload [i4 m.boot.bootMs.toNat]) := by
  rw [Mod.announce, if_neg (by simp [normal])]

/-- With no override the node-ID is that of the straps, and 127 where they give none. -/
theorem chooseNode_noOverride (straps : BitVec 7) :
    chooseNode straps 0#8 = if straps ≠ 0#7 then straps.toNat else 127 := if_neg (not_not_intro rfl)

end Sys2Proof.Machine

end

section
/-!
PROOFS. The statement about what each reset, boot and the loss of power keep and clear.
-/
namespace Sys2Proof

open Machine

/-- Settles O54: a reset is refused or begins by its kind, a completion ends it by its kind, and boot, the watchdog and the
pins go by the equations of their operations. -/
theorem resetsKeepAndClearState : Obligations.ResetsKeepAndClearState := by
  unfold Obligations.ResetsKeepAndClearState
  intro m fd save low kind v straps ms windows powered ended mark told k full
  refine ⟨fun serves => ⟨?running, fun idle => ⟨?compute, ?lower, ?port, ?jnl, ?core, ?noUnit⟩, ?full, ?noRight, ?unsound,
    ?unfit, ?fits⟩, ?fresh, ?nothing, ?completion, ?left, ?pin, ?pinHigh, ?signal, ?watchedAgain, ?watched, ?bootAgain,
    ?restarted, ?powerUp, ?announced, ?powerLost, ?refclkLost, ?refclkBack⟩
  case running =>
    intro running c command
    simp only [List.mem_cons, List.not_mem_nil, or_false] at command
    rcases command with rfl | rfl | rfl
    · exact turns_computeReset powered fd kind save (Mod.sdoPut_reset_refused serves fd (by omega) (by omega)
        (fun _ => by omega) (by omega) running)
    · exact turns_lowerDieFullReset powered fd (Mod.sdoPut_reset_refused serves fd (by decide) (by decide) (by decide)
        (by decide) running)
    · exact turns_partialReset powered fd (Mod.sdoPut_reset_refused serves fd (by decide) (by decide) (by decide)
        (by decide) running)
  case compute =>
    apply turns_computeReset powered
    rw [Mod.sdoPut_reset_begins serves fd (by omega) (by omega) (fun _ => by omega) (.inl idle), Mod.resetEnds_idle idle,
      Mod.resetBegin_compute]
    rfl
  case lower =>
    intro q
    have begun : (m.failStep 0x70#8).lowerReset = q.clearStream.dropTransfers.leaSignal := rfl
    apply turns_lowerDieFullReset powered
    rw [Mod.sdoPut_reset_begins serves fd (by decide) (by decide) (by decide) (.inl idle), Mod.resetEnds_idle idle,
      Mod.resetBegin_lower, ← begun]
    rfl
  case port =>
    intro cls
    apply turns_partialReset powered
    rw [Mod.sdoPut_partialReset serves fd idle (Mod.partialReset_port cls)]
    rfl
  case jnl =>
    intro cls
    apply turns_partialReset powered
    rw [Mod.sdoPut_partialReset serves fd idle (Mod.partialReset_jnl cls)]
    rfl
  case core =>
    intro cls notRun one q
    apply turns_partialReset powered
    rw [Mod.sdoPut_partialReset serves fd idle (Mod.partialReset_core cls notRun)]
    rfl
  case noUnit =>
    intro notPort notJnl noCore
    apply turns_partialReset powered
    rw [Mod.sdoPut_partialReset serves fd idle (Mod.partialReset_refused notPort notJnl noCore)]
    rfl
  case full =>
    apply turns_fullReset powered
    rw [Mod.sdoPut_reset_begins serves fd (by decide) (by decide) (by decide) (.inr rfl), Mod.resetBegin_full]
    rfl
  case noRight =>
    intro noRight
    apply turns_retire powered
    rw [Mod.sdoPut_checked serves fd (by rw [noauth_2010_7 m _ noRight]; decide), noauth_2010_7 m _ noRight]
  case unsound =>
    intro right unsound
    exact turns_retire powered fd v (Mod.sdoPut_retire_refused serves fd right (Mod.retire_unsound m unsound) (by decide))
  case unfit =>
    intro right sound unfit
    exact turns_retire powered fd v (Mod.sdoPut_retire_refused serves fd right (Mod.retire_unfit sound unfit) (by decide))
  case fits =>
    intro right sound fits
    apply turns_retire powered
    rw [Mod.sdoPut_retire serves fd right (Mod.retire_fits sound fits)]
    rfl
  case fresh =>
    intro n f
    exact ⟨rfl, rfl, rfl, rfl, rfl, rfl, rfl, rfl, rfl, rfl, rfl, rfl, rfl, rfl, rfl, rfl, rfl, rfl, rfl, rfl, rfl, rfl, rfl,
      rfl, rfl, rfl, rfl, rfl, rfl, rfl, rfl, rfl, rfl, Mod.freshAfter_notDone n, rfl, rfl⟩
  case nothing =>
    exact fun idle => turns_resetCompletion powered windows (Mod.resetCompletion_idle idle windows)
  case completion =>
    intro r running ends
    have closes (n : Mod) (rest : m.resetRest r.kind windows = n) : ends n :=
      turns_resetCompletion powered windows (Mod.resetCompletion_running running rest)
    clear_value ends
    refine ⟨fun kind => closes _ (by rw [kind, Mod.resetRest_dieL]),
      fun kind => closes _ (by rw [kind, Mod.resetRest_dieU]), ?both,
      fun kind => closes _ (by rw [kind, Mod.resetRest_lower]), fun kind => closes _ (by rw [kind, Mod.resetRest_full]),
      fun kind => closes _ (by rw [kind, Mod.resetRest_partial])⟩
    intro kind n
    have rest : m.resetRest r.kind windows = n.tryRelease := by rw [kind, Mod.resetRest_bothDies]
    clear_value n
    intro cause cool free
    exact ⟨fun active isFree => closes _ (rest.trans (Mod.tryRelease_free (cool := cool) rfl active isFree)),
      fun kept => closes _ (rest.trans (Mod.tryRelease_held (cool := cool) rfl kept))⟩
  case left => exact fun n c => rfl
  case pin => exact turns_resetN powered rfl
  case pinHigh => exact turns_resetNReleased powered rfl
  case signal => exact turns_mcSignal powered rfl
  case watchedAgain => exact fun down => turns_mcWatchdog powered (Mod.mcWatchdog_idle down)
  case watched =>
    intro up can n
    apply turns_mcWatchdog powered
    rw [Mod.mcWatchdog, if_neg (by simp [up])]
    rfl
  case bootAgain => exact fun up => turns_boot (Mod.bootUp_idle powered up straps low ms)
  case restarted =>
    intro down n up said
    apply turns_boot
    rw [Mod.bootUp, if_pos powered, if_pos down]
    rfl
  case powerUp =>
    intro n off node a b c
    apply turns_boot
    rw [Mod.bootUp, if_neg (by simp [off]), chooseNode_noOverride]
  case announced => exact fun n => ⟨Mod.announce_recovery, Mod.announce_normal⟩
  case powerLost =>
    exact ⟨m.powerLost, turns_inputPowerLost powered rfl, rfl, rfl, rfl, rfl, rfl, rfl, rfl, rfl, rfl, rfl, rfl, rfl, rfl,
      rfl⟩
  case refclkLost =>
    intro lost a b
    have result : m.refclkLost
        = if b.jnl.train.st = .down ∨ b.jnl.train.st = .failed then b else b.jnlLost 5 .down := by
      simp only [Mod.refclkLost, a, b]
    refine ⟨fun isLost => turns_refclkLost powered ?_, fun live => turns_refclkLost powered ?_⟩
    · rw [result, if_pos isLost]
    · rw [result, if_neg live]
  case refclkBack => exact turns_refclkRestored powered rfl

end Sys2Proof
end

section
/-!
PROOFS. What a step may do to the fuses and to the settings that have a range: nothing but burn, raise and stay in range
(R51, R429, R441, R443, R488, R496). Each command does what its operation does, and Laws/Kept*.lean says what that is.
-/
namespace Sys2Proof.Machine

/-- What the command leaves of the part follows from what the part was, whatever the state. -/
def CommandFollows (c : Instr) : Prop := ∀ s t, exec c s = .next t → s.m.kept.Follows t.m.kept

theorem CommandFollows.of_follows {c : Instr} {f : Mod → Mod} (acts : ∀ s, exec c s = s.on f)
    (follows : ∀ m : Mod, m.kept.Follows (f m).kept) : CommandFollows c := by
  intro s t done
  rw [acts, State.on] at done
  cases done
  split
  · exact follows s.m
  · exact follows_refl s.m.kept

theorem CommandFollows.of_kept {c : Instr} {f : Mod → Mod} (acts : ∀ s, exec c s = s.on f)
    (kept : ∀ m : Mod, (f m).kept = m.kept) : CommandFollows c :=
  .of_follows acts fun m => kept m ▸ follows_refl m.kept

/-- BOOT is the one command that acts without input power (R23). -/
theorem CommandFollows.boot (straps : BitVec 7) (low : Bool) (ms : BitVec 32) :
    CommandFollows (.boot straps low ms) := by
  intro s t done
  cases done
  exact Mod.bootUp_follows s.m straps low ms

/-- Every command follows: first those whose operation may burn a fuse or change a setting, then, in the dispatch's order,
those that leave the part as it is. -/
theorem commandFollows (c : Instr) : CommandFollows c := by
  cases c
  case boot => exact .boot _ _ _
  case sdoDownload => exact .of_follows (fun _ => rfl) fun _ => Mod.sdoDownload_follows ..
  case sdoSegment => exact .of_follows (fun _ => rfl) fun _ => Mod.sdoSegmentRow_follows ..
  case inputPowerLost => exact .of_follows (fun _ => rfl) fun _ => Mod.powerLost_follows ..
  case retire | leaSize | leaCommit | leave | stopReq | placeCommit | testEnable | rawWrite | rawRead | decodeRead |
      retrainReq | jnlRetrainReq | consumerHb | mismatchClear | rails | train | headers | firmware | selfTest |
      computeReset | lowerDieFullReset | fullReset | partialReset | capW | paceLimit | safeReq | ffClear | fpPlanAddr |
      fpVerdict | fiArm | attGo | authReq | authResponse | authClose | secProfile | svnCommit | fwRevoke | ownerKey |
      imageKey | fwCommit | dbgHalt =>
    exact .of_follows (fun _ => rfl) fun _ => Mod.sdoPut_follows ..
  case localBarrier | leaBarrier | leaPhaseBoundary =>
    exact .of_follows (fun _ => rfl) fun _ => Mod.takeBarrier_follows ..
  case leaStart | imageLoad | start | fwChunk => exact .of_follows (fun _ => rfl) fun _ => Mod.sdoWhole_follows ..
  case report | release | alive | abort => exact .of_follows (fun _ => rfl) fun _ => Mod.takeToken_follows ..
  case leaFlit => exact .of_follows (fun _ => rfl) fun _ => Mod.leaFlit_follows ..
  case idleFlit => exact .of_follows (fun _ => rfl) fun _ => Mod.idleFlit_follows ..
  case jnlIdent => exact .of_follows (fun _ => rfl) fun _ => Mod.jnlIdent_follows ..
  case resetN => exact .of_follows (fun _ => rfl) fun _ => Mod.resetPin_follows ..
  case phaseOvercurrent => exact .of_follows (fun _ => rfl) fun _ => Mod.phaseFailed_follows ..
  case telemetryWindow => exact .of_follows (fun _ => rfl) fun _ => Mod.window_follows ..
  case ageingCheck => exact .of_follows (fun _ => rfl) fun _ => Mod.ageingCheck_follows ..
  case beFlit => exact .of_follows (fun _ => rfl) fun _ => Mod.beFlit_follows ..
  case fwCommitVerified => exact .of_follows (fun _ => rfl) fun _ => Mod.fwVerified_follows ..
  case registerWrite | unassignedAccess | sdoUpload | sdoSegmentTimeout =>
    refine .of_kept (fun _ => by unfold exec; rfl) fun _ => ?_
    simp only [Mod.registerWrite_kept, Mod.unassignedAccess_kept, Mod.sdoUpload_kept, Mod.sdoTimeout_kept]
  case permitPeriod | programStep | bundleFetch | loopBegin | loopEnd | streamEnd | restart | heavyPhaseHint |
      hintRamp | boostEnd | descriptorArrival =>
    refine .of_kept (fun _ => by unfold exec; rfl) fun _ => ?_
    simp only [Mod.permitPeriod_kept, Mod.programStep_kept, Mod.bundleFetch_kept, Mod.loopBegin_kept,
      Mod.loopEnd_kept, Mod.endStream_kept, Mod.restart_kept, Mod.hintNow_kept, Mod.hintRamp_kept, Mod.boostEnd_kept,
      Mod.descArrive_kept]
  case adv | advance | swap | swapSaved | tileDrain | ctxSave | ctxRestore | add | mul | fma | max | min | cvt |
      quant | exp | rcp | rsqrt | rowstat | norm | softmax | softmaxBwd | normBwd | rowsum | rowmax | flagRead | copy |
      loamIn | loamOut | loamXchg | link | meshTx | meshRx | laneTx | laneRx | gather | issue | issueD | waitq |
      postq | waittag | debugRead =>
    refine .of_kept (fun _ => by unfold exec; rfl) fun _ => ?_
    simp only [Mod.runAdv_kept, Mod.runAdvance_kept, Mod.runSwap_kept, Mod.runDrain_kept, Mod.runCtx_kept,
      Mod.runVx_kept, Mod.emptyRows_kept, Mod.runMv_kept, Mod.runRow_kept, Mod.debugRead_kept]
  case aliveTimer | neighbourLost | formationTimeout | barrierOverdue | tokenResend =>
    refine .of_kept (fun _ => by unfold exec; rfl) fun _ => ?_
    simp only [Mod.aliveTimer_kept, Mod.neighbourLost_kept, Mod.formationTimeout_kept, Mod.barrierOverdue_kept,
      Mod.resendTokens_kept]
  case stackRead | stackWrite | mergeTimerExpiry | unsowRequest | scrubRead | scrubOverdue | refresh =>
    refine .of_kept (fun _ => by unfold exec; rfl) fun _ => ?_
    simp only [Mod.stackRead_kept, Mod.stackWrite_kept, Mod.mergeExpired_kept, Mod.unsowRequest_kept,
      Mod.scrubRead_kept, Mod.scrubOverdue_kept, Mod.refresh_kept]
  case glnCtrlGo | glnCtrlAbort | programStoreWrite | programStart | glnNop | halt | jmp | bz | loop | movi |
      movhi | movp | addi | glnAdd | xori | shli | putr | ld | st | lds | ldsa | latch | qst | vins | lda | crc | vadd |
      vmul | vfma | vmax | vmin | vrcp | vrsq | vsplat | vsum | vamax | glnWatchdog | glnCompletion =>
    refine .of_kept (fun _ => by unfold exec; rfl) fun _ => ?_
    simp only [Mod.glnGo_kept, Mod.glnCtrlAbort_kept, Mod.writeStores_kept, Mod.glnStart_kept, Mod.glnRun_kept,
      Mod.glnWatchdog_kept, Mod.glnCompletion_kept]
  case pin | unpin | fallow | clean | cleanDrop | rickRead | rickWrite | missFill | streamBypassTimeout |
      rickInterval =>
    refine .of_kept (fun _ => by unfold exec; rfl) fun _ => ?_
    simp only [Mod.rickCmd_kept, Mod.rickReadRow_kept, Mod.rickWriteRow_kept, Mod.missFill_kept,
      Mod.streamQuiet_kept, Mod.rickInterval_kept]
  case dmaqHead | dmaqCtrlEnable | dmaCopy | transpose | scatter | dmaFallow | transferCompletion | deadlineDue |
      resetQuiesceTimeout =>
    refine .of_kept (fun _ => by unfold exec; rfl) fun _ => ?_
    simp only [Mod.dmaqHead_kept, Mod.dmaqCtrl_kept, Mod.dmaStart_kept, Mod.transferCompletion_kept,
      Mod.deadlineMiss_kept, Mod.quiesceTimeout_kept]
  case publishWrite | seqtFence | fenceClear | walk | openSub | prompt | publish | candidates | closeSub =>
    refine .of_kept (fun _ => by unfold exec; rfl) fun _ => ?_
    simp only [Mod.seqWriteIn_kept, Mod.fenceWrite_kept, Mod.walksDone_kept, Mod.settleFences_kept, Mod.walk_kept,
      Mod.subRow_kept]
  case ident | laneReset | linkFlitRepeat | identTimer | replayTimeout | portSignalDetected | portSignalDone |
      portAlignDone | portStateTimeout | portCodewordUe | fecWindow | leaTransferDue | hdgBeqHead | beWrite | beAck |
      ackTimeout =>
    refine .of_kept (fun _ => by unfold exec; rfl) fun _ => ?_
    simp only [Mod.linkFlit_kept, apply_ite Mod.kept, Mod.jnlRepeatLinks_kept, Mod.repeatLinks_kept, ite_self,
      Mod.identAll_kept, Mod.portReplayTimeout_kept, Mod.portSignal_kept, Mod.portSignalDone_kept,
      Mod.portAlignDone_kept, Mod.portTimeout_kept, Mod.portUe_kept, Mod.portFec_kept, Mod.transferDue_kept,
      Mod.beqHead_kept, Mod.beArrive_kept, Mod.beSettle_kept]
  case memoryWrite | memoryRead | completion | jnlReplayTimeout | jnlSignalDetected | jnlSignalDone | jnlAlignDone |
      jnlStateTimeout | jnlCodewordUe | jnlFecWindow | jnlIntPend | jnlIntMask | hrmCopy | ccmbInHead |
      mailboxRecord | mailboxCompletion =>
    refine .of_kept (fun _ => by unfold exec; rfl) fun _ => ?_
    simp only [Mod.memoryWritePacket_kept, Mod.memoryReadPacket_kept, Mod.hostCompletion_kept,
      Mod.jnlReplayTimeout_kept, Mod.jnlSignal_kept, Mod.jnlSignalDone_kept, Mod.jnlAlignDone_kept,
      Mod.jnlTimeout_kept, Mod.jnlUe_kept, Mod.jnlFec_kept, Mod.hostReg_kept, Mod.hrmLine_kept,
      Mod.mailboxRecord_kept, Mod.mailboxCompletion_kept]
  case nmtStart | nmtStop | enterPreOperational | resetNode | resetCommunication | heartbeat | consumedHeartbeat |
      mgmtHeartbeatLost | sync | tpdoEventTimer | canBusOff | busOffRecovery | stateComparison | forceTimeout |
      errorRegisterUpdate =>
    refine .of_kept (fun _ => by unfold exec; rfl) fun _ => ?_
    simp only [Mod.nmtCommand_kept, Mod.resetComm_kept, Mod.heartbeat_kept, Mod.heartbeatFrom_kept,
      Mod.heartbeatLost_kept, Mod.sync_kept, Mod.pdoTimer_kept, Mod.busOff_kept, Mod.busOn_kept,
      Mod.compareStates_kept, Mod.forceTimeout_kept, Mod.errorUpdate_kept]
  case stepCompletion | stepBoundExpiry | resetCompletion =>
    refine .of_kept (fun _ => by unfold exec; rfl) fun _ => ?_
    simp only [Mod.stepCompletion_kept, Mod.stepTimeout_kept, Mod.resetCompletion_kept]
  case phaseLimitTimeout | regulatorOvercurrent | railToleranceTimeout | inputUndervoltage | undervoltRecovery |
      slewComplete | droop | severeDroop | droopCleared | droopReductionEnd | crossingStallEnd =>
    refine .of_kept (fun _ => by unfold exec; rfl) fun _ => ?_
    simp only [Mod.phaseLimitTimeout_kept, Mod.overcurrent_kept, Mod.railFault_kept, Mod.undervolt_kept,
      Mod.undervoltEnd_kept, Mod.slewDone_kept, Mod.droopStart_kept, Mod.severeDroop_kept, Mod.droopEnd_kept,
      Mod.severeEnd_kept, Mod.crossStallEnd_kept]
  case hotSpotSample | sensorScan | crossLayerEstimate | thermalWindow | flowSample | flowAverage | lowHeld |
      coolantTempSample | lossComparison =>
    refine .of_kept (fun _ => by unfold exec; rfl) fun _ => ?_
    simp only [Mod.hotSpots_kept, Mod.scan_kept, Mod.estimates_kept, Mod.thermalWindow_kept, Mod.flowSample_kept,
      Mod.flowAverage_kept, Mod.lowHeld_kept, Mod.coolantTemps_kept, Mod.lossCompare_kept]
  case mcSignal | mcWatchdog | cairnRecordWrite | fingerprintPass | fpPassLate =>
    refine .of_kept (fun _ => by unfold exec; rfl) fun _ => ?_
    simp only [Mod.mcSignal_kept, Mod.mcWatchdog_kept, Mod.cairnWrite_kept, Mod.fpPassRun_kept, Mod.fpLate_kept]
  case attestSigned | responseVerified | durationEnd | challengeExpiry | lockoutEnd | dbgAcc =>
    refine .of_kept (fun _ => by unfold exec; rfl) fun _ => ?_
    simp only [Mod.attestSigned_kept, Mod.responseVerified_kept, Mod.endSession_kept, Mod.challengeExpired_kept,
      Mod.lockoutEnd_kept, Mod.sdoUpload_kept]
  case refclkLost | refclkRestored | jnlFlit | resetNReleased | tpdoSent | crossingStall =>
    refine .of_kept (fun _ => by unfold exec; rfl) fun _ => ?_
    simp only [Mod.refclkLost_kept, Mod.refclkBack_kept, Mod.jnlData_kept, Mod.resetPinHigh_kept, Mod.pdoSent_kept,
      Mod.crossStall_kept]
  case nop => exact .of_kept (fun _ => rfl) fun _ => rfl

/-- Every step follows: an idle one keeps the part, any other is a command's. -/
theorem step_follows {s t : State} (stepped : step s = .next t) : s.m.kept.Follows t.m.kept := by
  obtain ⟨m, pending⟩ := s
  cases pending with
  | nil =>
    cases stepped
    exact (Mod.idle_kept m).symm ▸ follows_refl m.kept
  | cons c rest => exact commandFollows c ⟨m, rest⟩ t stepped

end Sys2Proof.Machine

namespace Sys2Proof

open Machine

/-- Settles O5: the step burns on from the fuses that it finds. -/
theorem stepsOnlyBurnFuses : Obligations.StepsOnlyBurnFuses := by
  unfold Obligations.StepsOnlyBurnFuses
  intro f s t burned stepped
  exact fusesBurned_trans burned (step_follows stepped).fuses

end Sys2Proof
end

section
/-!
PROOFS. A table in canonical form is what it reads; so a cell that is put back changes nothing, and of two changes of one
cell the second stays.
-/
namespace Sys2Proof

section
variable {α : Type} [DecidableEq α] (d : α)

/-- Two tables in canonical form that read alike are the same. -/
theorem Map.eq_of_get {lo : Nat} {m n : Map α} (wm : Map.wfFrom d lo m = true) (wn : Map.wfFrom d lo n = true)
    (same : ∀ k, Map.get d m k = Map.get d n k) : m = n := by
  induction m generalizing lo n with
  | nil =>
    cases n with
    | nil => rfl
    | cons e t =>
      simp only [Map.wfFrom, Bool.and_eq_true, decide_eq_true_eq] at wn
      exact absurd (by simpa [Map.get] using same e.1) (Ne.symm wn.1.2)
  | cons e t ih =>
    obtain ⟨k, v⟩ := e
    have wm' := wm
    simp only [Map.wfFrom, Bool.and_eq_true, decide_eq_true_eq] at wm
    obtain ⟨⟨-, listed⟩, wt⟩ := wm
    cases n with
    | nil => exact absurd (by simpa [Map.get] using same k) listed
    | cons e' t' =>
      obtain ⟨k', v'⟩ := e'
      have wn' := wn
      simp only [Map.wfFrom, Bool.and_eq_true, decide_eq_true_eq] at wn
      obtain ⟨⟨-, listed'⟩, wt'⟩ := wn
      have atK := same k
      have atK' := same k'
      rcases Nat.lt_trichotomy k k' with lt | rfl | gt
      · rw [Map.get, if_pos rfl, Map.get, if_neg (by omega), Map.get_below d wt' (by omega)] at atK
        exact absurd atK listed
      · rw [Map.get, if_pos rfl, Map.get, if_pos rfl] at atK
        rw [atK, ih wt wt' fun j => ?_]
        by_cases h : j = k
        · rw [Map.get_below d wt (by omega), Map.get_below d wt' (by omega)]
        · simpa [Map.get, h] using same j
      · rw [Map.get, if_neg (by omega), Map.get_below d wt (by omega), Map.get, if_pos rfl] at atK'
        exact absurd atK'.symm listed'

/-- Setting a key to what it reads changes nothing. -/
theorem Map.set_get_self {m : Map α} (w : Map.wf d m = true) (k : Nat) : Map.set d m k (Map.get d m k) = m := by
  refine Map.eq_of_get d (Map.wf_set d w k _) w fun j => ?_
  by_cases h : j = k
  · rw [h, Map.get_set_self d w]
  · rw [Map.get_set_of_ne d m _ h]

/-- Of two values set for a key, the second stays. -/
theorem Map.set_set {m : Map α} (w : Map.wf d m = true) (k : Nat) (a b : α) :
    Map.set d (Map.set d m k a) k b = Map.set d m k b := by
  refine Map.eq_of_get d (Map.wf_set d (Map.wf_set d w k a) k b) (Map.wf_set d w k b) fun j => ?_
  by_cases h : j = k
  · rw [h, Map.get_set_self d (Map.wf_set d w k a), Map.get_set_self d w]
  · rw [Map.get_set_of_ne d _ _ h, Map.get_set_of_ne d _ _ h, Map.get_set_of_ne d _ _ h]

end

end Sys2Proof

namespace Sys2Proof.Machine

/-- The table of cells is in canonical form. -/
abbrev Mod.CellsWf (m : Mod) : Prop := Map.wf CellState.reset m.cells = true

theorem Mod.cellsWf_setCell {m : Mod} (w : m.CellsWf) (i : Nat) (c : CellState) : (m.setCell i c).CellsWf :=
  Map.wf_set _ w i c

theorem Mod.cell_setCell {m : Mod} (w : m.CellsWf) (i : Nat) (c : CellState) : (m.setCell i c).cell i = c :=
  Map.get_set_self _ w i c

theorem Mod.setCell_cell {m : Mod} (w : m.CellsWf) (i : Nat) : m.setCell i (m.cell i) = m := by
  simp only [Mod.setCell, Mod.cell, Map.set_get_self _ w]

theorem Mod.setCell_setCell {m : Mod} (w : m.CellsWf) (i : Nat) (a b : CellState) :
    (m.setCell i a).setCell i b = m.setCell i b := by
  simp only [Mod.setCell, Map.set_set _ w]

end Sys2Proof.Machine
end

section
/-!
PROOFS. A step of a cell in which only the move unit has work, and an MV row that is carried to its end (R115, R120, R123).
-/
namespace Sys2Proof.Machine

/-- Only the move unit of the cell may have work: nothing drains, and its MX and VX units are free. -/
structure OnlyMoves (c : CellState) : Prop where
  adv : c.adv = none
  drain : c.drain = none
  vx : c.vx = none

/-- No unit of the cell has work, and nothing is on its way into tile memory. -/
structure CellIdle (c : CellState) : Prop extends OnlyMoves c where
  mv : c.mv = none
  landing : c.landing = []
  mxBusy : c.mxBusy = 0
  upBusy : c.upBusy = 0
  downBusy : c.downBusy = 0

theorem cellIdle_of_cellBusy {c : CellState} (free : cellBusy c = false) : CellIdle c := by
  simp only [cellBusy, Bool.or_eq_false_iff, Option.isSome_eq_false_iff, Option.isNone_iff_eq_none, decide_eq_false_iff_not,
    ne_eq, Decidable.not_not] at free
  obtain ⟨⟨⟨⟨⟨⟨⟨adv, drain⟩, vx⟩, mv⟩, landing⟩, mx⟩, up⟩, down⟩ := free
  exact ⟨⟨adv, drain, vx⟩, mv, landing, mx, up, down⟩

theorem CellIdle.withTile {c : CellState} (idle : CellIdle c) (t : Mem) : CellIdle { c with tile := t } :=
  ⟨⟨idle.adv, idle.drain, idle.vx⟩, idle.mv, idle.landing, idle.mxBusy, idle.upBusy, idle.downBusy⟩

/-! ### The end of a step -/

/-- With nothing on its way and no occupied time the end of a step changes nothing. -/
theorem cellTick_still {c : CellState} (drain : c.drain = none) (landing : c.landing = []) (mx : c.mxBusy = 0)
    (up : c.upBusy = 0) (down : c.downBusy = 0) : cellTick c = c := by
  obtain ⟨⟩ := c
  simp_all [cellTick]

theorem CellIdle.tick {c : CellState} (idle : CellIdle c) : cellTick c = c :=
  cellTick_still idle.drain idle.landing idle.mxBusy idle.upBusy idle.downBusy

theorem OnlyMoves.tick {c : CellState} (alone : OnlyMoves c) : OnlyMoves (cellTick c) :=
  ⟨alone.adv, by simp [cellTick, alone.drain], alone.vx⟩

theorem landAll_landed {c : CellState} (landing : c.landing = []) : landAll c = c := by
  obtain ⟨⟩ := c
  simp_all [landAll]

/-! ### The move unit's turn -/

/-- A step of the move unit writes tile memory, Loam, what is on its way, and its own run. -/
theorem mvStep_frame (old c : CellState) (inp : MvIn) :
    ∃ t l g r, (mvStep old c inp).1 = { c with tile := t, loam := l, landing := g, mv := r } := by
  unfold mvStep
  split
  · exact ⟨_, _, _, _, rfl⟩
  · extract_lets
    repeat' split
    all_goals exact ⟨_, _, _, _, rfl⟩

theorem OnlyMoves.mvStep {c : CellState} (alone : OnlyMoves c) (old : CellState) (inp : MvIn) :
    OnlyMoves (Machine.mvStep old c inp).1 := by
  obtain ⟨t, l, g, r, changed⟩ := mvStep_frame old c inp
  rw [changed]
  exact ⟨alone.adv, alone.drain, alone.vx⟩

/-- Of the cell at the start of the step the move unit reads tile memory and Loam. -/
theorem mvStep_old {old old' : CellState} (tile : old.tile = old'.tile) (loam : old.loam = old'.loam) (c : CellState)
    (inp : MvIn) : mvStep old c inp = mvStep old' c inp := by
  simp only [mvStep, loamDown, loamUp, tile, loam]

/-- The turn of the move unit; a gather is the module's. -/
def moveTurn (inp : MvIn) (old c : CellState) : CellState × List Fx :=
  match c.mv with
  | some r => if (mvF r.word).op = 10 then (c, []) else mvStep old c inp
  | none => (c, [])

theorem OnlyMoves.moveTurn {c : CellState} (alone : OnlyMoves c) (inp : MvIn) (old : CellState) :
    OnlyMoves (Machine.moveTurn inp old c).1 := by
  unfold Machine.moveTurn
  split
  · split
    · exact alone
    · exact alone.mvStep old inp
  · exact alone

/-- The row word with a move alone. -/
abbrev moveSlots (v : BitVec 64) : Slots := ⟨0#64, 0#64, v⟩

/-- The issue of a move, or of none. -/
def issueMove (env : CellEnv) (c : CellState) (v : BitVec 64) : CellState × List Fx :=
  if field v.toNat 0 4 = 0 then (c, []) else mvIssue env c v

theorem OnlyMoves.issueMove {c : CellState} (alone : OnlyMoves c) (env : CellEnv) (v : BitVec 64) :
    OnlyMoves (Machine.issueMove env c v).1 := by
  simp only [Machine.issueMove, mvIssue]
  repeat' split
  all_goals exact ⟨alone.adv, alone.drain, alone.vx⟩

/-- The first stage that acts in a step has all the free bytes. -/
theorem andThen_first (env : CellEnv) (c : CellState) (f : CellEnv → CellState → CellState × List Fx) :
    andThen env (c, []) f = f env c := rfl

/-- A stage that does nothing leaves what the stages before it gave. -/
theorem andThen_idle {env : CellEnv} {r : CellState × List Fx} {f : CellEnv → CellState → CellState × List Fx}
    (idle : ∀ e, f e r.1 = (r.1, [])) : andThen env r f = r := by
  simp only [andThen, idle, List.append_nil]

/-- A step of a cell whose other units are free: the move is issued, its unit has its turn, and the step ends. -/
theorem cellStep_moves {c : CellState} (alone : OnlyMoves c) (v : BitVec 64) (inp : MvIn) (env : CellEnv) :
    cellStep (moveSlots v) inp ([], []) [] env c =
      let issued := issueMove env c v
      let moved := moveTurn inp c issued.1
      (cellTick moved.1, issued.2 ++ moved.2) := by
  have noDrain : ¬(c.drain.isSome = true ∧ ((moveSlots v).some? = true ∨ c.adv.isSome = true ∨ c.vx.isSome = true
      ∨ c.mv.isSome = true)) := by simp [alone.drain]
  have noMx : mxIssue c.tile [] 0#64 env c = (c, []) := rfl
  have noVx : (if field (0#64).toNat 0 6 = 0 then (c, []) else vxIssue env c 0#64) = (c, []) := rfl
  have issued := alone.issueMove env v
  have noAdv : andThen env (issueMove env c v) (fun _ x => advStep c.tile x []) = issueMove env c v :=
    andThen_idle fun _ => by simp only [advStep, issued.adv]
  have noVxTurn : andThen env (issueMove env c v) (fun e x => vxStep e c.tile x) = issueMove env c v :=
    andThen_idle fun _ => by simp only [vxStep, issued.vx]
  have still : (cellTick (andThen env (issueMove env c v) (fun _ x => moveTurn inp c x)).1).drain = none :=
    ((issued.moveTurn inp c).tick).drain
  simp only [cellStep, if_neg noDrain, andThen_first, noMx, noVx]
  rw [← issueMove, noAdv, List.append_nil, noVxTurn]
  split
  · exact absurd (still.symm.trans ‹_›) (by simp)
  · rfl

end Sys2Proof.Machine
end

section
/-!
PROOFS. An MV row at a cell: its steps, one after the other, and what it leaves (R120, R123; log entry 24).
-/
namespace Sys2Proof.Machine

theorem withOp_field {op : Nat} (small : op < 16) (w : BitVec 64) : field (withOp 4 op w).toNat 0 4 = op := by
  have := w.isLt
  simp only [field, withOp, BitVec.toNat_ofNat]
  omega

theorem mvF_withOp {op : Nat} (small : op < 16) (w : BitVec 64) : (mvF (withOp 4 op w)).op = op := withOp_field small w

/-! ### One step -/

/-- The word whose move a step carries on: that of the running operation, or the one that the step issues. -/
def movedWord (c : CellState) (v : BitVec 64) : BitVec 64 := match c.mv with | some r => r.word | none => v

/-- What a step with a move alone gives a cell whose other units are free. -/
def Mod.movesTo (m : Mod) (cell : Nat) (v : BitVec 64) : CellState × List Fx :=
  let c := m.cell cell
  let issued := issueMove (m.cellEnv cell) c v
  let moved := moveTurn (m.mvInput cell (movedWord c v) []) c issued.1
  (cellTick moved.1, issued.2 ++ moved.2)

/-- A step of a cell with a move alone; a gather that runs then is the module's. -/
theorem Mod.stepCell_moves {m : Mod} {cell : Nat} (alone : OnlyMoves (m.cell cell)) (v : BitVec 64) :
    m.stepCell m cell (moveSlots v) [] =
      let n := m.putCell cell (m.movesTo cell v)
      match (n.cell cell).mv with
      | some r => if (mvF r.word).op = 10 then n.gather cell r else n
      | none => n := by
  have noSource : m.advInput cell (m.cell cell) = ([], []) := by simp only [Mod.advInput, alone.adv]
  have noAdv : ¬field (moveSlots v).mx.toNat 0 4 = 1 := by simp [field]
  have stepped : cellStep (moveSlots v) (m.mvInput cell (movedWord (m.cell cell) v) []) ([], []) [] (m.cellEnv cell)
      (m.cell cell) = m.movesTo cell v := cellStep_moves alone v _ _
  simp only [Mod.stepCell, if_neg noAdv, noSource, Mod.runCell]
  rw [← stepped]
  rfl

/-- A step that ends the move, whatever it caused. -/
theorem Mod.stepCell_ends {m : Mod} {cell : Nat} (alone : OnlyMoves (m.cell cell)) (v : BitVec 64)
    (ended : ((m.putCell cell (m.movesTo cell v)).cell cell).mv = none) :
    m.stepCell m cell (moveSlots v) [] = m.putCell cell (m.movesTo cell v) := by
  rw [Mod.stepCell_moves alone]
  simp only [ended]

/-- A step that carries on a move inside the cell. -/
theorem Mod.stepCell_goesOn {m : Mod} {cell : Nat} (alone : OnlyMoves (m.cell cell)) (v : BitVec 64) {r : MvRun}
    (goesOn : ((m.putCell cell (m.movesTo cell v)).cell cell).mv = some r) (noGather : (mvF r.word).op ≠ 10) :
    m.stepCell m cell (moveSlots v) [] = m.putCell cell (m.movesTo cell v) := by
  rw [Mod.stepCell_moves alone]
  simp only [goesOn, if_neg noGather]

/-- A step in which a gather runs. -/
theorem Mod.stepCell_gathers {m : Mod} {cell : Nat} (alone : OnlyMoves (m.cell cell)) (v : BitVec 64) {r : MvRun}
    (runs : ((m.putCell cell (m.movesTo cell v)).cell cell).mv = some r) (op : (mvF r.word).op = 10) :
    m.stepCell m cell (moveSlots v) [] = (m.putCell cell (m.movesTo cell v)).gather cell r := by
  rw [Mod.stepCell_moves alone]
  simp only [runs, if_pos op]

/-! ### The row -/

theorem Mod.stepsOf_done {m : Mod} {cell : Nat} {busy : CellState → Bool} (free : busy (m.cell cell) = false) (fuel : Nat)
    (ups : List Upset) : Mod.stepsOf fuel busy m cell ups = m := by
  cases fuel <;> simp [Mod.stepsOf, free]

theorem Mod.landCell_landed {m : Mod} {cell : Nat} (w : m.CellsWf) (landed : (m.cell cell).landing = []) :
    m.landCell cell = m := by
  rw [Mod.landCell, Mod.onCell, landAll_landed landed, Mod.setCell_cell w]

/-- An MV row at an idle cell: the step that issues it, steps until the move unit is free, and what is on its way lands. -/
theorem Mod.runMv_idle {m : Mod} {cell op : Nat} (runs : m.cellRuns cell = true) (idle : CellIdle (m.cell cell))
    (least : 1 ≤ op) (small : op < 16) (w : BitVec 64) :
    m.runMv cell op w [] =
      ((m.stepCell m cell (moveSlots (withOp 4 op w)) []).stepsOf roundFuel (fun c => c.mv.isSome) cell []).landCell cell := by
  have names : field (withOp 4 op w).toNat 0 4 ≠ 0 := by rw [withOp_field small]; omega
  have ready : (moveSlots (withOp 4 op w)).held (m.cell cell) = false := by
    simp [Slots.held, mvHeld, idle.mv, idle.upBusy, idle.downBusy, field]
  have unit : (fun c : CellState => decide (field (moveSlots (withOp 4 op w)).vx.toNat 0 6 ≠ 0) && c.vx.isSome
      || decide (field (moveSlots (withOp 4 op w)).mv.toNat 0 4 ≠ 0) && c.mv.isSome) = fun c => c.mv.isSome := by
    funext c
    simp [names, show field 0 0 6 = 0 from rfl]
  simp only [Mod.runMv, Mod.runSlot, runs, Bool.true_eq_false, if_false, List.foldl_nil, Mod.stepsOf_done ready, ready,
    Bool.false_eq_true, unit]

/-- An MV row that ends in its first step, with the cell idle again. -/
theorem Mod.runMv_once {m n : Mod} {cell op : Nat} {c : CellState} {fx : List Fx} (wf : m.CellsWf)
    (runs : m.cellRuns cell = true) (idle : CellIdle (m.cell cell)) (least : 1 ≤ op) (small : op < 16) (w : BitVec 64)
    (moves : m.movesTo cell (withOp 4 op w) = (c, fx)) (ended : CellIdle c)
    (causes : fx.foldl (Mod.applyFx cell) (m.setCell cell c) = n) (cells : n.cells = (m.setCell cell c).cells) :
    m.runMv cell op w [] = n := by
  have left : n.cell cell = c := by rw [Mod.cell, cells]; exact Mod.cell_setCell wf cell c
  have nwf : n.CellsWf := by rw [Mod.CellsWf, cells]; exact Mod.cellsWf_setCell wf cell c
  have put : m.putCell cell (m.movesTo cell (withOp 4 op w)) = n := by rw [moves]; exact causes
  rw [Mod.runMv_idle runs idle least small,
    Mod.stepCell_ends idle.toOnlyMoves _ (by rw [put, left]; exact ended.mv), put,
    Mod.stepsOf_done (by rw [left, ended.mv]; rfl), Mod.landCell_landed nwf (by rw [left]; exact ended.landing)]

/-! ### The issue -/

/-- A move with nothing to do is issued to no effect (R15). -/
theorem issueMove_empty {env : CellEnv} {c : CellState} {v : BitVec 64} (txl : (mvF v).txl ≤ 5) (rxl : (mvF v).rxl ≤ 5)
    (rest : field v.toNat 40 24 = 0) (empty : (mvF v).count = 0) (small : (mvF v).op ≤ 10) : issueMove env c v = (c, []) := by
  unfold issueMove mvIssue
  have legal : ¬(10 < (mvF v).op ∨ 5 < (mvF v).txl ∨ 5 < (mvF v).rxl ∨ field v.toNat 40 24 ≠ 0) := by omega
  simp [legal, empty]

/-- A move with an unassigned link or reserved bits is illegal (R123). -/
theorem issueMove_illegal {env : CellEnv} {c : CellState} {v : BitVec 64} (names : (mvF v).op ≠ 0)
    (illegal : 5 < (mvF v).txl ∨ 5 < (mvF v).rxl ∨ field v.toNat 40 24 ≠ 0) :
    issueMove env c v = (c, [.slotIllegal 2]) := by
  have names' : field v.toNat 0 4 ≠ 0 := names
  simp [issueMove, mvIssue, names, names', illegal]

/-- A legal move whose addresses can be formed starts. -/
theorem issueMove_starts {env : CellEnv} {c : CellState} {v : BitVec 64} {s d : OpAddr} (names : (mvF v).op ≠ 0)
    (small : (mvF v).op ≤ 10) (txl : (mvF v).txl ≤ 5) (rxl : (mvF v).rxl ≤ 5) (rest : field v.toNat 40 24 = 0)
    (units : (mvF v).count ≠ 0) (addrs : mvAddrs env c (mvF v) = .ok (s, d)) :
    issueMove env c v = ({ c with mv := some ⟨v, s, d, 0, 0⟩ }, []) := by
  have names' : field v.toNat 0 4 ≠ 0 := names
  have legal : ¬(10 < (mvF v).op ∨ 5 < (mvF v).txl ∨ 5 < (mvF v).rxl ∨ field v.toNat 40 24 ≠ 0) := by omega
  simp [issueMove, mvIssue, names, names', legal, units, addrs]

end Sys2Proof.Machine
end

section
/-!
PROOFS. One unit of a move: what a step of the move unit does with aligned words (R54, R120, R169, R173).
-/
namespace Sys2Proof.Machine

/-- The cell with a move under way whose first unit is yet to come. -/
def started (c : CellState) (v : BitVec 64) (s d : OpAddr) : CellState := { c with mv := some ⟨v, s, d, 0, 0⟩ }

theorem started_tile (c : CellState) (v : BitVec 64) (s d : OpAddr) : (started c v s d).tile = c.tile := rfl
theorem started_mv (c : CellState) (v : BitVec 64) (s d : OpAddr) : (started c v s d).mv = some ⟨v, s, d, 0, 0⟩ := rfl

/-- Of the cell at the start of the step the move unit's turn reads tile memory and Loam. -/
theorem moveTurn_old {old old' : CellState} (tile : old.tile = old'.tile) (loam : old.loam = old'.loam) (inp : MvIn)
    (c : CellState) : moveTurn inp old c = moveTurn inp old' c := by
  unfold moveTurn
  rw [mvStep_old tile loam]

/-- The move row with the code `op` is legal at a cell that is idle, has units to move, and its addresses can be formed. -/
structure Mod.Starts (m : Mod) (cell op : Nat) (w : BitVec 64) (s d : OpAddr) : Prop where
  wf : m.CellsWf
  runs : m.cellRuns cell = true
  idle : CellIdle (m.cell cell)
  least : 1 ≤ op
  most : op ≤ 10
  txl : (mvF (withOp 4 op w)).txl ≤ 5
  rxl : (mvF (withOp 4 op w)).rxl ≤ 5
  rest : field (withOp 4 op w).toNat 40 24 = 0
  units : (mvF (withOp 4 op w)).count ≠ 0
  addrs : mvAddrs (m.cellEnv cell) (m.cell cell) (mvF (withOp 4 op w)) = .ok (s, d)

theorem Mod.Starts.op {m : Mod} {cell op : Nat} {w : BitVec 64} {s d : OpAddr} (h : m.Starts cell op w s d) :
    (mvF (withOp 4 op w)).op = op := mvF_withOp (by have := h.most; omega) w

/-- The first step of a move has it issued and its unit taken. -/
theorem Mod.Starts.movesTo {m : Mod} {cell op : Nat} {w : BitVec 64} {s d : OpAddr} (h : m.Starts cell op w s d) :
    m.movesTo cell (withOp 4 op w) =
      let c := started (m.cell cell) (withOp 4 op w) s d
      let moved := moveTurn (m.mvInput cell (withOp 4 op w) []) c c
      (cellTick moved.1, moved.2) := by
  have issued : issueMove (m.cellEnv cell) (m.cell cell) (withOp 4 op w)
      = (started (m.cell cell) (withOp 4 op w) s d, []) :=
    issueMove_starts (by have := h.op; have := h.least; omega) (by have := h.op; have := h.most; omega) h.txl h.rxl h.rest
      h.units h.addrs
  have word : movedWord (m.cell cell) (withOp 4 op w) = withOp 4 op w := by simp only [movedWord, h.idle.mv]
  have old : moveTurn (m.mvInput cell (withOp 4 op w) []) (m.cell cell) (started (m.cell cell) (withOp 4 op w) s d)
      = moveTurn (m.mvInput cell (withOp 4 op w) []) (started (m.cell cell) (withOp 4 op w) s d)
        (started (m.cell cell) (withOp 4 op w) s d) :=
    moveTurn_old rfl rfl _ _
  simp only [Mod.movesTo, issued, word, old, List.nil_append]

/-- The turn of the move unit with a row inside the cell, or over a path. -/
theorem moveTurn_started {op : Nat} {w : BitVec 64} {s d : OpAddr} (small : op < 10) (inp : MvIn) (old c : CellState) :
    moveTurn inp old (started c (withOp 4 op w) s d) = mvStep old (started c (withOp 4 op w) s d) inp := by
  have noGather : (mvF (withOp 4 op w)).op ≠ 10 := by rw [mvF_withOp (by omega)]; omega
  simp only [moveTurn, started, if_neg noGather]

/-! ### Words -/

/-- Aligned words are read whole. -/
theorem readTile_words {t : Mem} {a : Nat} (aligned : a % 8 = 0) {k : Nat} (units : 0 < k) :
    (readTile t a (8 * k)).2.2 = (loadWords t 0 (a / 8) k).2 := by
  have count : (a + 8 * k - 1) / 8 - a / 8 + 1 = k := by omega
  rw [readTile, if_neg (by omega)]
  simp only [count]

/-- A crossing without upsets delivers the words as they are (R173). -/
theorem crossWords_clean (ts : List TWord) : crossWords ts [] = (ts, []) := by
  have clean (e : TWord × Nat) : crossWord e.1 (listGet 0#72 [] e.2) = (e.1, []) := rfl
  simp only [crossWords, clean, List.map_map, Function.comp_def]
  exact Prod.ext (List.zipIdx_map_fst 0 ts) (List.flatten_eq_nil_iff.2 (by simp))

/-- A cell whose move has ended is as it was but for tile memory. -/
theorem started_ended {c : CellState} (free : c.mv = none) (v : BitVec 64) (s d : OpAddr) (t : Mem) :
    { started c v s d with tile := t, mv := none } = { c with tile := t } := by
  obtain ⟨⟩ := c
  simp_all [started]

/-- A move of one unit, other than LINK, ends with it. -/
theorem mvNext_one {c : CellState} (free : c.mv = none) {v : BitVec 64} (op : (mvF v).op ≠ 5) (one : (mvF v).count = 1)
    (s d : OpAddr) (t : Mem) :
    mvNext { started c v s d with tile := t } ⟨v, s, d, 0 + 1, 0⟩ = { c with tile := t } := by
  simp only [mvNext, op, one, Nat.zero_add, Nat.le_refl, ne_eq, not_false_eq_true, false_and, true_or, or_true,
    and_self, if_true]
  exact started_ended free v s d t

/-- A LINK of one unit in one direction ends with it. -/
theorem mvNext_oneLink {c : CellState} (free : c.mv = none) {v : BitVec 64} {tx rx : Nat} (op : (mvF v).op = 5)
    (sent : (mvF v).txl = 0 ∨ (mvF v).count ≤ tx) (received : (mvF v).rxl = 0 ∨ (mvF v).count ≤ rx) (s d : OpAddr)
    (t : Mem) : mvNext { started c v s d with tile := t } ⟨v, s, d, tx, rx⟩ = { c with tile := t } := by
  have txDone : (mvF v).op = 5 ∧ (mvF v).txl = 0 ∨ (mvF v).count ≤ tx := by omega
  have rxDone : ((mvF v).op = 5 ∧ (mvF v).rxl = 0) ∨ (mvF v).op ≠ 5 ∨ (mvF v).count ≤ rx := by omega
  simp only [mvNext, if_pos (And.intro txDone rxDone)]
  exact started_ended free v s d t

/-! ### One unit over a path -/

section
variable {w : BitVec 64} {s d : OpAddr} {c : CellState} {inp : MvIn} (free : c.mv = none)
include free

/-- A flit leaves for the mesh. -/
theorem mvStep_meshTx (one : (mvF (withOp 4 6 w)).count = 1) (aligned : s.addr % 8 = 0)
    (inside : inTile s.addr 64 = true) (clean : (loadWords c.tile 0 (s.addr / 8) 8).2 = []) :
    mvStep (started c (withOp 4 6 w) s d) (started c (withOp 4 6 w) s d) inp
      = (c, [.meshSend (mvF (withOp 4 6 w)).route (loadWords c.tile 0 (s.addr / 8) 8).1]) := by
  have op : (mvF (withOp 4 6 w)).op = 6 := mvF_withOp (by omega) w
  have read : (readTile c.tile s.addr 64).2.2 = [] := (readTile_words aligned (k := 8) (by omega)).trans clean
  simp only [mvStep, started_mv, started_tile, op, Nat.mul_zero, Nat.add_zero, inside, not_true_eq_false, if_false,
    aligned, if_true, read, List.nil_append]
  exact congrArg (·, _) (mvNext_one free (by omega) one s d c.tile)

/-- The row's lane takes a unit. -/
theorem mvStep_laneTx (one : (mvF (withOp 4 8 w)).count = 1) (aligned : s.addr % 8 = 0)
    (inside : inTile s.addr 128 = true) (clean : (loadWords c.tile 0 (s.addr / 8) 16).2 = []) :
    mvStep (started c (withOp 4 8 w) s d) (started c (withOp 4 8 w) s d) inp
      = (c, [.laneDrive (loadWords c.tile 0 (s.addr / 8) 16).1]) := by
  have op : (mvF (withOp 4 8 w)).op = 8 := mvF_withOp (by omega) w
  have read : (readTile c.tile s.addr 128).2.2 = [] := (readTile_words aligned (k := 16) (by omega)).trans clean
  simp only [mvStep, started_mv, started_tile, op, Nat.mul_zero, Nat.add_zero, inside, not_true_eq_false, if_false,
    aligned, if_true, read, List.nil_append]
  exact congrArg (·, _) (mvNext_one free (by omega) one s d c.tile)

/-- A flit that has arrived is taken. -/
theorem mvStep_meshRx (one : (mvF (withOp 4 7 w)).count = 1) (aligned : d.addr % 8 = 0)
    (inside : inTile d.addr 64 = true) {ts : List TWord} (arrived : inp.meshIn = some ts) (still : inp.flips = []) :
    mvStep (started c (withOp 4 7 w) s d) (started c (withOp 4 7 w) s d) inp
      = ({ c with tile := storeWords c.tile (d.addr / 8) ts }, [.meshTake]) := by
  have op : (mvF (withOp 4 7 w)).op = 7 := mvF_withOp (by omega) w
  simp only [mvStep, started_mv, started_tile, op, Nat.mul_zero, Nat.add_zero, inside, not_true_eq_false, if_false,
    aligned, if_true, arrived, still, crossWords_clean, List.nil_append]
  exact congrArg (·, _) (mvNext_one free (by omega) one s d _)

/-- The unit on the row's lane is taken. -/
theorem mvStep_laneRx (one : (mvF (withOp 4 9 w)).count = 1) (aligned : d.addr % 8 = 0)
    (inside : inTile d.addr 128 = true) {ts : List TWord} (arrived : inp.laneIn = some ts) (still : inp.flips = []) :
    mvStep (started c (withOp 4 9 w) s d) (started c (withOp 4 9 w) s d) inp
      = ({ c with tile := storeWords c.tile (d.addr / 8) ts }, []) := by
  have op : (mvF (withOp 4 9 w)).op = 9 := mvF_withOp (by omega) w
  simp only [mvStep, started_mv, started_tile, op, Nat.mul_zero, Nat.add_zero, inside, not_true_eq_false, if_false,
    aligned, if_true, arrived, still, crossWords_clean]
  exact congrArg (·, _) (mvNext_one free (by omega) one s d _)

/-- A unit leaves over a link with a neighbour and room. -/
theorem mvStep_linkTx (one : (mvF (withOp 4 5 w)).count = 1) (send : (mvF (withOp 4 5 w)).txl ≠ 0)
    (only : (mvF (withOp 4 5 w)).rxl = 0) (peer : inp.txPeer = true) (room : inp.linkRoom = true)
    (aligned : s.addr % 8 = 0) (inside : inTile s.addr 256 = true)
    (clean : (loadWords c.tile 0 (s.addr / 8) 32).2 = []) :
    mvStep (started c (withOp 4 5 w) s d) (started c (withOp 4 5 w) s d) inp
      = (c, [.linkSend (mvF (withOp 4 5 w)).txl (loadWords c.tile 0 (s.addr / 8) 32).1]) := by
  have op : (mvF (withOp 4 5 w)).op = 5 := mvF_withOp (by omega) w
  have read : (readTile c.tile s.addr 256).2.2 = [] := (readTile_words aligned (k := 32) (by omega)).trans clean
  simp only [mvStep, started_mv, started_tile, op, ne_eq, send, only, one, not_false_eq_true, not_true_eq_false,
    Nat.zero_lt_one, and_self, false_and, and_false, or_false, Nat.mul_zero, Nat.add_zero, Nat.zero_add, inside, room, peer,
    aligned, read, if_true, if_false, List.append_nil]
  exact congrArg (·, _) (mvNext_oneLink free op (.inr (by omega)) (.inl only) s d c.tile)

/-- The oldest unit of a link with a neighbour is taken. -/
theorem mvStep_linkRx (one : (mvF (withOp 4 5 w)).count = 1) (only : (mvF (withOp 4 5 w)).txl = 0)
    (receive : (mvF (withOp 4 5 w)).rxl ≠ 0) (peer : inp.rxPeer = true) (aligned : d.addr % 8 = 0)
    (inside : inTile d.addr 256 = true) {ts : List TWord} (arrived : inp.linkIn = some ts) (still : inp.flips = []) :
    mvStep (started c (withOp 4 5 w) s d) (started c (withOp 4 5 w) s d) inp
      = ({ c with tile := storeWords c.tile (d.addr / 8) ts }, [.linkTake (mvF (withOp 4 5 w)).rxl]) := by
  have op : (mvF (withOp 4 5 w)).op = 5 := mvF_withOp (by omega) w
  simp only [mvStep, started_mv, started_tile, op, ne_eq, only, receive, one, not_false_eq_true, not_true_eq_false,
    Nat.zero_lt_one, and_self, false_and, and_false, Nat.mul_zero, Nat.add_zero, Nat.zero_add, inside, peer, arrived, still,
    aligned, crossWords_clean, if_true, if_false, List.nil_append]
  exact congrArg (·, _) (mvNext_oneLink free op (.inl only) (.inr (by omega)) s d _)

end

end Sys2Proof.Machine
end

section
/-!
PROOFS. Rows that send or take one unit: what they cause outside the cell (R54, R120, R169).
-/
namespace Sys2Proof.Machine

section
variable {m : Mod} {cell op : Nat} {w : BitVec 64} {s d : OpAddr}

/-- A row whose one unit leaves the cell idle: the cell is as the unit leaves it, and what the unit causes happens. -/
theorem Mod.Starts.runMv_unit {n : Mod} {c : CellState} {fx : List Fx} (h : m.Starts cell op w s d) (small : op < 10)
    (unit : mvStep (started (m.cell cell) (withOp 4 op w) s d) (started (m.cell cell) (withOp 4 op w) s d)
      (m.mvInput cell (withOp 4 op w) []) = (c, fx)) (ended : CellIdle c)
    (causes : fx.foldl (Mod.applyFx cell) (m.setCell cell c) = n) (cells : n.cells = (m.setCell cell c).cells) :
    m.runMv cell op w [] = n := by
  refine Mod.runMv_once h.wf h.runs h.idle h.least (by omega) w (c := c) (fx := fx) ?_ ended causes cells
  rw [h.movesTo]
  simp only [moveTurn_started small, unit, ended.tick]

theorem Mod.sendFlit_cells (route : Nat) (data : List TWord) : (m.sendFlit cell route data).cells = m.cells := by
  simp only [Mod.sendFlit]
  split <;> simp

/-- A row that only sends leaves its cell as it was. -/
theorem Mod.Starts.runMv_sends {n : Mod} {f : Fx} (h : m.Starts cell op w s d) (small : op < 10)
    (unit : mvStep (started (m.cell cell) (withOp 4 op w) s d) (started (m.cell cell) (withOp 4 op w) s d)
      (m.mvInput cell (withOp 4 op w) []) = (m.cell cell, [f])) (causes : Mod.applyFx cell m f = n)
    (cells : n.cells = m.cells) : m.runMv cell op w [] = n :=
  h.runMv_unit small unit h.idle (by rw [Mod.setCell_cell h.wf]; exact causes) (by rw [Mod.setCell_cell h.wf]; exact cells)

theorem Mod.Starts.runMv_meshTx (h : m.Starts cell 6 w s d) (one : (mvF (withOp 4 6 w)).count = 1)
    (aligned : s.addr % 8 = 0) (inside : inTile s.addr 64 = true)
    (clean : (loadWords (m.cell cell).tile 0 (s.addr / 8) 8).2 = []) :
    m.runMv cell 6 w [] =
      m.sendFlit cell (mvF (withOp 4 6 w)).route (loadWords (m.cell cell).tile 0 (s.addr / 8) 8).1 :=
  h.runMv_sends (by omega) (mvStep_meshTx h.idle.mv one aligned inside clean) rfl (Mod.sendFlit_cells _ _)

theorem Mod.Starts.runMv_laneTx (h : m.Starts cell 8 w s d) (one : (mvF (withOp 4 8 w)).count = 1)
    (aligned : s.addr % 8 = 0) (inside : inTile s.addr 128 = true)
    (clean : (loadWords (m.cell cell).tile 0 (s.addr / 8) 16).2 = []) :
    m.runMv cell 8 w [] = { m with chip := { m.chip with
      lanes := m.chip.lanes ++ [⟨rowOf cell, 2, (loadWords (m.cell cell).tile 0 (s.addr / 8) 16).1⟩] } } :=
  h.runMv_sends (by omega) (mvStep_laneTx h.idle.mv one aligned inside clean) rfl rfl

theorem Mod.Starts.runMv_linkTx (h : m.Starts cell 5 w s d) (one : (mvF (withOp 4 5 w)).count = 1)
    (only : (mvF (withOp 4 5 w)).rxl = 0) {p : Nat} (peer : linkPeer m.plan cell (mvF (withOp 4 5 w)).txl = some p)
    (room : (Map.get [] m.chip.links (p * 8 + linkBack (mvF (withOp 4 5 w)).txl)).length < 2)
    (aligned : s.addr % 8 = 0) (inside : inTile s.addr 256 = true)
    (clean : (loadWords (m.cell cell).tile 0 (s.addr / 8) 32).2 = []) :
    m.runMv cell 5 w [] = { m with chip := { m.chip with
      links := Map.modify [] m.chip.links (p * 8 + linkBack (mvF (withOp 4 5 w)).txl)
        (fun q => q ++ [(loadWords (m.cell cell).tile 0 (s.addr / 8) 32).1]) } } := by
  have send : (mvF (withOp 4 5 w)).txl ≠ 0 := by
    intro none
    rw [none] at peer
    cases peer
  refine h.runMv_sends (by omega) (mvStep_linkTx h.idle.mv one send only ?_ ?_ aligned inside clean) ?_ rfl
  · simp [Mod.mvInput, peer]
  · simp [Mod.mvInput, peer, room]
  · simp only [Mod.applyFx, peer]

theorem Mod.Starts.runMv_linkRx (h : m.Starts cell 5 w s d) (one : (mvF (withOp 4 5 w)).count = 1)
    (only : (mvF (withOp 4 5 w)).txl = 0) (peer : (linkPeer m.plan cell (mvF (withOp 4 5 w)).rxl).isSome = true)
    {ts : List TWord} {rest : List (List TWord)}
    (oldest : Map.get [] m.chip.links (cell * 8 + (mvF (withOp 4 5 w)).rxl) = ts :: rest) (aligned : d.addr % 8 = 0)
    (inside : inTile d.addr 256 = true) :
    m.runMv cell 5 w [] =
      { m.setCell cell { m.cell cell with tile := storeWords (m.cell cell).tile (d.addr / 8) ts } with
        chip := { m.chip with links := Map.set [] m.chip.links (cell * 8 + (mvF (withOp 4 5 w)).rxl) rest } } := by
  have receive : (mvF (withOp 4 5 w)).rxl ≠ 0 := by
    intro none
    rw [none] at peer
    cases peer
  refine h.runMv_unit (by omega) (mvStep_linkRx h.idle.mv one only receive peer aligned inside
    (by simp [Mod.mvInput, Mod.linkHead, oldest]) rfl) (h.idle.withTile _) ?_ rfl
  simp [Mod.applyFx, Map.modify, oldest]

theorem Mod.Starts.runMv_meshRx (h : m.Starts cell 7 w s d) (one : (mvF (withOp 4 7 w)).count = 1)
    (aligned : d.addr % 8 = 0) (inside : inTile d.addr 64 = true) {x : MeshFlit}
    (arrived : m.chip.mesh.find? (fun x => x.dst == cell && x.left == 0) = some x) :
    m.runMv cell 7 w [] =
      { m.setCell cell { m.cell cell with tile := storeWords (m.cell cell).tile (d.addr / 8) x.data } with
        chip := { m.chip with mesh := dropFirst (fun (x : MeshFlit) => x.dst == cell && x.left == 0) m.chip.mesh } } :=
  h.runMv_unit (by omega) (mvStep_meshRx h.idle.mv one aligned inside (by simp [Mod.mvInput, arrived]) rfl)
    (h.idle.withTile _) rfl rfl

theorem Mod.Starts.runMv_laneRx (h : m.Starts cell 9 w s d) (one : (mvF (withOp 4 9 w)).count = 1)
    (aligned : d.addr % 8 = 0) (inside : inTile d.addr 128 = true) {x : LaneItem}
    (arrived : m.chip.lanes.find? (fun x => x.row == rowOf cell && x.left == 0) = some x) :
    m.runMv cell 9 w [] =
      m.setCell cell { m.cell cell with tile := storeWords (m.cell cell).tile (d.addr / 8) x.data } :=
  h.runMv_unit (by omega) (mvStep_laneRx h.idle.mv one aligned inside (by simp [Mod.mvInput, Mod.laneNow, arrived]) rfl)
    (h.idle.withTile _) rfl rfl

end

end Sys2Proof.Machine
end

section
/-!
PROOFS. A move inside the cell goes on unit by unit, one a step, until its COUNT is done (R120, R168).
-/
namespace Sys2Proof.Machine

/-- One unit of a move inside the cell, and the end of its step. -/
def takeUnit (inp : MvIn) (x : CellState × List Fx) : CellState × List Fx :=
  let y := mvStep x.1 x.1 inp
  (cellTick y.1, x.2 ++ y.2)

/-- Units taken one after the other. -/
def takeUnits (inp : MvIn) (k : Nat) (x : CellState × List Fx) : CellState × List Fx :=
  match k with
  | 0 => x
  | k + 1 => takeUnits inp k (takeUnit inp x)

/-- A fold over a list of rounds takes a unit a round. -/
theorem foldl_takeUnit {α : Type} (inp : MvIn) (rounds : List α) (x : CellState × List Fx) :
    rounds.foldl (fun x _ => takeUnit inp x) x = takeUnits inp rounds.length x := by
  induction rounds generalizing x with
  | nil => rfl
  | cons _ rest ih => exact ih (takeUnit inp x)

/-- Units that cause nothing had nothing caused before them. -/
theorem quiet_of_takeUnits {inp : MvIn} {k : Nat} {x : CellState × List Fx} (quiet : (takeUnits inp k x).2 = []) :
    x.2 = [] := by
  induction k generalizing x with
  | zero => exact quiet
  | succ k ih => exact (List.append_eq_nil_iff.1 (ih quiet)).1

/-- The first of some units that cause nothing causes nothing. -/
theorem takeUnit_quiet {inp : MvIn} {k : Nat} {c : CellState} (quiet : (takeUnits inp (k + 1) (c, [])).2 = []) :
    takeUnit inp (c, []) = (cellTick (mvStep c c inp).1, []) := by
  have first : [] ++ (mvStep c c inp).2 = [] := quiet_of_takeUnits (x := takeUnit inp (c, [])) quiet
  exact congrArg ((cellTick (mvStep c c inp).1, ·)) first

/-- The cell has `k` units of the move `v` to come; with none it is done. -/
def UnitsLeft (v : BitVec 64) (k : Nat) (c : CellState) : Prop :=
  match k with
  | 0 => c.mv = none
  | k + 1 => ∃ r, c.mv = some r ∧ r.word = v ∧ (mvF v).count = r.tx + (k + 1)

theorem mvNext_mv (c : CellState) {r : MvRun} (op : (mvF r.word).op ≠ 5) :
    (mvNext c r).mv = if (mvF r.word).count ≤ r.tx then none else some r := by
  simp [mvNext, op]

/-- A unit inside the cell that causes nothing is counted, and the last one ends the move. -/
theorem mvStep_counts {inp : MvIn} {old c : CellState} {r : MvRun} (mv : c.mv = some r) (least : 1 ≤ (mvF r.word).op)
    (most : (mvF r.word).op ≤ 4) (quiet : (mvStep old c inp).2 = []) :
    (mvStep old c inp).1.mv = if (mvF r.word).count ≤ r.tx + 1 then none else some { r with tx := r.tx + 1 } := by
  have counted (x : CellState) : (mvNext x { r with tx := r.tx + 1 }).mv
      = if (mvF r.word).count ≤ r.tx + 1 then none else some { r with tx := r.tx + 1 } :=
    mvNext_mv x (r := { r with tx := r.tx + 1 }) (show (mvF r.word).op ≠ 5 by omega)
  have named : (mvF r.word).op = 1 ∨ (mvF r.word).op = 2 ∨ (mvF r.word).op = 3 ∨ (mvF r.word).op = 4 := by omega
  generalize (if (mvF r.word).count ≤ r.tx + 1 then none else some { r with tx := r.tx + 1 }) = next at counted ⊢
  revert quiet
  rcases named with op | op | op | op
  all_goals
    simp only [mvStep, mv, op, mvRange]
    repeat' split
    all_goals simp [counted]

/-- A unit that causes nothing leaves one fewer. -/
theorem UnitsLeft.next {v : BitVec 64} {k : Nat} {c : CellState} {inp : MvIn} (left : UnitsLeft v (k + 1) c)
    (least : 1 ≤ (mvF v).op) (most : (mvF v).op ≤ 4) (quiet : (mvStep c c inp).2 = []) :
    UnitsLeft v k (cellTick (mvStep c c inp).1) := by
  obtain ⟨r, mv, rfl, count⟩ := left
  have counted := mvStep_counts mv least most quiet
  cases k with
  | zero => exact counted.trans (if_pos (by omega))
  | succ k => exact ⟨_, counted.trans (if_neg (by omega)), rfl, by simp only; omega⟩

/-- A unit taken changes how many are left, so it changes the cell. -/
theorem UnitsLeft.ne {v : BitVec 64} {k : Nat} {c c' : CellState} (more : UnitsLeft v (k + 1) c) (fewer : UnitsLeft v k c') :
    c' ≠ c := by
  rintro rfl
  obtain ⟨r, mv, -, count⟩ := more
  cases k with
  | zero => cases mv.symm.trans fewer
  | succ k =>
    obtain ⟨r', mv', -, count'⟩ := fewer
    cases mv.symm.trans mv'
    omega

/-- A move inside the cell is no gather. -/
theorem UnitsLeft.noGather {v : BitVec 64} {k : Nat} {c : CellState} (left : UnitsLeft v k c) (most : (mvF v).op ≤ 4)
    {r : MvRun} (mv : c.mv = some r) : (mvF r.word).op ≠ 10 := by
  cases k with
  | zero => cases mv.symm.trans left
  | succ k =>
    obtain ⟨r', mv', rfl, -⟩ := left
    cases mv.symm.trans mv'
    omega

theorem UnitsLeft.isSome {v : BitVec 64} {k : Nat} {c : CellState} (left : UnitsLeft v (k + 1) c) : c.mv.isSome = true := by
  obtain ⟨r, mv, -⟩ := left
  rw [mv]
  rfl

/-! ### The steps of the cell -/

section
variable {m : Mod} {cell : Nat} {v : BitVec 64}

/-- A step that causes nothing outside the cell, and after which no gather runs. -/
theorem Mod.stepCell_inside {u : BitVec 64} {c : CellState} (wf : m.CellsWf) (alone : OnlyMoves (m.cell cell))
    (moves : m.movesTo cell u = (c, [])) (noGather : ∀ r, c.mv = some r → (mvF r.word).op ≠ 10) :
    m.stepCell m cell (moveSlots u) [] = m.setCell cell c := by
  have put : m.putCell cell (m.movesTo cell u) = m.setCell cell c := by rw [moves]; rfl
  have cell' : (m.setCell cell c).cell cell = c := Mod.cell_setCell wf cell c
  cases mv : c.mv with
  | none => rw [Mod.stepCell_ends alone u (by rw [put, cell', mv]), put]
  | some r => rw [Mod.stepCell_goesOn alone u (by rw [put, cell', mv]) (noGather r mv), put]

/-- A step without an issue takes the next unit of the move under way. -/
theorem movesTo_setCell {k : Nat} {c : CellState} (wf : m.CellsWf) (left : UnitsLeft v (k + 1) c) (most : (mvF v).op ≤ 4) :
    (m.setCell cell c).movesTo cell 0#64 = takeUnit (m.mvInput cell v []) (c, []) := by
  obtain ⟨r, mv, rfl, -⟩ := left
  have noGather : (mvF r.word).op ≠ 10 := by omega
  have word : movedWord c 0#64 = r.word := by simp only [movedWord, mv]
  have noIssue : issueMove ((m.setCell cell c).cellEnv cell) c 0#64 = (c, []) := rfl
  have turn (inp : MvIn) : moveTurn inp c c = mvStep c c inp := by simp only [moveTurn, mv, if_neg noGather]
  simp only [Mod.movesTo, Mod.cell_setCell wf, word, noIssue, turn]
  rfl

/-- The steps that the units of a move inside the cell need. -/
theorem stepsOf_units (wf : m.CellsWf) (least : 1 ≤ (mvF v).op) (most : (mvF v).op ≤ 4) {k fuel : Nat} (enough : k ≤ fuel)
    {c : CellState} (alone : OnlyMoves c) (left : UnitsLeft v k c)
    (quiet : (takeUnits (m.mvInput cell v []) k (c, [])).2 = []) :
    (m.setCell cell c).stepsOf fuel (fun c => c.mv.isSome) cell []
      = m.setCell cell (takeUnits (m.mvInput cell v []) k (c, [])).1 := by
  have here (x : CellState) : (m.setCell cell x).cell cell = x := Mod.cell_setCell wf cell x
  induction k generalizing c fuel with
  | zero => exact Mod.stepsOf_done (by simp only [here]; rw [show c.mv = none from left]; rfl) fuel []
  | succ k ih =>
    obtain ⟨fuel, rfl⟩ : ∃ n, fuel = n + 1 := ⟨fuel - 1, by omega⟩
    have taken := takeUnit_quiet quiet
    have quiet' : (mvStep c c (m.mvInput cell v [])).2 = [] := congrArg Prod.snd taken
    have fewer := left.next least most quiet'
    have step : (m.setCell cell c).stepCell (m.setCell cell c) cell Slots.nop []
        = m.setCell cell (cellTick (mvStep c c (m.mvInput cell v [])).1) := by
      refine (Mod.stepCell_inside (u := 0#64) (Mod.cellsWf_setCell wf cell c) (by rw [here]; exact alone)
        ((movesTo_setCell wf left most).trans taken) fun r mv => fewer.noGather most mv).trans ?_
      exact Mod.setCell_setCell wf cell _ _
    rw [takeUnits, taken] at quiet ⊢
    rw [Mod.stepsOf]
    simp only [here, left.isSome, Bool.true_eq_false, if_false, step, left.ne fewer]
    exact ih (by omega) (alone.mvStep c _).tick fewer quiet

end

/-- A move inside the cell whose units cause nothing: the cell takes them all, and what is on its way lands. -/
theorem Mod.Starts.runMv_inside {m : Mod} {cell op : Nat} {w : BitVec 64} {s d : OpAddr} (h : m.Starts cell op w s d)
    (inside : op ≤ 4)
    (quiet : (takeUnits (m.mvInput cell (withOp 4 op w) []) (mvF (withOp 4 op w)).count
      (started (m.cell cell) (withOp 4 op w) s d, [])).2 = []) :
    m.runMv cell op w [] = m.setCell cell (landAll (takeUnits (m.mvInput cell (withOp 4 op w) [])
      (mvF (withOp 4 op w)).count (started (m.cell cell) (withOp 4 op w) s d, [])).1) := by
  have least : 1 ≤ (mvF (withOp 4 op w)).op := by have := h.op; have := h.least; omega
  have most : (mvF (withOp 4 op w)).op ≤ 4 := by have := h.op; omega
  have bounded : (mvF (withOp 4 op w)).count < 2 ^ 12 := Nat.mod_lt _ (by decide)
  obtain ⟨k, count⟩ : ∃ k, (mvF (withOp 4 op w)).count = k + 1 := Nat.exists_eq_succ_of_ne_zero h.units
  have alone : OnlyMoves (started (m.cell cell) (withOp 4 op w) s d) := ⟨h.idle.adv, h.idle.drain, h.idle.vx⟩
  have left : UnitsLeft (withOp 4 op w) (k + 1) (started (m.cell cell) (withOp 4 op w) s d) :=
    ⟨_, rfl, rfl, by rw [count]; exact (Nat.zero_add _).symm⟩
  rw [count] at quiet ⊢
  have taken := takeUnit_quiet quiet
  have fewer := left.next least most (inp := m.mvInput cell (withOp 4 op w) []) (congrArg Prod.snd taken)
  have moves : m.movesTo cell (withOp 4 op w) = takeUnit (m.mvInput cell (withOp 4 op w) [])
      (started (m.cell cell) (withOp 4 op w) s d, []) := by
    rw [h.movesTo]
    simp only [moveTurn_started (show op < 10 by omega)]
    rfl
  rw [takeUnits, taken] at quiet ⊢
  rw [Mod.runMv_idle h.runs h.idle h.least (by omega),
    Mod.stepCell_inside h.wf h.idle.toOnlyMoves (moves.trans taken) fun r mv => fewer.noGather most mv,
    stepsOf_units h.wf least most (by unfold roundFuel; omega) (alone.mvStep _ _).tick fewer quiet, Mod.landCell, Mod.onCell,
    Mod.cell_setCell h.wf, Mod.setCell_setCell h.wf]

end Sys2Proof.Machine
end

section
/-!
PROOFS. GATHER: the items come in one after the other, and the move unit stays free meanwhile (R120, R239).
-/
namespace Sys2Proof.Machine

/-! ### What fetching an item does to the cells -/

/-- The cells are in canonical form, and the move unit of the cell is free. -/
structure Mod.MoveFree (m : Mod) (cell : Nat) : Prop where
  wf : m.CellsWf
  free : (m.cell cell).mv = none

section
variable {m : Mod} {cell : Nat}

theorem Mod.MoveFree.of_cells {n : Mod} (h : m.MoveFree cell) (cells : n.cells = m.cells) : n.MoveFree cell :=
  ⟨by rw [Mod.CellsWf, cells]; exact h.wf, by rw [Mod.cell, cells]; exact h.free⟩

theorem Mod.MoveFree.setCell (h : m.MoveFree cell) {c : CellState} (free : c.mv = none) : (m.setCell cell c).MoveFree cell :=
  ⟨Mod.cellsWf_setCell h.wf cell c, by rw [Mod.cell_setCell h.wf]; exact free⟩

/-- The table of cells in which a test selects those that change; a cell at its reset state is not listed. -/
def mappedCells (p : Nat → Bool) (f : CellState → CellState) (cs : Map CellState) : Map CellState :=
  (cs.map (fun e => if p e.1 then (e.1, f e.2) else e)).filter (fun e => decide (e.2 ≠ CellState.reset))

theorem mappedCells_cons (p : Nat → Bool) (f : CellState → CellState) (k : Nat) (v : CellState) (t : Map CellState) :
    mappedCells p f ((k, v) :: t) =
      if (if p k then f v else v) = CellState.reset then mappedCells p f t
      else (k, if p k then f v else v) :: mappedCells p f t := by
  cases h : p k <;> simp [mappedCells, List.filter_cons, h]

theorem wfFrom_mappedCells {lo : Nat} {cs : Map CellState} (w : Map.wfFrom CellState.reset lo cs = true) (p : Nat → Bool)
    (f : CellState → CellState) : Map.wfFrom CellState.reset lo (mappedCells p f cs) = true := by
  induction cs generalizing lo with
  | nil => rfl
  | cons e t ih =>
    obtain ⟨k, v⟩ := e
    simp only [Map.wfFrom, Bool.and_eq_true, decide_eq_true_eq] at w
    obtain ⟨⟨above, -⟩, rest⟩ := w
    rw [mappedCells_cons]
    generalize (if p k then f v else v) = v'
    split
    · exact Map.wfFrom_mono _ (by omega) (ih rest)
    · simp only [Map.wfFrom, Bool.and_eq_true, decide_eq_true_eq]
      exact ⟨⟨above, ‹_›⟩, ih rest⟩

theorem mv_mappedCells {lo : Nat} {cs : Map CellState} (w : Map.wfFrom CellState.reset lo cs = true) (p : Nat → Bool)
    {f : CellState → CellState} (keeps : ∀ c, (f c).mv = c.mv) (i : Nat) :
    (Map.get CellState.reset (mappedCells p f cs) i).mv = (Map.get CellState.reset cs i).mv := by
  induction cs generalizing lo with
  | nil => rfl
  | cons e t ih =>
    obtain ⟨k, v⟩ := e
    simp only [Map.wfFrom, Bool.and_eq_true, decide_eq_true_eq] at w
    have same : (if p k then f v else v).mv = v.mv := by split <;> simp [keeps]
    rw [mappedCells_cons, Map.get]
    generalize (if p k then f v else v) = v' at same ⊢
    by_cases here : i = k
    · rw [if_pos here]
      split
      · next isReset =>
        rw [Map.get_below _ (wfFrom_mappedCells w.2 p f) (by omega), ← same, isReset]
      · rw [Map.get, if_pos here, same]
    · rw [if_neg here]
      split
      · exact ih w.2
      · rw [Map.get, if_neg here]
        exact ih w.2

/-- Changing cells in what is not their move unit keeps it free. -/
theorem Mod.MoveFree.mapCells (h : m.MoveFree cell) (p : Nat → Bool) {f : CellState → CellState}
    (keeps : ∀ c, (f c).mv = c.mv) : (m.mapCells p f).MoveFree cell :=
  ⟨wfFrom_mappedCells h.wf p f, (mv_mappedCells h.wf p keeps cell).trans h.free⟩

/-! ### The stacks and the caches -/

theorem Mod.raisePerStack_cells (m : Mod) (poison : Bool) (st a : Nat) : (m.raisePerStack poison st a).cells = m.cells := by
  simp only [Mod.raisePerStack]
  repeat' split
  all_goals simp

theorem Mod.applyMem_cells (writer : BitVec 32) (m : Mod) (f : MemFx) : (Mod.applyMem writer m f).cells = m.cells := by
  cases f <;> simp [Mod.applyMem, Mod.raisePerStack_cells]

theorem Mod.settleInject_cells (m : Mod) : m.settleInject.cells = m.cells := by
  unfold Mod.settleInject
  split <;> rfl

/-- What a cache operation causes in the cells is at most a loss of lines of their L1s. -/
theorem Mod.MoveFree.applyRick (h : m.MoveFree cell) (f : RickFx) : (m.applyRick f).MoveFree cell := by
  cases f with
  | dropCellL1 base len =>
    unfold Mod.applyRick
    exact h.mapCells _ fun _ => rfl
  | thrash => exact h.of_cells (by simp [Mod.applyRick])
  | readAfterFallow => exact h.of_cells (by simp [Mod.applyRick])
  | dataUe => exact h.of_cells (by simp [Mod.applyRick])
  | tagFault => exact h.of_cells (by simp [Mod.applyRick])

theorem Mod.MoveFree.foldl {α : Type} {f : Mod → α → Mod} (keeps : ∀ (n : Mod) a, n.MoveFree cell → (f n a).MoveFree cell)
    (l : List α) (h : m.MoveFree cell) : (l.foldl f m).MoveFree cell := by
  induction l generalizing m with
  | nil => exact h
  | cons a t ih => exact ih (keeps m a h)

theorem Mod.MoveFree.readStack (h : m.MoveFree cell) (a len cls : Nat) (sheaf : Bool) (req : BitVec 32) :
    (m.readStack a len cls sheaf req).2.MoveFree cell := by
  refine Mod.MoveFree.of_cells ?_ (Mod.settleInject_cells _)
  refine Mod.MoveFree.foldl (fun n f hn => hn.applyRick f) _ ?_
  refine Mod.MoveFree.foldl (fun n f hn => hn.of_cells (Mod.applyMem_cells req n f)) _ ?_
  exact h.of_cells rfl

/-! ### The items -/

theorem Mod.MoveFree.gatherItem (h : m.MoveFree cell) (a : Nat) : (m.gatherItem cell a).2.MoveFree cell := by
  unfold Mod.gatherItem
  split
  · exact h
  · unfold Mod.l1Line
    simp only
    split
    · exact h.setCell h.free
    · have read := h.readStack (a / 1024 * 1024) 1024 1 false (reqCell cell)
      exact read.setCell read.free

/-- An item comes in: it is fetched, and put where the descriptor says. -/
def Mod.takeItem (cell : Nat) (d : OpAddr) (m : Mod) (x : Nat × Nat) : Mod :=
  let g := m.gatherItem cell x.1
  g.2.writeTilePieces cell (d.addr + x.2) g.1

theorem Mod.MoveFree.takeItem (h : m.MoveFree cell) (d : OpAddr) (x : Nat × Nat) : (m.takeItem cell d x).MoveFree cell :=
  (h.gatherItem x.1).setCell (h.gatherItem x.1).free

end

/-! ### The row -/

section
variable {m n : Mod} {cell : Nat} {w : BitVec 64} {s d : OpAddr}

/-- The gather of a move that has just started, at a cell whose state is otherwise `m`'s. -/
theorem Mod.gather_started (wf : m.CellsWf) (free : (m.cell cell).mv = none) (v : BitVec 64) (s d : OpAddr) :
    (m.setCell cell (started (m.cell cell) v s d)).gather cell ⟨v, s, d, 0, 0⟩ =
      match m.gatherItems (listGet 0#512 (m.cell cell).regs (mvF v).q) with
      | none => (m.dataFault 2 cell).raise .descKind (unitId 2 cell) []
      | some items =>
        match items.find? (fun x => !(inTile (d.addr + x.2) 128)) with
        | some x => m.applyFx cell (.agRange (mvF v).dst (d.addr + x.2))
        | none => items.foldl (Mod.takeItem cell d) m := by
  have back : (m.setCell cell (started (m.cell cell) v s d)).setCell cell { started (m.cell cell) v s d with mv := none }
      = m := by
    rw [Mod.setCell_setCell wf]
    exact (congrArg (m.setCell cell) (started_ended free v s d (m.cell cell).tile)).trans (Mod.setCell_cell wf cell)
  simp only [Mod.gather, Mod.cell_setCell wf, back]
  rfl

/-- A gather row leaves what its items leave, where they leave the cell idle. -/
theorem Mod.Starts.runMv_gather (h : m.Starts cell 10 w s d)
    (gathers : (m.setCell cell (started (m.cell cell) (withOp 4 10 w) s d)).gather cell ⟨withOp 4 10 w, s, d, 0, 0⟩ = n)
    (free : n.MoveFree cell) (landed : (n.cell cell).landing = []) : m.runMv cell 10 w [] = n := by
  have turn (inp : MvIn) (c : CellState) :
      moveTurn inp c (started (m.cell cell) (withOp 4 10 w) s d) = (started (m.cell cell) (withOp 4 10 w) s d, []) := by
    simp only [moveTurn, started_mv, h.op, if_true]
  have moves : m.movesTo cell (withOp 4 10 w) = (started (m.cell cell) (withOp 4 10 w) s d, []) := by
    rw [h.movesTo]
    simp only [turn]
    exact congrArg (·, []) (cellTick_still h.idle.drain h.idle.landing h.idle.mxBusy h.idle.upBusy h.idle.downBusy)
  have put : m.putCell cell (m.movesTo cell (withOp 4 10 w)) = m.setCell cell (started (m.cell cell) (withOp 4 10 w) s d) := by
    rw [moves]
    rfl
  have step : m.stepCell m cell (moveSlots (withOp 4 10 w)) [] = n := by
    rw [Mod.stepCell_gathers h.idle.toOnlyMoves _ (r := ⟨withOp 4 10 w, s, d, 0, 0⟩)
      (by rw [put, Mod.cell_setCell h.wf, started_mv]) h.op, put]
    exact gathers
  rw [Mod.runMv_idle h.runs h.idle h.least (by omega), step, Mod.stepsOf_done (by rw [free.free]; rfl),
    Mod.landCell_landed free.wf landed]

/-- A descriptor of another kind is a fault. -/
theorem Mod.Starts.runMv_gatherFault (h : m.Starts cell 10 w s d)
    (kind : m.gatherItems (listGet 0#512 (m.cell cell).regs (mvF (withOp 4 10 w)).q) = none) :
    m.runMv cell 10 w [] = (m.dataFault 2 cell).raise .descKind (unitId 2 cell) [] := by
  have still : m.MoveFree cell := ⟨h.wf, h.idle.mv⟩
  refine h.runMv_gather ?_ (still.of_cells (by simp)) (by rw [Mod.cell, Mod.raise_cells]; exact h.idle.landing)
  rw [Mod.gather_started h.wf h.idle.mv, kind]

/-- Items that all lie in tile memory come in, one after the other. -/
theorem Mod.Starts.runMv_gatherItems (h : m.Starts cell 10 w s d) {items : List (Nat × Nat)}
    (named : m.gatherItems (listGet 0#512 (m.cell cell).regs (mvF (withOp 4 10 w)).q) = some items)
    (inside : ∀ x ∈ items, inTile (d.addr + x.2) 128 = true)
    (landed : ((items.foldl (Mod.takeItem cell d) m).cell cell).landing = []) :
    m.runMv cell 10 w [] = items.foldl (Mod.takeItem cell d) m := by
  have allInside : items.find? (fun x => !(inTile (d.addr + x.2) 128)) = none :=
    List.find?_eq_none.2 fun x mem => by simp [inside x mem]
  refine h.runMv_gather ?_ (Mod.MoveFree.foldl (fun n x hn => hn.takeItem d x) items ⟨h.wf, h.idle.mv⟩) landed
  rw [Mod.gather_started h.wf h.idle.mv, named]
  simp only [allInside]

end

end Sys2Proof.Machine
end

section
/-!
PROOFS. The MV rows as commands (R54, R120, R123, R168, R169).
-/
namespace Sys2Proof.Machine

section
variable {m : Mod} {cell op : Nat} {w : BitVec 64}

/-- A stopped cell executes no row (R15, R16). -/
theorem Mod.runMv_stopped (stopped : m.cellRuns cell = false) : m.runMv cell op w [] = m := by
  simp [Mod.runMv, Mod.runSlot, stopped]

/-- A row whose issue starts nothing leaves the cell as it was. -/
theorem Mod.runMv_notStarted {n : Mod} {fx : List Fx} (wf : m.CellsWf) (runs : m.cellRuns cell = true)
    (idle : CellIdle (m.cell cell)) (least : 1 ≤ op) (small : op < 16)
    (issued : issueMove (m.cellEnv cell) (m.cell cell) (withOp 4 op w) = (m.cell cell, fx))
    (causes : fx.foldl (Mod.applyFx cell) m = n) (cells : n.cells = m.cells) : m.runMv cell op w [] = n := by
  refine Mod.runMv_once wf runs idle least small w (c := m.cell cell) (fx := fx) ?_ idle
    (by rw [Mod.setCell_cell wf]; exact causes) (by rw [Mod.setCell_cell wf]; exact cells)
  have turn (inp : MvIn) : moveTurn inp (m.cell cell) (m.cell cell) = (m.cell cell, []) := by
    simp only [moveTurn, idle.mv]
  simp only [Mod.movesTo, issued, turn, idle.tick, List.append_nil]

end

/-- The MV rows with their codes: what the code's row does to the module is what the command does. -/
theorem turns_move {m : Mod} (powered : m.boot.powered = true) (cell : Fin 4704) (w : BitVec 64) :
    ∀ e ∈ [(Instr.copy cell w [], 1), (.loamIn cell w [], 2), (.loamOut cell w [], 3), (.loamXchg cell w [], 4),
        (.link cell w [], 5), (.meshTx cell w [], 6), (.meshRx cell w [], 7), (.laneTx cell w [], 8),
        (.laneRx cell w [], 9), (.gather cell w [], 10)],
      (1 ≤ e.2 ∧ e.2 ≤ 10) ∧ ∀ n, m.runMv cell.val e.2 w [] = n → Safety.Turns m e.1 n := by
  simp only [List.forall_mem_cons, List.not_mem_nil, false_implies, implies_true, and_true]
  exact ⟨⟨by decide, fun _ => turns_copy powered cell w []⟩, ⟨by decide, fun _ => turns_loamIn powered cell w []⟩,
    ⟨by decide, fun _ => turns_loamOut powered cell w []⟩, ⟨by decide, fun _ => turns_loamXchg powered cell w []⟩,
    ⟨by decide, fun _ => turns_link powered cell w []⟩, ⟨by decide, fun _ => turns_meshTx powered cell w []⟩,
    ⟨by decide, fun _ => turns_meshRx powered cell w []⟩, ⟨by decide, fun _ => turns_laneTx powered cell w []⟩,
    ⟨by decide, fun _ => turns_laneRx powered cell w []⟩, ⟨by decide, fun _ => turns_gather powered cell w []⟩⟩

end Sys2Proof.Machine

namespace Sys2Proof

open Machine

/-- Settles O37: a row that does not start leaves its cell alone, one that starts is taken unit by unit, and what a unit
sends or takes goes over its path. -/
theorem movesReachTheirDestination : Obligations.MovesReachTheirDestination := by
  unfold Obligations.MovesReachTheirDestination
  intro m cell w powered wf c env idle row e listed v f
  obtain ⟨⟨least, most⟩, turns⟩ := turns_move powered cell w e listed
  obtain ⟨command, op⟩ := e
  simp only at least most
  have code : (mvF (withOp 4 op w)).op = op := mvF_withOp (by omega) w
  have named : (mvF (withOp 4 op w)).op ≠ 0 := by omega
  have assigned : (mvF (withOp 4 op w)).op ≤ 10 := by omega
  refine ⟨fun stopped => turns _ (Mod.runMv_stopped stopped), ?empty, ?illegal, ?starts⟩
  case empty =>
    intro ⟨runs, free⟩ txl rxl rest none
    exact turns _ (Mod.runMv_notStarted wf runs (cellIdle_of_cellBusy free) least (by omega)
      (issueMove_empty txl rxl rest none assigned) rfl rfl)
  case illegal =>
    intro ⟨runs, free⟩ illegal
    exact turns _ (Mod.runMv_notStarted wf runs (cellIdle_of_cellBusy free) least (by omega)
      (issueMove_illegal named illegal) rfl (by simp))
  case starts =>
    intro s d ⟨runs, free⟩ txl rxl rest units addrs start words took
    have starts : m.Starts cell.val op w s d :=
      ⟨wf, runs, cellIdle_of_cellBusy free, least, most, txl, rxl, rest, units, addrs⟩
    refine ⟨?inside, ?linkTx, ?linkRx, ?meshTx, ?meshRx, ?laneTx, ?laneRx, ?gather⟩
    case inside =>
      intro inside run quiet
      have counted : run = takeUnits (m.mvInput cell.val v []) f.count (start, []) :=
        (foldl_takeUnit _ _ _).trans (by rw [List.length_range])
      rw [counted] at quiet ⊢
      exact turns _ (starts.runMv_inside inside quiet)
    case linkTx =>
      rintro rfl one only p peer room aligned inside clean
      exact turns _ (starts.runMv_linkTx one only peer room aligned inside clean)
    case linkRx =>
      rintro rfl one only peer ts rest oldest aligned inside
      exact turns _ (starts.runMv_linkRx one only peer oldest aligned inside)
    case meshTx =>
      rintro rfl one aligned inside clean
      exact turns _ (starts.runMv_meshTx one aligned inside clean)
    case meshRx =>
      rintro rfl one aligned inside x arrived
      exact turns _ (starts.runMv_meshRx one aligned inside arrived)
    case laneTx =>
      rintro rfl one aligned inside clean
      exact turns _ (starts.runMv_laneTx one aligned inside clean)
    case laneRx =>
      rintro rfl one aligned inside x arrived
      exact turns _ (starts.runMv_laneRx one aligned inside arrived)
    case gather =>
      rintro rfl desc
      refine ⟨fun kind => turns _ (starts.runMv_gatherFault kind), ?_⟩
      intro items named inside n landed _
      exact turns _ (starts.runMv_gatherItems named inside landed)

end Sys2Proof
end

section
/-!
PROOFS. An operation that causes nothing outside its cell, and a cell in which nothing holds the MX unit (R72, R100).
-/
namespace Sys2Proof.Machine

section
variable {m : Mod} {cell : Nat}

/-- An operation that causes nothing outside its cell gives the cell its new state. -/
theorem Mod.runCell_quiet {f : CellEnv → CellState → CellState × List Fx} (quiet : (f (m.cellEnv cell) (m.cell cell)).2 = []) :
    m.runCell cell f = m.setCell cell (f (m.cellEnv cell) (m.cell cell)).1 := by
  rw [Mod.runCell, Mod.putCell, quiet, List.foldl_nil]

theorem Mod.onCell_setCell (wf : m.CellsWf) (c : CellState) (f : CellState → CellState) :
    (m.setCell cell c).onCell cell f = m.setCell cell (f c) := by
  rw [Mod.onCell, Mod.cell_setCell wf, Mod.setCell_setCell wf]

theorem CellIdle.mxFree {c : CellState} (idle : CellIdle c) : mxHeld c = false := by
  simp [mxHeld, idle.adv, idle.mxBusy]

/-- A pending drain is carried out before the MX unit takes its next operation; with none the operation is the first. -/
theorem CellIdle.afterDrain {c : CellState} (idle : CellIdle c) (env : CellEnv)
    (f : CellEnv → CellState → CellState × List Fx) :
    andThen env (if c.drain.isSome then tileDrain env c else (c, [])) f = f env c := by
  simp only [idle.drain, Option.isSome_none, Bool.false_eq_true, if_false, andThen_first]

end

end Sys2Proof.Machine
end

section
/-!
PROOFS. ADV: what its issue does (R66, R67, R117, R118).
-/
namespace Sys2Proof.Machine

/-- The word of an ADV has no unassigned source, format or bit, and its formats are an operand pairing (R67, R117). -/
structure AdvLegal (v : BitVec 64) : Prop where
  asrc : (advF v).asrc ≤ 4
  afmt : (advF v).afmt ≤ 8
  wfmt : (advF v).wfmt ≤ 8
  rest : field v.toNat 43 21 = 0
  pairing : (pairP (advF v).afmt (advF v).wfmt).isSome = true

section
variable {v : BitVec 64} (legal : AdvLegal v)
include legal

theorem AdvLegal.assigned :
    ¬(4 < (advF v).asrc ∨ 8 < (advF v).afmt ∨ 8 < (advF v).wfmt ∨ field v.toNat 43 21 ≠ 0) := by
  obtain ⟨asrc, afmt, wfmt, rest, -⟩ := legal
  omega

theorem AdvLegal.paired : ¬(pairP (advF v).afmt (advF v).wfmt).isNone = true := by
  simp [Option.isSome_iff_ne_none.1 legal.pairing]

/-- An ADV with nothing to do is issued to no effect (R15). -/
theorem advIssue_empty (empty : (advF v).count = 0 ∨ (advF v).mask = 0) (env : CellEnv) (c : CellState) :
    advIssue env c v = (c, []) := by
  simp only [advIssue, if_neg legal.assigned, if_neg legal.paired, if_pos empty]

/-- A legal ADV whose addresses can be formed starts. -/
theorem advIssue_starts {env : CellEnv} {c : CellState} {wa aa : OpAddr} (count : (advF v).count ≠ 0)
    (mask : (advF v).mask ≠ 0) (weights : formTile env c (advF v).wag (some (advF v).wfmt) = .ok wa)
    (activations : (if (advF v).asrc = 1 then formTile env c (advF v).aag (some (advF v).afmt) else .ok ⟨0, 0, 0⟩)
      = .ok aa) :
    advIssue env c v = ({ c with
      adv := some ⟨v, aa, wa, 0, 0, [], 0⟩, arrays := c.arrays ||| BitVec.ofNat 4 (advF v).mask }, []) := by
  have named : ¬((advF v).count = 0 ∨ (advF v).mask = 0) := by omega
  simp only [advIssue, if_neg legal.assigned, if_neg legal.paired, if_neg named, weights, activations]

end

section
variable {m : Mod} {cell : Nat} {w : BitVec 64}

/-- The MX unit of a cell that runs an ADV or is occupied takes no other (R72). -/
theorem Mod.runAdv_held (held : (m.cell cell).adv.isSome = true ∨ (m.cell cell).mxBusy ≠ 0) : m.runAdv cell w = m := by
  have busy : mxHeld (m.cell cell) = true := by simpa [mxHeld] using held
  simp [Mod.runAdv, busy]

/-- An ADV whose issue causes nothing outside the cell, at a cell whose MX unit is free. -/
theorem Mod.runAdv_quiet {c : CellState} (runs : m.cellRuns cell = true) (adv : (m.cell cell).adv = none)
    (mxBusy : (m.cell cell).mxBusy = 0)
    (issued : advIssue (m.cellEnv cell) (m.cell cell) (withOp 4 1 w) = (c, [])) :
    m.runAdv cell w = m.setCell cell c := by
  have free : mxHeld (m.cell cell) = false := by simp [mxHeld, adv, mxBusy]
  rw [Mod.runAdv, if_neg (by simp [runs, free]), Mod.runCell_quiet (congrArg Prod.snd issued), issued]

end

end Sys2Proof.Machine
end

section
/-!
PROOFS. ADVANCE: a step of a cell in which only its ADV has work (R69).
-/
namespace Sys2Proof.Machine

/-- Rounds that put values into the K blocks and the accumulators change nothing else. -/
theorem foldl_accumulators {α : Type} (ks : CellState → α → List KState) (acc : CellState → α → Map (BitVec 44))
    (rounds : List α) (c : CellState) :
    ∃ k a, rounds.foldl (fun c e => { c with k := ks c e, acc := acc c e }) c = { c with k := k, acc := a } := by
  induction rounds generalizing c with
  | nil => exact ⟨_, _, rfl⟩
  | cons e rest ih => exact ih { c with k := ks c e, acc := acc c e }

theorem markPoison_frame (c : CellState) (mask : Nat) (bad : Bool) : ∃ k, (markPoison c mask bad).1 = { c with k := k } := by
  unfold markPoison
  split <;> exact ⟨_, rfl⟩

theorem markPoison_drain (c : CellState) (mask : Nat) (bad : Bool) : (markPoison c mask bad).1.drain = c.drain := by
  obtain ⟨k, marked⟩ := markPoison_frame c mask bad
  rw [marked]

theorem markPoison_mode (c : CellState) (mask : Nat) (bad : Bool) : (markPoison c mask bad).1.mode = c.mode := by
  obtain ⟨k, marked⟩ := markPoison_frame c mask bad
  rw [marked]

/-- An advance changes the K blocks, the accumulators and the running ADV. -/
theorem advance_frame (old : Mem) (c : CellState) (r : Adv) :
    ∃ k acc adv, (advance old c r).1 = { c with k := k, acc := acc, adv := adv } := by
  unfold advance
  extract_lets f p rows arrs cols j t staged haveAct acts wts bad fx mk c' step c'' made
  split
  · exact ⟨_, _, _, rfl⟩
  split
  · exact ⟨_, _, _, rfl⟩
  split
  · exact ⟨_, _, _, rfl⟩
  · obtain ⟨k, marked⟩ : ∃ k, c' = { c with k := k } := markPoison_frame c f.mask bad
    obtain ⟨k', acc, filled⟩ : ∃ k' acc, c'' = { c' with k := k', acc := acc } := foldl_accumulators _ _ _ _
    exact ⟨k', acc, _, by rw [filled, marked]⟩

/-- The VX and move units of the cell have no work, nothing drains or is on its way, and no time is occupied: only an ADV
may run. -/
structure OnlyFeeds (c : CellState) : Prop where
  drain : c.drain = none
  vx : c.vx = none
  mv : c.mv = none
  landing : c.landing = []
  mxBusy : c.mxBusy = 0
  upBusy : c.upBusy = 0
  downBusy : c.downBusy = 0

theorem onlyFeeds_of_cellBusy {c : CellState} (free : cellBusy { c with adv := none } = false) : OnlyFeeds c := by
  obtain ⟨⟨-, drain, vx⟩, mv, landing, mxBusy, upBusy, downBusy⟩ := cellIdle_of_cellBusy free
  exact ⟨drain, vx, mv, landing, mxBusy, upBusy, downBusy⟩

theorem OnlyFeeds.tick {c : CellState} (alone : OnlyFeeds c) : cellTick c = c :=
  cellTick_still alone.drain alone.landing alone.mxBusy alone.upBusy alone.downBusy

/-- The advance that the next step of the feed of `r` makes, if its bytes are then staged. -/
def nextAdvance (c : CellState) (r : Adv) : CellState × List Fx :=
  advance c.tile c { r with steps := r.steps + 1, act := [] }

theorem OnlyFeeds.nextAdvance {c : CellState} (alone : OnlyFeeds c) (r : Adv) : OnlyFeeds (nextAdvance c r).1 := by
  obtain ⟨k, acc, adv, changed⟩ := advance_frame c.tile c { r with steps := r.steps + 1, act := [] }
  rw [Machine.nextAdvance, changed]
  exact ⟨alone.drain, alone.vx, alone.mv, alone.landing, alone.mxBusy, alone.upBusy, alone.downBusy⟩

/-- A step of the feed of an ADV with its activations in the cell's own tile memory takes nothing from outside. -/
theorem advStep_own {c : CellState} {r : Adv} (adv : c.adv = some r) (own : (advF r.word).asrc = 1) :
    advStep c.tile c [] = nextAdvance c r := by
  simp [advStep, nextAdvance, adv, own, markPoison]

/-- A step of the cell without an issue is a step of its feed. -/
theorem cellStep_advances {c : CellState} {r : Adv} (alone : OnlyFeeds c) (adv : c.adv = some r)
    (own : (advF r.word).asrc = 1) (inp : MvIn) (env : CellEnv) :
    cellStep Slots.nop inp ([], []) [] env c = nextAdvance c r := by
  have noDrain : ¬(c.drain.isSome = true ∧ (Slots.nop.some? = true ∨ c.adv.isSome = true ∨ c.vx.isSome = true
      ∨ c.mv.isSome = true)) := by simp [alone.drain]
  have noMx : mxIssue c.tile [] Slots.nop.mx env c = (c, []) := rfl
  have noVx : (if field Slots.nop.vx.toNat 0 6 = 0 then (c, []) else vxIssue env c Slots.nop.vx) = (c, []) := rfl
  have noMv : (if field Slots.nop.mv.toNat 0 4 = 0 then (c, []) else mvIssue env c Slots.nop.mv) = (c, []) := rfl
  have after := alone.nextAdvance r
  have noVxTurn : andThen env (nextAdvance c r) (fun e x => vxStep e c.tile x) = nextAdvance c r :=
    andThen_idle fun _ => by simp only [vxStep, after.vx]
  have noMvTurn : andThen env (nextAdvance c r) (fun _ x => moveTurn inp c x) = nextAdvance c r :=
    andThen_idle fun _ => by simp only [moveTurn, after.mv]
  have ended : (cellTick (andThen env (nextAdvance c r) (fun _ x => moveTurn inp c x)).1,
      (andThen env (nextAdvance c r) (fun _ x => moveTurn inp c x)).2) = nextAdvance c r := by
    rw [noMvTurn, after.tick]
  have still : (cellTick (andThen env (nextAdvance c r) (fun _ x => moveTurn inp c x)).1).drain = none := by
    rw [noMvTurn, after.tick, after.drain]
  simp only [cellStep, if_neg noDrain, andThen_first, noMx, noVx, noMv, advStep_own adv own, List.append_nil, noVxTurn]
  split
  · exact absurd (still.symm.trans ‹_›) (by simp)
  · exact ended

section
variable {m : Mod} {cell : Nat} {r : Adv}

/-- An ADV with its activations in the cell's own tile memory takes none from a lane or link. -/
theorem Mod.advInput_own {c : CellState} (adv : c.adv = some r) (own : (advF r.word).asrc = 1) :
    m.advInput cell c = ([], []) := by
  simp [Mod.advInput, adv, own]

/-- A step of the feed that causes nothing outside the cell. -/
theorem Mod.stepCell_advances (wf : m.CellsWf) (alone : OnlyFeeds (m.cell cell)) (adv : (m.cell cell).adv = some r)
    (own : (advF r.word).asrc = 1) (quiet : (nextAdvance (m.cell cell) r).2 = []) :
    m.stepCell m cell Slots.nop [] = m.setCell cell (nextAdvance (m.cell cell) r).1 := by
  have step (inp : MvIn) : cellStep Slots.nop inp ([], []) [] (m.cellEnv cell) (m.cell cell)
      = nextAdvance (m.cell cell) r := cellStep_advances alone adv own inp _
  have noAdv : ¬field Slots.nop.mx.toNat 0 4 = 1 := by simp [Slots.nop, field]
  have noMv : ((m.setCell cell (nextAdvance (m.cell cell) r).1).cell cell).mv = none := by
    rw [Mod.cell_setCell wf]
    exact (alone.nextAdvance r).mv
  simp only [Mod.stepCell, if_neg noAdv, Mod.advInput_own adv own]
  rw [Mod.runCell_quiet (by rw [residuesAt, List.filterMap_nil, step]; exact quiet)]
  simp only [residuesAt, List.filterMap_nil, step, noMv]

/-- An advance made in the next step of the feed, at a cell whose other units have no work. -/
theorem Mod.runAdvance_next (wf : m.CellsWf) (runs : m.cellRuns cell = true) (alone : OnlyFeeds (m.cell cell))
    (adv : (m.cell cell).adv = some r) (own : (advF r.word).asrc = 1) (quiet : (nextAdvance (m.cell cell) r).2 = [])
    (made : (nextAdvance (m.cell cell) r).1.adv = none ∨ madeBy (nextAdvance (m.cell cell) r).1 ≠ r.made) :
    m.runAdvance cell = m.setCell cell (nextAdvance (m.cell cell) r).1 := by
  have before : madeBy (m.cell cell) = r.made := by simp only [madeBy, adv]
  have feeding : ((m.cell cell).adv.isSome && decide (madeBy (m.cell cell) = r.made)) = true := by simp [before, adv]
  have done : ((nextAdvance (m.cell cell) r).1.adv.isSome
      && decide (madeBy (nextAdvance (m.cell cell) r).1 = r.made)) = false := by
    rcases made with ended | counted
    · simp [ended]
    · simp [counted]
  have here : (m.setCell cell (nextAdvance (m.cell cell) r).1).cell cell = (nextAdvance (m.cell cell) r).1 :=
    Mod.cell_setCell wf cell _
  simp only [Mod.runAdvance, runs, if_true, before, roundFuel]
  rw [Mod.stepsOf]
  simp only [feeding, Bool.true_eq_false, if_false, Mod.stepCell_advances wf alone adv own quiet]
  rw [Mod.stepsOf_done (by rw [here]; exact done), ite_self]

/-- Without a running ADV there is no advance to make. -/
theorem Mod.runAdvance_none (adv : (m.cell cell).adv = none) : m.runAdvance cell = m := by
  rw [Mod.runAdvance, Mod.stepsOf_done (by simp [adv]), ite_self]

end

end Sys2Proof.Machine
end

section
/-!
PROOFS. SWAP without a report: the masked accumulators go to the drain, and the unit is free again (R66, R70, R72, R180).
-/
namespace Sys2Proof.Machine

/-- The accumulators of the arrays that a SWAP names stand in the drain buffer under its word and the mode before it, and
the cell is in the mode that the word gives (R66, R70). -/
structure Swapped (c : CellState) (v : BitVec 64) (n : CellState) : Prop where
  drain : ∃ dr, n.drain = some dr ∧ dr.word = v ∧ dr.mode = c.mode
    ∧ dr.acc = c.acc.filter (fun a => bitOf (swapF v).mask (a.1 / 512))
  mode : n.mode = (swapF v).mode

/-- If the operation causes nothing outside its cell, the cell it leaves has the property. -/
def IfQuiet (P : CellState → Prop) (x : CellState × List Fx) : Prop := x.2 = [] → P x.1

theorem IfQuiet.report {P : CellState → Prop} {c : CellState} {f : Fx} : IfQuiet P (c, [f]) := nofun

/-- A check that fails has a report, so an operation that has none has passed it. -/
theorem IfQuiet.check {P : CellState → Prop} {p : Prop} [Decidable p] {c : CellState} {f : Fx}
    {x : CellState × List Fx} (passed : ¬p → IfQuiet P x) : IfQuiet P (if p then (c, [f]) else x) := by
  split
  · exact .report
  · exact passed ‹_›

/-- A SWAP that causes nothing outside its cell has been carried out. -/
theorem swapIssue_swaps (env : CellEnv) (old : Mem) (c : CellState) (v : BitVec 64) (ups : List (Nat × Nat × Nat)) :
    IfQuiet (Swapped c v) (swapIssue env old c v ups) := by
  unfold swapIssue
  refine .check fun _ => .check fun _ => .check fun _ => .check fun _ => ?_
  split
  · exact .report
  · exact .report
  · exact .report
  refine .check fun _ => .check fun _ => .check fun _ => ?_
  extract_lets
  split
  · exact fun _ => ⟨⟨_, rfl, rfl, rfl, rfl⟩, rfl⟩
  · exact fun _ => ⟨⟨_, markPoison_drain _ _ _, rfl, rfl, rfl⟩, markPoison_mode _ _ _⟩

section
variable {m : Mod} {cell : Nat}

/-- A SWAP that causes nothing outside its cell, at an idle cell: its stall is over when it is. -/
theorem Mod.runSwap_quiet {v w : BitVec 64} (wf : m.CellsWf) (runs : m.cellRuns cell = true)
    (idle : CellIdle (m.cell cell)) (word : withOp 4 2 w = v)
    (quiet : (swapIssue (m.cellEnv cell) (m.cell cell).tile (m.cell cell) v []).2 = []) :
    m.runSwap cell w [] = m.setCell cell
      { (swapIssue (m.cellEnv cell) (m.cell cell).tile (m.cell cell) v []).1 with mxBusy := 0 } := by
  subst word
  have none : residuesAt cell [] = [] := rfl
  simp only [Mod.runSwap, runs, Bool.true_eq_false, if_false, List.foldl_nil, Mod.stepsOf_done idle.mxFree,
    idle.mxFree, Bool.false_eq_true, none]
  rw [Mod.runCell_quiet (by rw [idle.afterDrain]; exact quiet), idle.afterDrain, Mod.onCell_setCell wf]

end

end Sys2Proof.Machine
end

section
/-!
PROOFS. A context is saved to Loam and restored from it (R98, R100, R179).
-/
namespace Sys2Proof.Machine

section
variable {m : Mod} {cell : Nat}

/-- The times that a context move occupies are over when it ends. -/
def contextEnded (c : CellState) : CellState := { c with mxBusy := 0, upBusy := 0, downBusy := 0 }

theorem CellIdle.withLoam {c : CellState} (idle : CellIdle c) (t : Mem) : CellIdle { c with loam := t } :=
  ⟨⟨idle.adv, idle.drain, idle.vx⟩, idle.mv, idle.landing, idle.mxBusy, idle.upBusy, idle.downBusy⟩

theorem CellIdle.contextEnded {c : CellState} (idle : CellIdle c) : Machine.contextEnded c = c := by
  obtain ⟨⟩ := c
  obtain ⟨-, -, -, mxBusy, upBusy, downBusy⟩ := idle
  simp_all [Machine.contextEnded]

/-- A context move at an idle cell. -/
theorem Mod.runCtx_idle (runs : m.cellRuns cell = true) (idle : CellIdle (m.cell cell)) (save : Bool) :
    m.runCtx cell save =
      (m.putCell cell (if save then ctxSave (m.cell cell) else ctxRestore (m.cell cell))).onCell cell contextEnded := by
  simp only [Mod.runCtx, runs, Bool.true_eq_false, if_false, Mod.stepsOf_done idle.mxFree, idle.mxFree,
    Bool.false_eq_true, Mod.runCell, idle.afterDrain]
  rfl

/-- The module with the status that a context save has returned at the cell (R100). -/
def Mod.withStatus (m : Mod) (cell : Nat) (code : BitVec 8) : Mod :=
  { m with chip := { m.chip with status := Map.set 0#8 m.chip.status cell code } }

theorem Mod.runCtx_status (wf : m.CellsWf) (runs : m.cellRuns cell = true) (idle : CellIdle (m.cell cell))
    {c n : CellState} {code : BitVec 8} (saved : ctxSave (m.cell cell) = (c, [.status code]))
    (ended : contextEnded c = n) : m.runCtx cell true = (m.setCell cell n).withStatus cell code := by
  rw [Mod.runCtx_idle runs idle, if_pos rfl, saved, ← ended, ← Mod.onCell_setCell wf]
  rfl

/-- With a K block open nothing is saved, and the status says so (R98, R100). -/
theorem Mod.runCtx_saveOpen (wf : m.CellsWf) (runs : m.cellRuns cell = true) (idle : CellIdle (m.cell cell))
    (opened : blockOpen (m.cell cell) = true) : m.runCtx cell true = m.withStatus cell 0x22#8 := by
  rw [Mod.runCtx_status wf runs idle (if_pos opened) idle.contextEnded, Mod.setCell_cell wf]

/-- Without an open K block the image is stored in Loam (R98, R179). -/
theorem Mod.runCtx_save (wf : m.CellsWf) (runs : m.cellRuns cell = true) (idle : CellIdle (m.cell cell))
    (closed : blockOpen (m.cell cell) = false) :
    m.runCtx cell true = (m.setCell cell { m.cell cell with
      loam := storeWords (m.cell cell).loam ctxBase (toWords (ctxImage (m.cell cell))) }).withStatus cell 0#8 :=
  Mod.runCtx_status wf runs idle (if_neg (by simp [closed])) (idle.withLoam _).contextEnded

/-- A restored context is the accumulators and what row 88 of the image holds (R98). -/
theorem ctxLoad_frame (c : CellState) : ∃ acc mode arrays lfsr k,
    (ctxLoad c).1 = { c with acc := acc, mode := mode, arrays := arrays, lfsr := lfsr, k := k } :=
  ⟨_, _, _, _, _, rfl⟩

/-- A context whose words are read without a report is restored (R98, R180). -/
theorem Mod.runCtx_restore (wf : m.CellsWf) (runs : m.cellRuns cell = true) (idle : CellIdle (m.cell cell))
    (quiet : (ctxLoad (m.cell cell)).2 = []) : m.runCtx cell false = m.setCell cell (ctxLoad (m.cell cell)).1 := by
  have ended : contextEnded (ctxRestore (m.cell cell)).1 = (ctxLoad (m.cell cell)).1 := by
    obtain ⟨acc, mode, arrays, lfsr, k, loaded⟩ := ctxLoad_frame (m.cell cell)
    simp only [ctxRestore, contextEnded, loaded, idle.mxBusy, idle.upBusy, idle.downBusy]
  have noReport : (ctxRestore (m.cell cell)).2 = [] := quiet
  rw [Mod.runCtx_idle runs idle, if_neg Bool.false_ne_true, Mod.putCell, noReport, List.foldl_nil, Mod.onCell_setCell wf,
    ended]

end

end Sys2Proof.Machine
end

section
/-!
PROOFS. TILE_DRAIN: the drain of a clean tile of finite values (R70, R88, R93 to R95).
-/
namespace Sys2Proof.Machine

/-- The tile in the drain buffer carries no mark, and its row statistics are not asked for (R92, R93). -/
structure Drain.Clean (dr : Drain) : Prop where
  poison : dr.poison = false
  residue : dr.residue = false
  illegal : dr.illegal = false
  stats : (swapF dr.word).stats = false

/-- A drain's values are finite in its format. -/
def FiniteIn (code : Nat) (values : List Nat) : Prop :=
  ∀ e ∈ values, (((drainFmt code).getD fmtF32).decode e).nonfinite = false

/-- The tile memory after a clean tile's values, and after them its status word, have been written. -/
def drained (t : Mem) (dr : Drain) (values : List Nat) : Mem :=
  writeTile (writeTile t dr.d.addr (values.map (leBytes (drainBytes (swapF dr.word).drain))).flatten false) dr.s.addr
    (leBytes 8 (statusBase false false false false dr.mode (swapF dr.word).mask (swapF dr.word).drain)) false

/-- Of outputs paired with finite values none is nonfinite. -/
theorem filter_nonfinite_zip {code : Nat} {values : List Nat} (finite : FiniteIn code values)
    (order : List (Nat × Nat × Nat)) :
    (order.zip values).filter (fun e => (((drainFmt code).getD fmtF32).decode e.2).nonfinite) = [] :=
  List.filter_eq_nil_iff.2 fun _ pair => by simp [finite _ (List.of_mem_zip pair).2]

/-- The drain of a clean tile of finite values writes the values, then the status word, and reports nothing. -/
theorem tileDrain_clean {c : CellState} {dr : Drain} (pending : c.drain = some dr) (clean : dr.Clean)
    (finite : FiniteIn (swapF dr.word).drain (drainValues dr (swapF dr.word) c.lfsr).1) (env : CellEnv) :
    tileDrain env c = ({ c with
      drain := none, lfsr := (drainValues dr (swapF dr.word) c.lfsr).2
      tile := drained c.tile dr (drainValues dr (swapF dr.word) c.lfsr).1 }, []) := by
  obtain ⟨poison, residue, illegal, stats⟩ := clean
  simp only [tileDrain, pending, poison, residue, illegal, stats, Bool.false_eq_true, if_false, Bool.or_self,
    filter_nonfinite_zip finite, List.head?_nil, if_true, ne_eq, not_true_eq_false, decide_false, Bool.and_false,
    Bool.or_false, List.append_nil, drained]
  rw [Nat.add_zero]

section
variable {m : Mod} {cell : Nat}

theorem Mod.runDrain_none (done : (m.cell cell).drain = none) : m.runDrain cell = m := by
  simp [Mod.runDrain, done]

theorem Mod.runDrain_clean {dr : Drain} (runs : m.cellRuns cell = true) (pending : (m.cell cell).drain = some dr)
    (clean : dr.Clean)
    (finite : FiniteIn (swapF dr.word).drain (drainValues dr (swapF dr.word) (m.cell cell).lfsr).1) :
    m.runDrain cell = m.setCell cell { m.cell cell with
      drain := none, lfsr := (drainValues dr (swapF dr.word) (m.cell cell).lfsr).2
      tile := drained (m.cell cell).tile dr (drainValues dr (swapF dr.word) (m.cell cell).lfsr).1 } := by
  have drains := tileDrain_clean pending clean finite (m.cellEnv cell)
  rw [Mod.runDrain, if_pos ⟨runs, by rw [pending]; rfl⟩, Mod.runCell_quiet (congrArg Prod.snd drains), drains]

end

end Sys2Proof.Machine
end

section
/-!
PROOFS. The MX operations as commands (R66 to R70, R97, R98, R117).
-/
namespace Sys2Proof.Machine

/-- The MX commands do nothing at a cell that is stopped (R15, R16). -/
theorem turns_mxStopped {m : Mod} (powered : m.boot.powered = true) {cell : Fin 4704}
    (stopped : m.cellRuns cell.val = false) (w : BitVec 64) :
    ∀ i ∈ [Instr.adv cell w, .advance cell, .swap cell w [], .swapSaved cell w [], .tileDrain cell, .ctxSave cell,
      .ctxRestore cell], Safety.Turns m i m := by
  simp only [List.forall_mem_cons, List.not_mem_nil, false_implies, implies_true, and_true]
  refine ⟨turns_adv powered cell w ?_, turns_advance powered cell ?_, turns_swap powered cell w [] ?_,
    turns_swapSaved powered cell w [] ?_, turns_tileDrain powered cell ?_, turns_ctxSave powered cell ?_,
    turns_ctxRestore powered cell ?_⟩
  · simp [Mod.runAdv, stopped]
  · simp [Mod.runAdvance, stopped]
  · simp [Mod.runSwap, stopped]
  · simp [Mod.runSwap, stopped]
  · simp [Mod.runDrain, stopped]
  · simp [Mod.runCtx, stopped]
  · simp [Mod.runCtx, stopped]

/-- The two SWAP commands with the words that they carry out. -/
theorem turns_swaps {m : Mod} (powered : m.boot.powered = true) (cell : Fin 4704) (w : BitVec 64) :
    ∀ e ∈ [(Instr.swap cell w [], withOp 4 2 w), (.swapSaved cell w [], withOp 4 2 (swapSaved w))],
      ∃ u, withOp 4 2 u = e.2 ∧ ∀ n, m.runSwap cell.val u [] = n → Safety.Turns m e.1 n := by
  simp only [List.forall_mem_cons, List.not_mem_nil, false_implies, implies_true, and_true]
  exact ⟨⟨w, rfl, fun _ => turns_swap powered cell w []⟩, ⟨_, rfl, fun _ => turns_swapSaved powered cell w []⟩⟩

end Sys2Proof.Machine

namespace Sys2Proof

open Machine

/-- Settles O34: each MX operation is its operation at the cell named; where it causes nothing outside, that cell's new
state is all that changes. -/
theorem matrixOperationsActOnTheirCell : Obligations.MatrixOperationsActOnTheirCell := by
  unfold Obligations.MatrixOperationsActOnTheirCell
  intro m cell w powered wf c env
  refine ⟨fun stopped => turns_mxStopped powered stopped w, ?advHeld, ?adv, ?advanceNone, ?advance, ?idle, ?drainNone,
    ?drain, ?debug⟩
  case advHeld => exact fun held => turns_adv powered cell w (Mod.runAdv_held held)
  case adv =>
    intro wa aa runs adv mxBusy v f asrc afmt wfmt rest pairing
    have legal : AdvLegal v := ⟨asrc, afmt, wfmt, rest, pairing⟩
    refine ⟨fun empty => turns_adv powered cell w ?_, fun count mask weights activations => turns_adv powered cell w ?_⟩
    · rw [Mod.runAdv_quiet runs adv mxBusy (advIssue_empty legal empty env c), Mod.setCell_cell wf]
    · exact Mod.runAdv_quiet runs adv mxBusy (advIssue_starts legal count mask weights activations)
  case advanceNone => exact fun adv => turns_advance powered cell (Mod.runAdvance_none adv)
  case advance =>
    intro r runs adv free f x own quiet made
    exact turns_advance powered cell (Mod.runAdvance_next wf runs (onlyFeeds_of_cellBusy free) adv own quiet made)
  case idle =>
    intro runs free
    have idle : CellIdle c := cellIdle_of_cellBusy free
    refine ⟨?swap, fun opened => turns_ctxSave powered cell (Mod.runCtx_saveOpen wf runs idle opened),
      fun closed => turns_ctxSave powered cell (Mod.runCtx_save wf runs idle closed),
      fun quiet => turns_ctxRestore powered cell (Mod.runCtx_restore wf runs idle quiet)⟩
    intro e listed x quiet
    obtain ⟨u, word, turns⟩ := turns_swaps powered cell w e listed
    obtain ⟨drain, mode⟩ := swapIssue_swaps env c.tile c e.2 [] quiet
    obtain ⟨dr, pending, named, before, handed⟩ := drain
    exact ⟨turns _ (Mod.runSwap_quiet wf runs idle word quiet), dr, pending, named, before, handed, mode⟩
  case drainNone => exact fun done => turns_tileDrain powered cell (Mod.runDrain_none done)
  case drain =>
    intro dr runs pending poison residue illegal f dv stats finite
    exact turns_tileDrain powered cell (Mod.runDrain_clean runs pending ⟨poison, residue, illegal, stats⟩ finite)
  case debug => exact fun sel => turns_debugRead powered sel rfl

end Sys2Proof
end

section
/-!
PROOFS. What a unit of a VX operation changes: tile memory, side memory, the flags of R330, and its own run (R119, R320,
R322).
-/
namespace Sys2Proof.Machine

/-- Work of the run `r` leaves `c'` of the cell `c`: the run keeps its word, its addresses and its unit. -/
def Worked (r : VxRun) (c c' : CellState) : Prop :=
  ∃ t s g f l b, c' = { c with
    tile := t, side := s, gradNf := g, flagRead := f, vx := some { r with lfsr := l, bad := b } }

theorem Worked.refl {c : CellState} {r : VxRun} (vx : c.vx = some r) : Worked r c c := by
  obtain ⟨⟩ := c
  cases vx
  exact ⟨_, _, _, _, _, _, rfl⟩

/-- The work of a run goes on from where it was. -/
theorem Worked.trans {c c₁ c₂ : CellState} {r : VxRun} (first : Worked r c c₁) (second : Worked (c₁.vx.getD r) c₁ c₂) :
    Worked r c c₂ := by
  obtain ⟨t, s, g, f, l, b, rfl⟩ := first
  obtain ⟨t', s', g', f', l', b', rfl⟩ := second
  exact ⟨t', s', g', f', l', b', rfl⟩

theorem Worked.vx_eq {c c' : CellState} {r : VxRun} (worked : Worked r c c') : c'.vx = some (c'.vx.getD r) := by
  obtain ⟨t, s, g, f, l, b, rfl⟩ := worked
  rfl

/-- A cell that has changed in what a VX operation writes, with the run put back, is one that the run has worked on. -/
theorem Worked.of_changed {c c₁ : CellState} {t : Mem} {s : Map SideEntry} {g f : Bool}
    (changed : c₁ = { c with tile := t, side := s, gradNf := g, flagRead := f }) (r : VxRun) (l : BitVec 32) (b : Bool) :
    Worked r c { c₁ with vx := some { r with lfsr := l, bad := b } } := by
  subst changed
  exact ⟨t, s, g, f, l, b, rfl⟩

theorem putElems_frame (env : CellEnv) (c : CellState) (o : OpAddr) (fmt : Nat) (sr bad : Bool) (lfsr : BitVec 32) (i : Nat)
    (xs : List (BitVec 32)) : ∃ t g, (putElems env c o fmt sr bad lfsr i xs).1 = { c with tile := t, gradNf := g } :=
  ⟨_, _, rfl⟩

theorem writeSide_frame (c : CellState) (e : Nat) (w0 w1 : BitVec 32) (kind : Nat) (bad : Bool) :
    ∃ s, writeSide c e w0 w1 kind bad = { c with side := s } :=
  ⟨_, rfl⟩

section
variable (env : CellEnv) (old : Mem) {c : CellState} {r : VxRun}

/-- A unit of an element-wise operation works on its cell. -/
theorem vxElems_worked (vx : c.vx = some r) : Worked r c (vxElems env old c r).1 := by
  unfold vxElems
  extract_lets f i imm a b cc op vals bad c₁
  split
  · exact .refl vx
  split
  · exact .refl vx
  · obtain ⟨t, g, put⟩ : ∃ t g, c₁.1 = { c with tile := t, gradNf := g } := putElems_frame ..
    exact .of_changed put ..

/-- A row of a windrow operation works on its cell. -/
theorem vxRowApply_worked (vx : c.vx = some r) (k : Nat) : Worked r c (vxRowApply env old c r k).1 := by
  unfold vxRowApply
  extract_lets f flag perRow dfmt di dn o bad c₁ c₂ c₃
  split
  · exact .refl vx
  split
  · exact .refl vx
  split
  · exact .refl vx
  · obtain ⟨t, g, put⟩ : ∃ t g, c₁.1 = { c with tile := t, gradNf := g } := by
      unfold c₁
      split
      · exact ⟨_, _, rfl⟩
      · exact putElems_frame ..
    obtain ⟨s, stored⟩ : ∃ s, c₂ = { c₁.1 with side := s } := by
      unfold c₂
      split
      · exact ⟨_, rfl⟩
      · exact writeSide_frame ..
    obtain ⟨g', fl, flagged⟩ : ∃ g' fl, c₃ = { c₂ with gradNf := g', flagRead := fl } := by
      unfold c₃
      split
      · exact ⟨_, _, rfl⟩
      · exact ⟨_, _, rfl⟩
    exact .of_changed (flagged.trans (by rw [stored, put])) ..

/-- The row `k` of the running operation, unless a row before it has stopped it. -/
def nextRow (r : VxRun) (st : CellState × List Fx × Bool) (k : Nat) : CellState × List Fx × Bool :=
  if st.2.2 then
    let y := vxRowApply env old st.1 (st.1.vx.getD r) k
    (y.1, st.2.1 ++ y.2.1, y.2.2)
  else st

theorem nextRow_worked {st : CellState × List Fx × Bool} (worked : Worked r c st.1) (k : Nat) :
    Worked r c (nextRow env old r st k).1 := by
  unfold nextRow
  split
  · exact worked.trans (vxRowApply_worked env old worked.vx_eq k)
  · exact worked

theorem foldl_nextRow_worked (rows : List Nat) {st : CellState × List Fx × Bool} (worked : Worked r c st.1) :
    Worked r c (rows.foldl (nextRow env old r) st).1 := by
  induction rows generalizing st with
  | nil => exact worked
  | cons k rest ih => exact ih (nextRow_worked env old worked k)

/-- What a step of a VX operation works on its unit: the rows that end in it, or its elements. -/
def vxWork (c : CellState) (r : VxRun) : CellState × List Fx × Bool :=
  if isRowOp (vxF r.word).vop then (rowsOfUnit (vxF r.word).imm r.unit).foldl (nextRow env old r) (c, [], true)
  else vxElems env old c r

theorem vxWork_worked (vx : c.vx = some r) : Worked r c (vxWork env old c r).1 := by
  unfold vxWork
  split
  · exact foldl_nextRow_worked env old _ (.refl vx)
  · exact vxElems_worked env old vx

/-- A step works on the unit; the run then goes on with the next unit, or ends. -/
theorem vxStep_running (vx : c.vx = some r) : vxStep env old c =
    ({ (vxWork env old c r).1 with
      vx := if (vxWork env old c r).2.2 = true ∧ r.unit + 1 < (vxF r.word).count
        then some { (vxWork env old c r).1.vx.getD r with unit := r.unit + 1 } else none },
      (vxWork env old c r).2.1) := by
  have step : vxStep env old c = if (vxWork env old c r).2.2 = true ∧ r.unit + 1 < (vxF r.word).count
      then ({ (vxWork env old c r).1 with vx := some { (vxWork env old c r).1.vx.getD r with unit := r.unit + 1 } },
        (vxWork env old c r).2.1)
      else ({ (vxWork env old c r).1 with vx := none }, (vxWork env old c r).2.1) := by
    unfold vxStep
    rw [vx]
    rfl
  rw [step]
  split <;> rfl

theorem vxStep_idle (vx : c.vx = none) : vxStep env old c = (c, []) := by
  simp only [vxStep, vx]

/-- A step of the vector unit writes tile memory, side memory, the flags, and its own run. -/
theorem vxStep_frame (c : CellState) :
    ∃ t s g f x, (vxStep env old c).1 = { c with tile := t, side := s, gradNf := g, flagRead := f, vx := x } := by
  cases vx : c.vx with
  | none => exact ⟨c.tile, c.side, c.gradNf, c.flagRead, c.vx, by rw [vxStep_idle env old vx]⟩
  | some r =>
    obtain ⟨t, s, g, f, l, b, worked⟩ := vxWork_worked env old vx
    exact ⟨t, s, g, f, _, by rw [vxStep_running env old vx, worked]⟩

/-- After a step the run is at the next unit of the same word, or it has ended. -/
theorem vxStep_vx (vx : c.vx = some r) {r' : VxRun} (next : (vxStep env old c).1.vx = some r') :
    r'.word = r.word ∧ r'.unit = r.unit + 1 ∧ r'.unit < (vxF r.word).count := by
  obtain ⟨t, s, g, f, l, b, worked⟩ := vxWork_worked env old vx
  rw [vxStep_running env old vx, worked] at next
  simp only [Option.getD_some] at next
  split at next
  next more =>
    cases next
    exact ⟨rfl, rfl, more.2⟩
  next => cases next

/-- A running operation changes its cell in every step. -/
theorem vxStep_ne (vx : c.vx = some r) : (vxStep env old c).1 ≠ c := by
  intro same
  have counted := (vxStep_vx env old vx (r' := r) (by rw [same, vx])).2.1
  omega

end

end Sys2Proof.Machine
end

section
/-!
PROOFS. A step of a cell in which only the vector unit has work (R115, R119).
-/
namespace Sys2Proof.Machine

/-- The MX and move units of the cell have no work, nothing drains or is on its way, and no time is occupied: only a VX
operation may run. -/
structure OnlyVectors (c : CellState) : Prop where
  adv : c.adv = none
  drain : c.drain = none
  mv : c.mv = none
  landing : c.landing = []
  mxBusy : c.mxBusy = 0
  upBusy : c.upBusy = 0
  downBusy : c.downBusy = 0

theorem CellIdle.onlyVectors {c : CellState} (idle : CellIdle c) : OnlyVectors c :=
  ⟨idle.adv, idle.drain, idle.mv, idle.landing, idle.mxBusy, idle.upBusy, idle.downBusy⟩

theorem OnlyVectors.tick {c : CellState} (alone : OnlyVectors c) : cellTick c = c :=
  cellTick_still alone.drain alone.landing alone.mxBusy alone.upBusy alone.downBusy

theorem OnlyVectors.withVx {c : CellState} (alone : OnlyVectors c) (x : Option VxRun) : OnlyVectors { c with vx := x } :=
  ⟨alone.adv, alone.drain, alone.mv, alone.landing, alone.mxBusy, alone.upBusy, alone.downBusy⟩

theorem OnlyVectors.vxStep {c : CellState} (alone : OnlyVectors c) (env : CellEnv) (old : Mem) :
    OnlyVectors (Machine.vxStep env old c).1 := by
  obtain ⟨t, s, g, f, x, changed⟩ := vxStep_frame env old c
  rw [changed]
  exact ⟨alone.adv, alone.drain, alone.mv, alone.landing, alone.mxBusy, alone.upBusy, alone.downBusy⟩

/-- The row word with a VX operation alone. -/
abbrev vectorSlots (v : BitVec 64) : Slots := ⟨0#64, v, 0#64⟩

/-- The issue of a VX operation, or of none. -/
def issueVector (env : CellEnv) (c : CellState) (v : BitVec 64) : CellState × List Fx :=
  if field v.toNat 0 6 = 0 then (c, []) else vxIssue env c v

/-- An issue at most starts a run. -/
theorem issueVector_frame (env : CellEnv) (c : CellState) (v : BitVec 64) :
    ∃ x, (issueVector env c v).1 = { c with vx := x } := by
  simp only [issueVector, vxIssue]
  repeat' split
  all_goals exact ⟨_, rfl⟩

theorem OnlyVectors.issueVector {c : CellState} (alone : OnlyVectors c) (env : CellEnv) (v : BitVec 64) :
    OnlyVectors (Machine.issueVector env c v).1 := by
  obtain ⟨x, changed⟩ := issueVector_frame env c v
  rw [changed]
  exact alone.withVx x

/-- The issue of a VX operation and the turn of the vector unit in a step. -/
def vectorTurn (env : CellEnv) (c : CellState) (v : BitVec 64) : CellState × List Fx :=
  andThen env (issueVector env c v) (fun e x => vxStep e c.tile x)

theorem OnlyVectors.vectorTurn {c : CellState} (alone : OnlyVectors c) (env : CellEnv) (v : BitVec 64) :
    OnlyVectors (Machine.vectorTurn env c v).1 :=
  (alone.issueVector env v).vxStep _ _

/-- A step of a cell whose other units are free. -/
theorem cellStep_vectors {c : CellState} (alone : OnlyVectors c) (v : BitVec 64) (inp : MvIn) (env : CellEnv) :
    cellStep (vectorSlots v) inp ([], []) [] env c = vectorTurn env c v := by
  have noDrain : ¬(c.drain.isSome = true ∧ ((vectorSlots v).some? = true ∨ c.adv.isSome = true ∨ c.vx.isSome = true
      ∨ c.mv.isSome = true)) := by simp [alone.drain]
  have noMx : mxIssue c.tile [] 0#64 env c = (c, []) := rfl
  have noMv : andThen env (issueVector env c v)
      (fun e c => if field (0#64).toNat 0 4 = 0 then (c, []) else mvIssue e c 0#64) = issueVector env c v :=
    andThen_idle fun _ => rfl
  have noAdv : andThen env (issueVector env c v) (fun _ x => advStep c.tile x []) = issueVector env c v :=
    andThen_idle fun _ => by simp only [advStep, (alone.issueVector env v).adv]
  have after := alone.vectorTurn env v
  have noMvTurn : andThen env (vectorTurn env c v) (fun _ x => moveTurn inp c x) = vectorTurn env c v :=
    andThen_idle fun _ => by simp only [moveTurn, after.mv]
  have ended : (cellTick (andThen env (vectorTurn env c v) (fun _ x => moveTurn inp c x)).1,
      (andThen env (vectorTurn env c v) (fun _ x => moveTurn inp c x)).2) = vectorTurn env c v := by
    rw [noMvTurn, after.tick]
  have still : (cellTick (andThen env (vectorTurn env c v) (fun _ x => moveTurn inp c x)).1).drain = none := by
    rw [noMvTurn, after.tick, after.drain]
  simp only [cellStep, if_neg noDrain, andThen_first, noMx]
  rw [← issueVector, noMv, noAdv, List.append_nil, ← vectorTurn]
  split
  · exact absurd (still.symm.trans ‹_›) (by simp)
  · exact ended

section
variable {m : Mod} {cell : Nat}

/-- A step of a cell whose other units are free, and what it causes. -/
theorem Mod.stepCell_vectors {n : Mod} {v : BitVec 64} {c : CellState} {fx : List Fx} (wf : m.CellsWf)
    (alone : OnlyVectors (m.cell cell)) (turn : vectorTurn (m.cellEnv cell) (m.cell cell) v = (c, fx))
    (causes : fx.foldl (Mod.applyFx cell) (m.setCell cell c) = n) (cells : n.cells = (m.setCell cell c).cells) :
    m.stepCell m cell (vectorSlots v) [] = n := by
  have noAdv : ¬field (vectorSlots v).mx.toNat 0 4 = 1 := by simp [field]
  have noSource : m.advInput cell (m.cell cell) = ([], []) := by simp only [Mod.advInput, alone.adv]
  have noResidue : residuesAt cell [] = [] := rfl
  have step (inp : MvIn) : m.runCell cell (cellStep (vectorSlots v) inp ([], []) []) = n := by
    rw [Mod.runCell, cellStep_vectors alone, turn]
    exact causes
  have noMv : (n.cell cell).mv = none := by
    have after := alone.vectorTurn (m.cellEnv cell) v
    rw [turn] at after
    rw [Mod.cell, cells]
    exact (congrArg CellState.mv (Mod.cell_setCell wf cell c)).trans after.mv
  simp only [Mod.stepCell, if_neg noAdv, noSource, noResidue, step, noMv]

/-- A step that causes nothing outside the cell. -/
theorem Mod.stepCell_vectorsQuiet {v : BitVec 64} {c : CellState} (wf : m.CellsWf) (alone : OnlyVectors (m.cell cell))
    (turn : vectorTurn (m.cellEnv cell) (m.cell cell) v = (c, [])) :
    m.stepCell m cell (vectorSlots v) [] = m.setCell cell c :=
  Mod.stepCell_vectors wf alone turn rfl rfl

end

end Sys2Proof.Machine
end

section
/-!
PROOFS. A VX operation at a cell: it goes on unit by unit, one a step, until its COUNT is done (R119; log entry 24).
-/
namespace Sys2Proof.Machine

/-- One unit of the running VX operation. -/
def vxUnit (env : CellEnv) (x : CellState × List Fx) : CellState × List Fx :=
  let y := vxStep env x.1.tile x.1
  (y.1, x.2 ++ y.2)

/-- Units done one after the other. -/
def vxUnits (env : CellEnv) (k : Nat) (x : CellState × List Fx) : CellState × List Fx :=
  match k with
  | 0 => x
  | k + 1 => vxUnits env k (vxUnit env x)

/-- A fold over a list of rounds does a unit a round. -/
theorem foldl_vxUnit {α : Type} (env : CellEnv) (rounds : List α) (x : CellState × List Fx) :
    rounds.foldl (fun x _ => vxUnit env x) x = vxUnits env rounds.length x := by
  induction rounds generalizing x with
  | nil => rfl
  | cons _ rest ih => exact ih (vxUnit env x)

theorem OnlyVectors.vxUnits {x : CellState × List Fx} (alone : OnlyVectors x.1) (env : CellEnv) (k : Nat) :
    OnlyVectors (Machine.vxUnits env k x).1 := by
  induction k generalizing x with
  | zero => exact alone
  | succ k ih => exact ih (x := vxUnit env x) (alone.vxStep env _)

/-- With no run there is nothing more to do. -/
theorem vxUnits_idle {c : CellState} (vx : c.vx = none) (env : CellEnv) (k : Nat) : vxUnits env k (c, []) = (c, []) := by
  have unit : vxUnit env (c, []) = (c, []) := by simp only [vxUnit, vxStep_idle env _ vx, List.append_nil]
  induction k with
  | zero => rfl
  | succ k ih => rw [vxUnits, unit, ih]

/-- Units that cause nothing had nothing caused before them. -/
theorem quiet_of_vxUnits {env : CellEnv} {k : Nat} {x : CellState × List Fx} (quiet : (vxUnits env k x).2 = []) :
    x.2 = [] := by
  induction k generalizing x with
  | zero => exact quiet
  | succ k ih => exact (List.append_eq_nil_iff.1 (ih (x := vxUnit env x) quiet)).1

/-- The first of some units that cause nothing causes nothing. -/
theorem vxUnit_quiet {env : CellEnv} {k : Nat} {c : CellState} (quiet : (vxUnits env (k + 1) (c, [])).2 = []) :
    vxUnit env (c, []) = ((vxStep env c.tile c).1, []) := by
  have first : [] ++ (vxStep env c.tile c).2 = [] := quiet_of_vxUnits (x := vxUnit env (c, [])) quiet
  exact congrArg ((vxStep env c.tile c).1, ·) first

/-- A VX operation that runs in the cell has at most `k` units to come. -/
def VxUnitsLeft (k : Nat) (c : CellState) : Prop :=
  ∀ r, c.vx = some r → r.unit < (vxF r.word).count ∧ (vxF r.word).count ≤ r.unit + k

/-- A unit done leaves one fewer. -/
theorem VxUnitsLeft.next {k : Nat} {c : CellState} {r : VxRun} (left : VxUnitsLeft (k + 1) c) (vx : c.vx = some r)
    (env : CellEnv) (old : Mem) : VxUnitsLeft k (vxStep env old c).1 := by
  intro r' next
  obtain ⟨word, unit, more⟩ := vxStep_vx env old vx next
  have := left r vx
  rw [word]
  omega

section
variable {m : Mod} {cell : Nat}

/-- The steps that the units of a VX operation need, where no unit causes anything. -/
theorem stepsOf_vxUnits (wf : m.CellsWf) {k fuel : Nat} (enough : k ≤ fuel) {c : CellState} (alone : OnlyVectors c)
    (left : VxUnitsLeft k c) (quiet : (vxUnits (m.cellEnv cell) k (c, [])).2 = []) :
    (m.setCell cell c).stepsOf fuel (fun c => c.vx.isSome) cell []
      = m.setCell cell (vxUnits (m.cellEnv cell) k (c, [])).1 := by
  have here (x : CellState) : (m.setCell cell x).cell cell = x := Mod.cell_setCell wf cell x
  induction k generalizing c fuel with
  | zero =>
    refine Mod.stepsOf_done (Option.isSome_eq_false_iff.2 (Option.isNone_iff_eq_none.2 ?_)) fuel []
    rw [here, Option.eq_none_iff_forall_ne_some]
    intro r vx
    have := left r vx
    omega
  | succ k ih =>
    cases vx : c.vx with
    | none =>
      rw [vxUnits_idle vx]
      exact Mod.stepsOf_done (by rw [here, vx]; rfl) fuel []
    | some r =>
      obtain ⟨fuel, rfl⟩ : ∃ n, fuel = n + 1 := ⟨fuel - 1, by omega⟩
      have first := vxUnit_quiet quiet
      have turn : vectorTurn (m.cellEnv cell) c 0#64 = ((vxStep (m.cellEnv cell) c.tile c).1, []) := first
      have step : (m.setCell cell c).stepCell (m.setCell cell c) cell Slots.nop []
          = m.setCell cell (vxStep (m.cellEnv cell) c.tile c).1 := by
        refine (Mod.stepCell_vectorsQuiet (v := 0#64) (c := (vxStep (m.cellEnv cell) c.tile c).1)
          (Mod.cellsWf_setCell wf cell c) (by rw [here]; exact alone) ?_).trans (Mod.setCell_setCell wf cell _ _)
        rw [here]
        exact turn
      rw [vxUnits, first] at quiet ⊢
      rw [Mod.stepsOf]
      simp only [here, vx, Option.isSome_some, Bool.true_eq_false, if_false, step, vxStep_ne _ _ vx]
      exact ih (by omega) (alone.vxStep _ _) (left.next vx _ _) quiet

/-! ### The row -/

variable {op : Nat} {w : BitVec 64}

theorem vxF_withOp (small : op < 64) (w : BitVec 64) : (vxF (withOp 6 op w)).vop = op := by
  have := w.isLt
  simp only [vxF, field, withOp, BitVec.toNat_ofNat]
  omega

/-- A stopped cell executes no row (R15, R16). -/
theorem Mod.runVx_stopped (stopped : m.cellRuns cell = false) : m.runVx cell op w [] = m := by
  simp [Mod.runVx, Mod.runSlot, stopped]

/-- A VX row at an idle cell: the step that issues it, steps until the vector unit is free, and what is on its way lands. -/
theorem Mod.runVx_idle (runs : m.cellRuns cell = true) (idle : CellIdle (m.cell cell)) (least : 1 ≤ op) (small : op < 64) :
    m.runVx cell op w [] =
      ((m.stepCell m cell (vectorSlots (withOp 6 op w)) []).stepsOf roundFuel (fun c => c.vx.isSome) cell []).landCell
        cell := by
  have names : field (withOp 6 op w).toNat 0 6 ≠ 0 := by
    have code : field (withOp 6 op w).toNat 0 6 = op := vxF_withOp small w
    omega
  have ready : (vectorSlots (withOp 6 op w)).held (m.cell cell) = false := by
    simp [Slots.held, idle.vx, field]
  have unit : (fun c : CellState => decide (field (vectorSlots (withOp 6 op w)).vx.toNat 0 6 ≠ 0) && c.vx.isSome
      || decide (field (vectorSlots (withOp 6 op w)).mv.toNat 0 4 ≠ 0) && c.mv.isSome) = fun c => c.vx.isSome := by
    funext c
    simp [names, show field 0 0 4 = 0 from rfl]
  simp only [Mod.runVx, Mod.runSlot, runs, Bool.true_eq_false, if_false, List.foldl_nil, Mod.stepsOf_done ready, ready,
    Bool.false_eq_true, unit]

/-- A row whose issue starts nothing leaves the cell as it was. -/
theorem Mod.runVx_notStarted {n : Mod} {fx : List Fx} (wf : m.CellsWf) (runs : m.cellRuns cell = true)
    (idle : CellIdle (m.cell cell)) (least : 1 ≤ op) (small : op < 64)
    (issued : issueVector (m.cellEnv cell) (m.cell cell) (withOp 6 op w) = (m.cell cell, fx))
    (causes : fx.foldl (Mod.applyFx cell) m = n) (cells : n.cells = m.cells) : m.runVx cell op w [] = n := by
  have turn : vectorTurn (m.cellEnv cell) (m.cell cell) (withOp 6 op w) = (m.cell cell, fx) := by
    rw [vectorTurn, issued]
    exact andThen_idle fun _ => vxStep_idle _ _ idle.vx
  have left : n.cell cell = m.cell cell := by rw [Mod.cell, cells, Mod.cell]
  have step : m.stepCell m cell (vectorSlots (withOp 6 op w)) [] = n :=
    Mod.stepCell_vectors wf idle.onlyVectors turn (by rw [Mod.setCell_cell wf]; exact causes)
      (by rw [Mod.setCell_cell wf]; exact cells)
  rw [Mod.runVx_idle runs idle least small, step, Mod.stepsOf_done (by rw [left, idle.vx]; rfl),
    Mod.landCell_landed (by rw [Mod.CellsWf, cells]; exact wf) (by rw [left]; exact idle.landing)]

/-- The cell with a VX operation under way. -/
def withRun (c : CellState) (r : VxRun) : CellState := { c with vx := some r }

/-- A row that starts, and whose units cause nothing outside the cell: the cell has done them all. -/
theorem Mod.runVx_runs {r : VxRun} (wf : m.CellsWf) (runs : m.cellRuns cell = true) (idle : CellIdle (m.cell cell))
    (least : 1 ≤ op) (small : op < 64)
    (issued : issueVector (m.cellEnv cell) (m.cell cell) (withOp 6 op w) = (withRun (m.cell cell) r, []))
    (first : r.unit = 0) (units : (vxF r.word).count ≠ 0)
    (quiet : (vxUnits (m.cellEnv cell) (vxF r.word).count (withRun (m.cell cell) r, [])).2 = []) :
    m.runVx cell op w [] = m.setCell cell
      (vxUnits (m.cellEnv cell) (vxF r.word).count (withRun (m.cell cell) r, [])).1 := by
  have bounded : (vxF r.word).count < 2 ^ 11 := Nat.mod_lt _ (by decide)
  have left : VxUnitsLeft (vxF r.word).count (withRun (m.cell cell) r) := by
    rintro r' ⟨⟩
    omega
  have alone : OnlyVectors (withRun (m.cell cell) r) := idle.onlyVectors.withVx _
  obtain ⟨k, count⟩ : ∃ k, (vxF r.word).count = k + 1 := Nat.exists_eq_succ_of_ne_zero units
  rw [count] at quiet left ⊢
  have done := alone.vxUnits (x := (withRun (m.cell cell) r, [])) (m.cellEnv cell) (k + 1)
  have one := vxUnit_quiet quiet
  have turn : vectorTurn (m.cellEnv cell) (m.cell cell) (withOp 6 op w)
      = ((vxStep (m.cellEnv cell) (withRun (m.cell cell) r).tile (withRun (m.cell cell) r)).1, []) := by
    rw [vectorTurn, issued]
    exact one
  rw [vxUnits, one] at quiet done ⊢
  rw [Mod.runVx_idle runs idle least small, Mod.stepCell_vectorsQuiet wf idle.onlyVectors turn,
    stepsOf_vxUnits wf (by unfold roundFuel; omega) (alone.vxStep _ _) (left.next rfl _ _) quiet,
    Mod.landCell_landed (Mod.cellsWf_setCell wf _ _) (by rw [Mod.cell_setCell wf]; exact done.landing)]

end

/-! ### The issue -/

section
variable {env : CellEnv} {c : CellState} {v : BitVec 64}

theorem issueVector_named (names : (vxF v).vop ≠ 0) : issueVector env c v = vxIssue env c v := if_neg names

/-- A word that breaks a rule is illegal (R123). -/
theorem issueVector_illegal (names : (vxF v).vop ≠ 0) (illegal : vxIllegal c env.training v = true) :
    issueVector env c v = (c, [.slotIllegal 1]) := by
  rw [issueVector_named names, vxIssue, if_neg names, if_pos illegal]

/-- An operation with nothing to do is issued to no effect (R15, R321). -/
theorem issueVector_empty (names : (vxF v).vop ≠ 0) (legal : vxIllegal c env.training v = false)
    (empty : (vxF v).count = 0 ∨ (isRowOp (vxF v).vop = true ∧ (vxF v).imm = 0)) : issueVector env c v = (c, []) := by
  rw [issueVector_named names, vxIssue, if_neg names, if_neg (Bool.eq_false_iff.1 legal), if_pos empty]

/-- A legal operation whose addresses can be formed starts. -/
theorem issueVector_starts {a b cc d : OpAddr} (names : (vxF v).vop ≠ 0) (legal : vxIllegal c env.training v = false)
    (units : (vxF v).count ≠ 0) (row : ¬(isRowOp (vxF v).vop = true ∧ (vxF v).imm = 0))
    (addrs : vxAddrs env c (vxF v) = .ok (a, b, cc, d)) :
    issueVector env c v = ({ c with vx := some ⟨v, a, b, cc, d, 0, lfsrSeed env.seed, false⟩ }, []) := by
  rw [issueVector_named names, vxIssue, if_neg names, if_neg (Bool.eq_false_iff.1 legal), if_neg (not_or.2 ⟨units, row⟩),
    addrs]

end

/-! ### The rows as commands -/

/-- Counting no empty rows changes nothing. -/
theorem Mod.emptyRows_zero (m : Mod) : m.emptyRows 0 = m := by
  have same : satAdd m.attn.emptyRow 0 = m.attn.emptyRow := by
    apply BitVec.eq_of_toNat_eq
    have := m.attn.emptyRow.isLt
    simp only [satAdd, BitVec.toNat_ofNat]
    omega
  rw [Mod.emptyRows, same]

/-- The VX rows with their codes and words: what the code's row does to the module is what the command does. -/
theorem turns_vector {m : Mod} (powered : m.boot.powered = true) (cell : Fin 4704) (w : BitVec 64) :
    ∀ e ∈ [(Instr.add cell w [], 1, w), (.mul cell w [], 2, w), (.fma cell w [] 0, 3, w), (.max cell w [], 4, w),
        (.min cell w [], 5, w), (.cvt cell w [], 6, w), (.quant cell w [], 7, w), (.exp cell w [], 8, w),
        (.rcp cell w [], 9, w), (.rsqrt cell w [], 10, w), (.rowstat cell w [], 11, w), (.norm cell w [], 12, w),
        (.softmax cell w [], 13, w), (.softmaxBwd cell w [], 14, w), (.normBwd cell w [], 15, w),
        (.rowsum cell w [], 16, w), (.rowmax cell w [], 17, w), (.flagRead cell w [], 17, flagMode w)],
      (1 ≤ e.2.1 ∧ e.2.1 ≤ 17) ∧ ∀ n, m.runVx cell.val e.2.1 e.2.2 [] = n → Safety.Turns m e.1 n := by
  simp only [List.forall_mem_cons, List.not_mem_nil, false_implies, implies_true, and_true]
  exact ⟨⟨by decide, fun _ => turns_add powered cell w []⟩, ⟨by decide, fun _ => turns_mul powered cell w []⟩,
    ⟨by decide, fun _ ran => turns_fma powered cell w [] 0 ((Mod.emptyRows_zero _).trans ran)⟩,
    ⟨by decide, fun _ => turns_max powered cell w []⟩, ⟨by decide, fun _ => turns_min powered cell w []⟩,
    ⟨by decide, fun _ => turns_cvt powered cell w []⟩, ⟨by decide, fun _ => turns_quant powered cell w []⟩,
    ⟨by decide, fun _ => turns_exp powered cell w []⟩, ⟨by decide, fun _ => turns_rcp powered cell w []⟩,
    ⟨by decide, fun _ => turns_rsqrt powered cell w []⟩, ⟨by decide, fun _ => turns_rowstat powered cell w []⟩,
    ⟨by decide, fun _ => turns_norm powered cell w []⟩, ⟨by decide, fun _ => turns_softmax powered cell w []⟩,
    ⟨by decide, fun _ => turns_softmaxBwd powered cell w []⟩, ⟨by decide, fun _ => turns_normBwd powered cell w []⟩,
    ⟨by decide, fun _ => turns_rowsum powered cell w []⟩, ⟨by decide, fun _ => turns_rowmax powered cell w []⟩,
    ⟨by decide, fun _ => turns_flagRead powered cell w []⟩⟩

end Sys2Proof.Machine

namespace Sys2Proof

open Machine

/-- Settles O35: a row whose issue starts nothing leaves its cell alone, and one that starts is done unit by unit, one a
step. -/
theorem vectorOperationsRunUnitByUnit : Obligations.VectorOperationsRunUnitByUnit := by
  unfold Obligations.VectorOperationsRunUnitByUnit
  intro m cell w powered wf c env e listed v f
  obtain ⟨⟨least, most⟩, turns⟩ := turns_vector powered cell w e listed
  have small : e.2.1 < 64 := by omega
  have code : (vxF (withOp 6 e.2.1 e.2.2)).vop = e.2.1 := vxF_withOp small e.2.2
  have named : (vxF (withOp 6 e.2.1 e.2.2)).vop ≠ 0 := by omega
  refine ⟨fun stopped => turns _ (Mod.runVx_stopped stopped), fun runs free => ?_⟩
  have idle : CellIdle (m.cell cell.val) := cellIdle_of_cellBusy free
  refine ⟨fun illegal => ?illegal, fun legal => ⟨fun empty => ?empty, ?starts⟩⟩
  case illegal =>
    exact turns _ (Mod.runVx_notStarted wf runs idle least small (issueVector_illegal named illegal) rfl (by simp))
  case empty =>
    exact turns _ (Mod.runVx_notStarted wf runs idle least small (issueVector_empty named legal empty) rfl rfl)
  case starts =>
    intro a b cc d units row addrs start run quiet
    have counted : run = vxUnits env f.count (start, []) :=
      (foldl_vxUnit _ _ _).trans (by rw [List.length_range])
    rw [counted] at quiet ⊢
    exact turns _ (Mod.runVx_runs wf runs idle least small (issueVector_starts named legal units row addrs) rfl units quiet)

end Sys2Proof
end

section
/-!
PROOFS. What a unit and a row of a VX operation compute (R90, R119, R303, R321, R322, R330).
-/
namespace Sys2Proof.Machine

/-! ### Element by element -/

/-- What an element-wise operation makes of the elements of its operands (R90, R119). -/
def elementOp (vop : Nat) (x y z : BitVec 32) : BitVec 32 :=
  match vop with
  | 1 => f32Add x y
  | 2 => f32Mul x y
  | 3 => f32Fma x y z
  | 4 => f32Max x y
  | 5 => f32Min x y
  | 8 => f32Exp x
  | 9 => f32Rcp x
  | 10 => f32Rsqrt x
  | _ => x

/-- The element-wise operations by their codes; CVT and QUANT leave the conversion to the destination's format. -/
theorem elementOp_named {vop : Nat} :
    ∀ e ∈ ([(1, fun x y _ => f32Add x y), (2, fun x y _ => f32Mul x y), (3, fun x y z => f32Fma x y z),
        (4, fun x y _ => f32Max x y), (5, fun x y _ => f32Min x y), (6, fun x _ _ => x), (7, fun x _ _ => x),
        (8, fun x _ _ => f32Exp x), (9, fun x _ _ => f32Rcp x), (10, fun x _ _ => f32Rsqrt x)] :
        List (Nat × (BitVec 32 → BitVec 32 → BitVec 32 → BitVec 32))), vop = e.1 → elementOp vop = e.2 := by
  simp only [List.forall_mem_cons, List.not_mem_nil, false_implies, implies_true, and_true]
  refine ⟨?_, ?_, ?_, ?_, ?_, ?_, ?_, ?_, ?_, ?_⟩
  all_goals
    rintro rfl
    rfl

section
variable {env : CellEnv} {old : Mem} {c : CellState} {r : VxRun} {k : Nat}

/-- The elements of SRC_B for a unit, or IMM in their place. -/
def unitB (old : Mem) (r : VxRun) : List (BitVec 32) × Bool × List Fx :=
  if usesB (vxF r.word).vop then
    (if (vxF r.word).srcB = 31 then (List.replicate 64 (toF32 (fmtBf16.decode (vxF r.word).imm)), false, [])
      else readElems old r.b (vxF r.word).sfmt (64 * r.unit) 64)
  else (List.replicate 64 0#32, false, [])

/-- The elements of SRC_C for a unit. -/
def unitC (old : Mem) (r : VxRun) : List (BitVec 32) × Bool × List Fx :=
  if (vxF r.word).vop = 3 then readElems old r.c (vxF r.word).sfmt (64 * r.unit) 64
  else (List.replicate 64 0#32, false, [])

/-- A unit whose operands lie in tile memory writes what its operation makes of their elements. -/
theorem vxElems_inTile (source : elemsInTile r.a (vxF r.word).sfmt (64 * r.unit) 64 = true)
    (dest : elemsInTile r.d (vxF r.word).dfmt (64 * r.unit) 64 = true) :
    vxElems env old c r =
      let a := readElems old r.a (vxF r.word).sfmt (64 * r.unit) 64
      let b := unitB old r
      let cc := unitC old r
      let bad := r.bad || a.2.1 || b.2.1 || cc.2.1
      let put := putElems env c r.d (vxF r.word).dfmt (vxF r.word).sr bad r.lfsr (64 * r.unit)
        (List.zipWith (fun xy z => elementOp (vxF r.word).vop xy.1 xy.2 z) (a.1.zip b.1) cc.1)
      ({ put.1 with vx := some { r with lfsr := put.2, bad := bad } }, a.2.2 ++ b.2.2 ++ cc.2.2, true) := by
  simp only [vxElems, source, dest, not_true_eq_false, if_false]
  rfl

/-! ### Row by row -/

/-- The elements of the row `k` at an operand. -/
def rowElems (old : Mem) (r : VxRun) (k : Nat) (o : OpAddr) : List (BitVec 32) × Bool × List Fx :=
  readElems old o (vxF r.word).sfmt (k * (vxF r.word).imm) (vxF r.word).imm

/-- The side entry of the row `k`. -/
def sideOf (c : CellState) (r : VxRun) (k : Nat) : BitVec 32 × BitVec 32 × Nat :=
  (readSide c ((vxF r.word).sideBase * 256 + k)).1

/-- The delta entry of the row `k`, which ROWSUM with MODE 1 has written. -/
def deltaOf (c : CellState) (r : VxRun) (k : Nat) : BitVec 32 × BitVec 32 × Nat :=
  (readSide c ((vxF r.word).sideBase * 256 + k + 1024)).1

theorem vxRow_rowstat (op : (vxF r.word).vop = 11) :
    let s := rowStat (rowElems old r k r.a).1 (listGet 0#32 (readElems old r.b 0 0 1).1 0) (vxF r.word).mode1
    (vxRow old c r k).vals = []
      ∧ (vxRow old c r k).side = some (s.1, s.2, if (vxF r.word).mode1 then 3 else 2) := by
  simp [vxRow, op, rowElems]

/-- The statistics that NORM and NORM_BWD take are of kind 2 or 3 (R321). -/
theorem vxRow_norm (op : (vxF r.word).vop = 12) (kind : (sideOf c r k).2.2 = 2 ∨ (sideOf c r k).2.2 = 3) :
    (vxRow old c r k).vals = (rowElems old r k r.a).1.map (fun v => f32Mul (f32Sub v (sideOf c r k).1) (sideOf c r k).2.1)
      ∧ (vxRow old c r k).side = none := by
  have stats : ¬((sideOf c r k).2.2 ≠ 2 ∧ (sideOf c r k).2.2 ≠ 3) := by omega
  rw [sideOf] at stats
  simp [vxRow, op, if_neg stats, rowElems, sideOf]

theorem vxRow_noStats (op : (vxF r.word).vop = 12 ∨ (vxF r.word).vop = 15) (kind : (sideOf c r k).2.2 ≠ 2)
    (kind' : (sideOf c r k).2.2 ≠ 3) : (vxRow old c r k).wrong = some ((vxF r.word).sideBase * 256 + k) := by
  rw [sideOf] at kind kind'
  rcases op with op | op
  · simp [vxRow, op, kind, kind']
  · simp [vxRow, op, kind, kind']

theorem vxRow_softmax (op : (vxF r.word).vop = 13) :
    let ms := (readElems old r.b 0 (2 * k) 2).1
    (vxRow old c r k).vals = (rowElems old r k r.a).1.zipIdx.map (fun v =>
        if listGet 0#32 ms 0 = f32NegInf || vxMasked c (vxF r.word).mask k v.2 then f32Zero
        else
          let p := f32Exp (f32Sub v.1 (listGet 0#32 ms 0))
          if (vxF r.word).mode1 then f32Mul p (f32Rcp (listGet 0#32 ms 1)) else p)
      ∧ (vxRow old c r k).side = if (vxF r.word).mask then none else some (listGet 0#32 ms 0, listGet 0#32 ms 1, 1) := by
  simp [vxRow, op, rowElems]

theorem vxRow_noState (op : (vxF r.word).vop = 14) (kind : (sideOf c r k).2.2 ≠ 1) :
    (vxRow old c r k).wrong = some ((vxF r.word).sideBase * 256 + k) := by
  rw [sideOf] at kind
  simp [vxRow, op, kind]

/-- SOFTMAX_BWD takes the delta from its entry with MODE 1, and forms it itself otherwise (R322). -/
theorem vxRow_softmaxBwd (op : (vxF r.word).vop = 14) (kind : (sideOf c r k).2.2 = 1)
    (delta : (vxF r.word).mode1 = false ∨ (deltaOf c r k).2.2 = 4) :
    (vxRow old c r k).vals = softmaxBwd (rowElems old r k r.a).1 (rowElems old r k r.b).1 (sideOf c r k).1
      (sideOf c r k).2.1 (if (vxF r.word).mode1 then some (deltaOf c r k).1 else none)
      (vxMasked c (vxF r.word).mask k) := by
  rw [sideOf] at kind
  have found : ¬((vxF r.word).mode1 = true ∧ (deltaOf c r k).2.2 ≠ 4) := by
    rcases delta with own | four
    · simp [own]
    · simp [four]
  rw [deltaOf] at found
  simp [vxRow, op, kind, if_neg found, rowElems, sideOf, deltaOf]

theorem vxRow_normBwd (op : (vxF r.word).vop = 15) (kind : (sideOf c r k).2.2 = 2 ∨ (sideOf c r k).2.2 = 3) :
    (vxRow old c r k).vals = normBwd (rowElems old r k r.a).1 (rowElems old r k r.b).1 (sideOf c r k).1 (sideOf c r k).2.1
      ((sideOf c r k).2.2 = 3) := by
  have stats : ¬((sideOf c r k).2.2 ≠ 2 ∧ (sideOf c r k).2.2 ≠ 3) := by omega
  rw [sideOf] at stats
  simp only [vxRow, op, if_neg stats]
  rfl

theorem vxRow_rowsum (op : (vxF r.word).vop = 16) :
    (vxRow old c r k).vals = [rowSum (rowElems old r k r.a).1]
      ∧ (vxRow old c r k).side
        = if (vxF r.word).mode1 then some (rowSum (rowElems old r k r.a).1, f32Zero, 4) else none := by
  simp [vxRow, op, rowElems]

theorem vxRow_rowmax (op : (vxF r.word).vop = 17) (mode : (vxF r.word).mode1 = false) {v : BitVec 32}
    {xs : List (BitVec 32)} (row : (rowElems old r k r.a).1 = v :: xs) :
    (vxRow old c r k).vals = [xs.foldl f32Max v] := by
  rw [rowElems] at row
  simp [vxRow, op, mode, row]

theorem vxRow_flag (op : (vxF r.word).vop = 17) (mode : (vxF r.word).mode1 = true) :
    (vxRow old c r k).vals = List.replicate (vxF r.word).imm (if c.gradNf then f32One else f32Zero) := by
  simp [vxRow, op, mode]

end

end Sys2Proof.Machine

namespace Sys2Proof

open Machine

/-- Settles O36: a unit writes what its operation makes of the elements, and each row operation gives its values and its
side entry, or names the entry of the wrong kind. -/
theorem vectorUnitsComputeTheirOperation : Obligations.VectorUnitsComputeTheirOperation := by
  unfold Obligations.VectorUnitsComputeTheirOperation
  intro env old c r k f i a b cc
  refine ⟨?elements, vxRow_rowstat, vxRow_norm, vxRow_noStats, vxRow_softmax, vxRow_noState, vxRow_softmaxBwd,
    vxRow_normBwd, vxRow_rowsum, fun op mode v xs => vxRow_rowmax op mode, vxRow_flag⟩
  intro source dest e listed op
  rw [← elementOp_named e listed op]
  exact vxElems_inTile source dest

end Sys2Proof
end

section
/-!
PROOFS. A step with no command waiting (R22; log entry 1).
-/
namespace Sys2Proof.Machine

/-- With no host request held there is none to serve. -/
theorem Mod.pumpHost_empty {m : Mod} (free : m.jnl.hostQ = []) : m.pumpHost = m := by
  simp [Mod.pumpHost, Mod.hostPump, free]

/-- With no accepted COMMIT there is no swap. -/
theorem Mod.leaSwap_unlocked {m : Mod} (unlocked : m.lea.locked = false) : m.leaSwap = m := by
  simp [Mod.leaSwap, unlocked]

theorem Mod.idle_unpowered {m : Mod} (unpowered : m.boot.powered = false) : m.idle = m := by
  simp [Mod.idle, unpowered]

/-- A microsecond with nothing held: the clock counts, and the control cores empty their completion queues. -/
theorem Mod.idle_calm {m : Mod} (powered : m.boot.powered = true) (free : m.jnl.hostQ = [])
    (unlocked : m.lea.locked = false) :
    m.idle = { m with
      clock := { m.clock with timeUs := m.clock.timeUs + 1 }, chip := { m.chip with completions := [] } } := by
  have swap (n : Mod) (locked : n.lea = m.lea) : (if n.running then n else n.leaSwap) = n := by
    rw [Mod.leaSwap_unlocked (locked ▸ unlocked), ite_self]
  simp only [Mod.idle, if_pos powered]
  rw [swap, Mod.pumpHost_empty]
  · exact free
  · rfl

end Sys2Proof.Machine

namespace Sys2Proof

open Machine

/-- Settles O2: the step with no command is the module's idle microsecond. -/
theorem stepIdlesOnEmptyQueue : Obligations.StepIdlesOnEmptyQueue := by
  unfold Obligations.StepIdlesOnEmptyQueue
  intro m
  have step (n : Mod) (idle : m.idle = n) : Machine.step ⟨m, []⟩ = .next ⟨n, []⟩ := by rw [Machine.step, idle]
  exact ⟨fun unpowered => step m (Mod.idle_unpowered unpowered),
    fun powered free unlocked => step _ (Mod.idle_calm powered free unlocked)⟩

end Sys2Proof
end

section
/-!
PROOFS. A descriptor that arrives at a cell's queue (R128, R130).
-/
namespace Sys2Proof.Machine

/-- A cell's queue takes a descriptor: the position is usable, its control core runs, and the queue has room. -/
def Mod.QueueOpen (m : Mod) (cell q : Nat) : Prop :=
  isUsable m.plan cell = true ∧ bitOf m.boot.coresHeld.toNat (bandOf cell) = false
    ∧ (listGet [] (m.cell cell).queues q).length < 8

/-- The descriptor joins the end of the cell's queue. -/
def Mod.enqueueDesc (m : Mod) (cell q : Nat) (d : BitVec 512) : Mod :=
  m.setCell cell { m.cell cell with
    queues := listSet (m.cell cell).queues q (listGet [] (m.cell cell).queues q ++ [d]) }

section
variable {m : Mod} {cell q : Nat}

theorem Mod.queueOpen_iff : m.QueueOpen cell q ↔
    ¬(isUsable m.plan cell = false ∨ bitOf m.boot.coresHeld.toNat (bandOf cell) = true
      ∨ 8 ≤ (listGet [] (m.cell cell).queues q).length) := by
  simp [Mod.QueueOpen]

theorem Mod.descArrive_shut (shut : ¬m.QueueOpen cell q) (desc : Option (BitVec 512)) : m.descArrive cell q desc = m :=
  if_pos (Decidable.not_not.1 fun free => shut (Mod.queueOpen_iff.2 free))

/-- A descriptor that the core's firmware has formed sets the SEQ that follows. -/
theorem Mod.descArrive_formed (takes : m.QueueOpen cell q) (d : BitVec 512) :
    m.descArrive cell q (some d) = { m.enqueueDesc cell q d with
      chip := { m.chip with sendSeq := Map.set 0 m.chip.sendSeq (cell * 4 + q) ((field d.toNat 16 16 + 1) % 65536) } } :=
  if_neg (Mod.queueOpen_iff.1 takes)

theorem Mod.descArrive_none (empty : Map.get [] m.chip.outbox (cell * 4 + q) = []) : m.descArrive cell q none = m := by
  simp only [Mod.descArrive, empty, ite_self]

/-- The oldest descriptor that a walk has formed leaves the core's outbox. -/
theorem Mod.descArrive_outbox (takes : m.QueueOpen cell q) {d : BitVec 512} {rest : List (BitVec 512)}
    (oldest : Map.get [] m.chip.outbox (cell * 4 + q) = d :: rest) :
    m.descArrive cell q none = { m.enqueueDesc cell q d with
      chip := { m.chip with outbox := Map.set [] m.chip.outbox (cell * 4 + q) rest } } := by
  simp only [Mod.descArrive, if_neg (Mod.queueOpen_iff.1 takes), oldest]
  rfl

end

end Sys2Proof.Machine

namespace Sys2Proof

open Machine

/-- Settles O29: what arrives at a shut queue is not taken, and what arrives at an open one joins its end. -/
theorem descriptorsJoinACellsQueue : Obligations.DescriptorsJoinACellsQueue := by
  unfold Obligations.DescriptorsJoinACellsQueue
  intro m cell queue d rest powered
  exact ⟨fun shut o => turns_descriptorArrival powered cell queue o (Mod.descArrive_shut shut o),
    fun takes => turns_descriptorArrival powered cell queue _ (Mod.descArrive_formed takes d),
    fun empty => turns_descriptorArrival powered cell queue _ (Mod.descArrive_none empty),
    fun takes oldest => turns_descriptorArrival powered cell queue _ (Mod.descArrive_outbox takes oldest)⟩

end Sys2Proof
end

section
/-!
PROOFS. Permits: an unused one expires as a slip, and the next is granted or withheld (R102, R132, R133, R434).
-/
namespace Sys2Proof.Machine

/-! ### A slip (R132, R133) -/

/-- The causes of a slip: cause 11 where there is none. -/
def slipCauses (found : List Nat) : List Nat := if found = [] then [11] else found

/-- The stream's counters after a slip; whether SLIP_LIMIT has been raised is left to the limit. -/
def Stream.slipped (s : Stream) (found : List Nat) : Stream :=
  let causes := slipCauses found
  let low := causes.foldl min 11
  { s with
    slipTotal := satAdd s.slipTotal 1
    slipCause := s.slipCause.zipIdx.map (fun e => if causes.contains (e.2 + 1) then satAdd e.1 1 else e.1)
    firstSlip := if s.slipTotal = 0#64 then BitVec.ofNat 64 (s.stepCount.toNat % 2 ^ 48 + low * 2 ^ 48) else s.firstSlip
    slips := s.slips + 1, slipLow := if s.slips = 0 then low else min s.slipLow low }

/-- A slip within SLIP_LIMIT, or after the limit has been raised, is counted. -/
theorem Mod.slip_counted {m : Mod}
    (within : m.stream.slipLimit = 0#32 ∨ m.stream.slips + 1 ≤ m.stream.slipLimit.toNat ∨ m.stream.slipRaised = true)
    (found : List Nat) : m.slip found = { m with stream := m.stream.slipped found } := by
  have below : (decide (m.stream.slipLimit ≠ 0#32 ∧ m.stream.slipLimit.toNat < m.stream.slips + 1)
      && !m.stream.slipRaised) = false := by
    rcases within with limit | few | raised
    · simp [limit]
    · simp [show ¬m.stream.slipLimit.toNat < m.stream.slips + 1 by omega]
    · simp [raised]
  simp only [Mod.slip, below, Bool.or_false]
  rfl

/-- The first slip above SLIP_LIMIT in a barrier interval is counted and reported. -/
theorem Mod.slip_raises {m : Mod} (limit : m.stream.slipLimit ≠ 0#32)
    (above : m.stream.slipLimit.toNat < m.stream.slips + 1) (first : m.stream.slipRaised = false) (found : List Nat) :
    m.slip found = ({ m with stream := { m.stream.slipped found with slipRaised := true } } : Mod).raise .slipLimit noUnit
      (payload [i8 (m.stream.slips + 1), i1 (m.stream.slipped found).slipLow]) := by
  have exceeded : (decide (m.stream.slipLimit ≠ 0#32 ∧ m.stream.slipLimit.toNat < m.stream.slips + 1)
      && !m.stream.slipRaised) = true := by simp [limit, above, first]
  simp only [Mod.slip, exceeded, Bool.or_true]
  rfl

/-! ### The next permit (R102, R434) -/

/-- The next permit is withheld under a debug halt, on every other period of droop, and by the rest fraction. -/
theorem Mod.withholds_iff (m : Mod) : m.withholds = true ↔
    (m.sec.dbgHalt = 1#8 ∨ (m.power.droop = true ∧ m.power.droopSkip = true)
      ∨ m.power.permitIdx * m.power.rest.toNat / 64 < (m.power.permitIdx + 1) * m.power.rest.toNat / 64) := by
  simp [Mod.withholds, or_assoc]

/-- The module `k` with the permit that the pacer of `m` gives next. -/
def Mod.permitOf (m k : Mod) (held : Prop) [Decidable held] : Mod :=
  { k with
    power := { m.power with
      permitIdx := (m.power.permitIdx + 1) % 64, droopSkip := m.power.droop && !m.power.droopSkip }
    stream := { k.stream with
      permit := decide (¬held), restSteps := if held then satAdd m.stream.restSteps 1 else m.stream.restSteps } }

theorem Mod.nextPermit_eq {m k : Mod} {held : Prop} [Decidable held] (withholds : m.withholds = true ↔ held)
    (power : k.power = m.power) (sec : k.sec = m.sec) (rests : k.stream.restSteps = m.stream.restSteps) :
    k.nextPermit = m.permitOf k held := by
  have same : k.withholds = m.withholds := by simp only [Mod.withholds, power, sec]
  simp only [Mod.nextPermit, Mod.permitOf, same, power, rests, ← withholds]
  cases m.withholds <;> rfl

/-! ### PERMIT_PERIOD (R102) -/

/-- The causes of a slip: those that the module shows, and those seen from outside. -/
def Mod.slipFound (m : Mod) (seen : BitVec 11) : List Nat :=
  (m.holdCauses ++ (List.range 11).filterMap (fun i => if seen.getLsbD i then some (i + 1) else none)).eraseDups

section
variable {m : Mod} (settled : m.settled = m) (seen : BitVec 11)
include settled

theorem Mod.permitPeriod_stopped (stopped : m.stream.running = false) : m.permitPeriod seen = m := by
  simp only [Mod.permitPeriod, settled, Mod.running, stopped, if_true]

theorem Mod.permitPeriod_used (running : m.stream.running = true) (used : m.stream.permit = false) :
    m.permitPeriod seen = m.nextPermit := by
  simp [Mod.permitPeriod, settled, Mod.running, running, used]

theorem Mod.permitPeriod_slips (running : m.stream.running = true) (unused : m.stream.permit = true) :
    m.permitPeriod seen = (m.slip (m.slipFound seen)).nextPermit := by
  simp only [Mod.permitPeriod, settled, Mod.running, running, unused, Bool.true_eq_false, if_true, if_false]
  rfl

end

end Sys2Proof.Machine

namespace Sys2Proof

open Machine

/-- Settles O24: the period of an unused permit is a slip and the next permit, that of a used one the next permit alone. -/
theorem unusedPermitsExpireAsSlips : Obligations.UnusedPermitsExpireAsSlips := by
  unfold Obligations.UnusedPermitsExpireAsSlips
  intro m seen powered settled p s held next found causes low slipped
  have turns {n : Mod} (h : m.permitPeriod seen = n) : Safety.Turns m (.permitPeriod seen) n :=
    turns_permitPeriod powered seen h
  have withholds : m.withholds = true ↔ held := m.withholds_iff
  refine ⟨fun stopped => turns (Mod.permitPeriod_stopped settled seen stopped), fun running used => ?used,
    fun running unused => ⟨fun within => ?counted, fun limit above first => ?raises⟩⟩
  case used =>
    apply turns
    rw [Mod.permitPeriod_used settled seen running used]
    exact Mod.nextPermit_eq withholds rfl rfl rfl
  case counted =>
    apply turns
    rw [Mod.permitPeriod_slips settled seen running unused, Mod.slip_counted within]
    exact Mod.nextPermit_eq withholds rfl rfl rfl
  case raises =>
    apply turns
    rw [Mod.permitPeriod_slips settled seen running unused, Mod.slip_raises limit above first]
    exact Mod.nextPermit_eq withholds (Mod.raise_power _ _ _ _) (Mod.raise_sec _ _ _ _)
      (by rw [Mod.raise_stream]; rfl)

end Sys2Proof
end

section
/-!
PROOFS. Bundles are fetched into the bundle buffer (R104 to R106).
-/
namespace Sys2Proof.Machine

/-- What the fetch unit reads for `n` units of a section from `off`, and the module after the read (R105). -/
def Mod.fetchRead (m : Mod) (sec : Section) (off n : Nat) : List (Bytes × Bool) × Mod :=
  m.withStacks reqFetch (fun s => readMem s (sec.addr + 16 * off) (16 * n) reqFetch 0)

/-- The units of 16 B that a read without poison brings. -/
def fetchedUnits (bs : Bytes) (off n : Nat) : List (Nat × BitVec 128) :=
  (List.range n).map (fun i => (off + i, BitVec.ofNat 128 (leNat ((bs.drop (16 * i)).take 16))))

theorem length_fetchedUnits (bs : Bytes) (off n : Nat) : (fetchedUnits bs off n).length = n := by
  simp [fetchedUnits]

/-- Fetched units lie in the range that was asked for. -/
theorem mem_fetchedUnits {bs : Bytes} {off n : Nat} {u : Nat × BitVec 128} (h : u ∈ fetchedUnits bs off n) :
    off ≤ u.1 ∧ u.1 < off + n := by
  obtain ⟨i, below, rfl⟩ := List.mem_map.1 h
  have := List.mem_range.1 below
  exact ⟨by simp, by simpa using this⟩

/-- A read without poison marks no unit. -/
theorem listGet_marks_clean {ps : List (Bytes × Bool)} (clean : ∀ p ∈ ps, p.2 = false) (i : Nat) :
    listGet false ((ps.map (fun p => List.replicate ((p.1.length + 15) / 16) p.2)).flatten) i = false := by
  have all : ∀ b ∈ (ps.map (fun p => List.replicate ((p.1.length + 15) / 16) p.2)).flatten, b = false := by
    simp only [List.mem_flatten, List.mem_map]
    rintro b ⟨_, ⟨p, listed, rfl⟩, marked⟩
    rw [List.eq_of_mem_replicate marked, clean p listed]
  revert all
  generalize (ps.map _).flatten = l
  induction l generalizing i with
  | nil => intro _; rfl
  | cons a t ih =>
    intro all
    cases i with
    | zero => exact all a (by simp)
    | succ i => exact ih i fun b listed => all b (by simp [listed])

section
variable {α : Type} (off : α → Nat) (unit : α → BitVec 128) (l : List α)

theorem filter_unmarked : (((l.map (fun i => (off i, unit i, false))).filter (fun u => !u.2.2)).map
    (fun u => (u.1, u.2.1))) = l.map (fun i => (off i, unit i)) := by
  rw [List.filter_map, List.filter_eq_self.2, List.map_map]
  · rfl
  · exact fun _ _ => rfl

theorem filter_marked : (((l.map (fun i => (off i, unit i, false))).filter (fun u => u.2.2)).map (fun u => u.1)) = [] := by
  rw [List.filter_map, List.filter_eq_nil_iff.2, List.map_nil, List.map_nil]
  exact fun _ _ => Bool.false_ne_true

end

section
variable {m : Mod} {off n : Nat}

theorem Mod.bundleFetch_idle (idle : m.stream.running = false ∨ m.boot.image = none) : m.bundleFetch off n = m := by
  unfold Mod.bundleFetch
  split
  · rfl
  · split
    · rfl
    · exact if_pos (.inl (idle.resolve_right (by simp_all)))

variable {im : Image} {sec : Section} {rest : List Section}

theorem Mod.bundleFetch_beyond (image : m.boot.image = some im) (sections : im.sections = sec :: rest)
    (beyond : sec.len / 16 < off + n) : m.bundleFetch off n = m := by
  simp only [Mod.bundleFetch, image, sections]
  exact if_pos (.inr beyond)

/-- Units that the read brings without poison join a buffer that has room for them and holds none of them. -/
theorem Mod.bundleFetch_clean (image : m.boot.image = some im) (sections : im.sections = sec :: rest)
    (running : m.stream.running = true) (inside : off + n ≤ sec.len / 16)
    (clean : ∀ p ∈ (m.fetchRead sec off n).1, p.2 = false)
    (room : (m.fetchRead sec off n).2.stream.buffer.length + n ≤ 131072)
    (new : ∀ e ∈ (m.fetchRead sec off n).2.stream.buffer, e.1 < off ∨ off + n ≤ e.1) :
    m.bundleFetch off n = ({ (m.fetchRead sec off n).2 with stream := { (m.fetchRead sec off n).2.stream with
      buffer := (m.fetchRead sec off n).2.stream.buffer
        ++ fetchedUnits (pieceBytes (m.fetchRead sec off n).1) off n } } : Mod).settled := by
  have free : ¬(m.running = false ∨ sec.len / 16 < off + n) := by
    rintro (stopped | beyond)
    · exact absurd (running.symm.trans stopped) (by decide)
    · omega
  unfold Mod.bundleFetch
  simp only [image, sections, if_neg free]
  rw [← Mod.fetchRead]
  revert clean room new
  generalize m.fetchRead sec off n = r
  intro clean room new
  have kept : r.2.stream.buffer.filter (fun e => !((fetchedUnits (pieceBytes r.1) off n).any (fun g => g.1 == e.1)))
      = r.2.stream.buffer := by
    rw [List.filter_eq_self]
    intro e held
    simp only [Bool.not_eq_true', List.any_eq_false, beq_iff_eq]
    intro u fetched same
    have := mem_fetchedUnits fetched
    have := new e held
    omega
  have short : (r.2.stream.buffer ++ fetchedUnits (pieceBytes r.1) off n).length - 131072 = 0 := by
    rw [List.length_append, length_fetchedUnits]; omega
  simp only [listGet_marks_clean clean, filter_unmarked, filter_marked, List.append_nil]
  rw [← fetchedUnits]
  simp only [kept, short, List.drop_zero]

end

end Sys2Proof.Machine

namespace Sys2Proof

open Machine

/-- Settles O26: the fetch unit reads units of the stream's section, and what it reads clean joins the buffer. -/
theorem bundlesAreFetchedIntoTheBuffer : Obligations.BundlesAreFetchedIntoTheBuffer := by
  unfold Obligations.BundlesAreFetchedIntoTheBuffer
  intro m off n powered
  exact ⟨fun idle => turns_bundleFetch powered off n (Mod.bundleFetch_idle idle), fun im sec rest image sections =>
    ⟨fun beyond => turns_bundleFetch powered off n (Mod.bundleFetch_beyond image sections beyond),
      fun running inside clean room new =>
        turns_bundleFetch powered off n (Mod.bundleFetch_clean image sections running inside clean room new)⟩⟩

end Sys2Proof
end

section
/-!
PROOFS. The DM and SB slots of a row: binding a tag, popping a descriptor queue, posting a completion record (R121, R122,
R128 to R131, R273, R274).
-/
namespace Sys2Proof.Machine

@[simp] theorem DmF.nop_op : DmF.nop.op = 0 := rfl
@[simp] theorem SbF.nop_op : SbF.nop.op = 0 := rfl
@[simp] theorem SbF.nop_lane : SbF.nop.lane = 0 := rfl
@[simp] theorem SbF.nop_bad : SbF.nop.bad = false := rfl

/-- A row whose cells have no slot: its DM and SB slots alone. -/
abbrev slotRow (row : Nat) (dm : DmF) (sb : SbF) : RowAct := ⟨row, Slots.nop, dm, sb, []⟩

/-- No cell of the row that can execute has work left. -/
def Mod.RowIdle (m : Mod) (row : Nat) : Prop := ∀ c ∈ m.rowCells row, cellBusy (m.cell c) = false

/-- The row executes: its band is lit, and it has cells that do. -/
structure Mod.RowLit (m : Mod) (row : Nat) : Prop where
  lit : isDark m.plan (bandOfRow row) = false
  cells : m.rowCells row ≠ []

theorem foldl_fixed {α β : Type} {f : β → α → β} {b : β} {l : List α} (fixed : ∀ a ∈ l, f b a = b) :
    l.foldl f b = b := by
  induction l with
  | nil => rfl
  | cons a t ih => rw [List.foldl_cons, fixed a (by simp), ih fun x listed => fixed x (by simp [listed])]

section
variable {m : Mod} {row : Nat} {dm : DmF} {sb : SbF} {host : BitVec 512}

theorem slotRow_slotsOf (src : Option Nat) (cell : Nat) : (slotRow row dm sb).slotsOf src cell = Slots.nop :=
  if_neg (by simp [Slots.nop, mvF, field])

/-- Idle cells of a row without cell slots do nothing. -/
theorem Mod.RowIdle.foldl_rowCell (idle : m.RowIdle row) (src : Option Nat) :
    (m.rowCells row).foldl (m.rowCell (slotRow row dm sb) src []) m = m := by
  refine foldl_fixed fun c listed => if_pos ⟨?_, idle c listed⟩
  rw [slotRow_slotsOf]
  rfl

/-! ### The row's slots take effect, or the row waits -/

theorem Mod.runRow_dark (dark : isDark m.plan (bandOfRow row) ≠ false) : m.runRow row dm sb host = m :=
  if_pos (.inl (by simpa using dark))

theorem Mod.runRow_empty (empty : m.rowCells row = []) : m.runRow row dm sb host = m := by
  simp [Mod.runRow, Mod.rowStep, empty]

theorem Mod.runRow_waits (waits : m.rowWaits (slotRow row dm sb) ≠ []) : m.runRow row dm sb host = m :=
  if_pos (.inr (.inr waits))

section
variable (lit : m.RowLit row) (idle : m.RowIdle row) (legal : sb.bad = false)
  (free : m.rowWaits (slotRow row dm sb) = [])

include lit legal free in
theorem Mod.runRow_takes : m.runRow row dm sb host = m.rowStep [] [(row, host)] m (slotRow row dm sb) := by
  simp [Mod.runRow, lit.lit, legal, free]

include lit idle legal free

theorem Mod.runRow_issues (dmOp : dm.op = 1) (sbOp : sb.op = 0) : m.runRow row dm sb host = m.issue row dm host := by
  simp [Mod.runRow_takes lit legal free, Mod.rowStep, lit.cells, idle.foldl_rowCell, dmOp, Mod.sbOp, sbOp]

theorem Mod.runRow_issuesD (dmOp : dm.op = 2) (sbOp : sb.op = 0) :
    m.runRow row dm sb host = m.issueD row dm sb.q (m.lsrcCell row sb.lsrc) := by
  simp [Mod.runRow_takes lit legal free, Mod.rowStep, lit.cells, idle.foldl_rowCell, dmOp, Mod.sbOp, sbOp]

theorem Mod.runRow_sbOp (dmOp : dm.op = 0) : m.runRow row dm sb host = m.sbOp (slotRow row dm sb) := by
  simp [Mod.runRow_takes lit legal free, Mod.rowStep, lit.cells, idle.foldl_rowCell, dmOp]

end

/-! ### What a row waits for (R121, R122) -/

theorem Mod.rowWaits_tagHeld (cells : m.rowCells row ≠ []) (dmOp : dm.op ≠ 0) (held : m.tagHeld row dm.tag = true) :
    m.rowWaits (slotRow row dm sb) ≠ [] := by
  simp [Mod.rowWaits, cells, dmOp, held]

/-- ISSUE does not wait for a queue that cannot serve the stream: it faults. -/
theorem Mod.rowWaits_issue (dmOp : dm.op = 1) (free : m.tagHeld row dm.tag = false)
    (served : m.queueRefuses dm.dq = true ∨ m.queueReady dm.dq false = true) :
    m.rowWaits (slotRow row dm SbF.nop) = [] := by
  rcases served with refused | ready <;> simp [Mod.rowWaits, *]

theorem Mod.rowWaits_issueD (dmOp : dm.op = 2) (sbOp : sb.op = 0) (lane : sb.lane = 0)
    (free : m.tagHeld row dm.tag = false) : m.rowWaits (slotRow row dm sb) = [] := by
  simp [Mod.rowWaits, dmOp, sbOp, lane, free]

theorem Mod.rowWaits_emptyQueue (sbOp : sb.op = 1) {c : Nat} (listed : c ∈ m.rowCells row)
    (empty : listGet [] (m.cell c).queues sb.q = []) : m.rowWaits (slotRow row dm sb) ≠ [] := by
  have cells : m.rowCells row ≠ [] := List.ne_nil_of_mem listed
  have some : (m.rowCells row).any (fun c => (listGet [] (m.cell c).queues sb.q).isEmpty) = true :=
    List.any_eq_true.2 ⟨c, listed, by rw [empty]; rfl⟩
  simp [Mod.rowWaits, cells, sbOp, some]

theorem Mod.rowWaits_waitq (sbOp : sb.op = 1) (lane : sb.lane = 0)
    (filled : ∀ c ∈ m.rowCells row, listGet [] (m.cell c).queues sb.q ≠ []) :
    m.rowWaits (slotRow row DmF.nop sb) = [] := by
  have none : (m.rowCells row).any (fun c => (listGet [] (m.cell c).queues sb.q).isEmpty) = false := by
    simpa using filled
  simp [Mod.rowWaits, sbOp, lane, none]

theorem Mod.rowWaits_postsFull (sbOp : sb.op = 2) (cells : m.rowCells row ≠ [])
    (full : 256 ≤ (m.completionsOf (bandOfRow row)).length) : m.rowWaits (slotRow row dm sb) ≠ [] := by
  simp [Mod.rowWaits, cells, sbOp, full]

theorem Mod.rowWaits_posts (sbOp : sb.op = 2) (lane : sb.lane = 0)
    (room : ¬256 ≤ (m.completionsOf (bandOfRow row)).length) : m.rowWaits (slotRow row DmF.nop sb) = [] := by
  simp [Mod.rowWaits, sbOp, lane, room]

/-! ### The slots' operations -/

/-- A row of a dark band, or one whose cells are all stopped, does nothing. -/
theorem Mod.runRow_unlit (unlit : ¬isDark m.plan (bandOfRow row) = false ∨ m.rowCells row = []) :
    m.runRow row dm sb host = m :=
  unlit.elim Mod.runRow_dark Mod.runRow_empty

/-- A slot whose tag is held waits. -/
theorem Mod.runRow_tagHeld (dmOp : dm.op ≠ 0) (held : m.tagHeld row dm.tag = true) : m.runRow row dm sb host = m := by
  by_cases cells : m.rowCells row = []
  · exact Mod.runRow_empty cells
  · exact Mod.runRow_waits (Mod.rowWaits_tagHeld cells dmOp held)

/-- WAITTAG has no effect beyond the wait. -/
theorem Mod.runRow_waittag (idle : m.RowIdle row) (legal : sb.bad = false) (sbOp : sb.op = 3) :
    m.runRow row DmF.nop sb host = m := by
  by_cases unlit : ¬isDark m.plan (bandOfRow row) = false ∨ m.rowCells row = []
  · exact Mod.runRow_unlit unlit
  by_cases free : m.rowWaits (slotRow row DmF.nop sb) = []
  · obtain ⟨notDark, cells⟩ := not_or.1 unlit
    simp only [Mod.runRow_sbOp ⟨Decidable.not_not.1 notDark, cells⟩ idle legal free rfl, Mod.sbOp, sbOp]
  · exact Mod.runRow_waits free

/-- ISSUE from a queue that serves the stream binds its next descriptor to the tag. -/
theorem Mod.issue_served (serves : m.queueRefuses dm.dq = false) : m.issue row dm host =
    (m.takeDesc dm.dq host).2.2.bindIssue row dm m.stream.stepCount.toNat dm.dq (m.takeDesc dm.dq host).2.1
      (some (m.takeDesc dm.dq host).1) := by
  simp [Mod.issue, serves]

theorem Mod.issue_refused (refuses : m.queueRefuses dm.dq = true) : m.issue row dm host =
    ({ m with clock := { m.clock with freeCtr := m.clock.freeCtr + 1 } } : Mod).issueFault row dm.tag dm.dq
      (Config.freeByte m.clock.freeCtr) := by
  simp [Mod.issue, refuses]

/-- WAITQ waits while a cell of the row has an empty queue. -/
theorem Mod.runRow_emptyQueue (sbOp : sb.op = 1)
    (empty : ∃ c ∈ m.rowCells row, listGet [] (m.cell c).queues sb.q = []) :
    m.runRow row dm sb host = m := by
  obtain ⟨c, listed, empty⟩ := empty
  exact Mod.runRow_waits (Mod.rowWaits_emptyQueue sbOp listed empty)

/-- WAITQ pops the queue of every cell of the row. -/
theorem Mod.runRow_waitq (lit : isDark m.plan (bandOfRow row) = false) (idle : m.RowIdle row) (legal : sb.bad = false)
    (sbOp : sb.op = 1) (lane : sb.lane = 0)
    (filled : ∀ c ∈ m.rowCells row, listGet [] (m.cell c).queues sb.q ≠ []) :
    m.runRow row DmF.nop sb host = (m.rowCells row).foldl (fun n c => n.waitq c sb.q) m := by
  by_cases cells : m.rowCells row = []
  · rw [Mod.runRow_empty cells, cells, List.foldl_nil]
  · simp only [Mod.runRow_sbOp ⟨lit, cells⟩ idle legal (Mod.rowWaits_waitq sbOp lane filled) rfl, Mod.sbOp, sbOp]

/-- A descriptor of the expected SEQ that names a kind for the registers is loaded. -/
theorem Mod.waitq_loads {cell q : Nat} {d : BitVec 512} {rest : List (BitVec 512)}
    (oldest : listGet [] (m.cell cell).queues q = d :: rest)
    (seq : field d.toNat 16 16 = (listGet 0#16 (m.cell cell).seq q).toNat)
    (kind : field d.toNat 0 8 = 1 ∨ field d.toNat 0 8 = 2) (wf : m.CellsWf) :
    m.waitq cell q = m.setCell cell { m.cell cell with
      queues := listSet (m.cell cell).queues q rest
      seq := listSet (m.cell cell).seq q (BitVec.ofNat 16 ((listGet 0#16 (m.cell cell).seq q).toNat + 1))
      regs := listSet (m.cell cell).regs q d } := by
  have registers : field d.toNat 0 8 = 1 ∨ field d.toNat 0 8 = 2 ∨ field d.toNat 0 8 = 0x10
      ∨ field d.toNat 0 8 = 0x20 := by omega
  have noMask : ¬field d.toNat 0 8 = 0x10 := by omega
  simp only [Mod.waitq, oldest, seq, ne_eq, not_true_eq_false, if_false, if_pos registers, if_neg noMask,
    Mod.setCell_setCell wf]

/-- POSTQ posts a record to the control core of the posting cell's band while its queue has room. -/
theorem Mod.runRow_postq (lit : m.RowLit row) (idle : m.RowIdle row) (legal : sb.bad = false) (sbOp : sb.op = 2)
    (lane : sb.lane = 0) {c : Nat} (posting : m.lsrcCell row sb.lsrc = some c) :
    m.runRow row DmF.nop sb host =
      if 256 ≤ (m.completionsOf (bandOfRow row)).length then m else m.postq c sb.tag := by
  split
  case isTrue full => exact Mod.runRow_waits (Mod.rowWaits_postsFull sbOp lit.cells full)
  case isFalse room =>
    simp only [Mod.runRow_sbOp lit idle legal (Mod.rowWaits_posts sbOp lane room) rfl, Mod.sbOp, sbOp, posting]

end

end Sys2Proof.Machine

namespace Sys2Proof

open Machine

/-- Settles O38: a row that waits does nothing, and each slot of one that executes has its operation's effect. -/
theorem rowSlotsBindQueueAndPost : Obligations.RowSlotsBindQueueAndPost := by
  unfold Obligations.RowSlotsBindQueueAndPost
  intro m row dq q tag xb line lsrc host powered idle lit cells due bind
  have issues {n : Mod} (h : m.runRow row.val ⟨1, dq.val, tag.val, xb, line.val⟩ SbF.nop host = n) :=
    turns_issue powered row dq tag xb line host h
  have issuesD {n : Mod} (h : m.runRow row.val ⟨2, 0, tag.val, xb, line.val⟩
      { SbF.nop with q := q.val, lsrc := lsrc.val } 0#512 = n) := turns_issueD powered row q tag xb line lsrc h
  have pops {n : Mod} (h : m.runRow row.val DmF.nop { SbF.nop with op := 1, q := q.val } 0#512 = n) :=
    turns_waitq powered row q h
  have posts {n : Mod} (h : m.runRow row.val DmF.nop
      { SbF.nop with op := 2, tag := tag.val, lsrc := lsrc.val } 0#512 = n) := turns_postq powered row tag lsrc h
  refine ⟨?unlit, ?waittag, fun held => ⟨?issueWaits, ?issueDWaits⟩, fun lit cells free => ?issue,
    fun _ empty => ?waitqWaits, fun lit filled => ?waitq, fun c d rest => Mod.waitq_loads,
    fun c lit cells posting => ?postq⟩
  case unlit =>
    intro unlit i listed
    simp only [List.mem_cons, List.not_mem_nil, or_false] at listed
    rcases listed with rfl | rfl | rfl | rfl | rfl
    · exact issues (Mod.runRow_unlit unlit)
    · exact issuesD (Mod.runRow_unlit unlit)
    · exact pops (Mod.runRow_unlit unlit)
    · exact posts (Mod.runRow_unlit unlit)
    · exact turns_waittag powered row tag (Mod.runRow_unlit unlit)
  case waittag => exact turns_waittag powered row tag (Mod.runRow_waittag idle rfl rfl)
  case issueWaits => exact issues (Mod.runRow_tagHeld Nat.one_ne_zero held)
  case issueDWaits => exact issuesD (Mod.runRow_tagHeld (Nat.succ_ne_zero 1) held)
  case issue =>
    have executes : m.RowLit row.val := ⟨lit, cells⟩
    have descriptor := Mod.runRow_issuesD (host := 0#512) executes idle rfl
      (Mod.rowWaits_issueD (dm := ⟨2, 0, tag.val, xb, line.val⟩) (sb := { SbF.nop with q := q.val, lsrc := lsrc.val })
        rfl rfl rfl free) rfl rfl
    refine ⟨fun serves ready => issues ?_, fun refuses => issues ?_, fun unselected => issuesD ?_,
      fun c selected => issuesD ?_⟩
    · rw [Mod.runRow_issues executes idle rfl (Mod.rowWaits_issue rfl free (.inr ready)) rfl rfl, Mod.issue_served serves]
      rfl
    · rw [Mod.runRow_issues executes idle rfl (Mod.rowWaits_issue rfl free (.inl refuses)) rfl rfl,
        Mod.issue_refused refuses]
    · rw [descriptor, unselected, Mod.issueD]
    · rw [descriptor, selected, Mod.issueD]
      rfl
  case waitqWaits => exact pops (Mod.runRow_emptyQueue rfl empty)
  case waitq => exact pops (Mod.runRow_waitq lit idle rfl rfl rfl filled)
  case postq => exact posts (Mod.runRow_postq ⟨lit, cells⟩ idle rfl rfl rfl posting)

end Sys2Proof
end

section
/-!
PROOFS. Where the stream stands, and where it stays (R109).
-/
namespace Sys2Proof.Machine

section
variable {m : Mod} {p : Phase} {h : Hdr}

theorem Mod.inPhase_none (elsewhere : m.stream.running = false ∨ m.stream.phase ≠ p) : m.inPhase p = none := by
  refine if_neg ?_
  rintro ⟨running, phase⟩
  exact elsewhere.elim (fun stopped => absurd (running.symm.trans stopped) (by decide)) (fun other => other phase)

theorem Mod.inPhase_some (running : m.stream.running = true) (phase : m.stream.phase = p) (header : m.header = some h) :
    m.inPhase p = some h := (if_pos ⟨running, phase⟩).trans header

theorem Mod.settlePhase_stopped (stopped : m.stream.running = false) (fuel : Nat) : Mod.settlePhase fuel m = m := by
  cases fuel with
  | zero => rfl
  | succ fuel => exact if_pos stopped

/-- A stream that stands still stays where it is. -/
theorem Mod.settled_stopped (stopped : m.stream.running = false) : m.settled = m := Mod.settlePhase_stopped stopped _

/-- Rounds end where their condition holds. -/
theorem Mod.rounds_done {done : Mod → Bool} (holds : done m = true) (fuel : Nat) : Mod.rounds fuel done m = m := by
  cases fuel with
  | zero => rfl
  | succ fuel => exact if_pos holds

end

end Sys2Proof.Machine
end

section
/-!
PROOFS. Barriers: when one is taken, and what takes effect at it (R113, R140, R141, R156).
-/
namespace Sys2Proof.Machine

theorem exists_listGet_of_mem {α : Type} (d : α) {l : List α} {a : α} (listed : a ∈ l) : ∃ i, listGet d l i = a := by
  induction l with
  | nil => exact absurd listed List.not_mem_nil
  | cons x t ih =>
    rcases List.mem_cons.1 listed with rfl | later
    · exact ⟨0, rfl⟩
    · obtain ⟨i, at_i⟩ := ih later
      exact ⟨i + 1, at_i⟩

/-! ### A local barrier of a calm member (R113) -/

/-- Nothing of the module waits for a barrier: no band is to go dark or to be trimmed, no crossing has raised its margin or
asks for recalibration, and no planting map is staged. -/
structure Mod.BarrierCalm (m : Mod) : Prop where
  bands : ∀ b, (m.band b).dyingAt = none ∧ (m.band b).trimPending = 0
  crossings : m.tl.crossings = []
  recal : m.recalDue = false
  staged : m.planting.staged = none

/-- The module as a new barrier interval begins: the L1 caches are empty, and the marks and counts of the interval are
cleared. -/
def Mod.newInterval (m : Mod) : Mod :=
  { m.mapCells (fun _ => true) (fun c => { c with l1 := [], nfRaised := false, tlRaised := false }) with
    stream := { m.stream with slips := 0, slipLow := 0, slipRaised := false, barriers := m.stream.barriers + 1 }
    dma := { m.dma with deadlineRaised := false } }

section
variable {m : Mod}

theorem Mod.darkenDying_none (none : ∀ b, (m.band b).dyingAt = none) : m.darkenDying = m := by
  have noBand : m.dyingBands = [] := List.filter_eq_nil_iff.2 fun b _ => by simp only [none, Option.isSome_none]; nofun
  rw [Mod.darkenDying, noBand, List.foldl_nil]

theorem Mod.applyTrims_none (none : ∀ b, (m.band b).trimPending = 0) : m.applyTrims = m := by
  refine if_pos (List.all_eq_true.2 fun b listed => ?_)
  obtain ⟨i, rfl⟩ := exists_listGet_of_mem Band.reset listed
  exact beq_iff_eq.2 (none i)

theorem Mod.recalibrate_none (none : m.recalDue = false) (ws : List CrossWindow) : m.recalibrate ws = m := by
  simp [Mod.recalibrate, none]

theorem Mod.swapPlanting_none (none : m.planting.staged = none) : m.swapPlanting = m := by
  simp [Mod.swapPlanting, none]

/-- Inside a lea a local barrier is no rotation point (R454). -/
theorem Mod.rotationPoint_local (running : m.lea.st = .running) (barId : Nat) : m.rotationPoint barId 1 = false := by
  simp [Mod.rotationPoint, running]

theorem Mod.atBarrier_calm (running : m.lea.st = .running) (calm : m.BarrierCalm) (barId : Nat) (x : BarrierIn) :
    m.atBarrier 1 barId false x = m.newInterval := by
  have tl : ({ m.tl with crossings := [] } : TileLoam) = m.tl := by rw [← calm.crossings]
  unfold Mod.atBarrier
  extract_lets crossings _ _ _ m0 m1 m2 m3 m4 m5 m6
  have noCrossings : crossings = [] := by simp only [crossings, calm.crossings, List.map_nil, List.filter_nil]
  have begun : m1 = m.newInterval := by
    rw [show m1 = { m.newInterval with tl := { m.tl with crossings := crossings } } from rfl, noCrossings, tl]
    rfl
  have dark : m1.darkenDying = m1 := Mod.darkenDying_none fun b => (calm.bands b).1
  have trims : m1.applyTrims = m1 := Mod.applyTrims_none fun b => (calm.bands b).2
  have recal : m1.recalibrate x.windows = m1 := by
    rw [begun]; exact Mod.recalibrate_none (m := m.newInterval) calm.recal _
  have rotation : m1.rotationPoint barId 1 = false := Mod.rotationPoint_local running barId
  have swap : m1.swapPlanting = m1 := Mod.swapPlanting_none calm.staged
  have last : m6 = m1 := by
    simp only [m6, m5, m4, m3, m2, dark, trims, recal, rotation, swap, Bool.false_eq_true, if_false]
  rw [if_pos rfl, last]
  exact begun

end

/-! ### A lea barrier taken by a running member (R141, R156) -/

section
variable {m : Mod}

/-- While a child has not reported, the member's REPORT waits. -/
theorem Mod.tryReport_waits {w : BarrierWait} (waits : m.lea.wait = some w) (unsent : w.sent = none)
    (missing : ∃ c ∈ m.leaChildren, ∀ r ∈ m.lea.reports, r.1 ≠ c.1) : m.tryReport = (m, none) := by
  have few : (m.leaChildren.filterMap (fun c => (m.lea.reports.find? (fun r => r.1 == c.1)).map (fun r => r))).length
      < m.leaChildren.length := by
    obtain ⟨c, listed, silent⟩ := missing
    exact List.length_filterMap_lt_length_iff_exists.2 ⟨c, listed, by simpa using silent⟩
  simp only [Mod.tryReport, waits, unsent, Option.isSome_none, Bool.false_eq_true, if_false, if_pos few]

/-- The member's own values at its next lea barrier (R142, R149). -/
def Mod.barrierToken (m : Mod) (h : Hdr) (kind : Nat) : Token :=
  ⟨1#8, m.lea.stopReq || (m.lea.ending || h.fin) || m.lea.leaveAfter, false, false, false,
    m.anyFault, BitVec.ofNat 16 h.barId, m.lea.active.id, BitVec.ofNat 48 (m.lea.barSeq.toNat + 1),
    m.power.paceAllow, BitVec.ofNat 8 kind, m.barChecksum h.barId kind (m.lea.barSeq.toNat + 1),
    if m.anyFault then BitVec.ofNat 16 m.member else 0xFFFF#16, 1#10⟩

/-- The member has taken its lea barrier with the given own values, and waits for the lea. -/
def Mod.waitsWith (m : Mod) (h : Hdr) (own : Token) : Mod :=
  { m with
    stream := { m.stream with sinceLea := 0 }
    lea := { m.lea with ending := m.lea.ending || h.fin, wait := some ⟨own, m.clock.timeUs, none⟩ } }

end

/-! ### Taking a barrier -/

/-- The current bundle has a barrier of the kind, at which the stream stands with its cells idle and no other barrier
waiting. -/
structure Mod.StandsAt (m : Mod) (kind : Nat) (h : Hdr) : Prop where
  running : m.stream.running = true
  phase : m.stream.phase = .barrier
  header : m.header = some h
  kind : h.barKind = kind
  noWait : m.lea.wait = none
  idle : m.cellsIdle = true

theorem Mod.StandsAt.inPhase {m : Mod} {kind : Nat} {h : Hdr} (stands : m.StandsAt kind h) : m.inPhase .barrier = some h :=
  Mod.inPhase_some stands.running stands.phase stands.header

theorem Mod.StandsAt.ofKind {m : Mod} {kind : Nat} {h : Hdr} (stands : m.StandsAt kind h) :
    ¬(h.barKind ≠ kind ∨ m.lea.wait.isSome = true) := by simp [stands.kind, stands.noWait]

/-- The barrier has been taken: the stream goes on after it. -/
def Mod.passBarrier (m : Mod) : Mod :=
  ({ m with stream := { m.stream with phase := if m.running then .fin else m.stream.phase } } : Mod).settled

section
variable {m : Mod} (settled : m.settled = m) {kind : Nat} {h : Hdr} (x : BarrierIn)
include settled

theorem Mod.takeBarrier_elsewhere
    (elsewhere : m.stream.running = false ∨ m.stream.phase ≠ .barrier ∨ m.lea.wait.isSome = true) :
    m.takeBarrier kind x = m := by
  by_cases stands : m.stream.running = false ∨ m.stream.phase ≠ .barrier
  · simp only [Mod.takeBarrier, settled, Mod.inPhase_none stands]
  · have waits : m.lea.wait.isSome = true :=
      (elsewhere.resolve_left fun stopped => stands (.inl stopped)).resolve_left fun other => stands (.inr other)
    simp only [Mod.takeBarrier, settled, waits, or_true, if_true]
    cases m.inPhase .barrier <;> rfl

theorem Mod.takeBarrier_otherKind (running : m.stream.running = true) (header : m.header = some h)
    (other : h.barKind ≠ kind) : m.takeBarrier kind x = m := by
  by_cases phase : m.stream.phase = .barrier
  · simp only [Mod.takeBarrier, settled, Mod.inPhase_some running phase header]
    exact if_pos (.inl other)
  · simp only [Mod.takeBarrier, settled, Mod.inPhase_none (.inr phase)]

theorem Mod.StandsAt.takeBarrier_notReady (stands : m.StandsAt kind h) (notReady : m.barrierReady = false) :
    m.takeBarrier kind x = m := by
  simp only [Mod.takeBarrier, settled, stands.inPhase, if_neg stands.ofKind, Mod.rounds_done stands.idle, if_pos notReady]

/-- A local barrier, and any barrier outside a running lea, takes effect at once. -/
theorem Mod.StandsAt.takeBarrier_local (stands : m.StandsAt kind h) (ready : m.barrierReady = true)
    (atOnce : kind = 1 ∨ m.lea.st ≠ .running) :
    m.takeBarrier kind x = (m.atBarrier kind h.barId (decide (m.lea.st ≠ .running)) x).passBarrier := by
  simp only [Mod.takeBarrier, settled, stands.inPhase, if_neg stands.ofKind, Mod.rounds_done stands.idle, ready,
    Bool.true_eq_false, if_false, if_pos atOnce]
  rfl

section
variable (stands : m.StandsAt kind h) (ready : m.barrierReady = true) (ofLea : kind ≠ 1) (running : m.lea.st = .running)
include stands ready ofLea running

theorem Mod.StandsAt.takeBarrier_aborts {t : Token} (abort : m.lea.abort = some t) :
    m.takeBarrier kind x = m.abortNow t := by
  have lea : ¬(kind = 1 ∨ m.lea.st ≠ .running) := by simp [ofLea, running]
  simp only [Mod.takeBarrier, settled, stands.inPhase, if_neg stands.ofKind, Mod.rounds_done stands.idle, ready,
    Bool.true_eq_false, if_false, if_neg lea, abort]

theorem Mod.StandsAt.takeBarrier_waits (noAbort : m.lea.abort = none)
    (missing : ∃ c ∈ m.leaChildren, ∀ r ∈ m.lea.reports, r.1 ≠ c.1) :
    m.takeBarrier kind x = m.waitsWith h (m.barrierToken h kind) := by
  have lea : ¬(kind = 1 ∨ m.lea.st ≠ .running) := by simp [ofLea, running]
  have own : ({ m with
        stream := { m.stream with sinceLea := 0 }, lea := { m.lea with ending := m.lea.ending || h.fin } } : Mod).ownToken
      kind h.barId h.barId (m.lea.barSeq.toNat + 1) false = m.barrierToken h kind := by
    simp only [Mod.ownToken, Mod.running, stands.running, Bool.true_and, Bool.false_or]
    rfl
  have waits := Mod.tryReport_waits (m := m.waitsWith h (m.barrierToken h kind)) rfl rfl missing
  simp only [Mod.takeBarrier, settled, stands.inPhase, if_neg stands.ofKind, Mod.rounds_done stands.idle, ready,
    Bool.true_eq_false, if_false, if_neg lea]
  split
  case h_1 t abort => exact absurd (noAbort.symm.trans abort) nofun
  case h_2 =>
    exact (congrArg (fun t => Mod.andRelease (m.waitsWith h t).tryReport x) own).trans
      (congrArg (Mod.andRelease · x) waits)

end

end

/-- The barrier is ready once every transfer that has to be done by it is done, and no crossing is stalled. -/
theorem Mod.StandsAt.barrierReady_iff {m : Mod} {kind : Nat} {h : Hdr} (stands : m.StandsAt kind h) :
    m.barrierReady = true ↔ m.dma.tags.all (fun t => t.xb) = true ∧ m.dma.waiting.all (fun w => w.xb) = true
      ∧ m.tl.stalled = 0#16 := by
  simp [Mod.barrierReady, Mod.crossStalled, stands.idle, and_assoc]

theorem Mod.StandsAt.barrierReady_false {m : Mod} {kind : Nat} {h : Hdr} (stands : m.StandsAt kind h)
    (undone : m.dma.tags.any (fun t => !t.xb) = true ∨ m.dma.waiting.any (fun w => !w.xb) = true
      ∨ m.tl.stalled ≠ 0#16) :
    m.barrierReady = false := by
  refine Bool.eq_false_iff.2 fun ready => ?_
  obtain ⟨tags, waiting, still⟩ := stands.barrierReady_iff.1 ready
  rw [List.all_eq_not_any_not] at tags waiting
  rcases undone with tag | waits | stalled
  · simp [tag] at tags
  · simp [waits] at waiting
  · exact stalled still

end Sys2Proof.Machine

namespace Sys2Proof

open Machine

/-- Each barrier command takes the barrier of its kind. -/
theorem turns_barrier {m : Mod} (powered : m.boot.powered = true) (x : BarrierIn) :
    ∀ e ∈ [(Instr.localBarrier x, 1), (.leaBarrier x, 2), (.leaPhaseBoundary x, 3)],
      ∀ n, m.takeBarrier e.2 x = n → Safety.Turns m e.1 n := by
  intro e listed n taken
  simp only [List.mem_cons, List.not_mem_nil, or_false] at listed
  rcases listed with rfl | rfl | rfl
  · exact turns_localBarrier powered x taken
  · exact turns_leaBarrier powered x taken
  · exact turns_leaPhaseBoundary powered x taken

/-- Settles O28: away from its barrier a command does nothing; at it the barrier waits until it is ready, and then takes
effect at once or is left to the lea. -/
theorem barriersAreTakenAtTheirKind : Obligations.BarriersAreTakenAtTheirKind := by
  unfold Obligations.BarriersAreTakenAtTheirKind
  intro m h x powered settled s fresh start e listed
  have turns := turns_barrier powered x e listed
  refine ⟨fun elsewhere => turns _ (Mod.takeBarrier_elsewhere settled x elsewhere),
    fun running header other => turns _ (Mod.takeBarrier_otherKind settled x running header other), ?_⟩
  intro running phase header kind noWait idle
  have stands : m.StandsAt e.2 h := ⟨running, phase, header, kind, noWait, idle⟩
  refine ⟨fun undone => turns _ (stands.takeBarrier_notReady settled x (stands.barrierReady_false undone)), ?_⟩
  intro tags waiting still
  have ready : m.barrierReady = true := stands.barrierReady_iff.2 ⟨tags, waiting, still⟩
  refine ⟨?calm, fun atOnce => turns _ (stands.takeBarrier_local settled x ready atOnce), fun ofLea lea =>
    ⟨fun t abort => turns _ (stands.takeBarrier_aborts settled x ready ofLea lea abort),
      fun noAbort missing => turns _ (stands.takeBarrier_waits settled x ready ofLea lea noAbort missing)⟩⟩
  case calm =>
    intro isLocal lea bands crossings recal staged
    have goesOn : m.newInterval.running = true := running
    apply turns
    rw [stands.takeBarrier_local settled x ready (.inl isLocal), isLocal, decide_eq_false (not_not_intro lea),
      Mod.atBarrier_calm lea ⟨bands, crossings, recal, staged⟩, Mod.passBarrier, if_pos goesOn]
    rfl

end Sys2Proof
end

section
/-!
PROOFS. What leaves the stream as it stands: reports, link flits, memory writes, lanes and bands; and a stream that halts
stands still whatever the lea makes of it (R156, R429).
-/
namespace Sys2Proof.Machine

theorem stream_of_quiet {m n : Mod} (quiet : n.quiet = m.quiet) : n.stream = m.stream := by
  have same : n.quiet.stream = m.quiet.stream := congrArg Mod.stream quiet
  exact same

section
variable (m : Mod)

/-! ### Link flits and lanes -/

theorem Mod.passFlit_stream (t d l f) : (m.passFlit t d l f).2.stream = m.stream :=
  stream_of_quiet (m.passFlit_quiet t d l f)

theorem Mod.hdgEmit_stream (p lane seq f) : (m.hdgEmit p lane seq f).stream = m.stream := m.passFlit_stream _ _ _ _

theorem Mod.emitLink_stream (p sub echo serial body) : (m.emitLink p sub echo serial body).stream = m.stream := by
  unfold Mod.emitLink
  split
  · exact m.hdgEmit_stream _ _ _ _
  · rfl

theorem Mod.sendLink_stream (p sub body) : (m.sendLink p sub body).stream = m.stream := Mod.emitLink_stream _ _ _ _ _ _

theorem Mod.sendToken_stream (gate t) : (m.sendToken gate t).stream = m.stream :=
  foldl_inv Mod.stream _ (fun m p => by rw [Mod.hdgEmit_stream, Mod.hdgEmit_stream]) _ m

theorem Mod.sendUp_stream (t) : (m.sendUp t).stream = m.stream := by
  unfold Mod.sendUp
  split
  · exact m.sendToken_stream _ _
  · rfl

theorem Mod.sendDown_stream (t) : (m.sendDown t).stream = m.stream :=
  foldl_inv Mod.stream _ (fun m _ => m.sendToken_stream _ _) _ m

theorem Mod.identAll_stream : m.identAll.stream = m.stream := by
  refine foldl_inv Mod.stream _ (fun m p => ?_) _ m
  split
  · exact m.sendLink_stream _ _ _
  · rfl

theorem Mod.setLeaActive_stream (c) : (m.setLeaActive c).stream = m.stream := by
  unfold Mod.setLeaActive
  extract_lets _ m1
  split
  · rfl
  · exact m1.identAll_stream

theorem Mod.resetLane_stream (p be) : (m.resetLane p be).stream = m.stream := Mod.sendLink_stream _ _ _ _

theorem Mod.dropTransfers_stream : m.dropTransfers.stream = m.stream := by
  refine foldl_inv Mod.stream _ (fun m p => ?_) _ m
  dsimp only
  split
  · rfl
  · rw [Mod.resetLane_stream, Mod.setPort_stream]
    exact foldl_inv Mod.stream (fun (m : Mod) (e : EntryF) => m.freeTag e.row e.tag) (fun _ _ => rfl) _ m

/-! ### Memory writes -/

theorem Mod.raisePerStack_stream (poison stack addr) : (m.raisePerStack poison stack addr).stream = m.stream := by
  simp only [Mod.raisePerStack, apply_ite Mod.stream, Mod.raise_stream, ite_self]

theorem Mod.applyMem_stream (w f) : (Mod.applyMem w m f).stream = m.stream := by
  cases f <;> simp [Mod.applyMem, Mod.raisePerStack_stream]

theorem Mod.applyRick_stream (f) : (m.applyRick f).stream = m.stream := by
  cases f <;> simp [Mod.applyRick]

theorem Mod.settleInject_stream : m.settleInject.stream = m.stream := by
  unfold Mod.settleInject
  split <;> rfl

theorem Mod.withRick_stream {α : Type} (w) (f : RM → α × RM) : (m.withRick w f).2.2.stream = m.stream := by
  simp only [Mod.withRick, Mod.settleInject_stream]
  rw [foldl_inv Mod.stream _ Mod.applyRick_stream, foldl_inv Mod.stream _ (fun m f => m.applyMem_stream w f)]

theorem Mod.mailboxHead_stream (core v) : (m.mailboxHead core v).stream = m.stream := by
  unfold Mod.mailboxHead
  dsimp only
  split <;> rfl

theorem Mod.writeMailbox_stream {core off bs} {n : Mod} (written : m.writeMailbox core off bs = some n) :
    n.stream = m.stream := by
  unfold Mod.writeMailbox at written
  dsimp only at written
  split at written
  · exact absurd written nofun
  · obtain rfl := Option.some.inj written
    split
    · split
      · exact m.mailboxHead_stream _ _
      · rfl
    · rfl
    · split <;> rfl
    · rfl
    · rfl

theorem Mod.writeCore_stream (k off bs) : (m.writeCore k off bs).stream = m.stream := by
  unfold Mod.writeCore
  dsimp only
  split
  · rfl
  · split
    · cases written : m.writeMailbox k off bs with
      | none => exact Mod.countDiscard_stream _
      | some n => exact m.writeMailbox_stream written
    · dsimp only
      exact Mod.countDiscard_stream _

theorem Mod.deviceWrite_stream (a ps cls req) : (m.deviceWrite a ps cls req).2.stream = m.stream := by
  unfold Mod.deviceWrite
  split
  · exact m.withRick_stream _ _
  · rfl
  · exact m.writeCore_stream _ _ _
  · exact m.countDiscard_stream

theorem Mod.seqWriteIn_stream (off bs w) : (m.seqWriteIn off bs w).stream = m.stream := by
  simp only [Mod.seqWriteIn, Mod.publishRefuse, apply_ite Mod.stream, Mod.raise_stream, ite_self]

theorem Mod.dmaWrite_stream (a bs bad cls req) : (m.dmaWrite a bs bad cls req).2.stream = m.stream := by
  unfold Mod.dmaWrite
  split
  · simp only [Mod.seqWrite, Mod.seqWriteIn_stream]
  · exact m.deviceWrite_stream _ _ _ _

theorem Mod.hostWrite_stream (a bs ep) : (m.hostWrite a bs ep).stream = m.stream :=
  foldl_inv Mod.stream _ (fun m _ => stream_of_quiet (m.sendPacket_quiet _)) _ m

theorem Mod.flushQueue_stream (fuel q) : (Mod.flushQueue fuel m q).stream = m.stream := by
  induction fuel generalizing m with
  | zero => rfl
  | succ fuel ih =>
    unfold Mod.flushQueue
    dsimp only
    split
    · rfl
    · split
      · rfl
      · split
        · exact ih _
        · split
          · rfl
          · rw [ih, stream_of_quiet (Mod.interrupt_quiet _ _)]
            split
            · exact Mod.hostWrite_stream _ _ _ _
            · exact Mod.dmaWrite_stream _ _ _ _ _ _

theorem Mod.deliverHeldDma_stream (upTo st) : (m.deliverHeldDma upTo st).stream = m.stream := by
  refine foldl_inv Mod.stream _ (fun m q => ?_) _ m
  dsimp only
  split
  · rfl
  · rw [Mod.flushQueue_stream]
    rfl

theorem Mod.deliverHeld_stream (upTo st) : (m.deliverHeld upTo st).stream = m.stream := by
  simp only [Mod.deliverHeld, Mod.deliverHeldDma_stream]

/-! ### Bands -/

theorem Mod.repace_stream : m.repace.stream = m.stream := by
  obtain ⟨p, paced, -⟩ := repace_frame m
  rw [paced]

theorem Mod.bandDark_stream (b) : (m.bandDark b).stream = m.stream := by
  unfold Mod.bandDark
  split
  · rfl
  · dsimp only
    rw [Mod.repace_stream, Mod.raise_stream]
    rfl

theorem Mod.darkenDying_stream : m.darkenDying.stream = m.stream := foldl_inv Mod.stream _ Mod.bandDark_stream _ m

/-! ### The lea is left -/

theorem Mod.leaveRunning_stream (st) : (m.leaveRunning st).stream = m.stream := by
  simp only [Mod.leaveRunning, apply_ite Mod.stream, Mod.setLeaActive_stream, Mod.dropTransfers_stream, ite_self]

theorem Mod.abortEvents_stream (t) : (m.abortEvents t).stream = m.stream := by
  simp only [Mod.abortEvents, apply_ite Mod.stream, Mod.raise_stream, ite_self]

/-! ### A halted stream stands still -/

theorem Mod.haltStream_stopped : m.haltStream.stream.running = false := by
  rw [Mod.haltStream, Mod.darkenDying_stream]

theorem Mod.abortNow_stopped (t) : (m.abortNow t).stream.running = false := by
  rw [Mod.abortNow, Mod.abortEvents_stream]
  dsimp only
  rw [Mod.leaveRunning_stream, Mod.deliverHeld_stream, Mod.haltStream_stopped]

end

section
variable {m : Mod} (stopped : m.stream.running = false)
include stopped

theorem Mod.takeAbort_stopped (t) : (m.takeAbort t).stream.running = false := by
  unfold Mod.takeAbort
  split
  · exact stopped
  · dsimp only
    split
    · exact Mod.abortNow_stopped _ _
    · dsimp only
      rw [Mod.sendDown_stream]
      exact stopped

theorem Mod.flagAlive_stopped (t) : (m.flagAlive t).stream.running = false := by
  unfold Mod.flagAlive
  split
  · exact stopped
  · split
    · exact Mod.takeAbort_stopped stopped _
    · rw [Mod.sendUp_stream]
      exact stopped

theorem Mod.leaSignal_stopped : m.leaSignal.stream.running = false := by
  unfold Mod.leaSignal
  split
  · exact Mod.flagAlive_stopped stopped _
  · exact stopped

end

theorem Mod.streamFault_stopped (m : Mod) (e : Event) (p : Bytes) : (m.streamFault e p).stream.running = false := by
  rw [Mod.streamFault]
  exact Mod.leaSignal_stopped (Mod.haltStream_stopped _)

theorem Mod.loopFault_stopped (m : Mod) : m.loopFault.stream.running = false := by
  rw [Mod.loopFault]
  exact m.streamFault_stopped _ _

end Sys2Proof.Machine
end

section
/-!
PROOFS. The operations of a bundle's header: loops, END and RESTART, and the hint of a heavy phase (R109 to R112, R157,
R439).
-/
namespace Sys2Proof.Machine

/-! ### Loops (R110 to R112) -/

/-- The stream after a loop operation that breaks a rule, or that leaves the given loops and next bundle: END and RESTART
are only for a stream outside every loop. -/
def Mod.afterLoop (m : Mod) (h : Hdr) : Option (List LoopEntry × Option Nat) → Mod
  | none => m.loopFault
  | some r =>
    if (h.fin = true ∨ h.restart = true) ∧ r.1 ≠ [] then m.loopFault
    else ({ m with stream := { m.stream with phase := .barrier, loops := r.1, next := r.2 } } : Mod).settled

section
variable {h : Hdr} (pos : Nat) (loops : List LoopEntry)

/-- LOOP_BEGIN skips a loop of count 0 and pushes any other, unless its counter is in use or eight loops are open. -/
theorem loopApply_begin (begins : h.loopOp = 1) : loopApply h pos loops =
    if loops.any (fun l => l.ctr == h.ctr) = true then none
    else if h.count = 0 then some (loops, some (pos + h.units + h.body))
    else if 8 ≤ loops.length then none
    else some (⟨h.ctr, 0, h.count, pos + h.units, pos + h.units + h.body⟩ :: loops, none) := by
  simp only [loopApply, begins]

theorem loopApply_end_outside (ends : h.loopOp = 2) : loopApply h pos [] = none := by
  simp only [loopApply, ends]

/-- LOOP_END of the innermost loop at its end goes back to the start of the body, or pops it after its last round. -/
theorem loopApply_end (ends : h.loopOp = 2) (l : LoopEntry) (rest : List LoopEntry) : loopApply h pos (l :: rest) =
    if l.ctr ≠ h.ctr ∨ pos + h.units ≠ l.stop then none
    else if l.index + 1 < l.count then some ({ l with index := l.index + 1 } :: rest, some l.start)
    else some (rest, none) := by
  simp only [loopApply, ends, Nat.lt_sub_iff_add_lt]

end

section
variable {m : Mod} {h : Hdr}

/-- A loop operation that breaks no rule leaves its loops, and one that breaks a rule halts the stream. -/
theorem Mod.loopStep_settled : (m.loopStep h).settled = m.afterLoop h (loopApply h m.stream.pos m.stream.loops) := by
  have halted : m.loopFault.settled = m.loopFault := Mod.settled_stopped m.loopFault_stopped
  unfold Mod.loopStep
  cases loopApply h m.stream.pos m.stream.loops with
  | none => simp only [Mod.afterLoop, halted]
  | some r => simp only [Mod.afterLoop, apply_ite Mod.settled, halted]

section
variable (settled : m.settled = m)
include settled

theorem Mod.loopBegin_elsewhere (elsewhere : m.stream.running = false ∨ m.stream.phase ≠ .loop) : m.loopBegin = m := by
  simp only [Mod.loopBegin, settled, Mod.inPhase_none elsewhere]

theorem Mod.loopEnd_elsewhere (elsewhere : m.stream.running = false ∨ m.stream.phase ≠ .loop) : m.loopEnd = m := by
  simp only [Mod.loopEnd, settled, Mod.inPhase_none elsewhere]

theorem Mod.endStream_elsewhere (elsewhere : m.stream.running = false ∨ m.stream.phase ≠ .fin) : m.endStream = m := by
  simp only [Mod.endStream, settled, Mod.inPhase_none elsewhere]

theorem Mod.restart_elsewhere (elsewhere : m.stream.running = false ∨ m.stream.phase ≠ .fin) : m.restart = m := by
  simp only [Mod.restart, settled, Mod.inPhase_none elsewhere]

theorem Mod.hintNow_elsewhere (elsewhere : m.stream.running = false ∨ m.stream.phase ≠ .run) : m.hintNow = m := by
  simp only [Mod.hintNow, settled, Mod.inPhase_none elsewhere]

section
variable (running : m.stream.running = true) (header : m.header = some h)
include running header

theorem Mod.loopBegin_at (phase : m.stream.phase = .loop) :
    m.loopBegin = if h.loopOp = 1 then (m.loopStep h).settled else m := by
  simp only [Mod.loopBegin, settled, Mod.inPhase_some running phase header]

theorem Mod.loopEnd_at (phase : m.stream.phase = .loop) :
    m.loopEnd = if h.loopOp = 2 then (m.loopStep h).settled else m := by
  simp only [Mod.loopEnd, settled, Mod.inPhase_some running phase header]

theorem Mod.endStream_at (phase : m.stream.phase = .fin) :
    m.endStream = if h.fin = true then m.haltStream.leaSignal else m := by
  simp only [Mod.endStream, settled, Mod.inPhase_some running phase header]

theorem Mod.restart_at (phase : m.stream.phase = .fin) : m.restart = if h.restart = true then
    ({ m with stream := { m.stream with phase := .run, rep := 0, pos := 0, next := none } } : Mod).settled else m := by
  simp only [Mod.restart, settled, Mod.inPhase_some running phase header]

/-- The hint of a bundle is taken up at its first step. -/
theorem Mod.hintNow_at : m.hintNow = if m.stream.phase = .run ∧ m.stream.rep = 0 ∧ h.level ≠ 0 then
    { m with power := { m.power with hint := some ⟨m.stream.stepCount.toNat + 1024 * h.lead, h.level, false⟩ } }
    else m := by
  by_cases phase : m.stream.phase = .run
  · simp only [Mod.hintNow, settled, Mod.inPhase_some running phase header, Mod.takeHint]
    by_cases first : m.stream.rep = 0 <;> by_cases level : h.level = 0 <;> simp [phase, first, level]
  · rw [Mod.hintNow_elsewhere settled (.inr phase), if_neg fun atRun => phase atRun.1]

end

end

end

/-- The ramp of a hint starts the boost of the one that is pending. -/
theorem Mod.hintRamp_eq (m : Mod) : m.hintRamp =
    { m with power := { m.power with hint := m.power.hint.map (fun x => { x with active := true }) } } := by
  have pending : ∀ x, m.power.hint = x →
      m.hintRamp = { m with power := { m.power with hint := x.map (fun x => { x with active := true }) } } := by
    rintro (_ | x) hint
    · simp only [Mod.hintRamp, hint, Option.map_none]
      rw [← hint]
    · simp only [Mod.hintRamp, hint, Option.map_some]
  exact pending _ rfl

end Sys2Proof.Machine

namespace Sys2Proof

open Machine

/-- Settles O27: each operation acts in the phase of the bundle that has it, and as its header asks. -/
theorem bundleOperationsFollowTheHeader : Obligations.BundleOperationsFollowTheHeader := by
  unfold Obligations.BundleOperationsFollowTheHeader
  intro m h powered settled s stop go
  have begins {n : Mod} (e : m.loopBegin = n) := turns_loopBegin powered e
  have ends {n : Mod} (e : m.loopEnd = n) := turns_loopEnd powered e
  have fins {n : Mod} (e : m.endStream = n) := turns_streamEnd powered e
  have restarts {n : Mod} (e : m.restart = n) := turns_restart powered e
  have hints {n : Mod} (e : m.hintNow = n) := turns_heavyPhaseHint powered e
  refine ⟨?stopped, fun running header => ?header, turns_hintRamp powered m.hintRamp_eq, turns_boostEnd powered rfl⟩
  case stopped =>
    intro stopped c listed
    simp only [List.mem_cons, List.not_mem_nil, or_false] at listed
    rcases listed with rfl | rfl | rfl | rfl | rfl
    · exact begins (Mod.loopBegin_elsewhere settled (.inl stopped))
    · exact ends (Mod.loopEnd_elsewhere settled (.inl stopped))
    · exact fins (Mod.endStream_elsewhere settled (.inl stopped))
    · exact restarts (Mod.restart_elsewhere settled (.inl stopped))
    · exact hints (Mod.hintNow_elsewhere settled (.inl stopped))
  case header =>
    have beginAt := Mod.loopBegin_at settled running header
    have endAt := Mod.loopEnd_at settled running header
    refine ⟨fun other => ⟨begins (Mod.loopBegin_elsewhere settled (.inr other)),
        ends (Mod.loopEnd_elsewhere settled (.inr other))⟩,
      fun phase other => begins ((beginAt phase).trans (if_neg other)), ?loopBegin,
      fun phase other => ends ((endAt phase).trans (if_neg other)), ?outside, ?loopEnd,
      fun other => ⟨fins (Mod.endStream_elsewhere settled (.inr other)),
        restarts (Mod.restart_elsewhere settled (.inr other))⟩,
      fun phase => ⟨fins (Mod.endStream_at settled running header phase),
        restarts (Mod.restart_at settled running header phase)⟩,
      hints (Mod.hintNow_at settled running header)⟩
    case loopBegin =>
      intro phase op
      apply begins
      rw [beginAt phase, if_pos op, Mod.loopStep_settled, loopApply_begin _ _ op]
      simp only [apply_ite (m.afterLoop h)]
      rfl
    case outside =>
      intro phase op outside
      apply ends
      rw [endAt phase, if_pos op, Mod.loopStep_settled, show m.stream.loops = [] from outside, loopApply_end_outside _ op]
      rfl
    case loopEnd =>
      intro l rest phase op innermost
      apply ends
      rw [endAt phase, if_pos op, Mod.loopStep_settled, show m.stream.loops = l :: rest from innermost,
        loopApply_end _ op]
      simp only [apply_ite (m.afterLoop h)]
      rfl

end Sys2Proof
end

section
/-!
PROOFS. What sending on the hedgerow ports touches: the ports, and the count of an armed injection (R342, R348, R352,
R477).
-/
namespace Sys2Proof.Machine

/-- Only what the hedgerow ports hold and the count of an armed injection set `n` apart from `m`; with no injection armed,
the ports alone. -/
structure Mod.OnlyPorts (m n : Mod) : Prop where
  frame : n = { m with hdg := n.hdg, inject := n.inject }
  calm : m.inject.armed = false → n.inject = m.inject

section
variable {m n k : Mod}

theorem Mod.OnlyPorts.refl (m : Mod) : m.OnlyPorts m := ⟨rfl, fun _ => rfl⟩

theorem Mod.OnlyPorts.trans (first : m.OnlyPorts n) (second : n.OnlyPorts k) : m.OnlyPorts k where
  frame := second.frame.trans
    (congrArg (fun x : Mod => ({ x with hdg := k.hdg, inject := k.inject } : Mod)) first.frame :)
  calm unarmed := by
    have kept : n.inject = m.inject := first.calm unarmed
    exact (second.calm (kept ▸ unarmed)).trans kept

theorem Mod.OnlyPorts.foldl {α : Type} {f : Mod → α → Mod} (one : ∀ (m : Mod) a, m.OnlyPorts (f m a))
    (l : List α) (m : Mod) : m.OnlyPorts (l.foldl f m) := by
  induction l generalizing m with
  | nil => exact .refl m
  | cons a l ih => exact (one m a).trans (ih _)

theorem Mod.OnlyPorts.lea (only : m.OnlyPorts n) : n.lea = m.lea := (congrArg Mod.lea only.frame :)
theorem Mod.OnlyPorts.leaChildren (only : m.OnlyPorts n) : n.leaChildren = m.leaChildren :=
  (congrArg Mod.leaChildren only.frame :)

/-- With no injection armed the node answers as it did. -/
theorem Mod.OnlyPorts.answers (only : m.OnlyPorts n) (serving : m.serving = true) (unarmed : m.inject.armed = false) :
    n.serving = true ∧ n.inject.armed = false :=
  ⟨(congrArg Mod.serving only.frame :).trans serving, (congrArg Inject.armed (only.calm unarmed)).trans unarmed⟩

end

section
variable (m : Mod)

theorem Mod.setPort_onlyPorts (p x) : m.OnlyPorts (m.setPort p x) := ⟨rfl, fun _ => rfl⟩

theorem Mod.passFlit_onlyPorts (t d l f) : m.OnlyPorts (m.passFlit t d l f).2 := by
  unfold Mod.passFlit
  extract_lets i par mine
  by_cases armed : i.armed = true ∧ i.armTarget.toNat = t
  · have noCalm {x : Inject} : m.inject.armed = false → x = m.inject := fun unarmed =>
      absurd (armed.1.symm.trans unarmed) (by decide)
    rw [if_neg (not_not_intro armed)]
    repeat' split
    all_goals exact ⟨rfl, noCalm⟩
  · rw [if_pos armed]
    exact .refl m

theorem Mod.hdgEmit_onlyPorts (p lane seq f) : m.OnlyPorts (m.hdgEmit p lane seq f) :=
  (m.passFlit_onlyPorts _ _ _ _).trans ⟨rfl, fun _ => rfl⟩

theorem Mod.emitLink_onlyPorts (p sub echo serial body) : m.OnlyPorts (m.emitLink p sub echo serial body) := by
  unfold Mod.emitLink
  split
  · exact m.hdgEmit_onlyPorts _ _ _ _
  · exact .refl m

theorem Mod.sendLink_onlyPorts (p sub body) : m.OnlyPorts (m.sendLink p sub body) :=
  (m.setPort_onlyPorts _ _).trans (Mod.emitLink_onlyPorts _ _ _ _ _ _)

theorem Mod.sendToken_onlyPorts (gate t) : m.OnlyPorts (m.sendToken gate t) :=
  .foldl (fun m _ => (m.hdgEmit_onlyPorts _ _ _ _).trans (Mod.hdgEmit_onlyPorts _ _ _ _ _)) _ m

theorem Mod.sendUp_onlyPorts (t) : m.OnlyPorts (m.sendUp t) := by
  unfold Mod.sendUp
  split
  · exact m.sendToken_onlyPorts _ _
  · exact .refl m

theorem Mod.identAll_onlyPorts : m.OnlyPorts m.identAll := by
  refine .foldl (fun m p => ?_) _ m
  split
  · exact m.sendLink_onlyPorts _ _ _
  · exact .refl m

/-- A change of the active lea configuration shows outside the lea in IDENT alone (R352). -/
theorem Mod.setLeaActive_onlyPorts (c : LeaCfg) :
    ({ m with lea := { m.lea with active := c } } : Mod).OnlyPorts (m.setLeaActive c) := by
  unfold Mod.setLeaActive
  extract_lets _ m1
  split
  · exact .refl m1
  · exact m1.identAll_onlyPorts

/-- A configuration that is active already is no change. -/
theorem Mod.setLeaActive_same {m : Mod} {c : LeaCfg} (active : m.lea.active = c) : m.setLeaActive c = m := by
  subst active
  exact if_pos rfl

/-- A member without children sends nothing down. -/
theorem Mod.sendDown_leaf {m : Mod} (leaf : m.leaChildren = []) (t : Token) : m.sendDown t = m := by
  rw [Mod.sendDown, leaf, List.foldl_nil]

end

end Sys2Proof.Machine
end

section
/-!
PROOFS. The timers of the lea, and the tokens that they send (R140, R154 to R156, R348).
-/
namespace Sys2Proof.Machine

section
variable {m : Mod}

/-! ### ALIVE_TIMER (R154, R155) -/

theorem Mod.aliveTimer_idle (idle : m.lea.st ≠ .running ∨ m.lea.wait.isSome = true) : m.aliveTimer = m := by
  refine if_neg ?_
  rintro ⟨running, free⟩
  rcases idle with other | waits
  · exact other running
  · rw [Option.isNone_iff_eq_none.1 free] at waits
    exact absurd waits (by decide)

/-- The ALIVE of a member whose stream runs carries no flag. -/
theorem Mod.aliveToken_running (stream : m.stream.running = true) (unpaused : m.lea.paused = false) :
    m.aliveToken = m.flagToken 3#8 false false false false 0xFFFF#16 := by
  simp [Mod.aliveToken, Mod.leaHalted, Mod.running, stream, unpaused]

theorem Mod.aliveTimer_leaf (running : m.lea.st = .running) (free : m.lea.wait = none) (unpaused : m.lea.paused = false)
    (stream : m.stream.running = true) (leaf : m.leaChildren = []) :
    m.aliveTimer = m.sendUp (m.flagToken 3#8 false false false false 0xFFFF#16) := by
  have token := Mod.aliveToken_running stream unpaused
  have noFlag : ¬(m.aliveToken.paused = true ∨ m.aliveToken.fault = true) := by simp [token, Mod.flagToken]
  have sent (t : Token) : (m.sendUp t).sendDown t = m.sendUp t :=
    Mod.sendDown_leaf ((m.sendUp_onlyPorts t).leaChildren.trans leaf) t
  rw [Mod.aliveTimer, if_pos ⟨running, Option.isNone_iff_eq_none.2 free⟩]
  simp only [if_neg noFlag, sent, ite_self]
  rw [token]

/-! ### NEIGHBOUR_LOST (R154) -/

theorem Mod.neighbourLost_stopped (stopped : m.lea.st ≠ .running) (gate : Nat) : m.neighbourLost gate = m :=
  if_pos stopped

theorem Mod.neighbourLost_none {gate : Nat} (nobody : m.neighbourAt gate = none) : m.neighbourLost gate = m := by
  simp only [Mod.neighbourLost, nobody, ite_self]

/-- A silent parent aborts the member. -/
theorem Mod.neighbourLost_parent (running : m.lea.st = .running) {gate k : Nat}
    (parent : m.neighbourAt gate = some (k, true)) :
    m.neighbourLost gate = m.takeAbort (m.flagToken 4#8 true false true false (BitVec.ofNat 16 k)) := by
  simp only [Mod.neighbourLost, running, parent, ne_eq, not_true_eq_false, if_false, if_true]

/-- An ALIVE with a flag goes from a member toward the leader. -/
theorem Mod.flagAlive_member (running : m.lea.st = .running) (member : m.isLeader = false) (t : Token) :
    m.flagAlive t = m.sendUp t := by
  simp only [Mod.flagAlive, running, member, ne_eq, not_true_eq_false, if_false, Bool.false_eq_true]

/-- A silent child is reported toward the leader. -/
theorem Mod.neighbourLost_child (running : m.lea.st = .running) {gate k : Nat}
    (child : m.neighbourAt gate = some (k, false)) (member : m.isLeader = false) :
    m.neighbourLost gate = m.sendUp (m.flagToken 3#8 false false true false (BitVec.ofNat 16 k)) := by
  simp only [Mod.neighbourLost, running, child, ne_eq, not_true_eq_false, if_false, Bool.false_eq_true]
  exact Mod.flagAlive_member running member _

/-! ### BARRIER_OVERDUE (R140) -/

theorem Mod.barrierOverdue_calm (calm : m.stream.running = false ∨ m.lea.st ≠ .running ∨ m.stream.sinceLea < 65536) :
    m.barrierOverdue = m := by
  refine if_neg ?_
  rintro ⟨stream, running, overdue⟩
  rcases calm with stopped | other | soon
  · exact absurd (stream.symm.trans stopped) (by decide)
  · exact other running
  · exact absurd overdue (Nat.not_le.2 soon)

theorem Mod.barrierOverdue_halts (running : m.lea.st = .running) (stream : m.stream.running = true)
    (overdue : 65536 ≤ m.stream.sinceLea) :
    m.barrierOverdue = ((m.raise .barrierOverdue noUnit []).dataFault 0 0).haltStream.leaSignal :=
  if_pos ⟨stream, running, overdue⟩

/-! ### TOKEN_RESEND (R348) -/

theorem Mod.resendTokens_none (noAbort : m.lea.aborting = none) (unsent : ∀ w, m.lea.wait = some w → w.sent = none) :
    m.resendTokens = m := by
  cases wait : m.lea.wait with
  | none => simp only [Mod.resendTokens, wait, noAbort]
  | some w => simp only [Mod.resendTokens, wait, unsent w wait, noAbort]

/-- A REPORT that is not answered goes to the parent again. -/
theorem Mod.resendTokens_report (noAbort : m.lea.aborting = none) {w : BarrierWait} {a : Token}
    (wait : m.lea.wait = some w) (sent : w.sent = some a) : m.resendTokens = m.sendUp a := by
  have noAbortSent : (m.sendUp a).lea.aborting = none := by rw [(m.sendUp_onlyPorts a).lea, noAbort]
  simp only [Mod.resendTokens, wait, sent, noAbortSent]

/-- An ABORT goes to the children again. -/
theorem Mod.resendTokens_abort {a : Token} (abort : m.lea.aborting = some a) (free : m.lea.wait = none) :
    m.resendTokens = m.sendDown a := by
  simp only [Mod.resendTokens, free, abort]

end

end Sys2Proof.Machine

namespace Sys2Proof

open Machine

/-- Settles O33: each timer acts where its own condition holds, and nothing happens elsewhere. -/
theorem leaTimersAct : Obligations.LeaTimersAct := by
  unfold Obligations.LeaTimersAct
  intro m gate powered flags
  have alive {n : Mod} (e : m.aliveTimer = n) := turns_aliveTimer powered e
  have lost {n : Mod} (e : m.neighbourLost gate.val = n) := turns_neighbourLost powered gate e
  have overdue {n : Mod} (e : m.barrierOverdue = n) := turns_barrierOverdue powered e
  have resend {n : Mod} (e : m.resendTokens = n) := turns_tokenResend powered e
  refine ⟨?stopped, fun waits => alive (Mod.aliveTimer_idle (.inr waits)),
    fun running free unpaused stream leaf => alive (Mod.aliveTimer_leaf running free unpaused stream leaf),
    fun nobody => lost (Mod.neighbourLost_none nobody),
    fun _ running parent => lost (Mod.neighbourLost_parent running parent),
    fun _ running child member => lost (Mod.neighbourLost_child running child member),
    fun calm => overdue (Mod.barrierOverdue_calm (calm.imp_right .inr)),
    fun running stream late => overdue (Mod.barrierOverdue_halts running stream late),
    fun noAbort unsent => resend (Mod.resendTokens_none noAbort unsent),
    fun _ _ noAbort wait sent => resend (Mod.resendTokens_report noAbort wait sent),
    fun _ abort free => resend (Mod.resendTokens_abort abort free)⟩
  case stopped =>
    intro stopped c listed
    simp only [List.mem_cons, List.not_mem_nil, or_false] at listed
    rcases listed with rfl | rfl | rfl
    · exact alive (Mod.aliveTimer_idle (.inl stopped))
    · exact lost (Mod.neighbourLost_stopped stopped _)
    · exact overdue (Mod.barrierOverdue_calm (.inr (.inl stopped)))

end Sys2Proof
end

section
/-!
PROOFS. The configuration of the lea: its size is staged, a COMMIT checks and locks it, LEAVE clears what is active, and
STOP_REQ asks a running lea to stop (R137 to R139, R157, R159, R161, R400).
-/
namespace Sys2Proof.Machine

/-- The module that shows a status of the lea (R161). -/
def Mod.withLeaResult (m : Mod) (st : BitVec 8) : Mod := { m with lea := { m.lea with result := st } }

section
variable {m : Mod} (serves : Safety.Serves m) (fd : Bool)
include serves

/-- LEA_SIZE is checked for its range first, and then for a COMMIT that holds the staged copy (R137, R161, R400). -/
theorem Mod.sdoPut_leaSize (size : BitVec 16) : m.sdoPut fd 0x4800 2 size =
    if size = 0#16 then
      Safety.refused (if m.lea.locked then m else m.withLeaResult stZeroInvalid) fd 0x4800 2 abLow
    else if size.toNat < 2 then Safety.refused m fd 0x4800 2 abLow
    else if 512 < size.toNat then Safety.refused m fd 0x4800 2 abHigh
    else if m.lea.locked then Safety.refused m fd 0x4800 2 abState
    else Safety.accepted { m with lea := { m.lea with staged := { m.lea.staged with size := size } } } fd 0x4800 2 := by
  have effect : m.objEffect 0x4800 2 (regBytes size) ObjIn.none = m.setLeaSize size := by
    rw [effect_4800_2, ofNat_leNat_regBytes]
  have refuses {c : Nat} (refused : m.setLeaSize size = (c, m)) (code : c ≠ 0) :
      m.sdoPut fd 0x4800 2 size = Safety.refused m fd 0x4800 2 c :=
    Mod.sdoPut_refused serves fd (check_4800_2 m) (effect.trans refused) code serves.serving serves.calm
  split
  case isTrue zero =>
    have result : m.setLeaSize size = (abLow, if m.lea.locked then m else m.withLeaResult stZeroInvalid) := if_pos zero
    have answers : (if m.lea.locked then m else m.withLeaResult stZeroInvalid).serving = true
        ∧ (if m.lea.locked then m else m.withLeaResult stZeroInvalid).inject.armed = false := by
      split <;> exact ⟨serves.serving, serves.calm⟩
    exact Mod.sdoPut_refused serves fd (check_4800_2 m) (effect.trans result) (by decide) answers.1 answers.2
  case isFalse nonzero =>
    have ranged : m.setLeaSize size = inRange 2 512 size.toNat m (m.leaStage fun c => { c with size := size }) :=
      if_neg nonzero
    split
    case isTrue low => exact refuses (ranged.trans (if_pos low)) (by decide)
    case isFalse notLow =>
      split
      case isTrue high => exact refuses (ranged.trans ((if_neg notLow).trans (if_pos high))) (by decide)
      case isFalse notHigh =>
        have staged : m.setLeaSize size = m.leaStage fun c => { c with size := size } :=
          ranged.trans ((if_neg notLow).trans (if_neg notHigh))
        split
        case isTrue locked => exact refuses (staged.trans (if_pos locked)) (by decide)
        case isFalse unlocked =>
          exact Mod.sdoPut_accepted serves fd (check_4800_2 m) (effect.trans (staged.trans (if_neg unlocked)))
            serves.serving serves.calm

/-- An object that takes only 0x01 refuses any other value (R394). -/
theorem Mod.sdoPut_onlyOne {i sub : Nat} (check : m.writeCheck i sub 1 = 0) {v : BitVec 8} {k : Nat × Mod}
    (effect : m.objEffect i sub (regBytes v) ObjIn.none = onlyOne (leNat (regBytes v)) m k) {n : Mod}
    (one : m.objEffect i sub (regBytes v) ObjIn.none = k → m.sdoPut fd i sub v = n) :
    m.sdoPut fd i sub v = if v ≠ 1#8 then Safety.refused m fd i sub abValue else n := by
  rw [leNat_regBytes] at effect
  split
  case isTrue other =>
    have value : v.toNat ≠ 1 := fun same => other (BitVec.eq_of_toNat_eq same)
    exact Mod.sdoPut_refused serves fd check (effect.trans (if_neg value)) (by decide) serves.serving serves.calm
  case isFalse only =>
    have value : v.toNat = 1 := by rw [Decidable.not_not.1 only]; rfl
    exact one (effect.trans (if_pos value))

/-- What refuses a COMMIT of the lea that the staged copy is not locked for: a lea that forms, runs or has diverged, or
the check that the staged copy fails (R138, R159, R161). -/
theorem Mod.sdoPut_leaCommit (v : BitVec 8) :
    let st := if m.lea.st = .none ∨ m.lea.st = .stopped then m.lea.staged.status else 0x34#8
    m.sdoPut fd 0x4800 7 v =
      if v ≠ 1#8 then Safety.refused m fd 0x4800 7 abValue
      else if m.lea.locked then Safety.refused m fd 0x4800 7 abState
      else if st = 0#8 then Safety.accepted { m with lea := { m.lea with locked := true, result := 0#8 } } fd 0x4800 7
      else Safety.refused (m.withLeaResult st) fd 0x4800 7 abState := by
  intro st
  refine Mod.sdoPut_onlyOne serves fd (check_4800_7 m) (effect_4800_7 m _ _) fun effect => ?_
  split
  case isTrue locked =>
    exact Mod.sdoPut_refused serves fd (check_4800_7 m) (effect.trans (if_pos locked)) (by decide) serves.serving
      serves.calm
  case isFalse unlocked =>
    have commits : m.leaCommit = if st = 0#8 then (0, { m with lea := { m.lea with locked := true, result := st } })
        else (abState, m.withLeaResult st) := if_neg unlocked
    split
    case isTrue passes =>
      rw [← passes]
      exact Mod.sdoPut_accepted serves fd (check_4800_7 m) (effect.trans (commits.trans (if_pos passes)))
        serves.serving serves.calm
    case isFalse fails =>
      exact Mod.sdoPut_refused serves fd (check_4800_7 m) (effect.trans (commits.trans (if_neg fails))) (by decide)
        serves.serving serves.calm

/-- STOP_REQ is for a running lea (R157). -/
theorem Mod.sdoPut_stopReq (v : BitVec 8) : m.sdoPut fd 0x4801 2 v =
    if v ≠ 1#8 then Safety.refused m fd 0x4801 2 abValue
    else if m.lea.st = .running then Safety.accepted { m with lea := { m.lea with stopReq := true } } fd 0x4801 2
    else Safety.refused m fd 0x4801 2 abState := by
  refine Mod.sdoPut_onlyOne serves fd (check_4801_2 m) (effect_4801_2 m _ _) fun effect => ?_
  split
  case isTrue running =>
    exact Mod.sdoPut_accepted serves fd (check_4801_2 m) (effect.trans (if_pos running)) serves.serving serves.calm
  case isFalse stopped =>
    exact Mod.sdoPut_refused serves fd (check_4801_2 m) (effect.trans (if_neg stopped)) (by decide) serves.serving
      serves.calm

/-- LEAVE answers what the module that it leaves makes of it. -/
theorem Mod.sdoPut_leave {n : Mod} (left : m.leaLeave = n) (answers : n.serving = true ∧ n.inject.armed = false) :
    m.sdoPut fd 0x4801 1 2#8 = Safety.accepted n fd 0x4801 1 := by
  have effect : m.objEffect 0x4801 1 (regBytes 2#8) ObjIn.none = (0, m.leaLeave) := by
    rw [effect_4801_1, leNat_regBytes]
    rfl
  exact Mod.sdoPut_accepted serves fd (check_4801_1 m) (effect.trans (by rw [left])) answers.1 answers.2

end

section
variable {m : Mod}

/-- A lea that forms or runs is not left: its result says so (R159). -/
theorem Mod.leaLeave_busy (busy : m.lea.st = .forming ∨ m.lea.st = .running) : m.leaLeave = m.withLeaResult 0x34#8 :=
  if_pos busy

theorem Mod.leaLeave_free (notForming : m.lea.st ≠ .forming) (notRunning : m.lea.st ≠ .running) :
    m.leaLeave = ({ m with lea := { m.lea with st := .none, result := 0#8 } } : Mod).setLeaActive LeaCfg.zero :=
  if_neg (not_or.2 ⟨notForming, notRunning⟩)

end

end Sys2Proof.Machine

namespace Sys2Proof

open Machine

/-- Settles O30: each write is checked in its order, and LEAVE outside a lea that forms or runs changes its configuration
and what the ports say of it. -/
theorem leaConfigurationIsStagedAndCommitted : Obligations.LeaConfigurationIsStagedAndCommitted := by
  unfold Obligations.LeaConfigurationIsStagedAndCommitted
  intro m fd size v powered serves with_ st
  have leave {n : Mod} (left : m.leaLeave = n) (answers : n.serving = true ∧ n.inject.armed = false) :
      Safety.Turns m (.leave fd) (Safety.accepted n fd 0x4801 1) :=
    turns_leave powered fd (Mod.sdoPut_leave serves fd left answers)
  refine ⟨turns_leaSize powered fd size (Mod.sdoPut_leaSize serves fd size),
    turns_leaCommit powered fd v (Mod.sdoPut_leaCommit serves fd v),
    turns_stopReq powered fd v (Mod.sdoPut_stopReq serves fd v),
    fun busy => leave (Mod.leaLeave_busy busy) ⟨serves.serving, serves.calm⟩, ?unset, ?set⟩
  case unset =>
    intro notForming notRunning unset
    exact leave ((Mod.leaLeave_free notForming notRunning).trans (Mod.setLeaActive_same unset))
      ⟨serves.serving, serves.calm⟩
  case set =>
    intro notForming notRunning
    have only := ({ m with lea := { m.lea with st := .none, result := 0#8 } } : Mod).setLeaActive_onlyPorts LeaCfg.zero
    refine ⟨_, leave (Mod.leaLeave_free notForming notRunning) (only.answers serves.serving serves.calm), ?_⟩
    generalize ({ m with lea := { m.lea with st := .none, result := 0#8 } } : Mod).setLeaActive LeaCfg.zero = n at only ⊢
    rw [only.frame]
    exact ⟨rfl, rfl, rfl, rfl, rfl, rfl, rfl, rfl, rfl⟩

end Sys2Proof
end

section
/-!
PROOFS. What leaves the stream, the lea and the safe state as they are: reports, bands that go dark, transfers that are
dropped, and everything that a program of a gleaner does (R148, R225, R230, R356, R429, R449).
-/
namespace Sys2Proof.Machine

/-- The stream, the lea and the safe state. -/
def Mod.course (m : Mod) : Stream × Lea × Safe := (m.stream, m.lea, m.safe)

theorem lea_of_course {m n : Mod} (same : n.course = m.course) : n.lea = m.lea := congrArg (fun c => c.2.1) same

theorem Mod.OnlyPorts.course {m n : Mod} (only : m.OnlyPorts n) : n.course = m.course :=
  (congrArg Mod.course only.frame :)

theorem course_of_quiet {m n : Mod} (quiet : n.quiet = m.quiet) : n.course = m.course := by
  have same : n.quiet.course = m.quiet.course := congrArg Mod.course quiet
  exact same

section
variable (m : Mod)

/-! ### Reports -/

theorem Mod.raise_course (e u p) : (m.raise e u p).course = m.course := course_of_quiet (m.raise_quiet e u p)

theorem Mod.cairnNote_course (k e body s) : (m.cairnNote k e body s).course = m.course :=
  course_of_quiet (m.cairnPut_quiet _)

theorem Mod.failStep_course (st) : (m.failStep st).course = m.course := by
  unfold Mod.failStep
  split
  · rfl
  · dsimp only
    rw [Mod.raise_course]
    split <;> rfl

/-! ### Bands and transfers -/

theorem Mod.repace_course : m.repace.course = m.course := by
  obtain ⟨p, paced, -⟩ := repace_frame m
  rw [paced]
  rfl

theorem Mod.bandDark_course (b) : (m.bandDark b).course = m.course := by
  unfold Mod.bandDark
  split
  · rfl
  · dsimp only
    rw [Mod.repace_course, Mod.raise_course]
    rfl

theorem Mod.darkenDying_course : m.darkenDying.course = m.course := foldl_inv Mod.course _ Mod.bandDark_course _ m

theorem Mod.resetLane_onlyPorts (p be) : m.OnlyPorts (m.resetLane p be) :=
  (m.setPort_onlyPorts _ _).trans (Mod.sendLink_onlyPorts _ _ _ _)

theorem Mod.dropTransfers_course : m.dropTransfers.course = m.course := by
  refine foldl_inv Mod.course _ (fun m p => ?_) _ m
  dsimp only
  split
  · rfl
  · rw [(Mod.resetLane_onlyPorts _ _ _).course, (Mod.setPort_onlyPorts _ _ _).course]
    exact foldl_inv Mod.course (fun (m : Mod) (e : EntryF) => m.freeTag e.row e.tag) (fun _ _ => rfl) _ m

/-! ### Memory -/

theorem Mod.raisePerStack_course (poison stack addr) : (m.raisePerStack poison stack addr).course = m.course := by
  have marked (n : Mod) (e u p) (c : Prop) [Decidable c] (same : n.course = m.course) :
      (if c then m else n.raise e u p).course = m.course := by
    split
    · rfl
    · rw [Mod.raise_course, same]
  unfold Mod.raisePerStack
  dsimp only
  split
  · exact marked _ _ _ _ _ rfl
  · exact marked _ _ _ _ _ rfl

theorem Mod.applyMem_course (w f) : (Mod.applyMem w m f).course = m.course := by
  cases f with
  | corrected st a => exact m.raisePerStack_course _ _ _
  | poisonRead st => exact m.raisePerStack_course _ _ _
  | metaUe st b => exact Mod.raise_course _ _ _ _
  | faulted _ => rfl
  | unassigned a => rfl
  | uncorrectable a r => exact m.raise_course _ _ _
  | mergeOnPoison a w => exact m.raise_course _ _ _
  | scrubUe a => exact m.raise_course _ _ _
  | locked a => exact m.raise_course _ _ _

theorem Mod.applyRick_course (f) : (m.applyRick f).course = m.course := by
  cases f with
  | dropCellL1 base len => rfl
  | tagFault n set => exact Mod.raise_course _ _ _ _
  | thrash n c rate => exact m.raise_course _ _ _
  | readAfterFallow => exact m.raise_course _ _ _
  | dataUe a => exact m.raise_course _ _ _

theorem Mod.settleInject_course : m.settleInject.course = m.course := by
  unfold Mod.settleInject
  split <;> rfl

theorem Mod.withStacks_course {α : Type} (w) (f : MS → α × MS) : (m.withStacks w f).2.course = m.course :=
  (Mod.settleInject_course _).trans (foldl_inv Mod.course _ (fun m f => m.applyMem_course w f) _ _)

theorem Mod.onStacks_course (w f) : (m.onStacks w f).course = m.course := m.withStacks_course w _

theorem Mod.withRick_course {α : Type} (w) (f : RM → α × RM) : (m.withRick w f).2.2.course = m.course :=
  (Mod.settleInject_course _).trans ((foldl_inv Mod.course _ Mod.applyRick_course _ _).trans
    (foldl_inv Mod.course _ (fun m f => m.applyMem_course w f) _ _))

theorem Mod.readStack_course (a len cls sheaf req) : (m.readStack a len cls sheaf req).2.course = m.course := by
  simp only [Mod.readStack, Mod.withRick_course]

theorem Mod.writeStack_course (a ps cls sheaf req) : (m.writeStack a ps cls sheaf req).2.course = m.course :=
  m.withRick_course _ _

/-! ### Programs of the gleaners -/

theorem Mod.onTest_course (f) : (m.onTest f).course = m.course := rfl

theorem Mod.testRun_course (op a bs) : (m.testRun op a bs).course = m.course := by
  have dropped : (m.onRick reqMgmt (fun x => dropForTest x a)).course = m.course := m.withRick_course _ _
  unfold Mod.testRun
  extract_lets m1 w _ _ m2
  suffices run : m2.course = m1.course from run.trans dropped
  simp only [m2]
  split
  · exact m1.onStacks_course _ _
  · split
    · exact (Mod.onTest_course _ _).trans (m1.withStacks_course _ _)
    · exact (Mod.onTest_course _ _).trans (m1.withStacks_course _ _)

theorem Mod.unsowAt_course (a whole strict) : (m.unsowAt a whole strict).course = m.course := by
  unfold Mod.unsowAt
  extract_lets n w
  split
  · rfl
  · split
    · rfl
    · exact m.onStacks_course _ _

theorem Mod.release_course (h) : (m.release h).course = m.course := by
  have ended : (m.holdEnded h.since).course = m.course := rfl
  unfold Mod.release
  dsimp only
  split
  · split
    · exact (Mod.onStacks_course _ _ _).trans ended
    · exact (Mod.withStacks_course _ _ _).trans ended
  · split
    · exact (Mod.writeStack_course _ _ _ _ _ _).trans ended
    · exact (Mod.readStack_course _ _ _ _ _ _).trans ended
  · exact (Mod.unsowAt_course _ _ _ _).trans ended
  · exact (Mod.testRun_course _ _ _ _).trans ended

theorem Mod.releaseHeld_course (ch) : (m.releaseHeld ch).course = m.course := by
  refine foldl_inv Mod.course _ (fun m h => ?_) _ _
  split
  · exact m.release_course h
  · rfl

theorem Mod.glnDone_course (gi g launched) : (m.glnDone gi g launched).course = m.course := by
  unfold Mod.glnDone
  split
  · rfl
  · split <;> rfl

theorem Mod.glnFinish_course (gi g st halt started) : (m.glnFinish gi g st halt started).course = m.course := by
  unfold Mod.glnFinish
  extract_lets m1 dead g1 c m2 u m3
  have poisoned : m2.course = m.course := by
    show m1.course = m.course
    simp only [m1]
    split
    · exact m.onStacks_course _ _
    · rfl
  have raised : m3.course = m2.course := by
    simp only [m3]
    repeat' split
    · rfl
    all_goals exact m2.raise_course _ _ _
  rw [Mod.releaseHeld_course, Mod.glnDone_course, raised, poisoned]

theorem Mod.glnStopStack_course (stack) : (m.glnStopStack stack).course = m.course := by
  refine foldl_inv Mod.course _ (fun m e => ?_) _ m
  unfold Mod.glnAbort
  dsimp only
  split
  · exact m.glnFinish_course _ _ _ _ _
  · split
    · exact m.glnFinish_course _ _ _ _ _
    · rfl

theorem Mod.selfRefresh_course : m.selfRefresh.course = m.course := by
  refine foldl_inv Mod.course _ (fun m s => ?_) _ m
  dsimp only
  split
  · exact Mod.glnStopStack_course _ _
  · split <;> rfl

/-! ### Halting -/

theorem Mod.haltStream_course :
    m.haltStream.course = ({ m.stream with running := false, permit := false }, m.lea, m.safe) := by
  rw [Mod.haltStream, Mod.darkenDying_course]
  rfl

theorem Mod.haltStream_lea : m.haltStream.lea = m.lea :=
  congrArg (fun c : Stream × Lea × Safe => c.2.1) m.haltStream_course

theorem Mod.leaSignal_outside {m : Mod} (other : m.lea.st ≠ .running) : m.leaSignal = m := by
  unfold Mod.leaSignal
  exact if_neg fun running => other running.1

/-- A member that leaves RUNNING waits at no barrier; of its lea's counts and results nothing changes. -/
theorem Mod.leaveRunning_lea (st) : (m.leaveRunning st).lea = { m.lea with
    st := if m.lea.leaveAfter then .none else st
    active := if m.lea.leaveAfter then LeaCfg.zero else m.lea.active
    pace := 0#8, wait := none, reports := [], stopReq := false, ending := false, abort := none
    leaveAfter := false } := by
  have same : m.dropTransfers.lea = m.lea := lea_of_course m.dropTransfers_course
  rw [← same, Mod.leaveRunning]
  generalize m.dropTransfers = n
  cases n.lea.leaveAfter with
  | true => simp only [if_true, (Mod.setLeaActive_onlyPorts _ _).lea]
  | false => simp only [Bool.false_eq_true, if_false]

/-- Entering the safe state halts the stream, and tells a lea that does not run nothing. -/
theorem Mod.enterSafe_outside (other : m.lea.st ≠ .running) (stopped : m.stream.running = false) (bit : Nat) :
    (m.enterSafe bit).lea = m.lea ∧ (m.enterSafe bit).stream.running = false ∧ (m.enterSafe bit).safe.active = true := by
  unfold Mod.enterSafe
  extract_lets cause _ _ m1 m2 m3 m4 m5
  split
  case isTrue active => exact ⟨rfl, stopped, active⟩
  case isFalse =>
    have halted : m2.course = ({ m.stream with running := false, permit := false }, m.lea, m1.safe) := by
      have paced : m1.repace.course = (m.stream, m.lea, m1.safe) := m1.repace_course
      obtain ⟨stream, lea, safe⟩ := Prod.mk.inj paced |>.imp_right Prod.mk.inj
      simp only [m2, Mod.haltStream_course, stream, lea, safe]
    have outside : m2.lea.st ≠ .running := by
      rw [show m2.lea = m.lea from congrArg (fun c => c.2.1) halted]
      exact other
    have told : m3 = m2 := if_neg outside
    have after : (m5.raise .safeState noUnit (payload [i2 m5.safe.cause.toNat])).course = m2.course := by
      rw [Mod.raise_course]
      simp only [m5, m4, told, Mod.leaSignal_outside outside, Mod.cairnNote_course, Mod.selfRefresh_course,
        Mod.failStep_course]
    obtain ⟨stream, lea, safe⟩ := Prod.mk.inj (after.trans halted) |>.imp_right Prod.mk.inj
    exact ⟨lea, congrArg Stream.running stream, congrArg Safe.active safe⟩

end

end Sys2Proof.Machine
end

section
/-!
PROOFS. Tokens that arrive: a REPORT of a child, the RELEASE of a barrier, ALIVE and ABORT (R141 to R143, R153 to R158).
-/
namespace Sys2Proof.Machine

/-! ### Whose token it is (R142) -/

section
variable {m : Mod} {gate : Nat} {t : Token} (x : BarrierIn)

theorem Mod.ownLea_iff : m.ownLea t = true ↔ m.lea.active.size ≠ 0#16 ∧ t.leaId = m.lea.active.id := by
  simp [Mod.ownLea, Mod.inLea]

theorem Mod.takeToken_foreign (foreign : ¬(m.lea.active.size ≠ 0#16 ∧ t.leaId = m.lea.active.id)) :
    m.takeToken gate t x = m.foreignToken :=
  if_pos (Bool.eq_false_iff.2 fun own => foreign (Mod.ownLea_iff.1 own))

section
variable (own : m.lea.active.size ≠ 0#16 ∧ t.leaId = m.lea.active.id)
include own

theorem Mod.takeToken_own : m.takeToken gate t x =
    if t.type = 1#8 then Mod.andRelease (m.takeReport gate t) x
    else if t.type = 2#8 then (if (m.neighbourAt gate).any (fun n => n.2) then m.applyRelease t x else m)
    else if t.type = 3#8 then (if t.paused ∨ t.lost ∨ t.fault then m.flagAlive t else m)
    else if t.type = 4#8 then m.takeAbort t
    else m := by
  have mine : ¬m.ownLea t = false := by simp only [Mod.ownLea_iff.2 own, Bool.true_eq_false, not_false_eq_true]
  exact if_neg mine

theorem Mod.takeToken_report : m.takeToken gate { t with type := 1#8 } x =
    Mod.andRelease (m.takeReport gate { t with type := 1#8 }) x :=
  (Mod.takeToken_own x (t := { t with type := 1#8 }) own).trans (if_pos rfl)

theorem Mod.takeToken_release_stranger (stranger : ∀ p, m.neighbourAt gate ≠ some (p, true)) :
    m.takeToken gate { t with type := 2#8 } x = m := by
  have notParent : ¬(m.neighbourAt gate).any (fun n => n.2) = true := by
    cases neighbour : m.neighbourAt gate with
    | none => nofun
    | some n =>
      obtain ⟨p, isParent⟩ := n
      exact fun parent : isParent = true => stranger p (parent ▸ neighbour)
  exact (Mod.takeToken_own x (t := { t with type := 2#8 }) own).trans (if_neg notParent)

theorem Mod.takeToken_release_parent {p : Nat} (parent : m.neighbourAt gate = some (p, true)) :
    m.takeToken gate { t with type := 2#8 } x = m.applyRelease { t with type := 2#8 } x := by
  have isParent : (m.neighbourAt gate).any (fun n => n.2) = true := by rw [parent]; rfl
  exact (Mod.takeToken_own x (t := { t with type := 2#8 }) own).trans (if_pos isParent)

theorem Mod.takeToken_alive : m.takeToken gate { t with type := 3#8 } x =
    if t.paused = true ∨ t.lost = true ∨ t.fault = true then m.flagAlive { t with type := 3#8 } else m :=
  Mod.takeToken_own x (t := { t with type := 3#8 }) own

theorem Mod.takeToken_abort : m.takeToken gate { t with type := 4#8 } x = m.takeAbort { t with type := 4#8 } :=
  Mod.takeToken_own x (t := { t with type := 4#8 }) own

end

end

/-! ### REPORT (R141, R143) -/

section
variable {m : Mod} {gate : Nat} {t : Token}

theorem Mod.takeReport_stranger (stranger : ∀ c, m.neighbourAt gate ≠ some (c, false)) :
    m.takeReport gate t = (m, none) := by
  unfold Mod.takeReport
  split
  case h_1 c child => exact absurd child (stranger c)
  case h_2 => rfl

/-- The module that keeps the REPORT of a child in place of an earlier one. -/
def Mod.keepReport (m : Mod) (c : Nat) (t : Token) : Mod :=
  { m with lea := { m.lea with reports := m.lea.reports.filter (fun e => e.1 != c) ++ [(c, t)] } }

theorem Mod.takeReport_child {c : Nat} (child : m.neighbourAt gate = some (c, false))
    (unreleased : m.lea.lastRelease = none) : m.takeReport gate t = (m.keepReport c t).tryReport := by
  unfold Mod.takeReport
  rw [child]
  dsimp only
  split
  case h_1 r released => exact absurd (unreleased.symm.trans released) nofun
  case h_2 => rfl

theorem Mod.tryReport_free (free : m.lea.wait = none) : m.tryReport = (m, none) := by simp only [Mod.tryReport, free]

theorem find?_keptReport (l : List (Nat × Token)) (c : Nat) (t : Token) :
    (l.filter (fun e => e.1 != c) ++ [(c, t)]).find? (fun e => e.1 == c) = some (c, t) := by
  have others : (l.filter (fun e => e.1 != c)).find? (fun e => e.1 == c) = none := by simp
  simp [List.find?_append, others]

/-- The REPORT of an only child completes the barrier: the combined report goes up. -/
theorem Mod.tryReport_onlyChild {c : Nat} {w : BarrierWait} (waits : m.lea.wait = some w) (unsent : w.sent = none)
    (only : m.leaChildren.map (fun e => e.1) = [c]) (member : m.isLeader = false) :
    (m.keepReport c t).tryReport =
      ((({ m with lea := { m.lea with
        wait := some { w with sent := some (Token.combine w.own w.own c t) }, reports := [] } } : Mod).sendUp
          (Token.combine w.own w.own c t)), none) := by
  obtain ⟨g, children⟩ : ∃ g, m.leaChildren = [(c, g)] := by
    obtain ⟨⟨k, g⟩, children, rfl⟩ := List.map_eq_singleton_iff.1 only
    exact ⟨g, children⟩
  have kept : (m.keepReport c t).leaChildren = [(c, g)] := children
  have waiting : (m.keepReport c t).lea.wait = some w := waits
  have stillMember : (m.keepReport c t).isLeader = false := member
  have reports : (m.keepReport c t).lea.reports.find? (fun e => e.1 == c) = some (c, t) := find?_keptReport _ _ _
  simp only [Mod.tryReport, waiting, unsent, Option.isSome_none, Bool.false_eq_true, if_false, kept, List.filterMap_cons,
    List.filterMap_nil, reports, Option.map_some, List.length_singleton, Nat.lt_irrefl, List.foldl_cons, List.foldl_nil]
  rw [if_neg (by simp only [stillMember, Bool.false_eq_true, not_false_eq_true])]
  rfl

end

/-! ### RELEASE (R143, R153, R158) -/

/-- The barrier at which the member waits is released. -/
def Mod.released (m : Mod) (w : BarrierWait) (t : Token) : Mod :=
  let wait := BitVec.ofNat 32 (min ((m.clock.timeUs - w.since) * 1000) (2 ^ 32 - 1))
  { m with lea := { m.lea with
    barSeq := t.barSeq.setWidth 64, lastChecksum := w.own.checksum
    waitMax := if m.lea.waitMax < wait then wait else m.lea.waitMax, wait := none, lastRelease := some t } }

/-- The lea's pace applies from the barrier on; a change is raised (R149). -/
def Mod.withLeaPace (m : Mod) (pace : BitVec 8) : Mod :=
  let m1 : Mod := { m with lea := { m.lea with pace := pace } }
  (if m.lea.pace = pace then m1
    else m1.raise .leaPaceChanged noUnit (payload [i1 m.lea.pace.toNat, i1 pace.toNat])).releasePace pace.toNat

/-- A RELEASE is taken for the barrier that the member has sent its report for. -/
theorem release_answers {w : BarrierWait} {t : Token} (barrier : w.own.barSeq = t.barSeq) (sent : w.sent.isSome = true) :
    ¬(w.own.barSeq ≠ t.barSeq ∨ w.sent.isNone = true) :=
  not_or.2 ⟨not_not_intro barrier, Bool.eq_false_iff.1 (Option.isNone_eq_false_iff.2 sent)⟩

section
variable {m : Mod} {t : Token} (x : BarrierIn)

theorem Mod.applyRelease_free (free : m.lea.wait = none) : m.applyRelease t x = m := by simp only [Mod.applyRelease, free]

section
variable {w : BarrierWait} (waits : m.lea.wait = some w) (barrier : w.own.barSeq = t.barSeq) (sent : w.sent.isSome = true)
  (leaf : m.leaChildren = [])
include waits barrier sent leaf

/-- The member has the RELEASE for the barrier at which it waits. -/
theorem Mod.applyRelease_forming (forming : m.lea.st = .forming) : m.applyRelease t x = m.formed t x := by
  simp only [Mod.applyRelease, waits, if_neg (release_answers barrier sent), Mod.sendDown_leaf leaf, if_pos forming]

section
variable (running : m.lea.st = .running)
include running

theorem Mod.applyRelease_diverges (mismatch : t.mismatch = true) : m.applyRelease t x = m.diverge w t := by
  have notForming : ¬m.lea.st = .forming := by rw [running]; nofun
  simp only [Mod.applyRelease, waits, if_neg (release_answers barrier sent), Mod.sendDown_leaf leaf, if_neg notForming,
    if_pos mismatch]

/-- A RELEASE that all members agree on, and that asks for no stop, completes the barrier: its interval's completions are
delivered, what is due at the barrier takes effect, and the stream goes on at the lea's pace (R143, R148, R149). -/
theorem Mod.applyRelease_completes (agreed : t.mismatch = false) (goesOn : t.stop = false) :
    m.applyRelease t x =
      ((((m.released w t).deliverHeld t.barSeq.toNat none).atBarrier w.own.kind.toNat w.own.barId.toNat true
        x).withLeaPace t.pace).passBarrier := by
  have notForming : ¬m.lea.st = .forming := by rw [running]; nofun
  unfold Mod.applyRelease
  split
  case h_1 free => exact absurd (waits.symm.trans free) nofun
  case h_2 v found =>
    obtain rfl : w = v := Option.some.inj (waits.symm.trans found)
    rw [if_neg (release_answers barrier sent)]
    extract_lets m0 wait _ m1 m2 m3 old _ m4 m5 m6 m7
    have same : m = m0 := (Mod.sendDown_leaf leaf t).symm
    clear_value m0
    subst same
    have barrierDone : m3 = ((m.released w t).deliverHeld t.barSeq.toNat none).atBarrier w.own.kind.toNat
      w.own.barId.toNat true x := rfl
    have paced : m7 = m3.withLeaPace t.pace :=
      congrArg (fun n : Mod => n.releasePace t.pace.toNat) (ite_not (old = t.pace) _ m4)
    rw [if_neg notForming, if_neg (Bool.eq_false_iff.1 agreed), if_neg (Bool.eq_false_iff.1 goesOn), ← barrierDone,
      ← paced]
    rfl

end

end

theorem Mod.formed_mismatch (mismatch : t.mismatch = true) : m.formed t x = { m with lea := { m.lea with
    result := 0x35#8, st := .stopped, wait := none, reports := [], firstBad := t.firstBad } } := if_pos mismatch

end

/-- A divergence halts the member, which shows its own checksum and the first member that differs, and takes no part until
its image is loaded again (R153). -/
theorem Mod.diverge_halts (m : Mod) (w : BarrierWait) (t : Token) :
    (m.diverge w t).lea.firstBad = t.firstBad ∧ (m.diverge w t).lea.reload = true
      ∧ (m.diverge w t).lea.lastChecksum = w.own.checksum ∧ (m.diverge w t).stream.running = false
      ∧ (m.diverge w t).lea.wait = none ∧ (m.diverge w t).safe.active = true := by
  unfold Mod.diverge
  extract_lets m1 _ m2 m3
  have left : m3.lea = _ := Mod.leaveRunning_lea m2.haltStream .diverged
  rw [m2.haltStream_lea] at left
  have stopped : m3.stream.running = false := by rw [Mod.leaveRunning_stream, Mod.haltStream_stopped]
  have other : m3.lea.st ≠ .running := by rw [left]; dsimp only; split <;> nofun
  unfold Mod.danger
  obtain ⟨lea, halted, safe⟩ := Mod.enterSafe_outside (m := m3.raise .leaDivergence noUnit
    (payload [i8 t.barSeq.toNat, i2 t.firstBad.toNat, i8 w.own.checksum.toNat, i8 t.checksum.toNat]))
    (by rw [Mod.raise_lea]; exact other) (by rw [Mod.raise_stream]; exact stopped) 4
  rw [lea, Mod.raise_lea, left]
  exact ⟨rfl, rfl, rfl, halted, rfl, safe⟩

/-! ### ABORT (R156) -/

section
variable {m : Mod}

theorem Mod.takeAbort_elsewhere (other : m.lea.st ≠ .running) (t : Token) : m.takeAbort t = m := if_pos other

theorem Mod.flagAlive_elsewhere (other : m.lea.st ≠ .running) (t : Token) : m.flagAlive t = m := if_pos other

/-- A leaf halts at once where it waits or its stream has stopped, and else at its next lea barrier. -/
theorem Mod.takeAbort_leaf (running : m.lea.st = .running) (leaf : m.leaChildren = []) (t : Token) :
    m.takeAbort t = if m.lea.wait.isSome = true ∨ m.stream.running = false then
        ({ m with lea := { m.lea with aborting := some t } } : Mod).abortNow t
      else { m with lea := { m.lea with aborting := some t, abort := some t } } := by
  have down : ({ m with lea := { m.lea with aborting := some t } } : Mod).sendDown t
      = { m with lea := { m.lea with aborting := some t } } :=
    Mod.sendDown_leaf (m := { m with lea := { m.lea with aborting := some t } }) leaf t
  unfold Mod.takeAbort
  rw [if_neg (not_not_intro running), down]
  rfl

end

end Sys2Proof.Machine

namespace Sys2Proof

open Machine

/-- Settles O32: a token of the member's own lea acts by its type, by the neighbour that it comes from, and by whether the
member waits. -/
theorem tokensDriveTheMember : Obligations.TokensDriveTheMember := by
  unfold Obligations.TokensDriveTheMember
  intro m gate t x powered own r
  have report {n : Mod} (e : m.takeToken gate r x = n) := turns_report powered gate t x e
  have release {n : Mod} (e : m.takeToken gate { t with type := 2#8 } x = n) := turns_release powered gate t x e
  have alive {n : Mod} (e : m.takeToken gate { t with type := 3#8 } x = n) := turns_alive powered gate t x e
  have abort {n : Mod} (e : m.takeToken gate { t with type := 4#8 } x = n) := turns_abort powered gate t x e
  refine ⟨?foreign, ?strangerReports, ?childReports, ?strangerReleases, ?free, ?releases, ?quiet, ?elsewhere,
    ?flagged, ?aborts⟩
  case foreign =>
    intro foreign c listed
    simp only [List.mem_cons, List.not_mem_nil, or_false] at listed
    rcases listed with rfl | rfl | rfl | rfl
    · exact report (Mod.takeToken_foreign x foreign)
    · exact release (Mod.takeToken_foreign x foreign)
    · exact alive (Mod.takeToken_foreign x foreign)
    · exact abort (Mod.takeToken_foreign x foreign)
  case strangerReports =>
    intro mine stranger
    apply report
    rw [Mod.takeToken_report x mine, Mod.takeReport_stranger stranger]
    rfl
  case childReports =>
    intro mine c child unreleased
    have taken : m.takeToken gate r x = Mod.andRelease (m.keepReport c r).tryReport x := by
      rw [Mod.takeToken_report x mine, Mod.takeReport_child child unreleased]
    refine ⟨fun free => report ?_, fun w waits unsent only member => report ?_⟩
    · rw [taken, Mod.tryReport_free (m := m.keepReport c r) free]
      rfl
    · rw [taken, Mod.tryReport_onlyChild waits unsent only member]
      rfl
  case strangerReleases => exact fun mine stranger => release (Mod.takeToken_release_stranger x mine stranger)
  case free =>
    intro mine free
    apply release
    by_cases parent : ∃ p, m.neighbourAt gate = some (p, true)
    · obtain ⟨p, parent⟩ := parent
      rw [Mod.takeToken_release_parent x mine parent, Mod.applyRelease_free x free]
    · exact Mod.takeToken_release_stranger x mine (not_exists.1 parent)
  case releases =>
    intro p w mine parent waits barrier sent leaf rel
    have taken : m.takeToken gate rel x = m.applyRelease rel x := Mod.takeToken_release_parent x mine parent
    have answers {n : Mod} (e : m.applyRelease rel x = n) : Safety.Turns m (.release gate t x) n :=
      release (taken.trans e)
    refine ⟨fun forming mismatch => answers ?_, fun running agreed goesOn => ?_, fun running mismatch => ?_⟩
    · exact (Mod.applyRelease_forming x (t := rel) waits barrier sent leaf forming).trans (Mod.formed_mismatch x mismatch)
    · intro wait m1 m2 m3 m4 m5
      have barrierDone : m2 = ((m.released w rel).deliverHeld rel.barSeq.toNat none).atBarrier w.own.kind.toNat
        w.own.barId.toNat true x := rfl
      have paced : m5 = m2.withLeaPace rel.pace := rfl
      refine answers ((Mod.applyRelease_completes x (t := rel) waits barrier sent leaf running agreed goesOn).trans ?_)
      rw [← barrierDone, ← paced]
      rfl
    · exact ⟨_, answers (Mod.applyRelease_diverges x (t := rel) waits barrier sent leaf running mismatch),
        m.diverge_halts w rel⟩
  case quiet =>
    intro mine unpaused present sound
    apply alive
    rw [Mod.takeToken_alive x mine, if_neg (by simp [unpaused, present, sound])]
  case elsewhere =>
    intro mine other
    refine ⟨alive ?_, abort ?_⟩
    · rw [Mod.takeToken_alive x mine, Mod.flagAlive_elsewhere other, ite_self]
    · rw [Mod.takeToken_abort x mine, Mod.takeAbort_elsewhere other]
  case flagged =>
    intro mine flag running member
    apply alive
    rw [Mod.takeToken_alive x mine, if_pos flag, Mod.flagAlive_member running member]
  case aborts =>
    intro mine running leaf a
    have taken : m.takeToken gate a x = _ :=
      (Mod.takeToken_abort x mine).trans (Mod.takeAbort_leaf running leaf a)
    refine ⟨fun free stream => abort (taken.trans (if_neg ?_)), fun stands => abort (taken.trans (if_pos stands))⟩
    simp [free, stream]

end Sys2Proof
end

section
/-!
PROOFS. Submissions of the host's mailboxes: the doorbell, the records that a core takes, what each OP does, and the
completions (R147, R148, R292, R310, R372, R374, R378).
-/
namespace Sys2Proof.Machine

/-! ### CCMB_IN_HEAD (R374, R378) -/

section
variable {m : Mod} {core : Nat}

theorem winBlock_mailbox (small : core < 16) : winBlock (0x200000 + core * 0x10000) = .mailbox core 0 := by
  unfold winBlock
  rw [if_neg (by omega), if_neg (by omega), if_pos (by omega)]
  congr 1 <;> omega

theorem winParts_mailbox (small : core < 16) :
    winParts (0x200000 + core * 0x10000) 8 = [(0x200000 + core * 0x10000, 8)] := by
  have aligned : (0x200000 + core * 0x10000) % 4096 = 0 := by omega
  simp only [winParts, winBlock_mailbox small, aligned]
  rfl

/-- A write of CCMB_IN_HEAD is the doorbell. -/
theorem Mod.writeMailbox_inHead (m : Mod) (core : Nat) (v : BitVec 16) :
    m.writeMailbox core 0 (leBytes 8 v.toNat) = some (m.mailboxHead core v) := by
  have wide : leBytes 8 v.toNat = regBytes (v.setWidth 64) := by
    rw [regBytes, BitVec.toNat_setWidth_of_le (by decide)]
  have value : BitVec.ofNat 16 (v.setWidth 64).toNat = v := by
    rw [BitVec.toNat_setWidth_of_le (by decide), BitVec.ofNat_toNat, BitVec.setWidth_eq]
  have merged (old : Nat) : BitVec.ofNat 16 (regMerge old 0 (leBytes 8 v.toNat)) = v := by
    rw [wide, regMerge_regBytes (off := 0) rfl, value]
  simp [Mod.writeMailbox, Mod.readMailbox, merged]

/-- The doorbell as the window takes it: while the window's blocks do not answer it is discarded and counted. -/
theorem Mod.serveHost_inHead (small : core < 16) (v : BitVec 16) :
    m.serveHost ⟨true, 0x200000 + core * 0x10000, leBytes 8 v.toNat, 0, false, 0, 0, none⟩
      = if m.jnl.ready then m.mailboxHead core v else m.unassignedWin := by
  have len : (leBytes 8 v.toNat).length = 8 := length_leBytes _ _
  have whole : (leBytes 8 v.toNat).take 8 = leBytes 8 v.toNat := List.take_of_length_le (by omega)
  have aligned : regAligned 0 (leBytes 8 v.toNat).length = true := by rw [len]; rfl
  have written : m.serveHost ⟨true, 0x200000 + core * 0x10000, leBytes 8 v.toNat, 0, false, 0, 0, none⟩
      = m.winWrite (0x200000 + core * 0x10000) (leBytes 8 v.toNat) false 0 := by
    simp only [Mod.serveHost, if_true, len, winParts_mailbox small, List.foldl_cons, List.foldl_nil, Nat.sub_self,
      List.drop_zero, whole]
  rw [written]
  cases ready : m.jnl.ready <;>
    simp [Mod.winWrite, winBlock_mailbox small, Mod.answers, ready, Mod.winReg, aligned, Mod.writeMailbox_inHead]

theorem Mod.mailboxHead_hostQ (m : Mod) (core : Nat) (v : BitVec 16) :
    (m.mailboxHead core v).jnl.hostQ = m.jnl.hostQ := by
  unfold Mod.mailboxHead
  dsimp only
  split <;> rfl

/-- The host writes CCMB_IN_HEAD by a request. -/
theorem Mod.hostReg_inHead (m : Mod) (core : Nat) (v : BitVec 16) :
    m.hostReg (0x200000 + core * 0x10000) (leBytes 8 v.toNat)
      = m.hostRequest ⟨true, 0x200000 + core * 0x10000, leBytes 8 v.toNat, 0, false, 0, 0, none⟩ := by
  have len : (leBytes 8 v.toNat).length = 8 := length_leBytes _ _
  exact m.memoryWritePacket_request _ (by omega) (by omega) _ _

/-- With no request held, the doorbell takes effect at once. -/
theorem Mod.hostReg_inHead_served (up : m.jnl.train.st = .up) (free : m.jnl.hostQ = []) (small : core < 16)
    (v : BitVec 16) : m.hostReg (0x200000 + core * 0x10000) (leBytes 8 v.toNat)
      = if m.jnl.ready then m.mailboxHead core v else m.unassignedWin := by
  rw [Mod.hostReg_inHead]
  refine Mod.hostRequest_served up free rfl ?_ (Mod.serveHost_inHead small v) ?_
  · simp [winBlock_mailbox small]
  · split
    · exact (m.mailboxHead_hostQ core v).trans free
    · exact free

end

/-! ### MAILBOX_RECORD (R147, R310, R378) -/

section
variable {m : Mod} {core : Nat}

/-- The submission that stands next in a core's mailbox. -/
def Mod.nextSubmission (m : Mod) (core : Nat) : Submission :=
  ⟨core, (m.mailbox core).inTail.toNat,
    BitVec.ofNat 1024 (leNat (m.readCore core (0x1000 + (m.mailbox core).inTail.toNat % 256 * 128) 128)), [], 0, 0, none,
    false, 0#8⟩

/-- The core has taken the next record of its mailbox, and keeps it as the given submission. -/
def Mod.takeSubmission (m : Mod) (core : Nat) (s : Submission) : Mod :=
  let n := m.setMailbox core { m.mailbox core with inTail := (m.mailbox core).inTail + 1 }
  { n with attn := { n.attn with subs := n.attn.subs ++ [s] } }

theorem Mod.mailboxRecord_shut (shut : (m.mailbox core).inHead = (m.mailbox core).inTail ∨ (m.mailbox core).blocked = true
    ∨ bitOf m.boot.coresHeld.toNat core = true ∨ m.supplied 3 core = false) : m.mailboxRecord core = m := if_pos shut

/-- A submission that waits for the same barrier has the OP and the ENTRY of another one. -/
theorem Mod.duplicate_iff (m : Mod) (s : Submission) :
    m.attn.subs.any (fun x => decide (x.applied = false ∧ x.op = s.op ∧ x.entry = s.entry
      ∧ x.admitBarrier = s.admitBarrier)) = true
    ↔ ∃ x ∈ m.attn.subs, x.applied = false ∧ x.op = s.op ∧ x.entry = s.entry ∧ x.admitBarrier = s.admitBarrier := by
  simp only [List.any_eq_true, decide_eq_true_eq]

/-- A record is refused for its OP and reserved bits, then as a duplicate, then for a barrier already past; any other one
is kept. -/
theorem Mod.mailboxRecord_open (isOpen : ¬((m.mailbox core).inHead = (m.mailbox core).inTail
      ∨ (m.mailbox core).blocked = true ∨ bitOf m.boot.coresHeld.toNat core = true ∨ m.supplied 3 core = false)) :
    m.mailboxRecord core =
      if submitBad (m.nextSubmission core).word.toNat = true then
        (m.takeSubmission core { m.nextSubmission core with applied := true, status := stSubmitOpInvalid }).postSubs
          256 core
      else if m.attn.subs.any (fun x => decide (x.applied = false ∧ x.op = (m.nextSubmission core).op
          ∧ x.entry = (m.nextSubmission core).entry ∧ x.admitBarrier = (m.nextSubmission core).admitBarrier)) = true then
        (m.takeSubmission core { m.nextSubmission core with applied := true, status := stSubmitDuplicate }).postSubs
          256 core
      else if m.lea.st = .running ∧ (m.nextSubmission core).admitBarrier ≤ m.lea.barSeq.toNat then
        ((m.takeSubmission core (m.nextSubmission core)).refuseLate (m.nextSubmission core)).postSubs 256 core
      else m.takeSubmission core (m.nextSubmission core) := if_neg isOpen

end

/-! ### OPEN, PROMPT, PUBLISH, CANDIDATES and CLOSE (R310) -/

section
variable {m : Mod} {core op : Nat}

theorem Mod.subRow_barrier (later : m.running = true ∨ m.lea.st = .running) : m.subRow core op = m := if_pos later

theorem Mod.subRow_none (none : m.attn.subs.find? (fun s => s.core == core && !s.applied) = none) :
    m.subRow core op = m := by
  simp only [Mod.subRow, none, ite_self]

section
variable {x : Submission} (oldest : m.attn.subs.find? (fun s => s.core == core && !s.applied) = some x)
include oldest

theorem Mod.subRow_other (other : x.op ≠ op) : m.subRow core op = m := by
  simp only [Mod.subRow, oldest, if_neg other, ite_self]

theorem Mod.subRow_applies (stopped : m.running = false) (outside : m.lea.st ≠ .running) (same : x.op = op) :
    m.subRow core op = (m.applySub x).postSubs 256 core := by
  have now : ¬(m.running = true ∨ m.lea.st = .running) := not_or.2 ⟨Bool.eq_false_iff.1 stopped, outside⟩
  simp only [Mod.subRow, oldest, if_pos same, if_neg now]

end

/-- A submission has been applied or refused, with its status and the fence that its completion waits for. -/
def Mod.endSub (m : Mod) (x : Submission) (st : BitVec 8) (fence : Option (Nat × Nat)) : Mod :=
  m.setSub { x with applied := true, status := st, fence := fence }

section
variable (m : Mod) {x : Submission}

theorem Mod.applySub_open (op : x.op = 1) : m.applySub x =
    if m.seqLive x.entry = true then m.endSub x stSeqNotLive none
    else (((((m.setSeqField x.entry 160 1 1).setSeqField x.entry 128 32 0).setSeqField x.entry 162 5 0).setSeqField
      x.entry 768 64 (field x.word.toNat 128 64)).setSeqField x.entry 960 576 (field x.word.toNat 256 576)).endSub x 0#8
        none := by
  unfold Mod.applySub
  rw [op]
  rfl

theorem Mod.applySub_prompt (op : x.op = 2) : m.applySub x =
    if field x.word.toNat 192 32 = 0 then m.endSub x 0#8 none
    else if m.seqLive x.entry = false ∨ m.seqLen x.entry ≠ 0 then m.endSub x stSeqNotLive none
    else
      let n := m.setSeqField x.entry 928 32 (field x.word.toNat 192 32)
      (({ n with attn := { n.attn with
        prefill := n.attn.prefill ++ [⟨x.entry, field x.word.toNat 192 32, []⟩] } } : Mod).endSub x 0#8
          none).pumpTokens x := by
  unfold Mod.applySub
  rw [op]
  rfl

theorem Mod.applySub_publish (op : x.op = 3) : m.applySub x =
    if m.publishOk x.entry (field x.word.toNat 128 128) = true then
      (m.seqWrite (256 * x.entry) (leBytes 16 (field x.word.toNat 128 128)) (reqCore x.core)).endSub x 0#8
        (some (x.entry, field (field x.word.toNat 128 128) 0 16))
    else (m.publishRefuse x.entry (reqCore x.core)).endSub x stPublishGen none := by
  unfold Mod.applySub
  rw [op]
  rfl

theorem Mod.applySub_candidates (op : x.op = 4) : m.applySub x =
    let arg := field x.word.toNat 128 128
    if field arg 0 5 = 0 then m.endSub x 0#8 none
    else if m.seqLive x.entry = false then m.endSub x stSeqNotLive none
    else if candidatesOk arg = false then m.endSub x stCandInvalid none
    else ((((m.setSeqField x.entry 162 5 (field arg 0 5)).setSeqField x.entry 161 1 (field arg 5 1)).setSeqField x.entry
      192 64 (field arg 64 64)).setSeqField x.entry 256 512 (field x.word.toNat 256 512)).endSub x 0#8 none := by
  unfold Mod.applySub
  rw [op]
  rfl

/-- The prompts of an entry leave the prefill queue. -/
def Mod.withoutPrompts (m : Mod) (e : Nat) : Mod :=
  { m with attn := { m.attn with prefill := m.attn.prefill.filter (fun p => p.entry != e) } }

theorem Mod.seqGen_withoutPrompts (e : Nat) : (m.withoutPrompts e).seqGen e = m.seqGen e := rfl

theorem Mod.applySub_close (op : x.op = 5) : m.applySub x =
    ((m.setSeqField x.entry 160 1 0).withoutPrompts x.entry).endSub x 0#8
      (some (x.entry, (m.setSeqField x.entry 160 1 0).seqGen x.entry)) := by
  rw [← Mod.seqGen_withoutPrompts]
  unfold Mod.applySub
  rw [op]
  rfl

/-- A control core is not the host. -/
theorem reqCore_ne_reqHost {core : Nat} (small : core < 16) : reqCore core ≠ reqHost := by
  intro same
  have value : (reqCore core).toNat = 0x50000 := congrArg BitVec.toNat same
  rw [reqCore, BitVec.toNat_ofNat] at value
  omega

/-- A core's write of a publish word that advances GEN is taken (R292). -/
theorem Mod.seqWrite_publish {core e arg : Nat} (small : core < 16) (fits : arg < 2 ^ 128)
    (ok : m.publishOk e arg = true) : m.seqWrite (256 * e) (leBytes 16 arg) (reqCore core)
      = { m with attn := { m.attn with seqt := memWrite m.attn.seqt (256 * e) (leBytes 16 arg) } } := by
  have start : 256 * e % 256 = 0 := Nat.mul_mod_right 256 e
  have entry : 256 * e / 256 = e := Nat.mul_div_cancel_left e (by decide)
  have len : (leBytes 16 arg).length = 16 := length_leBytes _ _
  have word : leNat (leBytes 16 arg) = arg := leNat_leBytes 16 arg fits
  have nonempty : leBytes 16 arg ≠ [] := by simp [leBytes]
  have within : (leBytes 16 arg).take 256 = leBytes 16 arg := List.take_of_length_le (by omega)
  have rest : (leBytes 16 arg).drop 256 = [] := List.drop_of_length_le (by omega)
  simp [Mod.seqWrite, Mod.seqWriteIn, start, entry, len, word, nonempty, within, rest, ok, reqCore_ne_reqHost small]

end

end

/-! ### MAILBOX_COMPLETION (R148, R372, R378) -/

section
variable {m : Mod} {core : Nat}

theorem Mod.mailboxCompletion_empty (empty : (m.mailbox core).waiting = []) : m.mailboxCompletion core = m := by
  simp only [Mod.mailboxCompletion, empty]

theorem Mod.mailboxCompletion_oldest {rec : Bytes} {held : Option Nat} {rest : List (Bytes × Option Nat)}
    (oldest : (m.mailbox core).waiting = (rec, held) :: rest) : m.mailboxCompletion core =
      if held.isSome = true ∨ (m.mailbox core).room = false ∨ m.jnl.train.st ≠ .up then m
      else ((m.setMailbox core { m.mailbox core with waiting := rest, outHead := (m.mailbox core).outHead + 1 }).hostWrite
        ((m.mailbox core).outBase.toNat + 16 * ((m.mailbox core).outHead.toNat % 2 ^ (m.mailbox core).outSize.toNat)) rec
          false).interrupt (64 + core) := by
  unfold Mod.mailboxCompletion
  extract_lets b
  have found : b.waiting = (rec, held) :: rest := oldest
  rw [found]

end

end Sys2Proof.Machine

namespace Sys2Proof

open Machine

/-- Each command of a submission's OP has a core apply its oldest submission. -/
theorem turns_subRow {m : Mod} (powered : m.boot.powered = true) (core : Fin 16) :
    ∀ e ∈ [(Instr.openSub core, 1), (.prompt core, 2), (.publish core, 3), (.candidates core, 4), (.closeSub core, 5)],
      ∀ n, m.subRow core.val e.2 = n → Safety.Turns m e.1 n := by
  intro e listed n applied
  simp only [List.mem_cons, List.not_mem_nil, or_false] at listed
  rcases listed with rfl | rfl | rfl | rfl | rfl
  · exact turns_openSub powered core applied
  · exact turns_prompt powered core applied
  · exact turns_publish powered core applied
  · exact turns_candidates powered core applied
  · exact turns_closeSub powered core applied

/-- Settles O47: the doorbell, the record taken, the submission applied and the completion written are each one case of
their own function. -/
theorem submissionsAreTakenAppliedAndAnswered : Obligations.SubmissionsAreTakenAppliedAndAnswered := by
  unfold Obligations.SubmissionsAreTakenAppliedAndAnswered
  intro m core v powered b shut word s n add twice
  have record {n : Mod} (e : m.mailboxRecord core.val = n) := turns_mailboxRecord powered core e
  have completion {n : Mod} (e : m.mailboxCompletion core.val = n) := turns_mailboxCompletion powered core e
  have doorbell {n : Mod} (e : m.hostReg (0x200000 + core.val * 0x10000) (leBytes 8 v.toNat) = n) :=
    turns_ccmbInHead powered core v e
  refine ⟨fun isShut => record (Mod.mailboxRecord_shut isShut), ?reserved, ?taken, ?rows, ?ops,
    fun empty => completion (Mod.mailboxCompletion_empty empty), ?completions, ?doorbell⟩
  case reserved =>
    intro isOpen bad
    exact record ((Mod.mailboxRecord_open isOpen).trans (if_pos bad))
  case taken =>
    intro isOpen good
    have known := (Mod.mailboxRecord_open isOpen).trans (if_neg (Bool.eq_false_iff.1 good))
    refine ⟨fun again => record (known.trans (if_pos ((m.duplicate_iff s).2 again))), fun once running late => ?_,
      fun once early => ?_⟩
    · exact record (known.trans ((if_neg (mt (m.duplicate_iff s).1 once)).trans (if_pos ⟨running, late⟩)))
    · have inTime : ¬(m.lea.st = .running ∧ s.admitBarrier ≤ m.lea.barSeq.toNat) := fun past =>
        early.elim (fun outside => outside past.1) (fun before => Nat.not_le.2 before past.2)
      exact record (known.trans ((if_neg (mt (m.duplicate_iff s).1 once)).trans (if_neg inTime)))
  case rows =>
    intro e listed
    have turns := turns_subRow powered core e listed
    exact ⟨fun later => turns _ (Mod.subRow_barrier later), fun none => turns _ (Mod.subRow_none none),
      fun x oldest => ⟨fun other => turns _ (Mod.subRow_other oldest other),
        fun stopped outside same => turns _ (Mod.subRow_applies oldest stopped outside same)⟩⟩
  case ops =>
    intro x small u e arg ends
    refine ⟨fun op live => (m.applySub_open op).trans (if_pos live),
      fun op dead => (m.applySub_open op).trans (if_neg (Bool.eq_false_iff.1 dead)),
      fun op tokens unfit => (m.applySub_prompt op).trans ((if_neg tokens).trans (if_pos unfit)),
      fun op tokens live empty => (m.applySub_prompt op).trans ((if_neg tokens).trans (if_neg ?fit)),
      fun op refused => (m.applySub_publish op).trans (if_neg (Bool.eq_false_iff.1 refused)),
      fun op ok => (m.applySub_publish op).trans ((if_pos ok).trans ?published),
      fun op chosen dead => (m.applySub_candidates op).trans ((if_neg chosen).trans (if_pos dead)),
      fun op chosen live invalid => (m.applySub_candidates op).trans ((if_neg chosen).trans
        ((if_neg (ne_false_of_eq_true live)).trans (if_pos invalid))),
      fun op chosen live valid => (m.applySub_candidates op).trans ((if_neg chosen).trans
        ((if_neg (ne_false_of_eq_true live)).trans (if_neg (ne_false_of_eq_true valid)))),
      fun op none => (m.applySub_prompt op).trans (if_pos none),
      fun op none => (m.applySub_candidates op).trans (if_pos none),
      fun op => m.applySub_close op⟩
    case fit => exact not_or.2 ⟨ne_false_of_eq_true live, not_not_intro empty⟩
    case published =>
      have fits : field x.word.toNat 128 128 < 2 ^ 128 := Nat.mod_lt _ (Nat.two_pow_pos 128)
      exact congrArg (fun n : Mod => n.endSub x 0#8 (some (e, field arg 0 16))) (m.seqWrite_publish small fits ok)
  case completions =>
    intro rec held rest oldest
    have written := Mod.mailboxCompletion_oldest oldest
    refine ⟨fun waits => completion (written.trans (if_pos waits)),
      fun free room up => completion (written.trans (if_neg ?_))⟩
    rintro (isHeld | full | down)
    · rw [free] at isHeld
      exact absurd isHeld (by decide)
    · exact ne_false_of_eq_true room full
    · exact down up
  case doorbell =>
    intro fits q
    refine ⟨fun down => doorbell ?_, fun up => doorbell ?_, fun up free unready => doorbell ?_, fun up free ready => ?_⟩
    · exact (m.hostReg_inHead core v).trans (if_neg down)
    · exact (m.hostReg_inHead core v).trans (if_pos up)
    · rw [Mod.hostReg_inHead_served up free core.isLt v, unready]
      rfl
    · have rung : m.hostReg (0x200000 + core.val * 0x10000) (leBytes 8 v.toNat) = m.mailboxHead core v := by
        rw [Mod.hostReg_inHead_served up free core.isLt v, if_pos ready]
      exact ⟨fun fit => doorbell (rung.trans (if_pos fit)), fun beyond => doorbell (rung.trans (if_neg beyond))⟩

end Sys2Proof
end

section
/-!
PROOFS. The pacer: the highest pace within the cap, the limits that bound the allowance, and when a pace takes effect
(R429, R433, R434, R436, R437, R440).
-/
namespace Sys2Proof.Machine

/-! ### The highest pace that fits (R435, R437) -/

/-- The highest pace that fits does fit, unless it is the floor. -/
theorem highestPace_fits {fits : Nat → Bool} {p : Nat} (found : (allPaces.find? fits).getD 35 = p) (above : p ≠ 35) :
    fits p = true := by
  cases search : allPaces.find? fits with
  | none => exact absurd (found.symm.trans (by rw [search]; rfl)) above
  | some q =>
    rw [search] at found
    exact found ▸ List.find?_some search

/-- No pace above the highest one that fits does. -/
theorem not_fits_above_highestPace {fits : Nat → Bool} {p : Nat} (least : 35 ≤ p) (most : p ≤ 160)
    (above : (allPaces.find? fits).getD 35 < p) : fits p = false := by
  have place : 160 - (160 - p) = p := by omega
  rw [allPaces, List.find?_map] at above
  cases search : (List.range 126).find? (fits ∘ fun i => 160 - i) with
  | none =>
    have nowhere : (!fits (160 - (160 - p))) = true := List.find?_range_eq_none.1 search (160 - p) (by omega)
    rwa [place, Bool.not_eq_true'] at nowhere
  | some i =>
    rw [search] at above
    obtain ⟨-, -, earlier⟩ := List.find?_range_eq_some.1 search
    have earlierPace : 160 - p < i := by
      simp only [Option.map_some, Option.getD_some] at above
      omega
    have later : (!fits (160 - (160 - p))) = true := earlier (160 - p) earlierPace
    rwa [place, Bool.not_eq_true'] at later

/-- While a stream runs, a pace within the cap scales the measured power by the model's. -/
theorem capLimitOf_running (cap watts : Nat) {now : Nat} (runs : now ≠ 0) :
    capLimitOf cap watts now =
      (allPaces.find? fun p => decide (watts * modelPower p ≤ cap * modelPower now)).getD 35 := by
  simp only [capLimitOf, if_neg runs]

/-- With no stream, a pace within the cap is one whose model power is. -/
theorem capLimitOf_idle (cap watts : Nat) :
    capLimitOf cap watts 0 = (allPaces.find? fun p => decide (modelPower p ≤ cap * 420)).getD 35 := by
  simp only [capLimitOf, if_true]

/-- How far a window moves the rest fraction: what it is off the cap, in 32nds of the cap, halves up. -/
def restMove (cap watts : Nat) : Nat :=
  (64 * (if cap ≤ watts then watts - cap else cap - watts) + cap) / (2 * cap)

/-- The rest fraction rises with a window at the cap or above and falls with one below, within 0 to 48. -/
theorem restAfter_clamped {r : Nat} (rest : r ≤ 48) (cap watts : Nat) :
    (restAfter r cap watts : Int)
      = max 0 (min 48 (if cap ≤ watts then (r : Int) + restMove cap watts else r - restMove cap watts)) := by
  by_cases reached : cap ≤ watts
  · simp only [restAfter, restMove, if_pos reached]
    generalize (64 * (watts - cap) + cap) / (2 * cap) = half
    omega
  · simp only [restAfter, restMove, if_neg reached]
    generalize (64 * (cap - watts) + cap) / (2 * cap) = half
    omega

/-! ### The lowest limit (R433) -/

theorem le_foldl_limits_iff (ls : List (Nat × Nat)) (x top : Nat) :
    x ≤ ls.foldl (fun a e => min a e.2) top ↔ x ≤ top ∧ ∀ e ∈ ls, x ≤ e.2 := by
  induction ls generalizing top with
  | nil => exact ⟨fun low => ⟨low, nofun⟩, And.left⟩
  | cons e ls ih => simp only [List.foldl_cons, ih, Nat.le_min, List.forall_mem_cons, and_assoc]

theorem lowestLimit_le_top (ls : List (Nat × Nat)) : lowestLimit ls ≤ 160 :=
  ((le_foldl_limits_iff ls _ 160).1 (Nat.le_refl _)).1

theorem lowestLimit_le {ls : List (Nat × Nat)} {e : Nat × Nat} (listed : e ∈ ls) : lowestLimit ls ≤ e.2 :=
  ((le_foldl_limits_iff ls _ 160).1 (Nat.le_refl _)).2 e listed

/-- The limit of bit 2 with one more band taken into it. -/
def Mod.withBandLimit (m : Mod) (acc : Option Nat) (b : Nat) : Option Nat :=
  if isDark m.plan b then acc
  else match phaseLimit (failedPhases m.fuses b), acc with
    | some l, some a => some (min l a)
    | some l, none => some l
    | none, a => a

/-- A limit is formed, and it is at most `l`. -/
def LimitWithin (l : Nat) (o : Option Nat) : Prop := ∃ a, o = some a ∧ a ≤ l

section
variable {m : Mod} {l : Nat}

theorem Mod.withBandLimit_within {acc : Option Nat} (within : LimitWithin l acc) (b : Nat) :
    LimitWithin l (m.withBandLimit acc b) := by
  obtain ⟨a, rfl, low⟩ := within
  unfold Mod.withBandLimit
  split
  · exact ⟨a, rfl, low⟩
  · cases phaseLimit (failedPhases m.fuses b) with
    | none => exact ⟨a, rfl, low⟩
    | some k => exact ⟨min k a, rfl, Nat.le_trans (Nat.min_le_right k a) low⟩

theorem Mod.withBandLimit_own {b : Nat} (lit : isDark m.plan b = false)
    (limit : phaseLimit (failedPhases m.fuses b) = some l) (acc : Option Nat) :
    LimitWithin l (m.withBandLimit acc b) := by
  unfold Mod.withBandLimit
  rw [if_neg (ne_true_of_eq_false lit), limit]
  cases acc with
  | none => exact ⟨l, rfl, Nat.le_refl l⟩
  | some a => exact ⟨min l a, rfl, Nat.min_le_left l a⟩

theorem Mod.foldl_withBandLimit_within {acc : Option Nat} (within : LimitWithin l acc) (bs : List Nat) :
    LimitWithin l (bs.foldl m.withBandLimit acc) := by
  induction bs generalizing acc with
  | nil => exact within
  | cons b bs ih => exact ih (Mod.withBandLimit_within within b)

/-- The limit of bit 2 is at most that of any band that is not dark. -/
theorem Mod.phaseBit_within {b : Nat} (band : b < 16) (lit : isDark m.plan b = false)
    (limit : phaseLimit (failedPhases m.fuses b) = some l) : LimitWithin l m.phaseBit := by
  obtain ⟨before, after, bands⟩ := List.append_of_mem (List.mem_range.2 band)
  have formed : m.phaseBit = (List.range 16).foldl m.withBandLimit none := rfl
  rw [formed, bands, List.foldl_append, List.foldl_cons]
  exact Mod.foldl_withBandLimit_within (Mod.withBandLimit_own lit limit _) after

/-! ### The allowance (R433) -/

theorem Mod.floor_le_allowance : 35 ≤ m.allowance := Nat.le_max_left _ _

theorem Mod.allowance_le_top : m.allowance ≤ 160 := by
  have top := lowestLimit_le_top m.limits
  unfold Mod.allowance
  omega

/-- No limit in force is below the allowance, but for the floor. -/
theorem Mod.allowance_le {e : Nat × Nat} (listed : e ∈ m.limits) : m.allowance ≤ max 35 e.2 := by
  have low := lowestLimit_le listed
  unfold Mod.allowance
  omega

theorem Mod.allowance_floor {e : Nat × Nat} (listed : e ∈ m.limits) (floor : e.2 = 35) : m.allowance = 35 := by
  have most := Mod.allowance_le listed
  have least := m.floor_le_allowance
  omega

/-- A limit that may be absent, with its bit. -/
def limitOf (bit : Nat) (o : Option Nat) : List (Nat × Nat) :=
  match o with
  | some l => [(bit, l)]
  | none => []

/-- The limits that always stand, and the three that may be absent. -/
theorem Mod.limits_eq :
    m.limits = [(0, m.power.paceLimit.toNat), (1, m.power.capLimit)] ++ limitOf 2 m.phaseBit
      ++ [(3, m.thermal.limit.toNat), (4, m.thermal.coolantLimit.toNat), (5, m.power.ageLimit)]
      ++ limitOf 6 (if m.power.undervolt then some 35 else none)
      ++ limitOf 7 (if m.safe.active then some 35 else none) := rfl

/-- The limits that always stand: of the host, the cap, the temperature, the coolant and ageing. -/
theorem Mod.mem_limits_standing {e : Nat × Nat} (standing : e ∈ [(0, m.power.paceLimit.toNat), (1, m.power.capLimit)]
    ∨ e ∈ [(3, m.thermal.limit.toNat), (4, m.thermal.coolantLimit.toNat), (5, m.power.ageLimit)]) : e ∈ m.limits := by
  simp only [Mod.limits_eq, List.mem_append]
  rcases standing with first | second
  · exact .inl (.inl (.inl (.inl first)))
  · exact .inl (.inl (.inr second))

theorem Mod.mem_limits_phases {a : Nat} (formed : m.phaseBit = some a) : (2, a) ∈ m.limits := by
  simp only [Mod.limits_eq, List.mem_append, formed]
  exact .inl (.inl (.inl (.inr (List.mem_singleton.2 rfl))))

theorem Mod.mem_limits_undervolt (low : m.power.undervolt = true) : (6, 35) ∈ m.limits := by
  simp only [Mod.limits_eq, List.mem_append, low, if_true]
  exact .inl (.inr (List.mem_singleton.2 rfl))

theorem Mod.mem_limits_safe (active : m.safe.active = true) : (7, 35) ∈ m.limits := by
  simp only [Mod.limits_eq, List.mem_append, active, if_true]
  exact .inr (List.mem_singleton.2 rfl)

/-- The limit of a band's failed phases bounds the allowance. -/
theorem Mod.allowance_le_phaseLimit {b : Nat} (band : b < 16) (lit : isDark m.plan b = false)
    (limit : phaseLimit (failedPhases m.fuses b) = some l) : m.allowance ≤ max 35 l := by
  obtain ⟨a, formed, low⟩ := Mod.phaseBit_within band lit limit
  have bounded : m.allowance ≤ max 35 a := Mod.allowance_le (Mod.mem_limits_phases formed)
  omega

end

theorem phaseLimit_five_to_eight {f : Nat} (least : 5 ≤ f) (most : f ≤ 8) :
    phaseLimit f = some (160 * (24 - f) / 20) := by
  rw [phaseLimit, if_neg (by omega), if_pos most]

theorem phaseLimit_nine {f : Nat} (least : 9 ≤ f) : phaseLimit f = some 35 := by
  rw [phaseLimit, if_neg (by omega), if_neg (by omega)]

/-! ### A pace takes effect (R434, R436, R437, R440) -/

section
variable {m : Mod} {p : Nat}

theorem Mod.setPace_same (same : m.power.paceNow.toNat = p) : m.setPace p = m := if_pos same

theorem Mod.setPace_other (other : m.power.paceNow.toNat ≠ p) :
    m.setPace p = { m with power := { m.power with paceNow := BitVec.ofNat 8 p, rest := 0#8 } } := if_neg other

theorem Mod.deferPace_again (again : m.power.deferred = some p) : m.deferPace p = m := if_pos again

theorem Mod.deferPace_counts (other : m.power.deferred ≠ some p) :
    m.deferPace p = { m with power := { m.power with
      deferred := some p, paceDeferred := satAdd m.power.paceDeferred 1, slewTo := none } } := if_neg other

theorem Mod.movePace_same (same : p = m.power.paceNow.toNat) :
    m.movePace p = { m with power := { m.power with slewTo := none, deferred := none } } := if_pos same

theorem Mod.movePace_droop (other : p ≠ m.power.paceNow.toNat) (droop : m.power.droop = true) :
    m.movePace p = m.deferPace p := (if_neg other).trans (if_pos droop)

theorem Mod.movePace_calm (other : p ≠ m.power.paceNow.toNat) (calm : m.power.droop = false) :
    m.movePace p =
      if p < m.power.paceNow.toNat then { m.setPace p with power := { (m.setPace p).power with slewTo := none } }
      else { m with power := { m.power with slewTo := some p } } :=
  (if_neg other).trans (if_neg (ne_true_of_eq_false calm))

/-- A fall applies at this step boundary. -/
theorem Mod.movePace_falls (fall : p < m.power.paceNow.toNat) (calm : m.power.droop = false) :
    m.movePace p = { m with power := { m.power with
      paceNow := BitVec.ofNat 8 p, rest := 0#8, slewTo := none } } := by
  rw [Mod.movePace_calm (Nat.ne_of_lt fall) calm, if_pos fall, Mod.setPace_other (Nat.ne_of_gt fall)]

/-- A rise waits for the voltages. -/
theorem Mod.movePace_rises (rise : m.power.paceNow.toNat < p) (calm : m.power.droop = false) :
    m.movePace p = { m with power := { m.power with slewTo := some p } } := by
  rw [Mod.movePace_calm (Nat.ne_of_gt rise) calm, if_neg (Nat.lt_asymm rise)]

theorem Mod.slewDone_none (none : m.power.slewTo = none) : m.slewDone = m := by
  simp only [Mod.slewDone, none]

theorem Mod.slewDone_droop (slews : m.power.slewTo = some p) (droop : m.power.droop = true) :
    m.slewDone = m.deferPace p := by
  simp only [Mod.slewDone, slews, droop, if_true]

theorem Mod.slewDone_calm (slews : m.power.slewTo = some p) (calm : m.power.droop = false) :
    m.slewDone = { m.setPace p with power := { (m.setPace p).power with slewTo := none } } := by
  simp only [Mod.slewDone, slews, calm, Bool.false_eq_true, if_false]

/-! ### What a change of pace leaves of the published allowance -/

theorem Mod.setPace_paceAllow : (m.setPace p).power.paceAllow = m.power.paceAllow := by
  unfold Mod.setPace
  split <;> rfl

theorem Mod.deferPace_paceAllow : (m.deferPace p).power.paceAllow = m.power.paceAllow := by
  unfold Mod.deferPace
  split <;> rfl

theorem Mod.movePace_paceAllow : (m.movePace p).power.paceAllow = m.power.paceAllow := by
  rcases Nat.lt_trichotomy p m.power.paceNow.toNat with fall | same | rise
  · cases droop : m.power.droop with
    | true => rw [Mod.movePace_droop (Nat.ne_of_lt fall) droop, Mod.deferPace_paceAllow]
    | false => rw [Mod.movePace_falls fall droop]
  · rw [Mod.movePace_same same]
  · cases droop : m.power.droop with
    | true => rw [Mod.movePace_droop (Nat.ne_of_gt rise) droop, Mod.deferPace_paceAllow]
    | false => rw [Mod.movePace_rises rise droop]

/-- With no stream the new allowance has no change of pace to wait for. -/
theorem Mod.repace_stopped (stopped : m.stream.running = false) :
    m.repace = { m with power := { m.power with
      paceAllow := BitVec.ofNat 8 m.allowance, limitCause := BitVec.ofNat 16 m.limitCause
      slewTo := none, deferred := none } } := if_pos stopped

theorem Mod.repace_paceAllow : m.repace.power.paceAllow = BitVec.ofNat 8 m.allowance := by
  unfold Mod.repace
  extract_lets src shown src' lowered
  have low : lowered.power.paceAllow = BitVec.ofNat 8 m.allowance := by
    unfold lowered
    split
    · exact Mod.setPace_paceAllow
    · rfl
  split
  · rfl
  · split
    · exact low
    · exact Mod.movePace_paceAllow.trans low

end

end Sys2Proof.Machine
end

section
/-!
PROOFS. Power: what a failed phase, an overcurrent, a rail and the input do, the telemetry window and the cap, droop, the
stall of crossings, and ageing (R176, R178, R427, R429, R430, R432, R437, R438, R440, R441).
-/
namespace Sys2Proof.Machine

/-! ### Failed phases (R429) -/

/-- The module with one more phase of a band fused off. -/
def Mod.burnPhase (m : Mod) (b phase : Nat) : Mod :=
  { m with fuses := { m.fuses with
    phases := Map.set 0#24 m.fuses.phases b (Map.get 0#24 m.fuses.phases b ||| BitVec.ofNat 24 (2 ^ phase)) } }

/-- The module that has reported the phase and formed its allowance again. -/
def Mod.phaseCounted (m : Mod) (b phase : Nat) : Mod :=
  ((m.burnPhase b phase).raise .phaseFailed (unitId 1 b)
    (payload [i1 b, i1 phase, i1 (failedPhases (m.burnPhase b phase).fuses b)])).repace

section
variable {m : Mod} {b phase : Nat}

theorem Mod.phaseFailed_ignored
    (known : (Map.get 0#24 m.fuses.phases b).getLsbD phase = true ∨ isDark m.plan b = true) :
    m.phaseFailed b phase = m := if_pos known

section
variable (fresh : (Map.get 0#24 m.fuses.phases b).getLsbD phase = false) (lit : isDark m.plan b = false)
include fresh lit

/-- The number of failed phases decides what a new one does. -/
theorem Mod.phaseFailed_fresh :
    m.phaseFailed b phase =
      let f := failedPhases (m.burnPhase b phase).fuses b
      let r := m.phaseCounted b phase
      if f ≤ 4 then r
      else if f ≤ 8 then r.raise .phaseLimit (unitId 1 b) (payload [i1 b, i1 ((phaseLimit f).getD 0)])
      else if f ≤ 16 then r.bandDying b
      else (((r.leaveLea).bandDark b).raise .phaseCollapse (unitId 1 b) []).enterSafe 1 :=
  if_neg (not_or.2 ⟨ne_true_of_eq_false fresh, ne_true_of_eq_false lit⟩)

theorem Mod.phaseFailed_few (most : failedPhases (m.burnPhase b phase).fuses b ≤ 4) :
    m.phaseFailed b phase = m.phaseCounted b phase :=
  (Mod.phaseFailed_fresh fresh lit).trans (if_pos most)

theorem Mod.phaseFailed_limits (least : 5 ≤ failedPhases (m.burnPhase b phase).fuses b)
    (most : failedPhases (m.burnPhase b phase).fuses b ≤ 8) :
    m.phaseFailed b phase = (m.phaseCounted b phase).raise .phaseLimit (unitId 1 b)
      (payload [i1 b, i1 (160 * (24 - failedPhases (m.burnPhase b phase).fuses b) / 20)]) := by
  refine (Mod.phaseFailed_fresh fresh lit).trans ((if_neg (by omega)).trans ((if_pos most).trans ?_))
  rw [phaseLimit_five_to_eight least most, Option.getD_some]

theorem Mod.phaseFailed_dying (least : 9 ≤ failedPhases (m.burnPhase b phase).fuses b)
    (most : failedPhases (m.burnPhase b phase).fuses b ≤ 16) :
    m.phaseFailed b phase = (m.phaseCounted b phase).bandDying b :=
  (Mod.phaseFailed_fresh fresh lit).trans ((if_neg (by omega)).trans ((if_neg (by omega)).trans (if_pos most)))

theorem Mod.phaseFailed_collapse (least : 17 ≤ failedPhases (m.burnPhase b phase).fuses b) :
    m.phaseFailed b phase =
      (((m.phaseCounted b phase).leaveLea.bandDark b).raise .phaseCollapse (unitId 1 b) []).enterSafe 1 :=
  (Mod.phaseFailed_fresh fresh lit).trans
    ((if_neg (by omega)).trans ((if_neg (by omega)).trans (if_neg (by omega))))

end

theorem Mod.bandDying_stopped (stopped : m.stream.running = false) : m.bandDying b = m.leaveLea.bandDark b :=
  if_neg (ne_true_of_eq_false stopped)

theorem Mod.bandDying_again (running : m.stream.running = true) (dying : (m.band b).dyingAt.isSome = true) :
    m.bandDying b = m := (if_pos running).trans (if_pos dying)

theorem Mod.bandDying_waits (running : m.stream.running = true) (sound : (m.band b).dyingAt = none) :
    m.bandDying b = (m.setBand b { m.band b with dyingAt := some m.clock.timeUs }).leaveLea :=
  (if_pos running).trans (if_neg (by rw [sound]; exact Bool.false_ne_true))

theorem Mod.phaseLimitTimeout_calm (calm : m.stream.running = false ∨ m.dyingBands = []) :
    m.phaseLimitTimeout = m :=
  if_neg fun late => calm.elim (fun stopped => ne_true_of_eq_false stopped late.1) late.2

theorem Mod.phaseLimitTimeout_halts (running : m.stream.running = true) (dying : m.dyingBands ≠ []) :
    m.phaseLimitTimeout = (m.mgmtFault 0 0).haltStream.leaSignal := if_pos ⟨running, dying⟩

/-! ### Overcurrent, rails and the input (R427, R430) -/

theorem Mod.overcurrent_open (isOpen : (m.band b).closed = false) (current : BitVec 16) :
    m.overcurrent b current = m := if_neg (ne_true_of_eq_false isOpen)

theorem Mod.overcurrent_closed (closed : (m.band b).closed = true) (current : BitVec 16) :
    m.overcurrent b current =
      ((m.openHeaders b).raise .bandOvercurrent (unitId 1 b) (payload [i1 b, i2 current.toNat])).enterSafe 0 :=
  if_pos closed

/-- The module whose rail is marked out of tolerance. -/
def Mod.withRailBad (m : Mod) (rail : Nat) : Mod :=
  { m with power := { m.power with railBad := m.power.railBad ||| BitVec.ofNat 7 (2 ^ rail) } }

section
variable {rail : Nat} (mv : BitVec 16)

/-- The rails of the whole module stop it. -/
theorem Mod.railFault_module (feeds : rail ≤ 1) :
    m.railFault (rail + 1) mv =
      (((m.withRailBad rail).mgmtFault 0 0).raise .railFault noUnit
        (payload [i1 (rail + 1), i2 mv.toNat])).haltStream.leaSignal := by
  have units : railUnits (rail + 1) = [(0, 0)] := by
    rcases (by omega : rail = 0 ∨ rail = 1) with rfl | rfl <;> rfl
  simp only [Mod.railFault, units, List.foldl_cons, List.foldl_nil, List.mem_singleton, if_true]
  rfl

/-- The rails of the links bring down the hedgerow ports and the host link. -/
theorem Mod.railFault_links (feeds : rail = 2 ∨ rail = 3) :
    m.railFault (rail + 1) mv =
      (((List.range 36).foldl (fun k p => k.mgmtFault 7 p) (m.withRailBad rail)).mgmtFault 8 0).raise .railFault noUnit
        (payload [i1 (rail + 1), i2 mv.toNat]) := by
  have units : railUnits (rail + 1) = (List.range 36).map (fun p => (7, p)) ++ [(8, 0)] := by
    rcases feeds with rfl | rfl <;> rfl
  have others : (0, 0) ∉ (List.range 36).map (fun p => (7, p)) ++ [(8, 0)] := by decide
  simp only [Mod.railFault, units, if_neg others, List.foldl_append, List.foldl_map, List.foldl_cons, List.foldl_nil]
  rfl

/-- The rails of the memory bring down its stacks. -/
theorem Mod.railFault_stacks (feeds : 4 ≤ rail) (most : rail < 7) :
    m.railFault (rail + 1) mv =
      ((List.range 12).foldl (fun k s => k.mgmtFault 4 s) (m.withRailBad rail)).raise .railFault noUnit
        (payload [i1 (rail + 1), i2 mv.toNat]) := by
  have units : railUnits (rail + 1) = (List.range 12).map (fun s => (4, s)) := by
    rcases (by omega : rail = 4 ∨ rail = 5 ∨ rail = 6) with rfl | rfl | rfl <;> rfl
  have others : (0, 0) ∉ (List.range 12).map (fun s => (4, s)) := by decide
  simp only [Mod.railFault, units, if_neg others, List.foldl_map]
  rfl

end

theorem Mod.undervolt_again (low : m.power.undervolt = true) : m.undervolt = m := if_pos low

theorem Mod.undervolt_begins (sound : m.power.undervolt = false) :
    m.undervolt =
      (({ m with power := { m.power with undervolt := true } } : Mod).raise .inputUndervolt noUnit []).repace :=
  if_neg (ne_true_of_eq_false sound)

theorem Mod.undervoltEnd_none (sound : m.power.undervolt = false) : m.undervoltEnd = m :=
  if_neg (ne_true_of_eq_false sound)

theorem Mod.undervoltEnd_lifts (low : m.power.undervolt = true) :
    m.undervoltEnd = ({ m with power := { m.power with undervolt := false } } : Mod).repace := if_pos low

/-! ### The telemetry window and the cap (R432, R437, R438) -/

theorem listGet_eq_getD {α : Type} (d : α) (l : List α) (i : Nat) : listGet d l i = l.getD i d := by
  induction l generalizing i with
  | nil => rfl
  | cons x t ih => cases i with
    | zero => rfl
    | succ i => exact ih i

theorem listGet_map_range {α : Type} (d : α) (f : Nat → α) {n i : Nat} (inside : i < n) :
    listGet d ((List.range n).map f) i = f i := by
  rw [listGet_eq_getD, List.getD_eq_getElem?_getD, List.getElem?_map, List.getElem?_range inside, Option.map_some,
    Option.getD_some]

/-- The window's measurements published, and the cap loop run on them: the cap in force, its limit, the rest fraction. -/
def Mod.capStep (m : Mod) (w : PowerWindow) : Mod :=
  let n := m.publish w
  let cap := m.power.capNext.getD m.power.capW
  { n with power := { n.power with
    capW := cap, capNext := none
    capLimit := capLimitOf cap.toNat w.inputW.toNat (if m.stream.running then m.power.paceNow.toNat else 0)
    rest := if m.stream.running then BitVec.ofNat 8 (restAfter m.power.rest.toNat cap.toNat w.inputW.toNat) else 0#8 } }

theorem Mod.window_eq (w : PowerWindow) : m.window w = (m.capStep w).capWatch.repace := by
  have rest (cap : BitVec 16) : BitVec.ofNat 8
      (if m.stream.running = true then restAfter m.power.rest.toNat cap.toNat w.inputW.toNat else 0)
      = if m.stream.running = true then BitVec.ofNat 8 (restAfter m.power.rest.toNat cap.toNat w.inputW.toNat)
        else 0#8 := apply_ite _ _ _ _
  unfold Mod.capStep
  dsimp only
  rw [← rest]
  rfl

/-- The cap has been reported, and no window has been within it since. -/
def Mod.overAgain (m : Mod) : Bool := m.power.overRaised && decide (m.power.capW.toNat < m.power.inputW.toNat)

/-- The module that counts so many windows in a row above the cap. -/
def Mod.countOver (m : Mod) (run : Nat) (told : Bool) : Mod :=
  { m with power := { m.power with overWindows := run, overRaised := told } }

theorem Mod.capWatch_within (within : ¬102 * m.power.capW.toNat < 100 * m.power.inputW.toNat) :
    m.capWatch = m.countOver 0 m.overAgain := by
  simp only [Mod.capWatch, within, decide_false, Bool.false_eq_true, if_false]
  rfl

section
variable (above : 102 * m.power.capW.toNat < 100 * m.power.inputW.toNat)
include above

theorem Mod.capWatch_above :
    m.capWatch = if 19 ≤ m.power.overWindows ∧ m.overAgain = false
      then ({ m with power := { m.power with
        overWindows := m.power.overWindows + 1, overRaised := true
        capExceed := satAdd m.power.capExceed 1 } } : Mod).raise .capExceeded noUnit []
      else m.countOver (m.power.overWindows + 1) m.overAgain := by
  simp only [Mod.capWatch, above, decide_true, if_true, Nat.succ_le_succ_iff]
  rfl

theorem Mod.capWatch_counts (quiet : m.overAgain = true ∨ m.power.overWindows < 19) :
    m.capWatch = m.countOver (m.power.overWindows + 1) m.overAgain := by
  refine (Mod.capWatch_above above).trans (if_neg ?_)
  rintro ⟨long, untold⟩
  rcases quiet with told | short
  · exact ne_true_of_eq_false untold told
  · exact Nat.not_le.2 short long

theorem Mod.capWatch_raises (untold : m.overAgain = false) (long : 19 ≤ m.power.overWindows) :
    m.capWatch = ({ m with power := { m.power with
      overWindows := m.power.overWindows + 1, overRaised := true
      capExceed := satAdd m.power.capExceed 1 } } : Mod).raise .capExceeded noUnit [] :=
  (Mod.capWatch_above above).trans (if_pos ⟨long, untold⟩)

end

/-! ### CAP_W and PACE_LIMIT (R434, R437) -/

section
variable {n : Mod} {w lo hi i sub : Nat} {v : BitVec w} (serves : Safety.Serves m) (fd : Bool)
  (check : m.writeCheck i sub ((w + 7) / 8) = 0)
  (effect : m.objEffect i sub (regBytes v) ObjIn.none = inRange lo hi v.toNat m (0, n))
include serves check effect

theorem Mod.sdoPut_belowRange (low : v.toNat < lo) : m.sdoPut fd i sub v = Safety.refused m fd i sub 0x06090032 :=
  Mod.sdoPut_refused serves fd check (effect.trans (if_pos low)) (by decide) serves.serving serves.calm

theorem Mod.sdoPut_aboveRange (range : lo ≤ hi) (high : hi < v.toNat) :
    m.sdoPut fd i sub v = Safety.refused m fd i sub 0x06090031 :=
  Mod.sdoPut_refused serves fd check (effect.trans ((if_neg (by omega)).trans (if_pos high))) (by decide)
    serves.serving serves.calm

theorem Mod.sdoPut_withinRange (least : lo ≤ v.toNat) (most : v.toNat ≤ hi) (serving : n.serving = true)
    (calm : n.inject.armed = false) : m.sdoPut fd i sub v = Safety.accepted n fd i sub :=
  Mod.sdoPut_accepted serves fd check (effect.trans ((if_neg (by omega)).trans (if_neg (by omega)))) serving calm

end

theorem Mod.capW_effect (m : Mod) (v : BitVec 16) :
    m.objEffect 0x2830 1 (regBytes v) ObjIn.none =
      inRange 650 3000 v.toNat m (0, { m with power := { m.power with capNext := some v } }) := by
  rw [effect_2830_1, ofNat_leNat_regBytes, leNat_regBytes]

theorem Mod.paceLimit_effect (m : Mod) (v : BitVec 8) :
    m.objEffect 0x2820 1 (regBytes v) ObjIn.none =
      inRange 35 160 v.toNat m (0, ({ m with power := { m.power with paceLimit := v } } : Mod).repace) := by
  rw [effect_2820_1, ofNat_leNat_regBytes, leNat_regBytes]

/-- The pacer leaves the node's service and an armed injection alone. -/
theorem Mod.repace_serving : m.repace.serving = m.serving ∧ m.repace.inject = m.inject := by
  obtain ⟨p, paced, -⟩ := repace_frame m
  rw [paced]
  exact ⟨rfl, rfl⟩

/-! ### Droop (R440) -/

theorem Mod.droopStart_again (droop : m.power.droop = true) :
    m.droopStart b = m.setBand b { m.band b with droop := true } := if_pos droop

/-- The module whose response to a band's droop has begun. -/
def Mod.droopBegun (m : Mod) (b : Nat) : Mod :=
  let n := m.setBand b { m.band b with droop := true }
  { n with power := { n.power with droop := true, droopSkip := true, droopCount := satAdd m.power.droopCount 1 } }

/-- A rise under way is deferred. -/
theorem Mod.droopStart_begins (calm : m.power.droop = false) :
    m.droopStart b = m.power.slewTo.elim (m.droopBegun b) (m.droopBegun b).deferPace := by
  refine (if_neg (ne_true_of_eq_false calm)).trans ?_
  change (match m.power.slewTo with
    | some p => (m.droopBegun b).deferPace p
    | none => m.droopBegun b) = _
  cases m.power.slewTo <;> rfl

theorem Mod.droopStart_still (calm : m.power.droop = false) (still : m.power.slewTo = none) :
    m.droopStart b = m.droopBegun b := by
  rw [Mod.droopStart_begins calm, still, Option.elim_none]

theorem Mod.droopStart_defers {p : Nat} (calm : m.power.droop = false) (slews : m.power.slewTo = some p) :
    m.droopStart b = (m.droopBegun b).deferPace p := by
  rw [Mod.droopStart_begins calm, slews, Option.elim_some]

/-- The module that has reported a band's severe droop. -/
def Mod.severeTold (m : Mod) (b : Nat) (peak : BitVec 16) : Mod :=
  ({ m.droopStart b with power := { (m.droopStart b).power with severe := true } } : Mod).raise .droopSevere (unitId 1 b)
    (payload [i1 b, i2 peak.toNat])

section
variable {peak : BitVec 16}

/-- The reduction lowers the pace of a running stream at once. -/
theorem Mod.severeDroop_lowers (running : (m.severeTold b peak).stream.running = true)
    (lower : (m.severeTold b peak).allowance < (m.severeTold b peak).power.paceNow.toNat) :
    m.severeDroop b peak = ((m.severeTold b peak).setPace (m.severeTold b peak).allowance).repace :=
  congrArg Mod.repace (if_pos ⟨running, lower⟩)

theorem Mod.severeDroop_keeps (keeps : (m.severeTold b peak).stream.running = false
      ∨ (m.severeTold b peak).power.paceNow.toNat ≤ (m.severeTold b peak).allowance) :
    m.severeDroop b peak = (m.severeTold b peak).repace :=
  congrArg Mod.repace (if_neg fun lowers =>
    keeps.elim (fun stopped => ne_true_of_eq_false stopped lowers.1) (fun high => Nat.not_le.2 lowers.2 high))

end

/-- The module whose response to droop has ended. -/
def Mod.droopOver (m : Mod) : Mod :=
  { m with power := { m.power with
    droop := false, droopSkip := false, deferred := none
    bands := m.power.bands.map (fun (c : Band) => { c with droop := false }) } }

theorem Mod.droopEnd_still (still : m.power.deferred = none) : m.droopEnd = m.droopOver.repace := by
  simp only [Mod.droopEnd, still]
  rfl

theorem Mod.droopEnd_moves {p : Nat} (deferred : m.power.deferred = some p) :
    m.droopEnd = (m.droopOver.movePace p).repace := by
  simp only [Mod.droopEnd, deferred]
  rfl

/-! ### The stall of crossings (R176, R178) -/

/-- The module whose band stalls its crossings no more. -/
def Mod.unstalled (m : Mod) (b : Nat) : Mod :=
  { m with tl := { m.tl with stalled := m.tl.stalled &&& ~~~BitVec.ofNat 16 (2 ^ b) } }

section
variable (ws : List CrossWindow)

theorem Mod.crossStallEnd_free (free : m.tl.recalWait = false) : m.crossStallEnd b ws = m.unstalled b :=
  if_neg (ne_true_of_eq_false free)

theorem Mod.crossStallEnd_waits (waits : m.tl.recalWait = true) :
    m.crossStallEnd b ws = (m.unstalled b).recalibrate ws := if_pos waits

/-- A recalibration that waits for another band's stall waits on. -/
theorem Mod.recalibrate_stalled (waits : m.tl.recalWait = true) (due : m.recalDue = true) (stalled : m.tl.stalled ≠ 0#16) :
    m.recalibrate ws = m := by
  have unchanged : ({ m with tl := { m.tl with recalWait := true } } : Mod) = m := by rw [← waits]
  exact (if_neg (ne_false_of_eq_true due)).trans ((if_pos stalled).trans unchanged)

theorem Mod.recalibrate_now (due : m.recalDue = true) (free : m.tl.stalled = 0#16) : m.recalibrate ws = m.recalNow ws :=
  (if_neg (ne_false_of_eq_true due)).trans (if_neg (not_not_intro free))

end

/-! ### Ageing (R441) -/

/-- A trim has room for one more step of 2.5 mV while it is at 37.5 mV or less. -/
theorem Mod.trimBand_eq :
    m.trimBand b =
      if 375 < Map.get 0 m.power.trims b then m.raise .ageingExhausted (unitId 1 b) []
      else
        (({ m with power := { m.power with
            trims := Map.set 0 m.power.trims b (Map.get 0 m.power.trims b + 25) } } : Mod).setBand b
          { m.band b with trimPending := (m.band b).trimPending + 25 }).raise .ageingTrim (unitId 1 b)
            (payload [i1 b, i2 (Map.get 0 m.power.trims b + 25)]) := by
  by_cases exhausted : 375 < Map.get 0 m.power.trims b
  · rw [if_pos exhausted]
    exact if_neg (by omega)
  · rw [if_neg exhausted]
    exact if_pos (by omega)

theorem Mod.ageingCheck_eq (lost : BitVec 16) :
    m.ageingCheck lost = (List.range 16).foldl
      (fun n c => if lost.getLsbD c = true ∧ (n.band c).closed = true then n.trimBand c else n) m := by
  simp only [Mod.ageingCheck, Bool.and_eq_true]
  rfl

end

end Sys2Proof.Machine

namespace Sys2Proof

open Machine

/-- Settles O55: each event is one case of its own operation, the cap and the rest fraction are what the cap loop searches
and clamps, and every limit in force bounds the allowance. -/
theorem powerFaultsAndLimitsSetThePace : Obligations.PowerFaultsAndLimitsSetThePace := by
  unfold Obligations.PowerFaultsAndLimitsSetThePace
  intro m fd band phase rail w x lost pl windows powered b old stopped
  have failed {n : Mod} (e : m.phaseFailed b phase.val = n) := turns_phaseOvercurrent powered band phase e
  have slew {n : Mod} (e : m.slewDone = n) := turns_slewComplete powered e
  refine ⟨fun known => failed (Mod.phaseFailed_ignored known), ?phases,
    fun calm => turns_phaseLimitTimeout powered (Mod.phaseLimitTimeout_calm calm),
    fun running dying => turns_phaseLimitTimeout powered (Mod.phaseLimitTimeout_halts running dying),
    fun isOpen => turns_regulatorOvercurrent powered band x (Mod.overcurrent_open isOpen x),
    fun closed => turns_regulatorOvercurrent powered band x (Mod.overcurrent_closed closed x), ?rails,
    fun low => turns_inputUndervoltage powered (Mod.undervolt_again low),
    fun sound => turns_inputUndervoltage powered (Mod.undervolt_begins sound),
    fun sound => turns_undervoltRecovery powered (Mod.undervoltEnd_none sound),
    fun low => turns_undervoltRecovery powered (Mod.undervoltEnd_lifts low), ?window, ?capLimit,
    fun r cap watts _ rest => restAfter_clamped rest cap watts, ?writes, ?paces, ?allowance,
    fun none => slew (Mod.slewDone_none none),
    fun p slews => ⟨fun droop => slew (Mod.slewDone_droop slews droop), fun calm => slew (Mod.slewDone_calm slews calm)⟩,
    ?droop, ?cleared, turns_droopReductionEnd powered rfl, ?stallEnd, ?ageing⟩
  case phases =>
    intro fresh lit n f r ends
    refine ⟨fun most => failed (Mod.phaseFailed_few fresh lit most),
      fun least most => failed (Mod.phaseFailed_limits fresh lit least most), fun least most => ?_,
      fun least => failed (Mod.phaseFailed_collapse fresh lit least)⟩
    have dying := Mod.phaseFailed_dying fresh lit least most
    exact ⟨fun halted => failed (dying.trans (Mod.bandDying_stopped halted)),
      fun running again => failed (dying.trans (Mod.bandDying_again running again)),
      fun running sound => failed (dying.trans (Mod.bandDying_waits running sound))⟩
  case rails =>
    intro n tell ends
    exact ⟨fun feeds => turns_railToleranceTimeout powered rail x (Mod.railFault_module x feeds),
      fun feeds => turns_railToleranceTimeout powered rail x (Mod.railFault_links x feeds),
      fun feeds => turns_railToleranceTimeout powered rail x (Mod.railFault_stacks x feeds rail.isLt)⟩
  case window =>
    intro n p
    refine ⟨fun i inside => listGet_map_range _ _ inside, fun i inside => listGet_map_range _ _ inside, rfl, rfl, rfl, rfl,
      rfl, ?_⟩
    intro cap k above again q
    have window {c : Mod} (watch : k.capWatch = c) : Safety.Turns m (.telemetryWindow w) c.repace :=
      turns_telemetryWindow powered w ((Mod.window_eq w).trans (congrArg Mod.repace watch))
    exact ⟨fun within => window (Mod.capWatch_within within),
      fun exceeds quiet => window (Mod.capWatch_counts exceeds quiet),
      fun exceeds untold long => window (Mod.capWatch_raises exceeds untold long)⟩
  case capLimit =>
    intro cap watts now p fits idle least most
    refine ⟨fun runs => ?_, fun stops => ?_⟩
    · rw [capLimitOf_running cap watts runs]
      exact ⟨fun found => of_decide_eq_true (highestPace_fits found.1 found.2),
        fun higher => of_decide_eq_false (not_fits_above_highestPace least most higher)⟩
    · rw [stops, capLimitOf_idle]
      exact ⟨fun found => of_decide_eq_true (highestPace_fits found.1 found.2),
        fun higher => of_decide_eq_false (not_fits_above_highestPace least most higher)⟩
  case writes =>
    intro serves
    have capCheck := check_2830_1 m
    have paceCheck := check_2820_1 m
    obtain ⟨serving, inject⟩ := Mod.repace_serving (m := { m with power := { m.power with paceLimit := pl } })
    exact ⟨fun low => turns_capW powered fd x (Mod.sdoPut_belowRange serves fd capCheck (m.capW_effect x) low),
      fun high => turns_capW powered fd x
        (Mod.sdoPut_aboveRange serves fd capCheck (m.capW_effect x) (by decide) high),
      fun least most => turns_capW powered fd x
        (Mod.sdoPut_withinRange serves fd capCheck (m.capW_effect x) least most serves.serving serves.calm),
      fun low => turns_paceLimit powered fd pl (Mod.sdoPut_belowRange serves fd paceCheck (m.paceLimit_effect pl) low),
      fun high => turns_paceLimit powered fd pl
        (Mod.sdoPut_aboveRange serves fd paceCheck (m.paceLimit_effect pl) (by decide) high),
      fun least most => turns_paceLimit powered fd pl
        (Mod.sdoPut_withinRange serves fd paceCheck (m.paceLimit_effect pl) least most
          (serving.trans serves.serving) ((congrArg Inject.armed inject).trans serves.calm))⟩
  case paces =>
    intro n p
    exact ⟨Mod.setPace_same, Mod.setPace_other, Mod.deferPace_again, Mod.deferPace_counts, Mod.movePace_same,
      Mod.movePace_droop, Mod.movePace_falls, Mod.movePace_rises⟩
  case allowance =>
    intro n a
    refine ⟨⟨Mod.floor_le_allowance, Mod.allowance_le_top⟩,
      fun low => Mod.allowance_floor (Mod.mem_limits_undervolt low) rfl,
      fun active => Mod.allowance_floor (Mod.mem_limits_safe active) rfl,
      Mod.allowance_le (Mod.mem_limits_standing (e := (0, _)) (.inl (.head _))),
      Mod.allowance_le (Mod.mem_limits_standing (e := (1, _)) (.inl (.tail _ (.head _)))),
      Mod.allowance_le (Mod.mem_limits_standing (e := (3, _)) (.inr (.head _))),
      Mod.allowance_le (Mod.mem_limits_standing (e := (4, _)) (.inr (.tail _ (.head _)))),
      Mod.allowance_le (Mod.mem_limits_standing (e := (5, _)) (.inr (.tail _ (.tail _ (.head _))))),
      fun c inside lit => ⟨fun least most => ?_, fun least => ?_⟩, Mod.repace_paceAllow, Mod.repace_stopped⟩
    · exact Mod.allowance_le_phaseLimit inside lit (phaseLimit_five_to_eight least most)
    · exact Nat.le_antisymm (Mod.allowance_le_phaseLimit inside lit (phaseLimit_nine least)) Mod.floor_le_allowance
  case droop =>
    intro n k d
    refine ⟨Mod.droopStart_again, Mod.droopStart_still, fun p => Mod.droopStart_defers,
      turns_droop powered band rfl, ?_, turns_crossingStall powered band rfl⟩
    intro r
    exact ⟨fun running lower => turns_severeDroop powered band x (Mod.severeDroop_lowers running lower),
      fun keeps => turns_severeDroop powered band x (Mod.severeDroop_keeps keeps)⟩
  case cleared =>
    intro n
    exact ⟨fun still => turns_droopCleared powered (Mod.droopEnd_still still),
      fun p deferred => turns_droopCleared powered (Mod.droopEnd_moves deferred)⟩
  case stallEnd =>
    intro n
    have waiting {k : Mod} (waits : m.tl.recalWait = true) (e : n.recalibrate windows = k) :
        Safety.Turns m (.crossingStallEnd band windows) k :=
      turns_crossingStallEnd powered band windows ((Mod.crossStallEnd_waits windows waits).trans e)
    exact ⟨fun free => turns_crossingStallEnd powered band windows (Mod.crossStallEnd_free windows free),
      fun waits stalled due => waiting waits (Mod.recalibrate_stalled windows waits due stalled),
      fun waits none => waiting waits (Mod.recalibrate_none none windows),
      fun waits due free => waiting waits (Mod.recalibrate_now windows due free)⟩
  case ageing =>
    intro trim
    have trims : trim = fun n c => n.trimBand c := funext fun n => funext fun c => Mod.trimBand_eq.symm
    rw [trims]
    exact turns_ageingCheck powered lost (Mod.ageingCheck_eq lost)

end Sys2Proof
end

section
/-!
PROOFS. Accesses to the stacks: what R225 holds, what reaches the controllers, the scrubber and the refreshes (R186, R192,
R196, R197, R202, R205, R206, R225).
-/
namespace Sys2Proof.Machine

/-! ### Accesses held while a program has their words (R225) -/

section
variable {m : Mod} {h : HeldAccess} {go : Mod → Mod}

theorem Mod.rangeHeld_free (free : m.gln.cells.any (fun e => e.2.active) = false) (a len : Nat) (write : Bool) :
    m.rangeHeld a len write = false := by
  rw [Mod.rangeHeld, free, Bool.false_and]

theorem Mod.orHold_free (free : m.gln.cells.any (fun e => e.2.active) = false) : m.orHold h go = go m := by
  rw [Mod.orHold, if_neg (ne_true_of_eq_false (Mod.rangeHeld_free free h.addr h.len h.write))]

theorem Mod.orHold_held (held : m.rangeHeld h.addr h.len h.write = true) {w : Nat}
    (word : m.heldWord h.addr h.len h.write = some w) : m.orHold h go = m.hold w h := by
  rw [Mod.orHold, if_pos held, word]

end

/-! ### Reads and writes (R186, R196, R197) -/

section
variable {m : Mod} {a : Nat} {req : BitVec 32} {err bs : Bytes} {poison : Bool}

theorem Mod.stackRead_outside (outside : inStacks (a / 32 * 32) = false) : m.stackRead a req err = m := if_pos outside

theorem Mod.stackRead_meta (inside : inStacks (a / 32 * 32) = true) (chunk : inMeta (a / 32 * 32) = true) :
    m.stackRead a req err = { m with rick := { m.rick with answer := [(List.replicate 32 0#8, false)] } } :=
  (if_neg (ne_false_of_eq_true inside)).trans (if_pos chunk)

/-- The word of a read is the controller's to deliver, unless a program has it. -/
theorem Mod.stackRead_word (inside : inStacks (a / 32 * 32) = true) (data : inMeta (a / 32 * 32) = false) :
    m.stackRead a req err =
      m.orHold ⟨a / 32 * 32, false, [], false, 32, req, 7, false, .direct, m.clock.timeUs⟩ (fun n =>
        let r := n.withStacks req
          (fun s => readWord s (decodeAddr s.s.placeActive (a / 32 * 32)).1 (a / 32 * 32) req 0 err)
        { r.2 with rick := { r.2.rick with answer := [r.1] } }) :=
  (if_neg (ne_false_of_eq_true inside)).trans (if_neg (ne_true_of_eq_false data))

theorem Mod.stackWrite_outside (outside : inStacks a = false) : m.stackWrite a bs poison req = m := if_pos outside

theorem Mod.stackWrite_inside (inside : inStacks a = true) :
    m.stackWrite a bs poison req =
      m.orHold ⟨a, true, bs, poison, bs.length, req, 7, false, .direct, m.clock.timeUs⟩
        (fun n => n.onStacks req (fun s => writeMem s a bs poison req)) :=
  if_neg (ne_false_of_eq_true inside)

end

/-! ### The merge timer (R197) and unsow requests (R202) -/

section
variable {m : Mod} {st : Nat}

theorem Mod.mergeExpired_nil (empty : (ctlOf m.memStacks st).merge = []) : m.mergeExpired st = m := by
  rw [Mod.mergeExpired, empty]

theorem Mod.mergeExpired_cons {e : MergeEntry} {rest : List MergeEntry}
    (oldest : (ctlOf m.memStacks st).merge = e :: rest) :
    m.mergeExpired st = m.onStacks e.writer (fun s => flushWord s e.word) := by
  rw [Mod.mergeExpired, oldest]

end

/-- What an unsow request is discarded for: its form, a metadata chunk or the end of the stacks, a write lock, and a
controller in FAULT. -/
theorem Mod.unsowAt_eq (m : Mod) (a : Nat) (whole strict : Bool) :
    let n := if whole then 2048 else 1024
    let w := (decodeAddr m.memStacks.placeActive a).1
    m.unsowAt a whole strict =
      if a % n ≠ 0 ∨ stackRangeOk a n = false
          ∨ m.memStacks.locks.any (fun r => decide (r.1 < a + n ∧ a ≤ r.2)) = true
          ∨ (ctlOf m.memStacks (stackOf w)).fault = true then m
      else m.onStacks noUnit (fun s => unsow s (blockOf w) whole (a / 1024 % 2) strict) := by
  simp only [Mod.unsowAt, ite_or]

theorem Mod.unsowRequest_eq (m : Mod) (a : Nat) (whole : Bool) :
    m.unsowRequest a whole =
      m.orHold ⟨a, true, [], false, if whole then 2048 else 1024, noUnit, 7, false, .unsow whole m.safe.fallowStrict,
        m.clock.timeUs⟩ (fun n => n.unsowAt a whole n.safe.fallowStrict) := rfl

/-! ### The scrubber (R205, R206) -/

/-- The word that a stack's scrubber reads next. -/
def Mod.scrubNext (m : Mod) (st : Nat) : Nat := st * 2 ^ 32 + (ctlOf m.memStacks st).scrub.pos

/-- Whether the block of the scrubber's next word is sown, and the module after its valid bit has been read. -/
def Mod.scrubLook (m : Mod) (st : Nat) : Bool × Mod :=
  m.withStacks reqMgmt (fun s => isSown s (blockOf (m.scrubNext st)))

section
variable {m : Mod} {st : Nat} {err : Bytes}

theorem Mod.wordHeld_inactive {w : Nat} (inactive : (m.glnOf (bankOf w)).active = false) (write : Bool) :
    m.wordHeld w write = false := by
  simp only [Mod.wordHeld, inactive, Bool.false_and]

theorem Mod.scrubRead_pauses (paused : (ctlOf m.memStacks st).selfRefresh = true ∨ (ctlOf m.memStacks st).fault = true) :
    m.scrubRead st err = m :=
  if_pos ((Bool.or_eq_true _ _).mpr paused)

section
variable (awake : (ctlOf m.memStacks st).selfRefresh = false) (sound : (ctlOf m.memStacks st).fault = false)
include awake sound

/-- An unsown block is passed over, and a word of a sown one is scrubbed unless a program has it, or has it to read while
it must be rewritten. -/
theorem Mod.scrubRead_awake :
    m.scrubRead st err =
      let n := (m.scrubLook st).2
      let w := m.scrubNext st
      let pos := (ctlOf m.memStacks st).scrub.pos
      let read := rsDecode (busRead ⟨n.memStacks, []⟩ w err).1
      if (m.scrubLook st).1 = false then n.scrubTo st ((pos / 64 + 1) * 64)
      else if n.wordHeld w false || (decide (read.1 = .single ∨ read.1 = .uncorrectable) && n.wordHeld w true) then n
      else (n.onStacks reqMgmt (fun s => scrubWord s w (encodeAddr s.s.placeActive w) err)).scrubTo st (pos + 1) :=
  if_neg (by rw [awake, sound]; decide)

theorem Mod.scrubRead_unsown (unsown : (m.scrubLook st).1 = false) :
    m.scrubRead st err = (m.scrubLook st).2.scrubTo st (((ctlOf m.memStacks st).scrub.pos / 64 + 1) * 64) :=
  (Mod.scrubRead_awake awake sound).trans (if_pos unsown)

section
variable (sown : (m.scrubLook st).1 = true)
include sown

theorem Mod.scrubRead_held (held : (m.scrubLook st).2.wordHeld (m.scrubNext st) false = true) :
    m.scrubRead st err = (m.scrubLook st).2 :=
  (Mod.scrubRead_awake awake sound).trans
    ((if_neg (ne_false_of_eq_true sown)).trans (if_pos (by rw [held, Bool.true_or])))

theorem Mod.scrubRead_free (inactive : ∀ g, ((m.scrubLook st).2.glnOf g).active = false) :
    m.scrubRead st err =
      ((m.scrubLook st).2.onStacks reqMgmt (fun s =>
        scrubWord s (m.scrubNext st) (encodeAddr s.s.placeActive (m.scrubNext st)) err)).scrubTo st
          ((ctlOf m.memStacks st).scrub.pos + 1) := by
  have untouched (write : Bool) : (m.scrubLook st).2.wordHeld (m.scrubNext st) write = false :=
    Mod.wordHeld_inactive (inactive _) write
  refine (Mod.scrubRead_awake awake sound).trans ((if_neg (ne_false_of_eq_true sown)).trans (if_neg ?_))
  rw [untouched, untouched, Bool.and_false]
  decide

end
end
end

end Sys2Proof.Machine

namespace Sys2Proof

open Machine

/-- Settles O39: each command is one case of its own operation, and an access that a program may have goes through the one
rule for held accesses. -/
theorem stackAccessesReachTheController : Obligations.StackAccessesReachTheController := by
  unfold Obligations.StackAccessesReachTheController
  intro m a bs poison whole postpone req err st bank powered b free place ctl n hold
  refine ⟨?outside, ?chunk, ?word, ?writeOutside, ?write, ?mergeNone, ?merge, ?unsowHeld, ?unsow, ?scrubPause, ?scrub,
    ?overdue, ?refresh⟩
  case outside => exact fun outside => turns_stackRead powered a req err (Mod.stackRead_outside outside)
  case chunk => exact fun inside chunk => turns_stackRead powered a req err (Mod.stackRead_meta inside chunk)
  case word =>
    intro inside data
    have reads := Mod.stackRead_word (m := m) (req := req) (err := err) inside data
    exact ⟨fun held w word => turns_stackRead powered a req err (reads.trans (Mod.orHold_held held word)),
      fun none => turns_stackRead powered a req err (reads.trans (Mod.orHold_free none))⟩
  case writeOutside =>
    exact fun outside => turns_stackWrite powered a bs poison req (Mod.stackWrite_outside outside)
  case write =>
    intro inside
    have writes := Mod.stackWrite_inside (m := m) (bs := bs) (poison := poison) (req := req) inside
    exact ⟨fun held w word => turns_stackWrite powered a bs poison req (writes.trans (Mod.orHold_held held word)),
      fun none => turns_stackWrite powered a bs poison req (writes.trans (Mod.orHold_free none))⟩
  case mergeNone => exact fun empty => turns_mergeTimerExpiry powered st (Mod.mergeExpired_nil empty)
  case merge => exact fun e rest oldest => turns_mergeTimerExpiry powered st (Mod.mergeExpired_cons oldest)
  case unsowHeld =>
    exact fun held w word =>
      turns_unsowRequest powered a whole ((m.unsowRequest_eq a.toNat whole).trans (Mod.orHold_held held word))
  case unsow =>
    exact fun none => turns_unsowRequest powered a whole ((m.unsowRequest_eq a.toNat whole).trans
      ((Mod.orHold_free none).trans (m.unsowAt_eq a.toNat whole m.safe.fallowStrict)))
  case scrubPause => exact fun paused => turns_scrubRead powered st err (Mod.scrubRead_pauses paused)
  case scrub =>
    intro awake sound w v
    exact ⟨fun unsown => turns_scrubRead powered st err (Mod.scrubRead_unsown awake sound unsown),
      fun sown _ inactive => turns_scrubRead powered st err (Mod.scrubRead_free awake sound sown inactive),
      fun sown held => turns_scrubRead powered st err (Mod.scrubRead_held awake sound sown held)⟩
  case overdue => exact turns_scrubOverdue powered st rfl
  case refresh => exact turns_refresh powered bank postpone rfl

end Sys2Proof
end

section
/-!
PROOFS. What a controller does to a word: it decodes, corrects, marks or counts it, and stores a whole one (R194 to R199,
R203, R204).
-/
namespace Sys2Proof.Machine

/-- A word of a sown block as a controller's decoder sees it: its class and bytes, and the stacks after the read. -/
def decodeSown (s : MS) (w : Nat) (err : Bytes) : (RsClass × Bytes) × MS :=
  let b := busRead (isSown (flushWord s w) (blockOf w)).2 w err
  (rsDecode b.1, b.2)

/-- What a demand read delivers for a word of a class, and what it leaves: a correction is counted, poison is marked and
counted, and an uncorrectable word is counted, latched and stored as poison (R196, R204, R208). -/
def delivered (cls : RsClass) (d : Bytes) (n : MS) (w addr : Nat) (req : BitVec 32) (src : Nat) : (Bytes × Bool) × MS :=
  match cls with
  | .clean => ((d, false), n)
  | .single => ((d, false), countCe n (stackOf w) addr)
  | .poison =>
    ((d, true), ({ n with s := { n.s with poisonReads := satAdd n.s.poisonReads 1 } }).emit (.poisonRead (stackOf w)))
  | .uncorrectable =>
    ((d, true), storeData ((countUe n (stackOf w) addr src).emit (.uncorrectable addr req)) w d true)

section
variable {s : MS} {w addr src : Nat} {req : BitVec 32} {err : Bytes}

theorem readWord_fault (fault : (ctlOf s.s (stackOf w)).fault = true) :
    readWord s w addr req src err = ((List.replicate 32 0#8, true), s) := if_pos fault

section
variable (sound : (ctlOf s.s (stackOf w)).fault = false)
include sound

theorem readWord_unsown (unsown : (isSown (flushWord s w) (blockOf w)).1 = false) :
    readWord s w addr req src err =
      let v := (isSown (flushWord s w) (blockOf w)).2
      ((List.replicate 32 0#8, false), { v with s := { v.s with unsownReads := satAdd v.s.unsownReads 1 } }) :=
  (if_neg (ne_true_of_eq_false sound)).trans (if_pos (ne_true_of_eq_false unsown))

theorem readWord_sown (sown : (isSown (flushWord s w) (blockOf w)).1 = true) {cls : RsClass}
    (decoded : (decodeSown s w err).1.1 = cls) :
    readWord s w addr req src err =
      delivered cls ((decodeSown s w err).1.2.take 32) (decodeSown s w err).2 w addr req src := by
  rw [← decoded]
  exact (if_neg (ne_true_of_eq_false sound)).trans (if_neg (not_not_intro sown))

end
end

/-! ### Counting and storing (R194, R196 to R198, R208) -/

section
variable (s : MS) (w st addr src : Nat) (d : Bytes)

theorem countUe_ueTotal : (countUe s st addr src).s.ueTotal = satAdd s.s.ueTotal 1 := rfl

/-- FIRST_UE latches the first uncorrectable word, with the source that found it. -/
theorem countUe_firstUe_first (first : s.s.ueTotal = 0#64) :
    (countUe s st addr src).s.firstUe = BitVec.ofNat 64 (addr % 2 ^ 52 + src * 2 ^ 52) := if_pos first

theorem storeData_marked :
    storeData s w d true =
      let n := busWrite s w (rsPoison d)
      { n with s := { n.s with poisonWrites := satAdd n.s.poisonWrites 1 } } := rfl

theorem storeData_clean : storeData s w d false = busWrite s w (rsEncode d) := rfl

end

end Sys2Proof.Machine

namespace Sys2Proof

open Machine

/-- Settles O40: a demand read is one case for each class that its word decodes to. -/
theorem wordsAreDecodedByTheController : Obligations.WordsAreDecodedByTheController := by
  unfold Obligations.WordsAreDecodedByTheController
  intro s w addr src req err d mark st v b x data
  have read (sound : (ctlOf s.s st).fault = false) (cls : RsClass) (sown : v.1 = true) (decoded : x.1 = cls) :
      readWord s w addr req src err = delivered cls data b.2 w addr req src := readWord_sown sound sown decoded
  exact ⟨readWord_fault, fun sound => ⟨readWord_unsown sound, read sound .clean, read sound .single, read sound .poison,
      read sound .uncorrectable⟩,
    countUe_ueTotal s st addr src, countUe_firstUe_first s st addr src, rfl, storeData_marked s w d,
    storeData_clean s w d⟩

end Sys2Proof
end

section
/-!
PROOFS. Placement and the checker's access: what refuses a PLACE_COMMIT, what a placement leaves, the guard of test mode and
the commands of the checker (R185, R207, R225).
-/
namespace Sys2Proof.Machine

/-! ### PLACE_COMMIT (R185) -/

section
variable {m : Mod}

/-- The module that shows a status of the placement. -/
def Mod.withPlaceResult (m : Mod) (st : BitVec 8) : Mod :=
  { m with memStacks := { m.memStacks with placeResult := st } }

/-- The module whose staged placement is in force, the blocks of the fields that changed unsown. -/
def Mod.placed (m : Mod) : Mod :=
  { m with memStacks :=
    { unsowFields m.memStacks (fun f => bitOf (m.memStacks.placeMode ^^^ m.memStacks.placeActive).toNat f) with
      placeActive := m.memStacks.placeMode, placeResult := 0#8 } }

theorem Mod.readyOrFenced_iff : m.readyOrFenced = true ↔ m.effective 0 0 = .ready ∨ m.effective 0 0 = .fenced :=
  decide_eq_true_iff

theorem Mod.readyOrFenced_eq_false (other : ¬(m.effective 0 0 = .ready ∨ m.effective 0 0 = .fenced)) :
    m.readyOrFenced = false :=
  decide_eq_false other

theorem Mod.placeCommit_effect : m.objEffect 0x3000 2 (regBytes 1#8) ObjIn.none = m.placeCommit := by
  rw [effect_3000_2, leNat_regBytes]
  exact if_pos rfl

theorem Mod.placeCommit_interleaved (interleaved : m.memStacks.placeMode.getLsbD 127 = false) :
    m.placeCommit = (0x08000022, m.withPlaceResult 0x42#8) := if_pos interleaved

theorem Mod.placeCommit_busy (bankLocal : m.memStacks.placeMode.getLsbD 127 = true)
    (busy : m.readyOrFenced = false ∨ m.dma.xfers ≠ [] ∨ m.dma.waiting ≠ []) :
    m.placeCommit = (0x08000022, m.withPlaceResult 0x43#8) :=
  (if_neg (ne_false_of_eq_true bankLocal)).trans (if_pos busy)

/-- An operation of the caches and the controllers that changes and causes nothing leaves the module. -/
theorem Mod.onRick_id {f : RM → RM} {req : BitVec 32} (uninjected : m.memStacks.inject = none)
    (same : f ⟨m.rick, ⟨m.memStacks, []⟩, [], m.clock.timeUs⟩ = ⟨m.rick, ⟨m.memStacks, []⟩, [], m.clock.timeUs⟩) :
    m.onRick req f = m := by
  simp only [Mod.onRick, Mod.withRick, same, List.foldl_nil, Mod.settleInject, uninjected]

/-- A slice of caches that hold nothing holds nothing. -/
theorem sliceOf_sets_empty {x : RM} (empty : ∀ k ∈ x.r.slices, k.sets = []) (n : Nat) : (sliceOf x n).sets = [] := by
  rw [sliceOf, listGet_eq_getD, List.getD_eq_getElem?_getD]
  cases slice : x.r.slices[n]? with
  | none => rfl
  | some k => exact empty k (List.mem_of_getElem? slice)

theorem dropFields_empty {x : RM} (empty : ∀ k ∈ x.r.slices, k.sets = []) (p : Nat → Bool) : dropFields x p = x := by
  unfold dropFields
  refine List.foldl_fixed' (fun n => ?_) _
  rw [sliceOf_sets_empty empty n, List.foldl_nil]

theorem Mod.placeCommit_places (bankLocal : m.memStacks.placeMode.getLsbD 127 = true) (ready : m.readyOrFenced = true)
    (noXfer : m.dma.xfers = []) (noWaiting : m.dma.waiting = []) (empty : ∀ k ∈ m.rick.slices, k.sets = [])
    (uninjected : m.memStacks.inject = none) : m.placeCommit = (0, m.placed) := by
  have mode : bitOf m.memStacks.placeMode.toNat 127 = true := bankLocal
  have dropped (changed : Nat → Bool) : m.onRick reqMgmt (fun x => dropFields x changed) = m :=
    Mod.onRick_id uninjected (dropFields_empty empty changed)
  simp only [Mod.placeCommit, mode, ready, noXfer, noWaiting, dropped, Bool.true_eq_false, ne_eq, not_true_eq_false,
    or_self, if_false]
  rfl

end

section
variable {m : Mod} (serves : Safety.Serves m) (fd : Bool)
include serves

theorem Mod.sdoPut_placeCommit_other {v : BitVec 8} (other : v ≠ 1#8) :
    m.sdoPut fd 0x3000 2 v = Safety.refused m fd 0x3000 2 0x06090030 :=
  (Mod.sdoPut_onlyOne serves fd (check_3000_2 m) (effect_3000_2 m _ _) fun _ => rfl).trans (if_pos other)

theorem Mod.sdoPut_placeCommit_refused {st : BitVec 8} (refuses : m.placeCommit = (0x08000022, m.withPlaceResult st)) :
    m.sdoPut fd 0x3000 2 1#8 = Safety.refused (m.withPlaceResult st) fd 0x3000 2 0x08000022 :=
  Mod.sdoPut_refused serves fd (check_3000_2 m) (Mod.placeCommit_effect.trans refuses) (by decide) serves.serving
    serves.calm

theorem Mod.sdoPut_placeCommit_places (places : m.placeCommit = (0, m.placed)) :
    m.sdoPut fd 0x3000 2 1#8 = Safety.accepted m.placed fd 0x3000 2 :=
  Mod.sdoPut_accepted serves fd (check_3000_2 m) (Mod.placeCommit_effect.trans places) serves.serving serves.calm

end

/-! ### Checker test mode (R207) -/

/-- The module once TEST_ENABLE has a value, the change reported. -/
def Mod.withTestEnable (m : Mod) (v : BitVec 8) : Mod :=
  if m.memStacks.testEnable = v then m
  else ({ m with memStacks := { m.memStacks with testEnable := v } } : Mod).raise .checkerTest noUnit []

section
variable {m : Mod}

theorem Mod.setTest_unready (unready : m.readyOrFenced = false) : m.setTest true = (0x08000022, m) :=
  if_pos ⟨rfl, unready⟩

theorem Mod.setTest_off : m.setTest false = (0, m.withTestEnable 0#8) :=
  (if_neg fun entry => Bool.false_ne_true entry.1).trans (apply_ite (Prod.mk 0) _ _ _).symm

theorem Mod.setTest_on (ready : m.readyOrFenced = true) : m.setTest true = (0, m.withTestEnable 1#8) :=
  (if_neg fun entry => ne_true_of_eq_false entry.2 ready).trans (apply_ite (Prod.mk 0) _ _ _).symm

theorem Mod.testEnable_effect (m : Mod) (v : BitVec 8) :
    m.objEffect 0x3040 1 (regBytes v) ObjIn.none = inRange 0 1 v.toNat m (m.setTest (v.toNat == 1)) := by
  rw [effect_3040_1, leNat_regBytes]

end

section
variable {m : Mod} (serves : Safety.Serves m) (fd : Bool)
include serves

theorem Mod.sdoPut_testEnable_noRight (noRight : m.hasRight 2 = false) (v : BitVec 8) :
    m.sdoPut fd 0x3040 1 v = Safety.refused m fd 0x3040 1 0x08000020 := by
  rw [Mod.sdoPut_checked serves fd (by rw [noauth_3040_1 m _ noRight]; decide), noauth_3040_1 m _ noRight]

variable (right : m.hasRight 2 = true)
include right

theorem Mod.sdoPut_testEnable_high {v : BitVec 8} (high : 1 < v.toNat) :
    m.sdoPut fd 0x3040 1 v = Safety.refused m fd 0x3040 1 0x06090031 :=
  Mod.sdoPut_refused serves fd (check_3040_1 m right) ((m.testEnable_effect v).trans (if_pos high)) (by decide)
    serves.serving serves.calm

theorem Mod.sdoPut_testEnable_unready (unready : m.readyOrFenced = false) :
    m.sdoPut fd 0x3040 1 1#8 = Safety.refused m fd 0x3040 1 0x08000022 :=
  Mod.sdoPut_refused serves fd (check_3040_1 m right) ((m.testEnable_effect 1#8).trans (Mod.setTest_unready unready))
    (by decide) serves.serving serves.calm

theorem Mod.sdoPut_testEnable_off :
    m.sdoPut fd 0x3040 1 0#8 = (m.withTestEnable 0#8).answer fd 0x3040 1 .done :=
  Mod.sdoPut_answered serves fd (check_3040_1 m right) ((m.testEnable_effect 0#8).trans Mod.setTest_off)

theorem Mod.sdoPut_testEnable_on (ready : m.readyOrFenced = true) :
    m.sdoPut fd 0x3040 1 1#8 = (m.withTestEnable 1#8).answer fd 0x3040 1 .done :=
  Mod.sdoPut_answered serves fd (check_3040_1 m right) ((m.testEnable_effect 1#8).trans (Mod.setTest_on ready))

end

/-! ### The commands of the checker (R207, R225) -/

/-- The module that shows a status of a checker command. -/
def Mod.withTestResult (m : Mod) (st : BitVec 8) : Mod :=
  { m with memStacks := { m.memStacks with testResult := st } }

/-- The access that a checker command waits as while a program has its word's bank. -/
def Mod.testAccess (m : Mod) (op : Nat) : HeldAccess :=
  ⟨m.memStacks.testAddr.toNat, true, m.memStacks.testData ++ m.memStacks.testCheck, false, 32, reqMgmt, 7, false, .test op,
    m.clock.timeUs⟩

/-- The word that TEST_ADDR names. -/
def Mod.testWord (m : Mod) : Nat := (decodeAddr m.memStacks.placeActive m.memStacks.testAddr.toNat).1

section
variable {m : Mod} {op : Nat}

theorem Mod.testCmd_disabled (disabled : m.memStacks.testEnable = 0#8) :
    m.testCmd op = (0x08000022, m.withTestResult 0x45#8) := if_pos disabled

section
variable (enabled : m.memStacks.testEnable ≠ 0#8)
include enabled

theorem Mod.testCmd_misplaced
    (misplaced : m.memStacks.testAddr.toNat % 32 ≠ 0 ∨ stackRangeOk m.memStacks.testAddr.toNat 32 = false) :
    m.testCmd op = (0, m.withTestResult 0x46#8) := (if_neg enabled).trans (if_pos misplaced)

/-- A command on a word of the stack region is held while a program has the word's bank. -/
theorem Mod.testCmd_placed (aligned : m.memStacks.testAddr.toNat % 32 = 0)
    (inside : stackRangeOk m.memStacks.testAddr.toNat 32 = true) :
    m.testCmd op =
      if (m.glnOf (bankOf m.testWord)).active then (0, m.hold m.testWord (m.testAccess op))
      else (0, m.testRun op m.memStacks.testAddr.toNat (m.memStacks.testData ++ m.memStacks.testCheck)) :=
  (if_neg enabled).trans
    (if_neg (not_or.2 ⟨not_not_intro aligned, ne_false_of_eq_true inside⟩))

end

theorem Mod.hold_serving (w : Nat) (h : HeldAccess) :
    (m.hold w h).serving = m.serving ∧ (m.hold w h).inject = m.inject := by
  simp only [Mod.hold]
  split <;> exact ⟨rfl, rfl⟩

/-- A command of the checker is a write of its number to TEST_CMD. -/
theorem turns_testCommand {fd : Bool} {n : Mod} {e : Instr × Nat}
    (listed : e ∈ [(Instr.rawWrite fd, 1), (.rawRead fd, 2), (.decodeRead fd, 3)]) (powered : m.boot.powered = true)
    (put : m.sdoPut fd 0x3040 5 (BitVec.ofNat 8 e.2) = n) : Safety.Turns m e.1 n := by
  simp only [List.mem_cons, List.not_mem_nil, or_false] at listed
  rcases listed with rfl | rfl | rfl
  · exact turns_rawWrite powered fd put
  · exact turns_rawRead powered fd put
  · exact turns_decodeRead powered fd put

theorem Mod.testCmd_effect {fd : Bool} {e : Instr × Nat}
    (listed : e ∈ [(Instr.rawWrite fd, 1), (.rawRead fd, 2), (.decodeRead fd, 3)]) :
    m.objEffect 0x3040 5 (regBytes (BitVec.ofNat 8 e.2)) ObjIn.none = m.testCmd e.2 := by
  rw [effect_3040_5, leNat_regBytes]
  simp only [List.mem_cons, List.not_mem_nil, or_false] at listed
  rcases listed with rfl | rfl | rfl <;> rfl

end

end Sys2Proof.Machine

namespace Sys2Proof

open Machine

/-- Settles O41: each write is refused by the first guard that it fails, and otherwise has its one effect. -/
theorem placementAndCheckerAreGuarded : Obligations.PlacementAndCheckerAreGuarded := by
  unfold Obligations.PlacementAndCheckerAreGuarded
  intro m fd v powered serves s ready changed refusePlace place setTest
  have unready (other : ¬ready) : m.readyOrFenced = false := Mod.readyOrFenced_eq_false other
  refine ⟨?other, ?interleaved, ?busy, ?places, ?noRight, fun right => ⟨?high, ?unready, ?sets⟩, ?commands⟩
  case other => exact fun other => turns_placeCommit powered fd v (Mod.sdoPut_placeCommit_other serves fd other)
  case interleaved =>
    exact fun interleaved => turns_placeCommit powered fd 1#8
      (Mod.sdoPut_placeCommit_refused serves fd (Mod.placeCommit_interleaved interleaved))
  case busy =>
    exact fun bankLocal busy => turns_placeCommit powered fd 1#8
      (Mod.sdoPut_placeCommit_refused serves fd (Mod.placeCommit_busy bankLocal (busy.imp_left unready)))
  case places =>
    exact fun bankLocal isReady noXfer noWaiting empty uninjected => turns_placeCommit powered fd 1#8
      (Mod.sdoPut_placeCommit_places serves fd (Mod.placeCommit_places bankLocal (Mod.readyOrFenced_iff.2 isReady) noXfer
        noWaiting empty uninjected))
  case noRight =>
    exact fun noRight => turns_testEnable powered fd v (Mod.sdoPut_testEnable_noRight serves fd noRight v)
  case high => exact fun high => turns_testEnable powered fd v (Mod.sdoPut_testEnable_high serves fd right high)
  case unready =>
    rintro rfl other
    exact turns_testEnable powered fd 1#8 (Mod.sdoPut_testEnable_unready serves fd right (unready other))
  case sets =>
    rintro (rfl | ⟨rfl, isReady⟩)
    · exact turns_testEnable powered fd 0#8 (Mod.sdoPut_testEnable_off serves fd right)
    · exact turns_testEnable powered fd 1#8
        (Mod.sdoPut_testEnable_on serves fd right (Mod.readyOrFenced_iff.2 isReady))
  case commands =>
    intro e listed a w bs
    have effect := Mod.testCmd_effect (m := m) listed
    have check := check_3040_5 m
    refine ⟨fun disabled => ?_, fun enabled misplaced => ?_, fun enabled aligned inside active => ?_,
      fun enabled aligned inside inactive => ?_⟩
    · exact turns_testCommand listed powered (Mod.sdoPut_refused serves fd check
        (effect.trans (Mod.testCmd_disabled disabled)) (by decide) serves.serving serves.calm)
    · exact turns_testCommand listed powered (Mod.sdoPut_accepted serves fd check
        (effect.trans (Mod.testCmd_misplaced enabled misplaced)) serves.serving serves.calm)
    · obtain ⟨serving, inject⟩ := Mod.hold_serving (m := m) w (m.testAccess e.2)
      exact turns_testCommand listed powered (Mod.sdoPut_accepted serves fd check
        (effect.trans ((Mod.testCmd_placed enabled aligned inside).trans (if_pos active)))
        (serving.trans serves.serving) ((congrArg Inject.armed inject).trans serves.calm))
    · exact turns_testCommand listed powered (Mod.sdoPut_answered serves fd check
        (effect.trans ((Mod.testCmd_placed enabled aligned inside).trans (if_neg (ne_true_of_eq_false inactive)))))

end Sys2Proof
end

section
/-!
PROOFS. Gleaners: launches and their checks, aborts, program stores, starts, the watchdog and the delivery of completions
(R213, R215, R217, R218, R227, R230 to R233).
-/
namespace Sys2Proof.Machine

/-! ### Launches (R217) -/

/-- A gleaner that a direct launch write has given the fields of GLN_CTRL. -/
def Gleaner.asked (x : Gleaner) (v : BitVec 64) : Gleaner :=
  { x with
    entry := BitVec.ofNat 9 (field v.toNat 8 9), tag := BitVec.ofNat 8 (field v.toNat 24 8)
    cc := BitVec.ofNat 5 (field v.toNat 32 5), held := 0#16, elapsed := 0#16, group := false }

/-- The module in which a direct launch of a gleaner is refused with a status. -/
def Mod.launchRefused (m : Mod) (g : Nat) (v : BitVec 64) (code : BitVec 8) : Mod :=
  ({ m with gln := { m.gln with endedNotOk := satAdd m.gln.endedNotOk 1 } } : Mod).glnDone g
    { (m.glnOf g).asked v with state := .done, status := code } false

/-- The module in which a direct launch of a gleaner begins its preparation. -/
def Mod.launchBegun (m : Mod) (g : Nat) (v : BitVec 64) : Mod :=
  let n := m.setGln g { (m.glnOf g).asked v with state := .preparing, timeNs := 0, locked := false, openRow := none }
  { n with gln := { n.gln with launches := satAdd n.gln.launches 1 } }

section
variable {m : Mod} {g : Nat} {v : BitVec 64}

theorem Mod.glnLaunch_busy (busy : (m.glnOf g).active = true ∨ (m.glnOf g).waiting.isSome = true) :
    m.glnLaunch g v false = { m with gln := { m.gln with
      rejectedWrites := satAdd m.gln.rejectedWrites 1, endedNotOk := satAdd m.gln.endedNotOk 1 } } :=
  if_pos busy

section
variable (idle : ¬((m.glnOf g).active = true ∨ (m.glnOf g).waiting.isSome = true))
include idle

/-- The status of a launch that is not busy is that of its first failed check. -/
theorem Mod.glnLaunch_idle {code : BitVec 8}
    (checked : (if m.glnUnavailable g then stGlnUnavailable else if (m.glnOf g).faulted then stGlnFaulted
      else if ¬launchValid g ((m.glnOf g).asked v) then stGlnLaunchInvalid else 0#8) = code) :
    m.glnLaunch g v false = if code ≠ 0#8 then m.launchRefused g v code else m.launchBegun g v := by
  subst checked
  exact if_neg idle

theorem Mod.glnLaunch_unavailable (unavailable : m.glnUnavailable g = true) :
    m.glnLaunch g v false = m.launchRefused g v 0x58#8 :=
  Mod.glnLaunch_idle idle (if_pos unavailable)

variable (available : m.glnUnavailable g = false)
include available

theorem Mod.glnLaunch_faulted (faulted : (m.glnOf g).faulted = true) :
    m.glnLaunch g v false = m.launchRefused g v 0x57#8 :=
  Mod.glnLaunch_idle idle ((if_neg (ne_true_of_eq_false available)).trans (if_pos faulted))

variable (sound : (m.glnOf g).faulted = false)
include sound

theorem Mod.glnLaunch_invalid (invalid : launchValid g ((m.glnOf g).asked v) = false) :
    m.glnLaunch g v false = m.launchRefused g v 0x51#8 :=
  Mod.glnLaunch_idle idle ((if_neg (ne_true_of_eq_false available)).trans
    ((if_neg (ne_true_of_eq_false sound)).trans (if_pos (ne_true_of_eq_false invalid))))

theorem Mod.glnLaunch_valid (valid : launchValid g ((m.glnOf g).asked v) = true) :
    m.glnLaunch g v false = m.launchBegun g v :=
  Mod.glnLaunch_idle idle ((if_neg (ne_true_of_eq_false available)).trans
    ((if_neg (ne_true_of_eq_false sound)).trans (if_neg (not_not_intro valid))))

end

/-- A launch through the broadcast window makes a group in each stack that it reaches, and launches every gleaner in
turn. -/
theorem Mod.glnGo_group {t : GlnTarget} (group : t.isGroup = true) :
    m.glnGo t v =
      let hit := (List.range 12).filter (fun s => t.list.any (fun g => g / 1024 = s))
      let new : List GlnGroup := hit.map (fun s => ⟨s, BitVec.ofNat 5 (field v.toNat 32 5),
        BitVec.ofNat 8 (field v.toNat 24 8), t.list.filter (fun g => g / 1024 = s), 0, 0, none, 0#16⟩)
      t.list.foldl (fun (n : Mod) g => n.glnLaunch g v true)
        { m with gln := { m.gln with groups := m.gln.groups ++ new } } := by
  simp only [Mod.glnGo, group, if_true]

end

/-! ### Aborts and the watchdog (R227, R230) -/

section
variable {m : Mod} {g : Nat}

theorem Gleaner.active_iff {x : Gleaner} : x.active = true ↔ x.state = .preparing ∨ x.state = .running :=
  decide_eq_true_iff

theorem Mod.glnAbort_running (running : (m.glnOf g).state = .running) :
    m.glnAbort g = m.glnFinish g (m.glnOf g) 0x56#8 false true := if_pos running

theorem Mod.glnAbort_preparing (preparing : (m.glnOf g).state = .preparing) :
    m.glnAbort g = m.glnFinish g (m.glnOf g) 0x56#8 false false :=
  (if_neg (by rw [preparing]; decide)).trans (if_pos preparing)

/-- An ABORT ends a program that prepares or runs. -/
theorem Mod.glnCtrlAbort_active {h : Fin 12288} {v : BitVec 64} (active : (m.glnOf h.val).active = true) :
    m.glnCtrlAbort (.one h) v = m.glnAbort h.val := if_pos active

/-- An ABORT of a gleaner at rest only writes the fields of GLN_CTRL. -/
theorem Mod.glnCtrlAbort_inactive {h : Fin 12288} {v : BitVec 64} (inactive : (m.glnOf h.val).active = false) :
    m.glnCtrlAbort (.one h) v = m.setGln h.val { m.glnOf h.val with
      entry := BitVec.ofNat 9 (field v.toNat 8 9), tag := BitVec.ofNat 8 (field v.toNat 24 8)
      cc := BitVec.ofNat 5 (field v.toNat 32 5) } :=
  (if_neg (ne_true_of_eq_false inactive)).trans (if_neg (ne_true_of_eq_false inactive))

theorem Mod.glnWatchdog_stopped (stopped : (m.glnOf g).state ≠ .running) : m.glnWatchdog g = m := if_neg stopped

theorem Mod.glnWatchdog_running (running : (m.glnOf g).state = .running) :
    m.glnWatchdog g = m.glnFinish g (m.glnOf g) 0x55#8 false true := if_pos running

/-! ### Program stores and starts (R215, R218) -/

theorem Mod.writeStores_word (m : Mod) (t : GlnTarget) (word : Nat) (v : BitVec 64) :
    m.writeStores t (8 * word) (leBytes 8 v.toNat) = t.list.foldl (fun (n : Mod) g =>
      if (n.glnOf g).active then { n with gln := { n.gln with rejectedWrites := satAdd n.gln.rejectedWrites 1 } }
      else n.setGln g { n.glnOf g with store := storeWord (n.glnOf g).store word ⟨v, false⟩ }) m := by
  have aligned : 8 * word % 8 = 0 ∧ (leBytes 8 v.toNat).length = 8 :=
    ⟨Nat.mul_mod_right 8 word, length_leBytes 8 v.toNat⟩
  have value : BitVec.ofNat 64 (leNat (leBytes 8 v.toNat)) = v := ofNat_leNat_regBytes v
  simp only [Mod.writeStores, aligned, and_self, if_true, Nat.mul_div_cancel_left word (Nat.zero_lt_succ 7), value]
  rfl

theorem Mod.glnStart_unprepared (unprepared : (m.glnOf g).state ≠ .preparing) : m.glnStart g = m := if_neg unprepared

/-- A prepared program starts at ENTRY, its registers and its side row zero, once its bank is prepared. -/
theorem Mod.glnStart_preparing (preparing : (m.glnOf g).state = .preparing) :
    let x := m.glnOf g
    m.glnStart g = ((m.onRick (reqGln g)
        (fun r => glnPrepareSlice r (g / 1024) (glnInWindows g x) (inWriteWindow g x))).onStacks
      (reqGln g) (prepareBank g x)).setGln g { x with
        state := .running, a := [], v := [], side := [], res := [], pc := x.entry.toNat, timeNs := 0, openRow := none } :=
  if_pos preparing

end

/-! ### Completions (R232, R233) -/

/-- The module after a core's firmware has taken records from its queue. -/
def Mod.glnDrained (m : Mod) (cc drained : Nat) : Mod :=
  { m with gln := { m.gln with queues := Map.modify [] m.gln.queues cc (fun l => l.drop drained) } }

section
variable {m : Mod} {cc : BitVec 5} {g : Nat} {tag : BitVec 8} {rec : BitVec 128}

theorem Mod.glnDeliver_held (held : bitOf m.boot.coresHeld.toNat cc.toNat = true) :
    m.glnDeliver cc g tag rec = m.raise .glnCompletionLost (unitId 6 (g / 1024)) (payload [i2 g, i1 tag.toNat]) :=
  if_pos held

theorem Mod.glnDeliver_queued (free : bitOf m.boot.coresHeld.toNat cc.toNat = false) :
    m.glnDeliver cc g tag rec =
      { m with gln := { m.gln with queues := Map.modify [] m.gln.queues cc.toNat (fun l => l ++ [rec]) } } :=
  if_neg (ne_true_of_eq_false free)

end

section
variable {m : Mod} {g : Fin 12288} {drained : Nat} {opt : Bool}

theorem Mod.glnCompletion_none (none : (m.glnOf g.val).waiting = none) : m.glnCompletion (.one g) drained opt = m := by
  simp only [Mod.glnCompletion, none]

section
variable {rec : BitVec 128} (waiting : (m.glnOf g.val).waiting = some rec)
include waiting

theorem Mod.glnCompletion_waits
    (full : 64 ≤ (Map.get [] (m.glnDrained (m.glnOf g.val).cc.toNat drained).gln.queues
      (m.glnOf g.val).cc.toNat).length)
    (free : bitOf m.boot.coresHeld.toNat (m.glnOf g.val).cc.toNat = false) :
    m.glnCompletion (.one g) drained opt = m.glnDrained (m.glnOf g.val).cc.toNat drained := by
  simp only [Mod.glnCompletion, waiting]
  exact if_pos ⟨full, ne_true_of_eq_false free⟩

/-- A record is delivered where its core is held in reset or has room in its queue. -/
theorem Mod.glnCompletion_delivers
    (room : (Map.get [] (m.glnDrained (m.glnOf g.val).cc.toNat drained).gln.queues
        (m.glnOf g.val).cc.toNat).length < 64 ∨
      bitOf m.boot.coresHeld.toNat (m.glnOf g.val).cc.toNat = true)
    (fine : opt = false ∨ (m.glnOf g.val).status = 0#8) :
    m.glnCompletion (.one g) drained opt =
      ((m.glnDrained (m.glnOf g.val).cc.toNat drained).setGln g.val { m.glnOf g.val with waiting := none }).glnDeliver
        (m.glnOf g.val).cc g.val (m.glnOf g.val).tag rec := by
  simp only [Mod.glnCompletion, waiting]
  refine (if_neg fun ⟨full, free⟩ => room.elim (Nat.not_lt.2 full) free).trans (if_neg ?_)
  rcases fine with plain | ok
  · rw [plain]; exact Bool.false_ne_true
  · rw [ok]; simp

end
end

section
variable {m : Mod} {st : Fin 12} {drained : Nat} {opt : Bool}

theorem Mod.glnCompletion_noGroup
    (none : m.gln.groups.find? (fun z => z.stack = st.val && z.pending.isEmpty) = none) :
    m.glnCompletion (.group st) drained opt = m := by
  simp only [Mod.glnCompletion, none]

/-- A group whose every gleaner has ended leaves the list once its record has room in its core's queue. -/
theorem Mod.glnCompletion_group {z : GlnGroup}
    (ended : m.gln.groups.find? (fun z => z.stack = st.val && z.pending.isEmpty) = some z) (named : z.cc ≠ 0x1F#5)
    (room : (Map.get [] (m.glnDrained z.cc.toNat drained).gln.queues z.cc.toNat).length < 64) :
    let n := m.glnDrained z.cc.toNat drained
    m.glnCompletion (.group st) drained opt =
      ({ n with gln := { n.gln with groups := n.gln.groups.filter (fun y => decide (y ≠ z)) } } : Mod).glnDeliver z.cc
        (st.val * 1024) z.tag (groupRecord z) := by
  simp only [Mod.glnCompletion, ended]
  exact (if_neg named).trans (if_neg fun full => Nat.not_lt.2 full.1 room)

end

end Sys2Proof.Machine

namespace Sys2Proof

open Machine

/-- Settles O43: a launch goes by its first failed check, an end by the gleaner's state, and a record by its core. -/
theorem gleanersAreLaunchedAndEnded : Obligations.GleanersAreLaunchedAndEnded := by
  unfold Obligations.GleanersAreLaunchedAndEnded
  intro m g t v word drained opt st powered x gi busy y refuse go drain held
  have launch {n : Mod} (e : m.glnLaunch gi v false = n) : go n := turns_glnCtrlGo powered (.one g) v e
  have abort {n : Mod} (e : m.glnCtrlAbort (.one g) v = n) := turns_glnCtrlAbort powered (.one g) v e
  have complete {d : GlnDone} {n : Mod} (e : m.glnCompletion d drained opt = n) :=
    turns_glnCompletion powered d drained opt e
  refine ⟨fun active => launch (Mod.glnLaunch_busy active),
    fun idle unavailable => launch (Mod.glnLaunch_unavailable idle unavailable),
    fun idle available faulted => launch (Mod.glnLaunch_faulted idle available faulted),
    fun idle available sound invalid => launch (Mod.glnLaunch_invalid idle available sound invalid),
    fun idle available sound valid => launch (Mod.glnLaunch_valid idle available sound valid),
    fun group => turns_glnCtrlGo powered t v (Mod.glnGo_group group),
    fun running => abort ((Mod.glnCtrlAbort_active (Gleaner.active_iff.2 (.inr running))).trans
      (Mod.glnAbort_running running)),
    fun preparing => abort ((Mod.glnCtrlAbort_active (Gleaner.active_iff.2 (.inl preparing))).trans
      (Mod.glnAbort_preparing preparing)),
    fun inactive => abort (Mod.glnCtrlAbort_inactive inactive), turns_glnCtrlAbort powered t v rfl,
    turns_programStoreWrite powered t word v (m.writeStores_word t word.val v),
    fun unprepared => turns_programStart powered g (Mod.glnStart_unprepared unprepared),
    fun preparing => turns_programStart powered g (Mod.glnStart_preparing preparing),
    fun stopped => turns_glnWatchdog powered g (Mod.glnWatchdog_stopped stopped),
    fun running => turns_glnWatchdog powered g (Mod.glnWatchdog_running running),
    fun none => complete (Mod.glnCompletion_none none), fun rec waiting => ?_,
    fun none => complete (Mod.glnCompletion_noGroup none), fun z ended named free room => ?_⟩
  · have deliver (room fine) {n : Mod} (e : _ = n) :=
      complete ((Mod.glnCompletion_delivers waiting room fine).trans e)
    exact ⟨fun full free => complete (Mod.glnCompletion_waits waiting full free),
      fun isHeld fine => deliver (.inr isHeld) fine (Mod.glnDeliver_held isHeld),
      fun room free fine => deliver (.inl room) fine (Mod.glnDeliver_queued free)⟩
  · exact complete ((Mod.glnCompletion_group ended named room).trans (Mod.glnDeliver_queued free))

end Sys2Proof
end

section
/-!
PROOFS. Micro-instructions: what the word at the program counter does to its gleaner and its bank, and how it ends a
program (R213, R219 to R223, R228 to R231).
-/
namespace Sys2Proof.Machine

/-! ### The word at the program counter (R215, R220) -/

/-- A gleaner whose program counter stands after the word that it points at. -/
def Gleaner.stepped (x : Gleaner) : Gleaner := { x with lastPc := BitVec.ofNat 9 x.pc, pc := x.pc + 1 }

/-- A gleaner whose program counter stands at the target that the word names. -/
def Gleaner.jumped (x : Gleaner) (w : BitVec 64) : Gleaner := { x.stepped with pc := field (glnF w).imm 0 9 }

/-- A command acts on the word at the program counter: the word names it, or is reserved, or cannot be fetched. -/
def Gleaner.takes (x : Gleaner) (op : Nat) : Bool :=
  match glnFetch x with
  | some w => decide ((glnF w).op = op) || glnIllegal (glnF w)
  | none => true

section
variable {x : Gleaner} {w : BitVec 64} {op gi : Nat} {s : MS}

theorem Gleaner.takes_unfetched (unfetched : glnFetch x = none) : x.takes op = true := by
  rw [Gleaner.takes, unfetched]

theorem Gleaner.takes_fetched (fetched : glnFetch x = some w) :
    x.takes op = (decide ((glnF w).op = op) || glnIllegal (glnF w)) := by
  rw [Gleaner.takes, fetched]

theorem glnStep_beyond (beyond : 511 < x.pc) : glnStep gi x s = ⟨{ x with lastPc := 511#9 }, s, some .illegal⟩ :=
  if_pos beyond

theorem glnStep_unfetched (inside : x.pc ≤ 511) (unfetched : glnFetch x = none) :
    glnStep gi x s = .bad { x with lastPc := BitVec.ofNat 9 x.pc } s x.faultAddr.toNat .ue := by
  rw [glnStep, if_neg (Nat.not_lt.2 inside), unfetched]

theorem glnStep_fetched (inside : x.pc ≤ 511) (fetched : glnFetch x = some w) :
    glnStep gi x s = glnExec gi x s w := by
  rw [glnStep, if_neg (Nat.not_lt.2 inside), fetched]

theorem glnExec_illegal (illegal : glnIllegal (glnF w) = true) : glnExec gi x s w = ⟨x.stepped, s, some .illegal⟩ :=
  if_pos illegal

end

/-! ### What the module makes of a micro-instruction's outcome (R230) -/

/-- The module in which a running program has ended, not by HALT, with a gleaner and a status. -/
def Mod.glnEnded (m : Mod) (gi : Nat) (y : Gleaner) (st : BitVec 8) : Mod := (m.setGln gi y).glnFinish gi y st false true

/-- The module after the outcome of a micro-instruction: what it caused in the stacks, its gleaner, and an ending if it is
one. -/
def Mod.glnOutcome (m : Mod) (gi : Nat) (o : GlnOut) : Mod :=
  let n := m.onStacks (reqGln gi) (fun _ => o.m)
  match o.stop with
  | none => n.setGln gi o.g
  | some .halt => (n.setGln gi o.g).glnFinish gi o.g (if o.g.locked then 0x77#8 else 0#8) true true
  | some .illegal => n.glnEnded gi o.g 0x52#8
  | some .range => n.glnEnded gi o.g 0x53#8
  | some .ue => n.glnEnded gi o.g 0x54#8

section
variable {m : Mod} {gi op : Nat}

theorem Mod.glnRun_stopped (stopped : (m.glnOf gi).state ≠ .running) : m.glnRun op gi = m :=
  if_neg fun runs => stopped runs.1

section
variable (running : (m.glnOf gi).state = .running)
include running

/-- A command that acts leaves the outcome of one step of its gleaner. -/
theorem Mod.glnRun_takes (takes : 511 < (m.glnOf gi).pc ∨ (m.glnOf gi).takes op = true) :
    m.glnRun op gi = m.glnOutcome gi (glnStep gi (m.glnOf gi) ⟨m.memStacks, []⟩) := by
  refine (if_pos ⟨running, takes⟩).trans ?_
  simp only [Mod.withStacks, Mod.glnOutcome]
  cases (glnStep gi (m.glnOf gi) ⟨m.memStacks, []⟩).stop with
  | none => rfl
  | some e => cases e <;> rfl

theorem Mod.glnRun_beyond (beyond : 511 < (m.glnOf gi).pc) :
    m.glnRun op gi = m.settleInject.glnEnded gi { m.glnOf gi with lastPc := 511#9 } 0x52#8 :=
  (Mod.glnRun_takes running (.inl beyond)).trans (congrArg (m.glnOutcome gi) (glnStep_beyond beyond))

variable (inside : (m.glnOf gi).pc ≤ 511)
include inside

theorem Mod.glnRun_unfetched (unfetched : glnFetch (m.glnOf gi) = none) :
    m.glnRun op gi = m.settleInject.glnEnded gi { m.glnOf gi with
      lastPc := BitVec.ofNat 9 (m.glnOf gi).pc, faultAddr := BitVec.ofNat 27 (m.glnOf gi).faultAddr.toNat } 0x54#8 :=
  (Mod.glnRun_takes running (.inr (Gleaner.takes_unfetched unfetched))).trans
    (congrArg (m.glnOutcome gi) (glnStep_unfetched inside unfetched))

variable {w : BitVec 64} (fetched : glnFetch (m.glnOf gi) = some w)
include fetched

theorem Mod.glnRun_illegal (illegal : glnIllegal (glnF w) = true) :
    m.glnRun op gi = m.settleInject.glnEnded gi (m.glnOf gi).stepped 0x52#8 :=
  (Mod.glnRun_takes running (.inr (by rw [Gleaner.takes_fetched fetched, illegal, Bool.or_true]))).trans
    (congrArg (m.glnOutcome gi) ((glnStep_fetched inside fetched).trans (glnExec_illegal illegal)))

omit running in
theorem Mod.glnRun_other (legal : glnIllegal (glnF w) = false) (other : (glnF w).op ≠ op) : m.glnRun op gi = m := by
  have passes : (m.glnOf gi).takes op = false := by
    rw [Gleaner.takes_fetched fetched, legal, decide_eq_false other, Bool.or_false]
  exact if_neg fun runs => runs.2.elim (Nat.not_lt.2 inside) (ne_true_of_eq_false passes)

/-- The command that the word at the program counter names leaves the outcome of that word. -/
theorem Mod.glnRun_named (named : (glnF w).op = op) {o : GlnOut}
    (exec : glnExec gi (m.glnOf gi) ⟨m.memStacks, []⟩ w = o) : m.glnRun op gi = m.glnOutcome gi o :=
  (Mod.glnRun_takes running (.inr (by rw [Gleaner.takes_fetched fetched, decide_eq_true named, Bool.true_or]))).trans
    (congrArg (m.glnOutcome gi) ((glnStep_fetched inside fetched).trans exec))

end
end

/-! ### Words that act on registers alone (R221, R223) -/

/-- A gleaner whose program has run for a time. -/
def Gleaner.timed (x : Gleaner) (ns : Nat) : Gleaner := { x with timeNs := ns }

/-- A write of a scalar register changes the scalar registers and nothing else. -/
theorem Gleaner.setA_eq (x : Gleaner) (i v : Nat) :
    x.setA i v = { x with a := if i = 0 then x.a else Map.set 0#64 x.a i (BitVec.ofNat 64 v) } :=
  (apply_ite (fun a => ({ x with a := a } : Gleaner)) (i = 0) x.a _).symm

/-- The commands of R221 that branch, or that act on scalar registers alone, each with its operation code, its time
and what it leaves of a gleaner whose next word is `w`. -/
def scalarOps (g : Fin 12288) (x : Gleaner) (w : BitVec 64) : List (Instr × Nat × Nat × Gleaner) :=
  let f := glnF w
  let y := x.stepped
  let imm := ((signed f.imm 32).emod (2 ^ 64)).toNat
  [(.glnNop g, 0x00, 1, y), (.jmp g, 0x02, 1, x.jumped w), (.bz g, 0x03, 1, if x.getA f.a = 0 then x.jumped w else y),
    (.loop g, 0x04, 1, if x.getA f.d = 0 then y
      else if x.getA f.d = 1 then y.setA f.d 0 else (x.jumped w).setA f.d (x.getA f.d - 1)),
    (.movi g, 0x08, 1, y.setA f.d imm), (.movhi g, 0x09, 1, y.setA f.d (x.getA f.d % 2 ^ 32 + f.imm * 2 ^ 32)),
    (.movp g, 0x0A, 1, y.setA f.d (Map.get 0#64 x.param (field f.imm 0 3)).toNat),
    (.addi g, 0x0B, 1, y.setA f.d (glnEa x f.a f.imm)), (.glnAdd g, 0x0C, 1, y.setA f.d (x.getA f.a + x.getA f.b)),
    (.xori g, 0x0D, 1, y.setA f.d (x.getA f.a ^^^ imm)),
    (.shli g, 0x0E, 1, y.setA f.d (x.getA f.a * 2 ^ field f.imm 0 6)),
    (.putr g, 0x0F, 1, { y with res := Map.set 0#64 x.res (field f.imm 0 3) (BitVec.ofNat 64 (x.getA f.a)) })]

/-- The commands of R221 and R223 that act on lanes, in the form of `scalarOps`. -/
def vectorOps (g : Fin 12288) (x : Gleaner) (w : BitVec 64) : List (Instr × Nat × Nat × Gleaner) :=
  let f := glnF w
  let y := x.stepped
  let a := lanes (x.getV f.a)
  let b := glnB x f
  let vec (op : BitVec 32 → BitVec 32 → BitVec 32) : Gleaner := y.setV f.d (ofLanes (List.zipWith op a b))
  [(.vins g, 0x16, 1, y.setV f.d (vinsAt (x.getV f.d) (field f.imm 0 6) (2 ^ (3 + field f.imm 6 2)) (x.getA f.a))),
    (.vadd g, 0x20, 1, vec f32Add), (.vmul g, 0x21, 1, vec f32Mul),
    (.vfma g, 0x22, 1, y.setV f.d (ofLanes (List.zipWith (fun p z => f32Fma p.1 p.2 z) (a.zip b) (lanes (x.getV f.c))))),
    (.vmax g, 0x23, 1, vec f32Max), (.vmin g, 0x24, 1, vec f32Min), (.vrcp g, 0x25, 4, vec (fun u _ => f32Rcp u)),
    (.vrsq g, 0x26, 4, vec (fun u _ => f32Rsqrt u)),
    (.vsplat g, 0x27, 1, y.setV f.d (ofLanes (List.replicate 16 (BitVec.ofNat 32 (x.getA f.a))))),
    (.vsum g, 0x28, 4, y.setA f.d (pairSum 4 a).toNat),
    (.vamax g, 0x29, 4, y.setA f.d (a.foldl (fun u l => f32Max u (f32Abs l)) f32Zero).toNat)]

section
variable {gi : Nat} {x : Gleaner} {s : MS} {w : BitVec 64} (legal : glnIllegal (glnF w) = false)
include legal

theorem glnExec_bz (named : (glnF w).op = 0x03) :
    glnExec gi x s w =
      ⟨(if x.getA (glnF w).a = 0 then x.jumped w else x.stepped).timed (x.timeNs + 1), s, none⟩ := by
  simp only [glnExec, legal, named, Bool.false_eq_true, if_false]
  exact congrArg (GlnOut.mk · s none)
    (apply_ite (Gleaner.timed · (x.timeNs + 1)) (x.getA (glnF w).a = 0) (x.jumped w) x.stepped).symm

/-- LOOP passes on with its counter at 0 or 1, and jumps with any other. -/
theorem glnExec_loop (named : (glnF w).op = 0x04) :
    glnExec gi x s w = ⟨(if x.getA (glnF w).d = 0 then x.stepped
      else if x.getA (glnF w).d = 1 then x.stepped.setA (glnF w).d 0
      else (x.jumped w).setA (glnF w).d (x.getA (glnF w).d - 1)).timed (x.timeNs + 1), s, none⟩ := by
  simp only [glnExec, legal, named, Bool.false_eq_true, if_false, Gleaner.setA_eq, Gleaner.getA]
  rcases (if (glnF w).d = 0 then 0 else (Map.get 0#64 x.a (glnF w).d).toNat) with _ | _ | more
  · rfl
  · rfl
  · rfl

/-- Each scalar word leaves what its entry in `scalarOps` says, in the time that it says, and nothing in the stacks. -/
theorem glnExec_scalarOp {g : Fin 12288} :
    ∀ e ∈ scalarOps g x w, (glnF w).op = e.2.1 →
      glnExec gi x s w = ⟨e.2.2.2.timed (x.timeNs + e.2.2.1), s, none⟩ := by
  simp only [scalarOps, List.forall_mem_cons, List.not_mem_nil, false_implies, implies_true, and_true]
  refine ⟨?nop, ?jmp, glnExec_bz legal, glnExec_loop legal, ?movi, ?movhi, ?movp, ?addi, ?add, ?xori, ?shli, ?putr⟩
  all_goals
    intro named
    simp only [glnExec, glnEa, legal, named, Bool.false_eq_true, if_false, Gleaner.setA_eq, Gleaner.getA, Gleaner.timed,
      Gleaner.stepped, Gleaner.jumped]

/-- Each vector word leaves what its entry in `vectorOps` says, in the time that it says, and nothing in the stacks. -/
theorem glnExec_vectorOp {g : Fin 12288} :
    ∀ e ∈ vectorOps g x w, (glnF w).op = e.2.1 →
      glnExec gi x s w = ⟨e.2.2.2.timed (x.timeNs + e.2.2.1), s, none⟩ := by
  simp only [vectorOps, List.forall_mem_cons, List.not_mem_nil, false_implies, implies_true, and_true]
  refine ⟨?vins, ?vadd, ?vmul, ?vfma, ?vmax, ?vmin, ?vrcp, ?vrsq, ?vsplat, ?vsum, ?vamax⟩
  all_goals
    intro named
    simp only [glnExec, laneOp, glnB, legal, named, Bool.false_eq_true, if_false, Gleaner.setA_eq, Gleaner.setV,
      Gleaner.getA, Gleaner.getV, Gleaner.timed, Gleaner.stepped]

/-! ### HALT and the side row (R221, R228) -/

theorem glnExec_halt (named : (glnF w).op = 0x01) :
    glnExec gi x s w = ⟨x.stepped.timed (x.timeNs + 1), s, some .halt⟩ := by
  simp only [glnExec, legal, named, Bool.false_eq_true, if_false, Gleaner.timed, Gleaner.stepped]

/-- The address in the side row that LDS and LDSA read. -/
def sideAddr (x : Gleaner) (w : BitVec 64) : Nat := (x.getA (glnF w).a + (glnF w).imm) % 4096

/-- The bytes of sixteen lanes in the format that a word names. -/
def laneBytes (w : BitVec 64) : Nat := (glnFmtBytes (glnF w).fmt).getD 32

theorem glnExec_lds (named : (glnF w).op = 0x12) :
    glnExec gi x s w = if sideAddr x w % laneBytes w ≠ 0 then ⟨x.stepped, s, some .illegal⟩
      else ⟨(x.stepped.setV (glnF w).d (glnUnpack (glnF w).fmt (field (x.getA (glnF w).b) 0 8)
        (memRead x.side (sideAddr x w) (laneBytes w)))).timed (x.timeNs + (laneBytes w + 31) / 32), s, none⟩ := by
  simp only [glnExec, legal, named, Bool.false_eq_true, if_false, sideAddr, laneBytes, Gleaner.getA, Gleaner.setV,
    Gleaner.timed, Gleaner.stepped]
  rfl

theorem glnExec_ldsa (named : (glnF w).op = 0x13) :
    glnExec gi x s w = if sideAddr x w % 4 ≠ 0 then ⟨x.stepped, s, some .illegal⟩
      else ⟨(x.stepped.setA (glnF w).d (leNat (memRead x.side (sideAddr x w) 4))).timed (x.timeNs + 1), s, none⟩ := by
  simp only [glnExec, legal, named, Bool.false_eq_true, if_false, sideAddr, Gleaner.getA, Gleaner.setA_eq, Gleaner.timed,
    Gleaner.stepped]

/-- The row that LATCH copies. -/
def latchRow (x : Gleaner) (w : BitVec 64) : Nat := x.getA (glnF w).a / 4096

/-- A gleaner after LATCH has opened its row. -/
def Gleaner.latching (x : Gleaner) (w : BitVec 64) : Gleaner :=
  { x.stepped with timeNs := x.timeNs + 176, openRow := some (latchRow x w) }

section
variable (named : (glnF w).op = 0x14)
include named

theorem glnExec_latch_outside (outside : 2 ^ 27 ≤ x.getA (glnF w).a ∨ x.mayRead (latchRow x w) = false) :
    glnExec gi x s w = .bad x.stepped s (x.getA (glnF w).a) .range := by
  simp only [glnExec, legal, named, Bool.false_eq_true, if_false]
  exact if_pos (outside.imp_right ne_true_of_eq_false)

variable (inBank : x.getA (glnF w).a < 2 ^ 27) (readable : x.mayRead (latchRow x w) = true)
include inBank readable

theorem glnExec_latch_inside :
    let r := bankRead 129 s gi (latchRow x w * 4096) 4096
    glnExec gi x s w = match r.1 with
      | none => .bad (x.latching w) r.2 (latchRow x w * 4096) .ue
      | some bs => ⟨{ x.latching w with side := memWrite [] 0 bs }, r.2, none⟩ := by
  simp only [glnExec, legal, named, Bool.false_eq_true, if_false]
  exact if_neg (not_or.2 ⟨Nat.not_le.2 inBank, not_not_intro readable⟩)

theorem glnExec_latch_uncorrectable (bad : (bankRead 129 s gi (latchRow x w * 4096) 4096).1 = none) :
    glnExec gi x s w =
      .bad (x.latching w) (bankRead 129 s gi (latchRow x w * 4096) 4096).2 (latchRow x w * 4096) .ue := by
  simp only [glnExec_latch_inside legal named inBank readable, bad]

theorem glnExec_latch_copies {bs : Bytes} (read : (bankRead 129 s gi (latchRow x w * 4096) 4096).1 = some bs) :
    glnExec gi x s w =
      ⟨{ x.latching w with side := memWrite [] 0 bs }, (bankRead 129 s gi (latchRow x w * 4096) 4096).2, none⟩ := by
  simp only [glnExec_latch_inside legal named inBank readable, read]

end

/-! ### Loads and stores (R219, R222, R223, R228, R229) -/

theorem glnExec_ld (named : (glnF w).op = 0x10) :
    glnExec gi x s w = glnLoad x.stepped s gi (glnEa x (glnF w).a (glnF w).imm) (laneBytes w) (laneBytes w)
      (fun y t bs => ⟨y.setV (glnF w).d (glnUnpack (glnF w).fmt (field (y.getA (glnF w).b) 0 8) bs), t, none⟩) := by
  simp only [glnExec, legal, named, Bool.false_eq_true, if_false]
  rfl

/-- The bytes that LDA loads in the format that a word names. -/
def scalarBytes (w : BitVec 64) : Nat := if (glnF w).fmt = 9 then 1 else if (glnF w).fmt = 0 then 4 else 8

theorem glnExec_lda (named : (glnF w).op = 0x17) :
    glnExec gi x s w = glnLoad x.stepped s gi (glnEa x (glnF w).a (glnF w).imm) (scalarBytes w) (scalarBytes w)
      (fun y t bs => ⟨y.setA (glnF w).d (leNat bs), t, none⟩) := by
  simp only [glnExec, legal, named, Bool.false_eq_true, if_false]
  rfl

theorem glnExec_crc (named : (glnF w).op = 0x18) :
    glnExec gi x s w = glnLoad x.stepped s gi (glnEa x (glnF w).a (glnF w).imm) 32 32
      (fun y t bs => ⟨y.setA (glnF w).d (crc64Update (y.getA (glnF w).d) bs), t, none⟩) := by
  simp only [glnExec, legal, named, Bool.false_eq_true, if_false]
  rfl

theorem glnExec_st (named : (glnF w).op = 0x11) :
    let bs := glnPack (glnF w).fmt (x.getV (glnF w).a)
    glnExec gi x s w = glnStore x.stepped s gi (glnEa x (glnF w).b (glnF w).imm) bs.length bs := by
  simp only [glnExec, legal, named, Bool.false_eq_true, if_false]
  rfl

/-- The block that QST stores: its scale and its elements. -/
def quantised (x : Gleaner) (w : BitVec 64) : Nat × Bytes :=
  let v := mxQuant (fmtOf (glnF w).fmt) (lanes (x.getV (glnF w).a) ++ lanes (x.getV ((glnF w).a + 1)))
  (v.1, packElems (fmtBits (glnF w).fmt) v.2)

theorem glnExec_qst (named : (glnF w).op = 0x15) :
    let v := quantised x w
    let o := glnStore x.stepped s gi (glnEa x (glnF w).b (glnF w).imm) v.2.length v.2
    glnExec gi x s w = if o.stop.isNone then { o with g := o.g.setA (glnF w).d v.1 } else o := by
  simp only [glnExec, legal, named, Bool.false_eq_true, if_false]
  rfl
end

section
variable {y : Gleaner} {s : MS} {gi ea n : Nat} {k : Gleaner → MS → Bytes → GlnOut}

theorem glnLoad_misaligned (misaligned : ea % n ≠ 0) : glnLoad y s gi ea n n k = ⟨y, s, some .illegal⟩ :=
  if_pos misaligned

section
variable (aligned : ea % n = 0)
include aligned

theorem glnLoad_outside (outside : 2 ^ 27 ≤ ea ∨ y.mayRead (ea / 4096) = false) :
    glnLoad y s gi ea n n k = .bad y s ea .range :=
  (if_neg (not_not_intro aligned)).trans (if_pos (outside.imp_right ne_true_of_eq_false))

variable (inBank : ea < 2 ^ 27) (readable : y.mayRead (ea / 4096) = true)
include inBank readable

theorem glnLoad_uncorrectable (bad : (bankRead 3 s gi ea n).1 = none) :
    glnLoad y s gi ea n n k =
      .bad (y.touch (ea / 4096) (max 1 ((n + 31) / 32))) (bankRead 3 s gi ea n).2 ea .ue := by
  rw [glnLoad, if_neg (not_not_intro aligned),
    if_neg (not_or.2 ⟨Nat.not_le.2 inBank, not_not_intro readable⟩)]
  simp only [bad]

theorem glnLoad_reads {bs : Bytes} (read : (bankRead 3 s gi ea n).1 = some bs) :
    glnLoad y s gi ea n n k =
      k (y.touch (ea / 4096) (max 1 ((n + 31) / 32))) (bankRead 3 s gi ea n).2 bs := by
  rw [glnLoad, if_neg (not_not_intro aligned),
    if_neg (not_or.2 ⟨Nat.not_le.2 inBank, not_not_intro readable⟩)]
  simp only [read]

end
end

/-- A gleaner after a store of some bytes has touched its row. -/
def Gleaner.stored (y : Gleaner) (ea : Nat) (bs : Bytes) : Gleaner :=
  y.touch (ea / 4096) (max 1 ((bs.length + 31) / 32) + if bs.length % 32 = 0 then 0 else 2)

section
variable {y : Gleaner} {s : MS} {gi ea : Nat} {bs : Bytes}

theorem glnStore_misaligned (misaligned : ea % bs.length ≠ 0) :
    glnStore y s gi ea bs.length bs = ⟨y, s, some .illegal⟩ := if_pos misaligned

section
variable (aligned : ea % bs.length = 0)
include aligned

theorem glnStore_outside (outside : 2 ^ 27 ≤ ea ∨ y.wwin.has (ea / 4096) = false) :
    glnStore y s gi ea bs.length bs = .bad y s ea .range :=
  (if_neg (not_not_intro aligned)).trans (if_pos (outside.imp_right ne_true_of_eq_false))

variable (inBank : ea < 2 ^ 27) (writable : y.wwin.has (ea / 4096) = true)
include inBank writable

/-- A store inside the write window is carried out, unless a part of a word that it keeps cannot be read. -/
theorem glnStore_inside :
    let r := bankWrite 3 s gi ea bs
    let t := y.stored ea bs
    glnStore y s gi ea bs.length bs =
      if r.1 then ⟨{ t with locked := t.locked || r.2.2 }, r.2.1, none⟩ else .bad t r.2.1 ea .ue :=
  (if_neg (not_not_intro aligned)).trans (if_neg (not_or.2 ⟨Nat.not_le.2 inBank, not_not_intro writable⟩))

theorem glnStore_uncorrectable (bad : (bankWrite 3 s gi ea bs).1 = false) :
    glnStore y s gi ea bs.length bs = .bad (y.stored ea bs) (bankWrite 3 s gi ea bs).2.1 ea .ue :=
  (glnStore_inside aligned inBank writable).trans (if_neg (ne_true_of_eq_false bad))

theorem glnStore_writes (written : (bankWrite 3 s gi ea bs).1 = true) :
    glnStore y s gi ea bs.length bs =
      ⟨{ y.stored ea bs with locked := (y.stored ea bs).locked || (bankWrite 3 s gi ea bs).2.2 },
        (bankWrite 3 s gi ea bs).2.1, none⟩ :=
  (glnStore_inside aligned inBank writable).trans (if_pos written)

end
end

section
variable {m : Mod} {gi ea : Nat} {i : Instr} {y : Gleaner}

/-- What a load leaves: checked against its alignment and the windows, it ends the program or goes on with the
bytes read. -/
theorem turns_load {n : Nat} {k : Gleaner → MS → Bytes → GlnOut} {fin : Gleaner → Bytes → Gleaner}
    (leaves : ∀ {o}, glnLoad y ⟨m.memStacks, []⟩ gi ea n n k = o → Safety.Turns m i (m.glnOutcome gi o))
    (goesOn : ∀ s bs, let t := y.touch (ea / 4096) (max 1 ((n + 31) / 32))
      k t s bs = ⟨fin t bs, s, none⟩) :
    let r := m.withStacks (reqGln gi) (fun s => bankRead 3 s gi ea n)
    let t := y.touch (ea / 4096) (max 1 ((n + 31) / 32))
    (ea % n ≠ 0 → Safety.Turns m i (m.settleInject.glnEnded gi y 0x52#8))
    ∧ (ea % n = 0 → (2 ^ 27 ≤ ea ∨ y.mayRead (ea / 4096) = false) →
        Safety.Turns m i (m.settleInject.glnEnded gi { y with faultAddr := BitVec.ofNat 27 ea } 0x53#8))
    ∧ (ea % n = 0 → ea < 2 ^ 27 → y.mayRead (ea / 4096) = true →
        (r.1 = none → Safety.Turns m i (r.2.glnEnded gi { t with faultAddr := BitVec.ofNat 27 ea } 0x54#8))
        ∧ ∀ bs, r.1 = some bs → Safety.Turns m i (r.2.setGln gi (fin t bs))) :=
  ⟨fun misaligned => leaves (glnLoad_misaligned misaligned),
    fun aligned outside => leaves (glnLoad_outside aligned outside),
    fun aligned inBank readable => ⟨fun bad => leaves (glnLoad_uncorrectable aligned inBank readable bad),
      fun _ read => leaves ((glnLoad_reads aligned inBank readable read).trans (goesOn _ _))⟩⟩

/-- What a store leaves: checked against its alignment and the write window, it ends the program or goes on, with
a note of what a lock discarded. -/
theorem turns_store {bs : Bytes} {fin : Gleaner → Gleaner}
    (leaves : ∀ {o}, glnStore y ⟨m.memStacks, []⟩ gi ea bs.length bs = o →
      Safety.Turns m i (m.glnOutcome gi (if o.stop.isNone then { o with g := fin o.g } else o))) :
    let r := m.withStacks (reqGln gi) (fun s => let t := bankWrite 3 s gi ea bs; ((t.1, t.2.2), t.2.1))
    let t := y.stored ea bs
    (ea % bs.length ≠ 0 → Safety.Turns m i (m.settleInject.glnEnded gi y 0x52#8))
    ∧ (ea % bs.length = 0 → (2 ^ 27 ≤ ea ∨ y.wwin.has (ea / 4096) = false) →
        Safety.Turns m i (m.settleInject.glnEnded gi { y with faultAddr := BitVec.ofNat 27 ea } 0x53#8))
    ∧ (ea % bs.length = 0 → ea < 2 ^ 27 → y.wwin.has (ea / 4096) = true →
        (r.1.1 = false → Safety.Turns m i (r.2.glnEnded gi { t with faultAddr := BitVec.ofNat 27 ea } 0x54#8))
        ∧ (r.1.1 = true → Safety.Turns m i (r.2.setGln gi (fin { t with locked := t.locked || r.1.2 })))) :=
  ⟨fun misaligned => leaves (glnStore_misaligned misaligned),
    fun aligned outside => leaves (glnStore_outside aligned outside),
    fun aligned inBank writable => ⟨fun bad => leaves (glnStore_uncorrectable aligned inBank writable bad),
      fun written => leaves (glnStore_writes aligned inBank writable written)⟩⟩

/-- What LATCH leaves: it ends the program or copies its row into the side row. -/
theorem turns_latch_row {x : Gleaner} {w : BitVec 64}
    (leaves : ∀ {o}, glnExec gi x ⟨m.memStacks, []⟩ w = o → Safety.Turns m i (m.glnOutcome gi o))
    (legal : glnIllegal (glnF w) = false) (named : (glnF w).op = 0x14) :
    let row := latchRow x w
    let r := m.withStacks (reqGln gi) (fun s => bankRead 129 s gi (row * 4096) 4096)
    let t : Gleaner := { x.stepped with timeNs := x.timeNs + 176, openRow := some row }
    (2 ^ 27 ≤ x.getA (glnF w).a ∨ x.mayRead row = false → Safety.Turns m i
      (m.settleInject.glnEnded gi { x.stepped with faultAddr := BitVec.ofNat 27 (x.getA (glnF w).a) } 0x53#8))
    ∧ (x.getA (glnF w).a < 2 ^ 27 → x.mayRead row = true →
      (r.1 = none → Safety.Turns m i (r.2.glnEnded gi { t with faultAddr := BitVec.ofNat 27 (row * 4096) } 0x54#8))
      ∧ ∀ bs, r.1 = some bs → Safety.Turns m i (r.2.setGln gi { t with side := memWrite [] 0 bs })) :=
  ⟨fun outside => leaves (glnExec_latch_outside legal named outside),
    fun inBank readable => ⟨fun bad => leaves (glnExec_latch_uncorrectable legal named inBank readable bad),
      fun _ read => leaves (glnExec_latch_copies legal named inBank readable read)⟩⟩

end
/-! ### The commands of the micro-instructions (R220, R221) -/

/-- The command of each micro-instruction, with its operation code. -/
def microOps (g : Fin 12288) : List (Instr × Nat) :=
  [(.glnNop g, 0x00), (.halt g, 0x01), (.jmp g, 0x02), (.bz g, 0x03), (.loop g, 0x04),
    (.movi g, 0x08), (.movhi g, 0x09), (.movp g, 0x0A), (.addi g, 0x0B), (.glnAdd g, 0x0C), (.xori g, 0x0D),
    (.shli g, 0x0E), (.putr g, 0x0F), (.ld g, 0x10), (.st g, 0x11), (.lds g, 0x12), (.ldsa g, 0x13), (.latch g, 0x14),
    (.qst g, 0x15), (.vins g, 0x16), (.lda g, 0x17), (.crc g, 0x18), (.vadd g, 0x20), (.vmul g, 0x21), (.vfma g, 0x22),
    (.vmax g, 0x23), (.vmin g, 0x24), (.vrcp g, 0x25), (.vrsq g, 0x26), (.vsplat g, 0x27), (.vsum g, 0x28),
    (.vamax g, 0x29)]

/-- The command of a micro-instruction runs the word at its gleaner's program counter under its operation code. -/
theorem turns_micro {m n : Mod} (powered : m.boot.powered = true) (g : Fin 12288) :
    ∀ e ∈ microOps g, m.glnRun e.2 g.val = n → Safety.Turns m e.1 n := by
  simp only [microOps, List.forall_mem_cons, List.not_mem_nil, false_implies, implies_true, and_true]
  exact ⟨turns_glnNop powered g, turns_halt powered g, turns_jmp powered g, turns_bz powered g, turns_loop powered g,
    turns_movi powered g, turns_movhi powered g, turns_movp powered g, turns_addi powered g, turns_glnAdd powered g,
    turns_xori powered g, turns_shli powered g, turns_putr powered g, turns_ld powered g, turns_st powered g,
    turns_lds powered g, turns_ldsa powered g, turns_latch powered g, turns_qst powered g, turns_vins powered g,
    turns_lda powered g, turns_crc powered g, turns_vadd powered g, turns_vmul powered g, turns_vfma powered g,
    turns_vmax powered g, turns_vmin powered g, turns_vrcp powered g, turns_vrsq powered g, turns_vsplat powered g,
    turns_vsum powered g, turns_vamax powered g⟩

theorem scalarOps_micro (g : Fin 12288) (x : Gleaner) (w : BitVec 64) :
    ∀ e ∈ scalarOps g x w, (e.1, e.2.1) ∈ microOps g := by
  simp [scalarOps, microOps]

theorem vectorOps_micro (g : Fin 12288) (x : Gleaner) (w : BitVec 64) :
    ∀ e ∈ vectorOps g x w, (e.1, e.2.1) ∈ microOps g := by
  simp [vectorOps, microOps]

end Sys2Proof.Machine

namespace Sys2Proof

open Machine

/-- Settles O44: a command whose word does not run it ends the program or does nothing, and each legal word that a command
names has the outcome that its own equation gives. -/
theorem microInstructionsRunOnTheirGleaner : Obligations.MicroInstructionsRunOnTheirGleaner := by
  unfold Obligations.MicroInstructionsRunOnTheirGleaner
  intro m g powered gi x q ends ops
  constructor
  · intro e listed
    have run {n : Mod} (r : m.glnRun e.2 gi = n) : Safety.Turns m e.1 n := turns_micro powered g e listed r
    exact ⟨fun stopped => run (Mod.glnRun_stopped stopped),
      fun running beyond => run (Mod.glnRun_beyond running beyond),
      fun running inside unfetched => run (Mod.glnRun_unfetched running inside unfetched),
      fun w running inside fetched =>
        ⟨fun illegal => run (Mod.glnRun_illegal running inside fetched illegal),
          fun legal other => run (Mod.glnRun_other inside fetched legal other)⟩⟩
  · intro w running inside fetched legal f y jump imm a b vec side n load store
    have outcome {op : Nat} (named : f.op = op) {o : GlnOut} (exec : glnExec gi x ⟨m.memStacks, []⟩ w = o) :
        m.glnRun op gi = m.glnOutcome gi o := Mod.glnRun_named running inside fetched named exec
    refine ⟨?registers, ?halt, ?lds, ?ldsa, ?latch, ?ld, ?lda, ?crc, ?st, ?qst⟩
    case registers =>
      change ∀ e ∈ scalarOps g x w ++ vectorOps g x w, _
      refine List.forall_mem_append.2 ⟨fun e listed named => ?_, fun e listed named => ?_⟩
      · exact turns_micro powered g _ (scalarOps_micro g x w e listed)
          (outcome named (glnExec_scalarOp legal e listed named))
      · exact turns_micro powered g _ (vectorOps_micro g x w e listed)
          (outcome named (glnExec_vectorOp legal e listed named))
    case halt => exact fun named => turns_halt powered g (outcome named (glnExec_halt legal named))
    case lds =>
      intro named
      have read := glnExec_lds (gi := gi) (x := x) (s := ⟨m.memStacks, []⟩) legal named
      exact ⟨fun misaligned => turns_lds powered g (outcome named (read.trans (if_pos misaligned))),
        fun aligned => turns_lds powered g (outcome named (read.trans (if_neg (not_not_intro aligned))))⟩
    case ldsa =>
      intro named
      have read := glnExec_ldsa (gi := gi) (x := x) (s := ⟨m.memStacks, []⟩) legal named
      exact ⟨fun misaligned => turns_ldsa powered g (outcome named (read.trans (if_pos misaligned))),
        fun aligned => turns_ldsa powered g (outcome named (read.trans (if_neg (not_not_intro aligned))))⟩
    case latch => exact fun named => turns_latch_row (turns_latch powered g ∘ outcome named) legal named
    case ld =>
      exact fun named => turns_load (fin := fun t bs => t.setV f.d (glnUnpack f.fmt (field (x.getA f.b) 0 8) bs))
        (fun r => turns_ld powered g (outcome named ((glnExec_ld legal named).trans r))) fun _ _ => rfl
    case lda =>
      exact fun named => turns_load (fin := fun t bs => t.setA f.d (leNat bs))
        (fun r => turns_lda powered g (outcome named ((glnExec_lda legal named).trans r))) fun _ _ => rfl
    case crc =>
      exact fun named => turns_load (fin := fun t bs => t.setA f.d (crc64Update (x.getA f.d) bs))
        (fun r => turns_crc powered g (outcome named ((glnExec_crc legal named).trans r))) fun _ _ => rfl
    case st =>
      exact fun named => turns_store (fin := id)
        fun r => turns_st powered g (outcome named (((glnExec_st legal named).trans r).trans (ite_self _).symm))
    case qst =>
      exact fun named => turns_store (fin := fun t => t.setA f.d (quantised x w).1)
        fun r => turns_qst powered g (outcome named (r ▸ glnExec_qst legal named))

end Sys2Proof
end

section
/-!
PROOFS. The rick slices: the order of a command's checks, what each operation does once they pass, and the accesses that
arrive at a slice (R244, R247, R250, R253 to R257).
-/
namespace Sys2Proof.Machine

/-! ### The checks of a command, in their order (R254) -/

/-- The command that a write of RICK_CMD asks of a slice: its range is the one in force at that moment. -/
def Slice.asked (s : Slice) (op : BitVec 3) (tag : BitVec 8) (req : BitVec 32) : RickCmd :=
  ⟨op, tag, s.base.toNat, s.len.toNat, req⟩

theorem rickOp_valid {op : BitVec 3} (low : 1 ≤ op.toNat) (high : op.toNat ≤ 5) :
    op ≠ 0#3 ∧ op.toNat < 6 ∧ ¬(op = 0#3 ∨ op = 6#3 ∨ op = 7#3) := by
  revert op
  decide

theorem rickOp_invalid {op : BitVec 3} (invalid : op = 0#3 ∨ op = 6#3 ∨ op = 7#3) : ¬(op ≠ 0#3 ∧ op.toNat < 6) := by
  rcases invalid with rfl | rfl | rfl <;> decide

section
variable {s : Slice} {c : RickCmd}

theorem cmdStatus_fault (fault : s.fault = true) : cmdStatus s c = 0x65#8 := if_pos fault

variable (sound : s.fault = false)
include sound

theorem cmdStatus_invalid (invalid : c.op = 0#3 ∨ c.op = 6#3 ∨ c.op = 7#3) : cmdStatus s c = 0x63#8 :=
  (if_neg (ne_true_of_eq_false sound)).trans (if_pos invalid)

variable (valid : ¬(c.op = 0#3 ∨ c.op = 6#3 ∨ c.op = 7#3))
include valid

theorem cmdStatus_valid :
    cmdStatus s c =
      if c.base % 1024 ≠ 0 then 0x61#8
      else if 16777216 < c.len ∨ ¬stackRangeOk c.base (c.len * 1024) = true then 0x62#8 else 0#8 :=
  (if_neg (ne_true_of_eq_false sound)).trans (if_neg valid)

theorem cmdStatus_unaligned (unaligned : c.base % 1024 ≠ 0) : cmdStatus s c = 0x61#8 :=
  (cmdStatus_valid sound valid).trans (if_pos unaligned)

variable (aligned : c.base % 1024 = 0)
include aligned

theorem cmdStatus_outside (outside : 16777216 < c.len ∨ stackRangeOk c.base (c.len * 1024) = false) :
    cmdStatus s c = 0x62#8 :=
  (cmdStatus_valid sound valid).trans
    ((if_neg (not_not_intro aligned)).trans (if_pos (outside.imp_right ne_true_of_eq_false)))

theorem cmdStatus_ok (short : c.len ≤ 16777216) (inside : stackRangeOk c.base (c.len * 1024) = true) :
    cmdStatus s c = 0#8 :=
  (cmdStatus_valid sound valid).trans
    ((if_neg (not_not_intro aligned)).trans (if_neg (not_or.2 ⟨Nat.not_lt.2 short, not_not_intro inside⟩)))

end

/-! ### A command at a slice (R253, R254) -/

section
variable {x : RM} {n : Nat} {op : BitVec 3} {tag : BitVec 8} {req : BitVec 32} {strict : Bool}

theorem rickCommand_busy (busy : (sliceOf x n).busy.isSome = true) :
    rickCommand x n op tag req strict = { x with r := { x.r with rejected := satAdd x.r.rejected 1 } } := by
  obtain ⟨c, running⟩ := Option.isSome_iff_exists.1 busy
  simp only [rickCommand, running]

variable (idle : (sliceOf x n).busy = none)
include idle

/-- An idle slice answers a command of length 0 at once, refuses one with a status, lets a PIN or a FALLOW wait for
outstanding fills, and carries out any other. -/
theorem rickCommand_idle :
    rickCommand x n op tag req strict =
      let s := sliceOf x n
      let c := s.asked op tag req
      if op ≠ 0#3 ∧ op.toNat < 6 ∧ s.len = 0#25 ∧ ¬s.fault = true then endCmd x n tag 0#8 0
      else if cmdStatus s c ≠ 0#8 then endCmd x n tag (cmdStatus s c) 0
      else if (op = 1#3 ∨ op = 3#3) ∧ cmdWaits x n c = true then setSlice x n { s with busy := some c }
      else runCmd x n c strict := by
  simp only [rickCommand, idle]
  rfl

theorem rickCommand_empty (low : 1 ≤ op.toNat) (high : op.toNat ≤ 5) (sound : (sliceOf x n).fault = false)
    (empty : (sliceOf x n).len = 0#25) : rickCommand x n op tag req strict = endCmd x n tag 0#8 0 := by
  obtain ⟨nonzero, small, -⟩ := rickOp_valid low high
  exact (rickCommand_idle idle).trans (if_pos ⟨nonzero, small, empty, ne_true_of_eq_false sound⟩)

theorem rickCommand_refused {st : BitVec 8}
    (checked : ¬(op ≠ 0#3 ∧ op.toNat < 6 ∧ (sliceOf x n).len = 0#25 ∧ ¬(sliceOf x n).fault = true))
    (status : cmdStatus (sliceOf x n) ((sliceOf x n).asked op tag req) = st) (failed : st ≠ 0#8) :
    rickCommand x n op tag req strict = endCmd x n tag st 0 := by
  subst status
  exact (rickCommand_idle idle).trans ((if_neg checked).trans (if_pos failed))

theorem rickCommand_faulted (fault : (sliceOf x n).fault = true) :
    rickCommand x n op tag req strict = endCmd x n tag 0x65#8 0 :=
  rickCommand_refused idle (fun ⟨_, _, _, sound⟩ => sound fault) (cmdStatus_fault fault) (by decide)

section
variable (sound : (sliceOf x n).fault = false)
include sound

theorem rickCommand_invalid (invalid : op = 0#3 ∨ op = 6#3 ∨ op = 7#3) :
    rickCommand x n op tag req strict = endCmd x n tag 0x63#8 0 :=
  rickCommand_refused idle (fun ⟨nonzero, small, _⟩ => rickOp_invalid invalid ⟨nonzero, small⟩)
    (cmdStatus_invalid sound invalid) (by decide)

variable (low : 1 ≤ op.toNat) (high : op.toNat ≤ 5) (ranged : (sliceOf x n).len ≠ 0#25)
include low high ranged

theorem rickCommand_unaligned (unaligned : (sliceOf x n).base.toNat % 1024 ≠ 0) :
    rickCommand x n op tag req strict = endCmd x n tag 0x61#8 0 :=
  rickCommand_refused idle (fun ⟨_, _, empty, _⟩ => ranged empty)
    (cmdStatus_unaligned sound (rickOp_valid low high).2.2 unaligned) (by decide)

variable (aligned : (sliceOf x n).base.toNat % 1024 = 0)
include aligned

theorem rickCommand_outside (outside : 16777216 < (sliceOf x n).len.toNat
      ∨ stackRangeOk (sliceOf x n).base.toNat ((sliceOf x n).len.toNat * 1024) = false) :
    rickCommand x n op tag req strict = endCmd x n tag 0x62#8 0 :=
  rickCommand_refused idle (fun ⟨_, _, empty, _⟩ => ranged empty)
    (cmdStatus_outside sound (rickOp_valid low high).2.2 aligned outside) (by decide)

/-- A command that breaks no check waits for the fills of its range if it is a PIN or a FALLOW, and is carried out. -/
theorem rickCommand_checked (short : (sliceOf x n).len.toNat ≤ 16777216)
    (inside : stackRangeOk (sliceOf x n).base.toNat ((sliceOf x n).len.toNat * 1024) = true) :
    rickCommand x n op tag req strict =
      let c := (sliceOf x n).asked op tag req
      if (op = 1#3 ∨ op = 3#3) ∧ cmdWaits x n c = true then setSlice x n { sliceOf x n with busy := some c }
      else runCmd x n c strict := by
  have ok : cmdStatus (sliceOf x n) ((sliceOf x n).asked op tag req) = 0#8 :=
    cmdStatus_ok sound (rickOp_valid low high).2.2 aligned short inside
  exact (rickCommand_idle idle).trans
    ((if_neg fun ⟨_, _, empty, _⟩ => ranged empty).trans (if_neg (not_not_intro ok)))

end
end

/-! ### What each operation does (R255 to R257) -/

section
variable {x : RM} {n : Nat} {c : RickCmd} {strict : Bool}

/-- The lines of a command's range that the slice holds. -/
def heldRegions (x : RM) (n : Nat) (c : RickCmd) : List Nat :=
  (regionsOf x n c.base c.len).filter (fun r => (frameOf (sliceOf x n) (setOfRegion x r) r).isSome)

theorem runCmd_pinFull (op : c.op = 1#3) (full : pinFits x n (regionsOf x n c.base c.len) = false) :
    runCmd x n c strict = endCmd { x with r := { x.r with pinFails := satAdd x.r.pinFails 1 } } n c.tag 0x60#8 0 :=
  (if_pos op).trans (if_neg (ne_true_of_eq_false full))

theorem runCmd_pin (op : c.op = 1#3) (fits : pinFits x n (regionsOf x n c.base c.len) = true) :
    runCmd x n c strict =
      endCmd ((regionsOf x n c.base c.len).foldl (fun x r =>
        pinLine x n r (if (coreOf c.requester).isSome then 3 else 7)) x) n c.tag 0#8
          (regionsOf x n c.base c.len).length :=
  (if_pos op).trans (if_pos fits)

theorem runCmd_unpin (op : c.op = 2#3) :
    runCmd x n c strict =
      endCmd ((heldRegions x n c).foldl (fun x r => onFrame x n r (fun x f => ({ f with pinned := false }, x))) x) n c.tag
        0#8 (heldRegions x n c).length := by
  simp [runCmd, op, heldRegions]

theorem runCmd_fallow (op : c.op = 3#3) :
    runCmd x n c strict =
      endCmd (fallowRange x n c.base c.len strict) n c.tag 0#8 (regionsOf x n c.base c.len).length := by
  simp [runCmd, op]

/-- The dirty sectors of the held lines of a command's range, written back. -/
def cleanedRange (x : RM) (n : Nat) (c : RickCmd) : RM :=
  (heldRegions x n c).foldl (fun x r => onFrame x n r (fun x f => writeBackFrame x f)) x

theorem runCmd_clean (op : c.op = 4#3) :
    runCmd x n c strict = endCmd (cleanedRange x n c) n c.tag 0#8 (heldRegions x n c).length := by
  simp [runCmd, op, heldRegions, cleanedRange]

theorem runCmd_cleanDrop (op : c.op = 5#3) :
    runCmd x n c strict =
      endCmd ((heldRegions x n c).foldl (fun x r => dropLine x n r) (cleanedRange x n c)) n c.tag 0#8
        (heldRegions x n c).length := by
  simp [runCmd, op, heldRegions, cleanedRange]

end

/-- The command rows of a rick and the operation that each one writes. -/
def rickRows (tag : BitVec 8) (req : BitVec 32) : List ((Option (Fin 12) → Instr) × BitVec 3) :=
  [((fun s => .pin s tag req), 1#3), ((fun s => .unpin s tag req), 2#3), ((fun s => .fallow s tag req), 3#3),
    ((fun s => .clean s tag req), 4#3), ((fun s => .cleanDrop s tag req), 5#3)]

/-- A command row is a write of its operation to RICK_CMD. -/
theorem turns_rickRow {m n : Mod} {tag : BitVec 8} {req : BitVec 32} {e : (Option (Fin 12) → Instr) × BitVec 3}
    (listed : e ∈ rickRows tag req) (powered : m.boot.powered = true) (t : Option (Fin 12))
    (write : m.rickCmd t e.2 tag req = n) : Safety.Turns m (e.1 t) n := by
  simp only [rickRows, List.mem_cons, List.not_mem_nil, or_false] at listed
  rcases listed with rfl | rfl | rfl | rfl | rfl
  · exact turns_pin powered t tag req write
  · exact turns_unpin powered t tag req write
  · exact turns_fallow powered t tag req write
  · exact turns_clean powered t tag req write
  · exact turns_cleanDrop powered t tag req write

/-! ### Accesses that arrive at a slice (R244, R247) -/

/-- The caches once a read that misses has passed the filter and been counted. -/
def missCounted (x : RM) (n region cls : Nat) : RM :=
  countMiss (noteAccess (filterRead x n region) n cls) n cls (setOfRegion x region)

section
variable {x : RM} {n a len cls : Nat} {sheaf : Bool} {req : BitVec 32} {err : Bytes}
  (untracked : missOf (sliceOf x n) (a / 1024) = none)
include untracked

theorem readAccess_hit (hit : isHit x n a len sheaf = true) :
    readAccess x n a len cls sheaf req err =
      let r := readLine x n a len cls sheaf req err
      { r.2 with r := { r.2.r with answer := r.1 } } := by
  simp only [readAccess, untracked, hit, if_true]

/-- A sheaf read that misses always allocates, whether the slice holds the region without the sector or not at all; so it
takes a free miss register. -/
theorem readAccess_sheafMiss (miss : isHit x n a len true = false)
    (room : (sliceOf (missCounted x n (a / 1024) cls) n).miss.length < 64) :
    readAccess x n a len cls true req err =
      let x1 := missCounted x n (a / 1024) cls
      setSlice x1 n { sliceOf x1 n with
        miss := (sliceOf x1 n).miss ++ [⟨a / 1024, true, sectorMask (a % 1024) len, cls,
          [⟨a, false, true, cls, req, [], len⟩]⟩] } := by
  unfold missCounted at room ⊢
  have free := Nat.not_le.2 room
  cases held : frameOf (sliceOf x n) (setOfRegion x (a / 1024)) (a / 1024) with
  | some f => simp [readAccess, untracked, miss, held, free]
  | none => simp [readAccess, untracked, miss, held, allocates, free]

end

section
variable {m : Mod} {a len cls : Nat} {sheaf : Bool} {req : BitVec 32} {err bs : Bytes} {poison : Bool}

theorem Mod.rickReadRow_held (held : m.rangeHeld a len false = true) {w : Nat} (word : m.heldWord a len false = some w) :
    m.rickReadRow a len cls sheaf req err =
      m.hold w ⟨a, false, [], false, len, req, cls, sheaf, .access, m.clock.timeUs⟩ :=
  Mod.orHold_held held word

variable (free : m.gln.cells.any (fun e => e.2.active) = false)
include free

theorem Mod.rickReadRow_line (line : a % 1024 + len ≤ 1024 ∧ stackRangeOk a len = true) :
    m.rickReadRow a len cls sheaf req err = m.onRick req (fun x => readAccess x (sliceAt x a) a len cls sheaf req err) :=
  (Mod.orHold_free free).trans (if_pos line)

theorem Mod.rickReadRow_lines (lines : ¬(a % 1024 + len ≤ 1024 ∧ stackRangeOk a len = true)) :
    m.rickReadRow a len cls sheaf req err =
      let r := m.readStack a len cls sheaf req
      { r.2 with rick := { r.2.rick with answer := r.1 } } :=
  (Mod.orHold_free free).trans (if_neg lines)

theorem Mod.rickWriteRow_other (other : coreReq req = none) :
    m.rickWriteRow a bs poison cls sheaf req =
      if a % 1024 + bs.length ≤ 1024 ∧ stackRangeOk a bs.length = true then
        m.onRick req (fun x => writeAccess x (sliceAt x a) a [(bs, poison)] cls sheaf req)
      else (m.writeStack a [(bs, poison)] cls sheaf req).2 := by
  rw [Mod.rickWriteRow, Mod.orHold_free free]
  simp only [other]

theorem Mod.missFill_free (n region : Nat) :
    m.missFill n region =
      m.onRick (rickRequester n) (fun x => afterFill (fillMiss x n region) n m.safe.fallowStrict) :=
  if_neg (ne_true_of_eq_false (Mod.rangeHeld_free free (region * 1024) 1024 false))

end

end Sys2Proof.Machine

namespace Sys2Proof

open Machine

/-- Settles O42: a command goes by its first failed check, then by its operation; an access is held, or its slice's. -/
theorem ricksServeAccessesAndCommands : Obligations.RicksServeAccessesAndCommands := by
  unfold Obligations.RicksServeAccessesAndCommands
  intro m slice tag req a len region cls sheaf poison bs err powered strict free one
  refine ⟨?rows, ?command, ?held, ?line, ?lines, ?hit, ?miss, ?write, ?fill, ?timeout, ?interval⟩
  case rows =>
    intro e listed
    exact ⟨turns_rickRow listed powered (some slice) rfl, turns_rickRow listed powered none rfl⟩
  case command =>
    intro x n op s c rs held ends runs
    refine ⟨rickCommand_busy, fun idle => ⟨rickCommand_faulted idle, rickCommand_invalid idle, fun sound low high =>
      ⟨rickCommand_empty idle low high sound, rickCommand_unaligned idle sound low high,
        rickCommand_outside idle sound low high, fun ranged aligned short inside => ?_⟩⟩⟩
    have checked := rickCommand_checked (tag := tag) (req := req) (strict := strict) idle sound low high ranged aligned
      short inside
    have filled (clear : cmdWaits x n c = false) {y : RM} (run : runCmd x n c strict = y) : runs = y :=
      checked.trans ((if_neg fun ⟨_, waits⟩ => ne_true_of_eq_false clear waits).trans run)
    have never {k : BitVec 3} (named : op = k) (other : ¬(k = 1#3 ∨ k = 3#3)) {y : RM} (run : runCmd x n c strict = y) :
        runs = y := checked.trans ((if_neg fun ⟨waiting, _⟩ => other (named ▸ waiting)).trans run)
    refine ⟨?waits, ?pinFull, ?pin, ?unpin, ?fallow, ?clean, ?cleanDrop⟩
    case waits => exact fun waiting waits => checked.trans (if_pos ⟨waiting, waits⟩)
    case pinFull => exact fun named clear full => filled clear (runCmd_pinFull named full)
    case pin => exact fun named clear fits => filled clear (runCmd_pin named fits)
    case unpin => exact fun named => never named (by decide) (runCmd_unpin named)
    case fallow => exact fun named clear => filled clear (runCmd_fallow named)
    case clean => exact fun named => never named (by decide) (runCmd_clean named)
    case cleanDrop => exact fun named => never named (by decide) (runCmd_cleanDrop named)
  case held =>
    exact fun w held word => turns_rickRead powered a len cls sheaf req err (Mod.rickReadRow_held held word)
  case line => exact fun free line => turns_rickRead powered a len cls sheaf req err (Mod.rickReadRow_line free line)
  case lines =>
    exact fun free lines => turns_rickRead powered a len cls sheaf req err (Mod.rickReadRow_lines free lines)
  case hit => exact fun x n untracked hit => readAccess_hit untracked hit
  case miss =>
    rintro x n untracked miss _ rfl
    exact readAccess_sheafMiss untracked miss
  case write =>
    exact fun free other => turns_rickWrite powered a bs poison cls sheaf req (Mod.rickWriteRow_other free other)
  case fill => exact fun free => turns_missFill powered slice region (Mod.missFill_free free slice.val region)
  case timeout => exact turns_streamBypassTimeout powered slice cls rfl
  case interval => exact turns_rickInterval powered rfl

end Sys2Proof
end

section
/-!
PROOFS. What every step keeps: the settings in their ranges, the trims, and the commands that wait (R370, R441, R443, R455).
-/
namespace Sys2Proof.Machine

/-- Every command completes, and leaves the queue of its state. -/
theorem exec_completes (c : Instr) (s : State) : ∃ t, exec c s = .next t ∧ t.pending = s.pending := by
  by_cases boot : ∃ straps low ms, c = .boot straps low ms
  · obtain ⟨straps, low, ms, rfl⟩ := boot
    exact ⟨_, rfl, rfl⟩
  · obtain ⟨f, acts⟩ := exec_on c fun straps low ms h => boot ⟨straps, low, ms, h⟩
    refine ⟨_, acts s, ?_⟩
    split <;> rfl

end Sys2Proof.Machine

namespace Sys2Proof

open Machine

/-- Settles O7: what a step may do to the settings keeps them in their ranges. -/
theorem stepsKeepSettingsInRange : Obligations.StepsKeepSettingsInRange := by
  unfold Obligations.StepsKeepSettingsInRange
  intro s t inRange stepped
  have follows : s.m.kept.Follows t.m.kept := step_follows stepped
  exact (settings_iff_kept t.m).mpr (follows.inRange ((settings_iff_kept s.m).mp inRange))

/-- Settles O6: what a step may do to the trims only raises them. -/
theorem stepsNeverLowerTrim : Obligations.StepsNeverLowerTrim := by
  unfold Obligations.StepsNeverLowerTrim
  intro s t band stepped
  exact (step_follows stepped).trims band

/-- Settles O4: BOOT completes by itself, every other command through the module's power. -/
theorem everyCommandCompletesKeepingQueue : Obligations.EveryCommandCompletesKeepingQueue := by
  unfold Obligations.EveryCommandCompletesKeepingQueue
  exact exec_completes

end Sys2Proof
end

section
/-!
PROOFS. What reset leaves (R392, R411, R412, R422, R443, R478).
-/
namespace Sys2Proof.Machine

/-- The defaults of the settings that have a range stand in it. -/
theorem settingsInRange_reset : Safety.SettingsInRange Mod.reset where
  paceLimit := by decide
  capW := by decide
  capNext v waits := by cases waits
  trims band := Nat.zero_le _
  rotEnable := by decide
  rotSpread := by decide
  rotInterval := by decide
  maxRead := by decide

/-- After reset no step of bring-up is done. -/
theorem steps_reset : ∀ x ∈ Mod.reset.boot.steps, x.st = .notDone ∧ x.status = 0#8 := by decide

theorem band_reset : ∀ b, b < 16 → (Mod.reset.band b).closed = false := by decide

theorem port_reset : ∀ p, p < 36 → (Mod.reset.port p).train.st = .down := by decide

theorem effective_reset : Mod.reset.effective 0 0 = .fenced := by decide

end Sys2Proof.Machine

namespace Sys2Proof

open Machine

/-- Settles O8: every field of the state after reset is its default. -/
theorem resetMeetsInvariants : Obligations.ResetMeetsInvariants := by
  unfold Obligations.ResetMeetsInvariants
  exact ⟨rfl, rfl, rfl, effective_reset, rfl, steps_reset, rfl, rfl, band_reset, rfl, rfl, rfl, rfl, port_reset, rfl, rfl, rfl,
    rfl, rfl, rfl, rfl, rfl, rfl, rfl, rfl, settingsInRange_reset, fusesBurned_refl _⟩

end Sys2Proof
end

section
/-!
PROOFS. Frames and answers of the node: EMCY frames and answers to requests (R388, R392, R408, R460).
-/
namespace Sys2Proof.Machine

/-- An event below severity fault is only logged. -/
theorem Mod.raise_below_fault (m : Mod) {e : Event} (below : e.severity.code < 2) (u : BitVec 32) (p : Bytes) :
    m.raise e u p = m.logEvent e u p := by
  have noRecord : (m.record e u p).cairn = false := decide_eq_false (Nat.not_le.mpr below)
  simp [Mod.raise, noRecord]

/-- A node that is stopped, bus-off or restarting answers nothing. -/
theorem Mod.answer_silent {m : Mod} (silent : m.can.nmt = .stopped ∨ m.can.busOff = true ∨ m.boot.mcDown = true) (fd : Bool)
    (i sub : Nat) (r : SdoResult) : m.answer fd i sub r = m := by
  have notServing : m.serving = false := by
    rcases silent with h | h | h <;> simp [Mod.serving, h]
  simp [Mod.answer, notServing]

end Sys2Proof.Machine

namespace Sys2Proof

open Machine

/-- Settles O17: an answer is appended exactly while the node serves. -/
theorem answersAreSentWhileServing : Obligations.AnswersAreSentWhileServing := by
  unfold Obligations.AnswersAreSentWhileServing
  intro m fd index sub r
  refine ⟨fun started onBus up calm => ?serves, fun silent => Mod.answer_silent silent fd index sub r⟩
  have serves : m.serving = true := by simp [Mod.serving, started, onBus, up]
  exact Mod.answer_serving serves calm fd index sub r

/-- Settles O15: the event is logged once, and the log's one EMCY frame is what the node sends. -/
theorem raisingSendsEmcy : Obligations.RaisingSendsEmcy := by
  unfold Obligations.RaisingSendsEmcy
  intro m e unit p below short calm
  rw [Mod.raise_below_fault m below, logEvent_short m e unit p (by omega)]
  obtain ⟨-, -, -, -, frames⟩ := logOne_keeps m e unit p
  exact frames calm

end Sys2Proof
end

section
/-!
PROOFS. Verification of a package (R484).
-/
namespace Sys2Proof.Machine

/-- The first check, on the header's form, as the fields of the header say it. -/
theorem pkgFormOk_iff (kind : Nat) (hdr : Bytes) : pkgFormOk kind hdr = true ↔
    let w := leNat (hdr.take 16)
    w % 2 ^ 32 = 0x46504B31 ∧ w / 2 ^ 32 % 256 = kind ∧ w / 2 ^ 42 % 64 = 0 ∧ w / 2 ^ 54 % 1024 = 0
      ∧ 1 ≤ leNat ((hdr.drop 12).take 4) ∧ leNat ((hdr.drop 12).take 4) ≤ (if kind = 1 then 2096640 else 67108864)
      ∧ ∀ x ∈ (hdr.drop 112).take 336, x = 0#8 := by
  simp only [pkgFormOk, Bool.and_eq_true, decide_eq_true_eq, List.all_eq_true, beq_iff_eq, and_assoc, field, pkgLength,
    Nat.pow_zero, Nat.div_one, Nat.reducePow]

/-- A digest is enrolled if it has a byte other than zero (R482). -/
theorem enrolled_iff (k : Bytes) : enrolled k = true ↔ ∃ x ∈ k, x ≠ 0#8 := by
  simp [enrolled]

end Sys2Proof.Machine

namespace Sys2Proof

open Machine

/-- Settles O60: each check that passes leaves the status to the next. -/
theorem packagesAreVerifiedInOrder : Obligations.PackagesAreVerifiedInOrder := by
  unfold Obligations.PackagesAreVerifiedInOrder
  intro f kind hdr body w pub index digest st form known old signed
  have formOk : pkgFormOk kind hdr = true ↔ form := pkgFormOk_iff kind hdr
  have knownOk : (enrolled digest = false ∨ sm3 pub ≠ digest) ↔ ¬ known := by
    rw [← Bool.not_eq_true, enrolled_iff, ← not_and_or]
  have signedOk : sm2Verify pub (hdr.take 448) ((hdr.drop 448).take 64) = false ↔ ¬ signed :=
    (Bool.not_eq_true _).to_iff.symm
  have status : st = if ¬ form then 0xE0#8 else if ¬ known then 0xE1#8 else if f.revoked.getLsbD index = true then 0xE2#8
      else if old then 0xE3#8 else if ¬ signed then 0xE4#8 else if sm3 body ≠ (hdr.drop 16).take 32 then 0xE5#8
      else 0#8 := by
    simp only [← formOk, ← knownOk, ← signedOk, Bool.not_eq_true]
    rfl
  refine ⟨fun h1 => ?_, fun h1 h2 => ?_, fun h1 h2 h3 => ?_, fun h1 h2 h3 h4 => ?_, fun h1 h2 h3 h4 h5 => ?_,
    fun h1 h2 h3 h4 h5 h6 => ?_, fun h1 h2 h3 h4 h5 h6 => ?_⟩ <;> simp [*]

end Sys2Proof
end

section
/-!
PROOFS. The SDO server: the aborts of a request in their order, whole writes, reads, and segmented transfers (R390, R394).
-/
namespace Sys2Proof.Machine

/-! ### The checks of a write (R394) -/

section
variable {m : Mod} {i sub : Nat} {r : ObjRow}

theorem Mod.writeCheck_noObject (none : objExists i = false) (len : Nat) : m.writeCheck i sub len = abNoObject := if_pos none

theorem Mod.writeCheck_noSub (exist : objExists i = true) (none : objRow i sub = none) (len : Nat) :
    m.writeCheck i sub len = abNoSub := by
  simp [Mod.writeCheck, exist, none]

theorem Mod.writeCheck_readOnly (exist : objExists i = true) (row : objRow i sub = some r) (acc : r.acc = .ro ∨ r.acc = .const)
    (len : Nat) : m.writeCheck i sub len = abReadOnly := by
  simp [Mod.writeCheck, exist, row, acc]

theorem Mod.writeCheck_length (exist : objExists i = true) (row : objRow i sub = some r) (notRo : r.acc ≠ .ro)
    (notConst : r.acc ≠ .const) (may : m.mayWrite i sub r = true) {len : Nat} (odd : r.ty.takes len = false) :
    m.writeCheck i sub len = abLength := by
  simp [Mod.writeCheck, exist, row, notRo, notConst, may, odd]

end

/-! ### SDO_DOWNLOAD (R390) -/

/-- The module with another transfer open, or none. -/
def Mod.withTransfer (m : Mod) (t : Option SdoTransfer) : Mod := { m with can := { m.can with transfer := t } }

/-- What transfer is open does not change whether the node answers. -/
theorem Mod.withTransfer_answer {m : Mod} (serving : m.serving = true) (calm : m.inject.armed = false)
    (t : Option SdoTransfer) (fd : Bool) (i sub : Nat) (r : SdoResult) :
    (m.withTransfer t).answer fd i sub r = Safety.answered (m.withTransfer t) fd i sub r :=
  Mod.answer_serving (m := m.withTransfer t) serving calm fd i sub r

section
variable {m : Mod} (serves : Safety.Serves m) (fd : Bool) (i sub : Nat)
include serves

/-- A serving node's refusal of a request is its answer. -/
theorem Mod.answer_abort (c : Nat) : m.answer fd i sub (.abort c) = Safety.refused m fd i sub c :=
  Mod.answer_serving serves.serving serves.calm fd i sub _

theorem Mod.sdoDownload_invalid (size : Nat) (data : Option Bytes) (x : ObjIn) :
    m.sdoDownload false fd i sub size data x = Safety.refused m fd i sub abSpecifier := by
  rw [Mod.sdoDownload, Mod.request_serving serves.serving serves.calm, if_pos rfl, Mod.answer_abort serves]

/-- A download that a check of its data's length, or of the announced length, refuses. -/
theorem Mod.sdoDownload_checked (size : Nat) (data : Option Bytes) (x : ObjIn) {c : Nat}
    (check : m.writeCheck i sub (data.elim size List.length) = c) (code : c ≠ 0) :
    m.sdoDownload true fd i sub size data x = Safety.refused m fd i sub c := by
  subst check
  rw [Mod.sdoDownload, Mod.request_serving serves.serving serves.calm, if_neg Bool.false_ne_true.symm]
  cases data with
  | none =>
    rw [Option.elim_none] at code ⊢
    simp [serves.closed, code, Mod.answer_abort serves]
  | some bs =>
    rw [Option.elim_some] at code ⊢
    simp [serves.closed, Mod.objWrite_refused (m := m) i sub bs x code, sdoWritten, code, Mod.answer_abort serves]

/-- A download announced with its length opens a transfer. -/
theorem Mod.sdoDownload_opens (size : Nat) (x : ObjIn) (check : m.writeCheck i sub size = 0) :
    m.sdoDownload true fd i sub size none x = 
      Safety.answered (m.withTransfer (some ⟨true, i, sub, fd, size, []⟩)) fd i sub (.opened size) := by
  rw [Mod.sdoDownload, Mod.request_serving serves.serving serves.calm, if_neg Bool.false_ne_true.symm]
  simp only [serves.closed, check, Option.isSome_none, Bool.false_eq_true, if_false, ne_eq, not_true_eq_false]
  exact Mod.withTransfer_answer serves.serving serves.calm _ fd i sub _

omit serves in
/-- A download that carries its data is a whole write. -/
theorem Mod.sdoDownload_whole (m : Mod) (size : Nat) (bs : Bytes) (x : ObjIn) :
    m.sdoDownload true fd i sub size (some bs) x = m.sdoWhole fd i sub bs x := rfl

variable {fd i sub}

/-- A whole write whose checks pass is answered by its effect. -/
theorem Mod.sdoWhole_effect {n : Mod} {c : Nat} {bs : Bytes} {x : ObjIn} (check : m.writeCheck i sub bs.length = 0)
    (effect : m.objEffect i sub bs x = (c, n)) (serving : n.serving = true) (calm : n.inject.armed = false) :
    m.sdoWhole fd i sub bs x = Safety.answered n fd i sub (sdoWritten c) :=
  Mod.sdoWhole_serves serves fd i sub bs x ((Mod.objWrite_normal serves.normal i sub bs x check).trans effect) serving calm

/-- A whole write of an object with a range refuses what lies outside it. -/
theorem Mod.sdoWhole_inRange {n : Mod} {lo hi v : Nat} {bs : Bytes} {x : ObjIn} (check : m.writeCheck i sub bs.length = 0)
    (effect : m.objEffect i sub bs x = inRange lo hi v m (0, n)) (serving : n.serving = true)
    (calm : n.inject.armed = false) :
    m.sdoWhole fd i sub bs x =
      if v < lo then Safety.refused m fd i sub abLow
      else if hi < v then Safety.refused m fd i sub abHigh
      else Safety.accepted n fd i sub := by
  unfold inRange at effect
  split at effect
  case isTrue low => rw [if_pos low]; exact Mod.sdoWhole_effect serves check effect serves.serving serves.calm
  case isFalse notLow =>
    rw [if_neg notLow]
    split at effect
    case isTrue high => rw [if_pos high]; exact Mod.sdoWhole_effect serves check effect serves.serving serves.calm
    case isFalse notHigh => rw [if_neg notHigh]; exact Mod.sdoWhole_effect serves check effect serving calm

end

/-! ### Objects with no row of their own -/

set_option maxRecDepth 40000 in
theorem row_3030_1 : objExists 0x3030 = true ∧ objRow 0x3030 1 = some ⟨0x3030, 1, 0x01, 1, .u8, .rw, 0⟩ := by decide

set_option maxRecDepth 40000 in
theorem row_3E00_3 : objExists 0x3E00 = true ∧ objRow 0x3E00 3 = some ⟨0x3E00, 1, 0x03, 1, .u64, .rw, 0⟩ := by decide

set_option maxRecDepth 40000 in
theorem row_3E00_5 : objExists 0x3E00 = true ∧ objRow 0x3E00 5 = some ⟨0x3E00, 1, 0x05, 1, .u64, .rw, 0⟩ := by decide

theorem check_3030_1 (m : Mod) : m.writeCheck 0x3030 1 1 = 0 :=
  Mod.writeCheck_pass row_3030_1.1 row_3030_1.2 rfl (Mod.mayWrite_rw rfl) rfl

set_option maxRecDepth 40000 in
theorem effect_3030_1 (m : Mod) (bs : Bytes) (x : ObjIn) : m.objEffect 0x3030 1 bs x =
    inRange 1 24 (leNat bs) m (0, { m with memStacks := { m.memStacks with scrubPeriod := BitVec.ofNat 8 (leNat bs) } }) := by
  unfold Mod.objEffect
  rfl

theorem check_3E00_3 (m : Mod) : m.writeCheck 0x3E00 3 8 = 0 :=
  Mod.writeCheck_pass row_3E00_3.1 row_3E00_3.2 rfl (Mod.mayWrite_rw rfl) rfl

set_option maxRecDepth 40000 in
theorem effect_3E00_3 (m : Mod) (bs : Bytes) (x : ObjIn) : m.objEffect 0x3E00 3 bs x =
    (0, { m with log := { m.log with select := BitVec.ofNat 64 (leNat bs) } }) := by
  unfold Mod.objEffect
  rfl

theorem check_3E00_5 (m : Mod) : m.writeCheck 0x3E00 5 8 = 0 :=
  Mod.writeCheck_pass row_3E00_5.1 row_3E00_5.2 rfl (Mod.mayWrite_rw rfl) rfl

set_option maxRecDepth 40000 in
theorem effect_3E00_5 (m : Mod) (bs : Bytes) (x : ObjIn) : m.objEffect 0x3E00 5 bs x =
    inRange 0 m.log.next.toNat (leNat bs) m (0, { m with log := { m.log with read := BitVec.ofNat 64 (leNat bs) } }) := by
  unfold Mod.objEffect
  rfl

section
variable {m : Mod} (serves : Safety.Serves m) (fd : Bool) (x : ObjIn)
include serves

theorem Mod.sdoWhole_scrubPeriod (v : BitVec 8) : m.sdoWhole fd 0x3030 1 (regBytes v) x =
    if v.toNat = 0 then Safety.refused m fd 0x3030 1 abLow
    else if 24 < v.toNat then Safety.refused m fd 0x3030 1 abHigh
    else Safety.accepted { m with memStacks := { m.memStacks with scrubPeriod := v } } fd 0x3030 1 := by
  have effect : m.objEffect 0x3030 1 (regBytes v) x =
      inRange 1 24 v.toNat m (0, { m with memStacks := { m.memStacks with scrubPeriod := v } }) := by
    rw [effect_3030_1, ofNat_leNat_regBytes, leNat_regBytes]
  have ranged := Mod.sdoWhole_inRange serves (fd := fd) (by rw [length_regBytes]; exact check_3030_1 m) effect serves.serving
    serves.calm
  simpa only [Nat.lt_one_iff] using ranged

theorem Mod.sdoWhole_nodeIdOverride (v : BitVec 8) : m.sdoWhole fd 0x2001 2 (regBytes v) x =
    if 127 < v.toNat then Safety.refused m fd 0x2001 2 abHigh
    else Safety.accepted { m with can := { m.can with nodeIdOverride := v } } fd 0x2001 2 := by
  have effect : m.objEffect 0x2001 2 (regBytes v) x =
      inRange 0 127 v.toNat m (0, { m with can := { m.can with nodeIdOverride := v } }) := by
    rw [effect_2001_2, ofNat_leNat_regBytes, leNat_regBytes]
  exact Mod.sdoWhole_inRange serves (by rw [length_regBytes]; exact check_2001_2 m) effect serves.serving serves.calm

theorem Mod.sdoWhole_logSelect (v : BitVec 64) : m.sdoWhole fd 0x3E00 3 (regBytes v) x =
    Safety.accepted { m with log := { m.log with select := v } } fd 0x3E00 3 := by
  have effect : m.objEffect 0x3E00 3 (regBytes v) x = (0, { m with log := { m.log with select := v } }) := by
    rw [effect_3E00_3, ofNat_leNat_regBytes]
  exact Mod.sdoWhole_effect serves (by rw [length_regBytes]; exact check_3E00_3 m) effect serves.serving serves.calm

theorem Mod.sdoWhole_logRead (v : BitVec 64) : m.sdoWhole fd 0x3E00 5 (regBytes v) x =
    if m.log.next.toNat < v.toNat then Safety.refused m fd 0x3E00 5 abHigh
    else Safety.accepted { m with log := { m.log with read := v } } fd 0x3E00 5 := by
  have effect : m.objEffect 0x3E00 5 (regBytes v) x =
      inRange 0 m.log.next.toNat v.toNat m (0, { m with log := { m.log with read := v } }) := by
    rw [effect_3E00_5, ofNat_leNat_regBytes, leNat_regBytes]
  exact Mod.sdoWhole_inRange serves (by rw [length_regBytes]; exact check_3E00_5 m) effect serves.serving serves.calm

theorem Mod.sdoWhole_unitSelect (v : BitVec 32) : m.sdoWhole fd 0x2400 1 (regBytes v) x =
    if unitExists v then Safety.accepted { m with units := { m.units with unitSelect := v } } fd 0x2400 1
    else Safety.refused m fd 0x2400 1 abValue := by
  have check : m.writeCheck 0x2400 1 (regBytes v).length = 0 := by rw [length_regBytes]; exact check_2400_1 m
  have effect : m.objEffect 0x2400 1 (regBytes v) x =
      if unitExists v then (0, { m with units := { m.units with unitSelect := v } }) else (abValue, m) := by
    rw [effect_2400_1, ofNat_leNat_regBytes]
  split
  case isTrue known =>
    exact Mod.sdoWhole_effect serves check (effect.trans (if_pos known)) serves.serving serves.calm
  case isFalse unknown =>
    exact Mod.sdoWhole_effect serves check (effect.trans (if_neg unknown)) serves.serving serves.calm

end

/-! ### SDO_UPLOAD (R390, R394) -/

section
variable {m : Mod} (serves : Safety.Serves m) (fd : Bool) {i sub : Nat}
include serves

theorem Mod.sdoUpload_invalid : m.sdoUpload false fd i sub = Safety.refused m fd i sub abSpecifier := by
  rw [Mod.sdoUpload, Mod.request_serving serves.serving serves.calm, if_pos rfl, Mod.answer_abort serves]

/-- A read that leaves the module is answered with its abort code or its value, or opens a transfer with its snapshot. -/
theorem Mod.sdoUpload_reads {a : Except Nat Bytes} (reads : m.objRead i sub = (a, m)) :
    m.sdoUpload true fd i sub = match a with
      | .error c => Safety.refused m fd i sub c
      | .ok bs => if bs.length ≤ sdoFits fd then Safety.answered m fd i sub (.data bs)
          else Safety.answered (m.withTransfer (some ⟨false, i, sub, fd, bs.length, bs⟩)) fd i sub (.opened bs.length) := by
  rw [Mod.sdoUpload, Mod.request_serving serves.serving serves.calm, if_neg Bool.false_ne_true.symm]
  simp only [serves.closed, Option.isSome_none, Bool.false_eq_true, if_false, reads]
  cases a with
  | error c => exact Mod.answer_abort serves fd i sub c
  | ok bs =>
    dsimp only
    split
    · exact Mod.answer_serving serves.serving serves.calm fd i sub _
    · exact Mod.withTransfer_answer serves.serving serves.calm _ fd i sub _

omit serves

theorem Mod.objRead_refused {c : Nat} (check : m.readCheck i sub = c) (code : c ≠ 0) : m.objRead i sub = (.error c, m) := by
  subst check
  exact if_pos code

theorem Mod.readCheck_noObject (none : objExists i = false) : m.readCheck i sub = abNoObject := if_pos none

theorem Mod.readCheck_noSub (exist : objExists i = true) (none : objRow i sub = none) : m.readCheck i sub = abNoSub := by
  simp [Mod.readCheck, exist, none]

theorem Mod.readCheck_writeOnly {r : ObjRow} (exist : objExists i = true) (row : objRow i sub = some r) (acc : r.acc = .wo) :
    m.readCheck i sub = abWriteOnly := by
  simp [Mod.readCheck, exist, row, acc]

/-- Outside recovery mode a readable object other than DBG_ACC gives its value. -/
theorem Mod.objRead_value {r : ObjRow} (normal : m.sec.recovery = false) (exist : objExists i = true)
    (row : objRow i sub = some r) (acc : r.acc ≠ .wo) (other : i ≠ 0x4450) :
    m.objRead i sub = ((m.objValue i sub).elim (.error abNoData) .ok, m) := by
  have check : m.readCheck i sub = 0 := by simp [Mod.readCheck, exist, row, acc, other, normal]
  simp only [Mod.objRead, check, ne_eq, not_true_eq_false, if_false, other, false_and]
  cases m.objValue i sub <;> rfl

end

/-! ### SDO_SEGMENT and SDO_SEGMENT_TIMEOUT (R390) -/

section
variable {m : Mod} (serving : m.serving = true) (calm : m.inject.armed = false) (fd last : Bool) (data : Bytes) (x : ObjIn)

theorem Mod.sdoTimeout_closed (closed : m.can.transfer = none) : m.sdoTimeout = m := by
  simp [Mod.sdoTimeout, closed]

include serving calm

theorem Mod.sdoSegmentRow_closed (closed : m.can.transfer = none) :
    m.sdoSegmentRow fd data last x = Safety.refused m fd 0 0 abSpecifier := by
  rw [Mod.sdoSegmentRow, Mod.request_serving serving calm]
  simp only [closed]
  exact Mod.answer_serving serving calm fd 0 0 _

variable {t : SdoTransfer} (opened : m.can.transfer = some t)
include opened

theorem Mod.sdoTimeout_open : m.sdoTimeout = Safety.refused m.closeTransfer t.usdo t.index t.sub abTimeout := by
  simp only [Mod.sdoTimeout, opened]
  exact Mod.withTransfer_answer serving calm none _ _ _ _

/-- A segment of the open transfer's frame kind is one of its direction. -/
theorem Mod.sdoSegmentRow_open (kind : t.usdo = fd) :
    m.sdoSegmentRow fd data last x = if t.download then m.downSegment t data last x else m.upSegment t := by
  rw [Mod.sdoSegmentRow, Mod.request_serving serving calm]
  simp only [opened, kind, ne_eq, not_true_eq_false, if_false]

omit opened

theorem Mod.upSegment_answered : m.upSegment t = Safety.answered
    (m.withTransfer
      (if t.data.length ≤ sdoSegment t.usdo then none else some { t with data := t.data.drop (sdoSegment t.usdo) }))
    t.usdo t.index t.sub
    (.segment (t.data.take (sdoSegment t.usdo)) (decide (t.data.length ≤ sdoSegment t.usdo))) := by
  simp only [Mod.upSegment, decide_eq_true_eq]
  exact Mod.withTransfer_answer serving calm _ _ _ _ _

/-- A segment beyond the announced size, or a last one short of it, ends the transfer. -/
theorem Mod.downSegment_missized
    (odd : t.size < t.data.length + data.length ∨ (last = true ∧ t.data.length + data.length ≠ t.size)) :
    m.downSegment t data last x = Safety.refused m.closeTransfer t.usdo t.index t.sub abLength := by
  rw [← List.length_append] at odd
  exact (if_pos odd).trans (Mod.withTransfer_answer serving calm none _ _ _ _)

theorem Mod.downSegment_kept (fits : t.data.length + data.length ≤ t.size) :
    m.downSegment t data false x =
      Safety.answered (m.withTransfer (some { t with data := t.data ++ data })) t.usdo t.index t.sub .more := by
  rw [← List.length_append] at fits
  have even : ¬ (t.size < (t.data ++ data).length ∨ (false = true ∧ (t.data ++ data).length ≠ t.size)) := by
    simp only [Bool.false_eq_true, false_and, or_false]; omega
  exact (if_neg even).trans (Mod.withTransfer_answer serving calm _ _ _ _ _)

/-- The last segment writes the whole value, as one write with the transfer closed would. -/
theorem Mod.downSegment_last (whole : t.data.length + data.length = t.size) :
    m.downSegment t data true x
      = m.closeTransfer.sdoDownload true t.usdo t.index t.sub t.size (some (t.data ++ data)) x := by
  rw [← List.length_append] at whole
  have even : ¬ (t.size < (t.data ++ data).length ∨ (true = true ∧ (t.data ++ data).length ≠ t.size)) := by
    simp [whole]
  have request := Mod.request_serving (m := m.closeTransfer) serving calm
  rw [Mod.sdoDownload, request]
  exact if_neg even

end

end Sys2Proof.Machine

namespace Sys2Proof

open Machine

/-- Settles O11: each check refuses with its code before the next is made, and each object writes what its effect says. -/
theorem downloadsAreCheckedInAbortOrder : Obligations.DownloadsAreCheckedInAbortOrder := by
  unfold Obligations.DownloadsAreCheckedInAbortOrder
  constructor
  case left =>
    intro m fd index sub size data x r i k len powered serves
    have refuses {c : Nat} (check : m.writeCheck i k (data.elim size List.length) = c) (code : c ≠ 0) :
        Safety.Turns m (.sdoDownload true fd index sub size data x) (Safety.refused m fd i k c) :=
      turns_sdoDownload powered _ _ _ _ _ _ _ (Mod.sdoDownload_checked serves fd i k size data x check code)
    refine ⟨?invalid, fun none => ?noObject, fun exist none => ?noSub, fun exist row acc => ?readOnly,
      fun exist row acc may => ?auth, fun exist row notRo notConst may => ⟨fun odd => ?length, fun announced even => ?opens⟩⟩
    case invalid => exact turns_sdoDownload powered _ _ _ _ _ _ _ (Mod.sdoDownload_invalid serves fd i k size data x)
    case noObject => exact refuses (Mod.writeCheck_noObject none _) (by decide)
    case noSub => exact refuses (Mod.writeCheck_noSub exist none _) (by decide)
    case readOnly => exact refuses (Mod.writeCheck_readOnly exist row acc _) (by decide)
    case auth => exact refuses (Mod.writeCheck_auth exist row (by simp [acc]) may) (by decide)
    case length =>
      have length : data.elim size List.length = len := by cases data <;> rfl
      exact refuses (Mod.writeCheck_length exist row notRo notConst may (length ▸ odd)) (by decide)
    case opens =>
      subst announced
      have check : m.writeCheck i k size = 0 := Mod.writeCheck_pass exist row (by simp [notRo, notConst]) may even
      exact turns_sdoDownload powered _ _ _ _ _ _ _ (Mod.sdoDownload_opens serves fd i k size x check)
  case right =>
    intro m fd x powered serves
    have whole {n : Mod} {index : BitVec 16} {sub : BitVec 8} {size : Nat} {bs : Bytes}
        (writes : m.sdoWhole fd index.toNat sub.toNat bs x = n) :
        Safety.Turns m (.sdoDownload true fd index sub size (some bs) x) n :=
      turns_sdoDownload powered _ _ _ _ _ _ _ writes
    refine ⟨fun v => ⟨whole ?scrub, whole ?override⟩, fun v => ⟨whole ?select, whole ?read⟩, fun v => whole ?unit⟩
    case scrub => exact Mod.sdoWhole_scrubPeriod serves fd x v
    case override => exact Mod.sdoWhole_nodeIdOverride serves fd x v
    case select => exact Mod.sdoWhole_logSelect serves fd x v
    case read => exact Mod.sdoWhole_logRead serves fd x v
    case unit => exact Mod.sdoWhole_unitSelect serves fd x v

/-- Settles O12: a check refuses with its code, and what is read is answered or opens the transfer of its snapshot. -/
theorem uploadServesOneSnapshot : Obligations.UploadServesOneSnapshot := by
  unfold Obligations.UploadServesOneSnapshot
  intro m fd index sub r bs i k powered serves
  have refuses {c : Nat} (check : m.readCheck i k = c) (code : c ≠ 0) :
      Safety.Turns m (.sdoUpload true fd index sub) (Safety.refused m fd i k c) :=
    turns_sdoUpload powered _ _ _ _ (Mod.sdoUpload_reads serves fd (Mod.objRead_refused check code))
  refine ⟨?invalid, fun none => ?noObject, fun exist none => ?noSub, fun exist row => ⟨fun acc => ?writeOnly,
    fun acc other => ⟨fun noData => ?noData, fun value => ?value⟩⟩⟩
  case invalid => exact turns_sdoUpload powered _ _ _ _ (Mod.sdoUpload_invalid serves fd)
  case noObject => exact refuses (Mod.readCheck_noObject none) (by decide)
  case noSub => exact refuses (Mod.readCheck_noSub exist none) (by decide)
  case writeOnly => exact refuses (Mod.readCheck_writeOnly exist row acc) (by decide)
  case noData =>
    have reads := Mod.objRead_value serves.normal exist row acc other
    rw [noData] at reads
    exact turns_sdoUpload powered _ _ _ _ (Mod.sdoUpload_reads serves fd reads)
  case value =>
    have reads := Mod.objRead_value serves.normal exist row acc other
    rw [value] at reads
    exact turns_sdoUpload powered _ _ _ _ (Mod.sdoUpload_reads serves fd reads)

/-- Settles O13: a segment acts by the transfer that is open, and a timeout ends it. -/
theorem segmentsCarryOneTransfer : Obligations.SegmentsCarryOneTransfer := by
  unfold Obligations.SegmentsCarryOneTransfer
  intro m fd last data x t index sub powered serving calm normal closed n
  refine ⟨fun none => ⟨?noTransfer, ?idle⟩, fun opened => ⟨?timeout, fun kind up => ?upload,
    fun kind down => ⟨fun odd => ?missized, fun more fits => ?kept, fun done whole atIndex atSub w writes => ?last⟩⟩⟩
  case noTransfer => exact turns_sdoSegment powered _ _ _ _ (Mod.sdoSegmentRow_closed serving calm fd last data x none)
  case idle => exact turns_sdoSegmentTimeout powered (Mod.sdoTimeout_closed none)
  case timeout => exact turns_sdoSegmentTimeout powered (Mod.sdoTimeout_open serving calm opened)
  case upload =>
    subst kind
    have row := Mod.sdoSegmentRow_open serving calm t.usdo last data x opened rfl
    exact turns_sdoSegment powered _ _ _ _
      (row.trans ((if_neg (ne_true_of_eq_false up)).trans (Mod.upSegment_answered serving calm)))
  case missized =>
    subst kind
    have row := Mod.sdoSegmentRow_open serving calm t.usdo last data x opened rfl
    exact turns_sdoSegment powered _ _ _ _
      (row.trans ((if_pos down).trans (Mod.downSegment_missized serving calm last data x odd)))
  case kept =>
    subst kind more
    have row := Mod.sdoSegmentRow_open serving calm t.usdo false data x opened rfl
    exact turns_sdoSegment powered _ _ _ _ (row.trans ((if_pos down).trans (Mod.downSegment_kept serving calm data x fits)))
  case last =>
    subst kind done
    have row := (Mod.sdoSegmentRow_open serving calm t.usdo true data x opened rfl).trans
      ((if_pos down).trans (Mod.downSegment_last serving calm data x whole))
    rw [atIndex, atSub] at row
    refine turns_sdoSegment powered _ _ _ _ (row.trans ?_)
    have same := turns_sdoDownload (m := closed) powered true t.usdo index sub t.size (some (t.data ++ data)) x rfl []
    rw [writes []] at same
    injection same with same
    injection same with same
    exact same.symm

end Sys2Proof
end

section
/-!
PROOFS. The CAN FD node's services: NMT commands, heartbeats, CONSUMER_HB, PDOs, bus-off and the error register (R388, R391
to R393, R395 to R397, R523).
-/
namespace Sys2Proof.Machine

/-! ### Frames on the bus -/

section
variable {m : Mod} (onBus : m.can.busOff = false) (up : m.boot.mcDown = false) (calm : m.inject.armed = false)
include onBus up calm

theorem Mod.sendFrame_onBus (k : Nat) (f : CanFrame) :
    m.sendFrame k f = { m with can := { m.can with out := m.can.out ++ [f] } } := by
  simp [Mod.sendFrame, onBus, up, Mod.dropsFrame_calm calm]

theorem Mod.otherFrame_onBus (go : Mod → Mod) : m.otherFrame go = go m := by
  simp [Mod.otherFrame, Mod.onBus, onBus, up, Mod.dropsFrame_calm calm]

end

theorem Mod.otherFrame_offBus {m : Mod} (off : m.can.busOff = true ∨ m.boot.mcDown = true) (go : Mod → Mod) :
    m.otherFrame go = m := by
  have offBus : m.onBus = false := by rcases off with h | h <;> simp [Mod.onBus, h]
  exact if_pos offBus

/-! ### NMT (R391 to R393) -/

/-- Reports after reports are reports. -/
theorem onlyReports_trans {a b c : Mod} (first : Safety.OnlyReports a b) (second : Safety.OnlyReports b c) :
    Safety.OnlyReports a c := by
  unfold Safety.OnlyReports at *
  rw [second, first]

/-- A change of the NMT state is all that it reports. -/
theorem Mod.setNmt_only (m : Mod) (s : Nmt) :
    Safety.OnlyReports { m with can := { m.can with nmt := s } } (m.setNmt s) := by
  unfold Mod.setNmt
  split
  case isTrue same => subst same; rfl
  case isFalse => exact Mod.raise_only _ _ _ _

theorem Mod.setNmt_calm {m : Mod} (calm : m.inject.armed = false) (s : Nmt) : (m.setNmt s).inject.armed = false := by
  unfold Mod.setNmt
  split
  case isTrue => exact calm
  case isFalse => rw [raise_calm (by exact calm)]; exact calm

/-- The module with the communication objects at their defaults, under the node-ID chosen again (R391 to R393). -/
def Mod.commDefaults (m : Mod) : Mod :=
  let keeps := decide (m.effective 0 0 = .run)
  { m with can := m.can.defaults keeps (chooseNode m.can.strapNodeId m.can.nodeIdOverride) }

/-- A node-ID fits the register of the active node-ID. -/
theorem chooseNode_lt (strap : BitVec 7) (override : BitVec 8) : chooseNode strap override < 256 := by
  unfold chooseNode
  split
  · exact override.isLt
  · split
    · exact strap.isLt.trans (by decide)
    · decide

section
variable {m : Mod} (onBus : m.can.busOff = false) (up : m.boot.mcDown = false) (calm : m.inject.armed = false)
include onBus up calm

theorem Mod.nmtCommand_onBus (s : Nmt) : m.nmtCommand s = m.setNmt s := Mod.otherFrame_onBus onBus up calm _

/-- NMT reset returns the communication objects to their defaults, reports, and sends the boot-up message last. -/
theorem Mod.resetComm_onBus : ∃ k : Mod, Safety.OnlyReports m.commDefaults k ∧ m.resetComm = { k with can := { k.can with
    out := k.can.out ++ [⟨0x700 + chooseNode m.can.strapNodeId m.can.nodeIdOverride, [0#8]⟩] } } := by
  rw [Mod.resetComm, Mod.otherFrame_onBus onBus up calm]
  extract_lets c node m1 m2 m3
  have only : Safety.OnlyReports m.commDefaults m2 := by
    obtain ⟨log, out, cairn, jnl, inject, state⟩ := only_exists (Mod.setNmt_only m .preOperational)
    simp only [m2, m1, state]
    rfl
  have calm2 : m2.inject.armed = false := Mod.setNmt_calm calm _
  have reports : Safety.OnlyReports m.commDefaults m3 ∧ m3.inject.armed = false := by
    unfold m3
    split
    · refine ⟨onlyReports_trans only (Mod.raise_only _ _ _ _), ?_⟩
      rw [raise_calm calm2]
      exact calm2
    · exact ⟨only, calm2⟩
  clear_value m3
  obtain ⟨only3, calm3⟩ := reports
  refine ⟨m3, only3, ?_⟩
  have onBus3 : m3.can.busOff = false := (congrArg (fun k : Mod => k.can.busOff) only3).trans onBus
  have up3 : m3.boot.mcDown = false := (congrArg (fun k : Mod => k.boot.mcDown) only3).trans up
  have node3 : m3.can.activeNodeId.toNat = node :=
    (congrArg (fun k : Mod => k.can.activeNodeId.toNat) only3).trans (Nat.mod_eq_of_lt (chooseNode_lt _ _))
  rw [Mod.bootMessage, Mod.sendFrame_onBus onBus3 up3 calm3, node3]

end

/-! ### Heartbeats (R392, R393, R457) -/

section
variable {m : Mod} (onBus : m.can.busOff = false) (up : m.boot.mcDown = false) (calm : m.inject.armed = false)
include up

omit up in
/-- The consumer is off, or watches the node of bits [23:16]. -/
theorem Mod.consumedNode_eq_some {node : Nat} :
    m.consumedNode = some node ↔ m.can.consumerHb ≠ 0#32 ∧ m.can.consumerHb.toNat / 65536 % 256 = node := by
  unfold Mod.consumedNode
  split
  case isTrue off => simp [off]
  case isFalse on => simp [on, field]

/-- The loss is raised once. -/
theorem Mod.heartbeatLost_raises : m.heartbeatLost =
    if m.can.consumerHb = 0#32 ∨ m.can.hbLost = true then m
    else (({ m with can := { m.can with hbLost := true, hbBack := false } } : Mod).raise .mgmtHeartbeatLost noUnit
      (payload [i1 (m.can.consumerHb.toNat / 65536 % 256)])).enterSafe 5 := by
  by_cases off : m.can.consumerHb = 0#32
  · simp [Mod.heartbeatLost, Mod.consumedNode, off]
  · simp only [Mod.heartbeatLost, Mod.consumedNode, off, if_false, up, Bool.or_false, false_or]
    rfl

include onBus calm

theorem Mod.heartbeatFrom_onBus (node : Nat) : m.heartbeatFrom node =
    if m.can.consumerHb ≠ 0#32 ∧ m.can.consumerHb.toNat / 65536 % 256 = node then
      { m with can := { m.can with hbLost := false, hbBack := m.can.hbBack || m.can.hbLost } }
    else m := by
  have taken : m.heartbeatFrom node = if m.consumedNode ≠ some node then m
      else { m with can := { m.can with hbLost := false, hbBack := m.can.hbBack || m.can.hbLost } } := by
    simp [Mod.heartbeatFrom, Mod.onBus, onBus, up, Mod.dropsFrame_calm calm]
  rw [taken]
  simp only [ne_eq, ite_not, Mod.consumedNode_eq_some]

/-- The heartbeat carries the code of the NMT state, or 0x7F in recovery mode. -/
theorem Mod.heartbeat_onBus : m.heartbeat = { m with can := { m.can with
    out := m.can.out ++ [⟨0x700 + m.can.activeNodeId.toNat,
      [BitVec.ofNat 8 (if m.sec.recovery then 0x7F else m.can.nmt.code)]⟩] } } :=
  Mod.sendFrame_onBus onBus up calm 1 _

end

/-! ### CONSUMER_HB (R393, R397) -/

theorem Mod.sdoPut_consumerHb {m : Mod} (serves : Safety.Serves m) (fd : Bool) (v : BitVec 32) :
    let node := v.toNat / 65536 % 256
    let set := Safety.accepted { m with can := { m.can with consumerHb := v } } fd 0x1016 1
    m.sdoPut fd 0x1016 1 v =
      if v = 0#32 then (if m.effective 0 0 = .run then Safety.refused m fd 0x1016 1 abState else set)
      else if v.toNat / 2 ^ 24 ≠ 0 ∨ node = 0 ∨ 127 < node ∨ node = m.can.activeNodeId.toNat then
        Safety.refused m fd 0x1016 1 abValue
      else if v.toNat % 65536 < 100 then Safety.refused m fd 0x1016 1 abLow
      else if 300 < v.toNat % 65536 then Safety.refused m fd 0x1016 1 abHigh
      else set := by
  intro node set
  have effect : m.objEffect 0x1016 1 (regBytes v) ObjIn.none = m.setConsumer v := by
    rw [effect_1016_1, ofNat_leNat_regBytes]
  have check : m.writeCheck 0x1016 1 (regBytes v).length = 0 := by rw [length_regBytes]; exact check_1016_1 m
  have answers {c : Nat} {n : Mod} (result : m.setConsumer v = (c, n)) (serving : n.serving = true)
      (calm : n.inject.armed = false) : m.sdoPut fd 0x1016 1 v = Safety.answered n fd 0x1016 1 (sdoWritten c) :=
    Mod.sdoWhole_effect serves check (effect.trans result) serving calm
  have top : field v.toNat 24 8 = v.toNat / 2 ^ 24 := by
    have := v.isLt
    unfold field
    omega
  have consumer : m.setConsumer v =
      if v = 0#32 then (if m.effective 0 0 = .run then (abState, m) else (0, { m with can := { m.can with consumerHb := v } }))
      else if v.toNat / 2 ^ 24 ≠ 0 ∨ node = 0 ∨ 127 < node ∨ node = m.can.activeNodeId.toNat then (abValue, m)
      else inRange 100 300 (v.toNat % 65536) m (0, { m with can := { m.can with consumerHb := v } }) := by
    rw [← top]
    unfold Mod.setConsumer
    simp only [field, Nat.pow_zero, Nat.div_one, Nat.reducePow]
    rfl
  split
  case isTrue off =>
    rw [if_pos off] at consumer
    split
    case isTrue run => exact answers (consumer.trans (if_pos run)) serves.serving serves.calm
    case isFalse idle => exact answers (consumer.trans (if_neg idle)) serves.serving serves.calm
  case isFalse on =>
    rw [if_neg on] at consumer
    split
    case isTrue unsound => exact answers (consumer.trans (if_pos unsound)) serves.serving serves.calm
    case isFalse sound =>
      rw [if_neg sound] at consumer
      exact Mod.sdoWhole_inRange serves check (effect.trans consumer) serves.serving serves.calm

/-! ### PDOs (R395, R396) -/

section
variable {m : Mod} {k : Nat}

/-- A PDO that is not valid takes no SYNC. -/
theorem Mod.syncPdo_invalid (invalid : (m.tpdo k).cobId.msb = true) : m.syncPdo k = m :=
  if_pos (.inl (by simp [Tpdo.valid, invalid]))

theorem Mod.tpdo_setTpdo_other {j : Nat} (other : j ≠ k) (t : Tpdo) : (m.setTpdo k t).tpdo j = m.tpdo j :=
  listGet_listSet_of_ne _ _ _ _ _ other

/-- A PDO that becomes due with none queued is queued from its snapshot. -/
theorem Mod.queuePdo_free (free : (m.tpdo k).queued = none) :
    m.queuePdo k = m.setTpdo k { m.tpdo k with queued := some (m.pdoData (m.tpdo k)), syncs := 0 } := if_pos free

/-- A SYNC counts for a PDO, or makes it due. -/
theorem Mod.syncPdo_counts (free : (m.tpdo k).queued = none) : m.syncPdo k =
    if (m.tpdo k).cobId.msb = true ∨ 240 < (m.tpdo k).ttype.toNat ∨ (m.tpdo k).ttype = 0#8 then m
    else if (m.tpdo k).syncs + 1 < (m.tpdo k).ttype.toNat then m.setTpdo k { m.tpdo k with syncs := (m.tpdo k).syncs + 1 }
    else m.setTpdo k { m.tpdo k with queued := some (m.pdoData (m.tpdo k)), syncs := 0 } := by
  rw [Mod.syncPdo, Mod.queuePdo_free free]
  simp only [Tpdo.valid, Bool.not_eq_false']

/-- What a SYNC does to one PDO leaves every other PDO. -/
theorem Mod.syncPdo_tpdo_other (free : (m.tpdo k).queued = none) {j : Nat} (other : j ≠ k) :
    (m.syncPdo k).tpdo j = m.tpdo j := by
  rw [Mod.syncPdo_counts free]
  split
  · rfl
  · split <;> exact Mod.tpdo_setTpdo_other other _

/-- A SYNC passes PDOs that are not valid. -/
theorem foldl_syncPdo_invalid (l : List Nat) (invalid : ∀ j ∈ l, (m.tpdo j).cobId.msb = true) :
    l.foldl Mod.syncPdo m = m := by
  induction l with
  | nil => rfl
  | cons j rest ih =>
    rw [List.foldl_cons, Mod.syncPdo_invalid (invalid j List.mem_cons_self)]
    exact ih fun i mem => invalid i (List.mem_cons_of_mem j mem)

/-- Where one PDO at most is valid, a SYNC is that PDO's. -/
theorem foldl_syncPdo (least : k < 8) (free : (m.tpdo k).queued = none) (others : ∀ j, j ≠ k → (m.tpdo j).cobId.msb = true) :
    (List.range 8).foldl Mod.syncPdo m = m.syncPdo k := by
  have split : List.range 8 = List.range k ++ k :: (List.range (7 - k)).map (k + 1 + ·) := by
    rw [show 8 = k + 1 + (7 - k) by omega, List.range_add, List.range_succ, List.append_assoc]
    simp
  rw [split, List.foldl_append, foldl_syncPdo_invalid _ fun j mem => others j (List.mem_range.1 mem).ne, List.foldl_cons]
  refine foldl_syncPdo_invalid _ fun j mem => ?_
  obtain ⟨d, -, rfl⟩ := List.mem_map.1 mem
  rw [Mod.syncPdo_tpdo_other free (by omega)]
  exact others _ (by omega)

/-- A PDO that becomes due while one is queued replaces it; it is counted, and reported once a second. -/
theorem Mod.queuePdo_overruns (queued : (m.tpdo k).queued ≠ none) : m.queuePdo k =
    let due := m.setTpdo k { m.tpdo k with queued := some (m.pdoData (m.tpdo k)), syncs := 0 }
    let l : Log := { m.log with pdoOverruns := satAdd m.log.pdoOverruns 1 }
    if m.log.overrunRaised = m.second then { due with log := l }
    else ({ due with log := { l with overrunRaised := m.second } } : Mod).raise .pdoOverrun noUnit (payload [i1 (k + 1)]) :=
  if_neg queued

theorem Mod.pdoTimer_up (up : m.boot.mcDown = false) : m.pdoTimer k =
    if m.can.nmt ≠ .operational ∨ (m.tpdo k).cobId.msb = true ∨ (m.tpdo k).ttype ≠ 0xFE#8 ∨ (m.tpdo k).timer = 0#16 then m
    else m.queuePdo k := by
  simp only [Mod.pdoTimer, up, Bool.false_eq_true, false_or, Tpdo.valid, Bool.not_eq_false']

theorem Mod.pdoSent_idle (idle : (m.tpdo k).queued = none ∨ m.can.nmt ≠ .operational) : m.pdoSent k = m := by
  unfold Mod.pdoSent
  dsimp only
  split
  · rfl
  · next d queued =>
    rcases idle with none | idle
    · rw [none] at queued; cases queued
    · exact if_pos (.inl idle)

theorem Mod.pdoSent_frame (onBus : m.can.busOff = false) (up : m.boot.mcDown = false) (calm : m.inject.armed = false)
    {d : Bytes} (queued : (m.tpdo k).queued = some d) (operational : m.can.nmt = .operational) :
    m.pdoSent k =
      let n := m.setTpdo k { m.tpdo k with queued := none }
      { n with can := { n.can with out := n.can.out ++ [⟨(m.tpdo k).cobId.toNat % 2048, d⟩] } } := by
  have active : m.onBus = true := by simp [Mod.onBus, onBus, up]
  have frame := Mod.sendFrame_onBus (m := m.setTpdo k { m.tpdo k with queued := none }) onBus up calm 3
    ⟨field (m.tpdo k).cobId.toNat 0 11, d⟩
  simp only [field, Nat.pow_zero, Nat.div_one, Nat.reducePow] at frame
  rw [Mod.pdoSent]
  simp only [queued, operational, active, ne_eq, not_true_eq_false, Bool.true_eq_false, or_self, if_false]
  simpa only [field, Nat.pow_zero, Nat.div_one, Nat.reducePow] using frame

end

/-! ### The error register (R523) -/

/-- A number formed of five levels has them as its bits. -/
theorem getLsbD_levels (fault voltage heat comm safe : Bool) :
    let e := BitVec.ofNat 8 (b2n fault + 4 * b2n voltage + 8 * b2n heat + 16 * b2n comm + 128 * b2n safe)
    e.getLsbD 7 = safe ∧ e.getLsbD 6 = false ∧ e.getLsbD 5 = false ∧ e.getLsbD 1 = false ∧ e.getLsbD 4 = comm
      ∧ e.getLsbD 3 = heat ∧ e.getLsbD 2 = voltage ∧ e.getLsbD 0 = fault := by
  revert fault voltage heat comm safe
  decide

end Sys2Proof.Machine

namespace Sys2Proof

open Machine

/-- Settles O18: off the bus no frame arrives; on it the commands set the NMT state, and the resets end with the boot-up
message of the node-ID chosen again. -/
theorem nmtCommandsSetNodeState : Obligations.NmtCommandsSetNodeState := by
  unfold Obligations.NmtCommandsSetNodeState
  intro m powered
  refine ⟨fun off => ?off, fun onBus up calm => ⟨?commands, ?resets⟩⟩
  case off =>
    simp only [List.forall_mem_cons]
    exact ⟨turns_nmtStart powered (Mod.otherFrame_offBus off _), turns_nmtStop powered (Mod.otherFrame_offBus off _),
      turns_enterPreOperational powered (Mod.otherFrame_offBus off _), turns_resetNode powered (Mod.otherFrame_offBus off _),
      turns_resetCommunication powered (Mod.otherFrame_offBus off _), by simp⟩
  case commands =>
    simp only [List.forall_mem_cons]
    exact ⟨turns_nmtStart powered (Mod.nmtCommand_onBus onBus up calm _),
      turns_nmtStop powered (Mod.nmtCommand_onBus onBus up calm _),
      turns_enterPreOperational powered (Mod.nmtCommand_onBus onBus up calm _), by simp⟩
  case resets =>
    obtain ⟨k, only, reset⟩ := Mod.resetComm_onBus onBus up calm
    obtain ⟨log, out, cairn, jnl, inject, rfl⟩ := only_exists only
    have turns : ∀ c ∈ [Instr.resetNode, .resetCommunication], Safety.Turns m c m.resetComm := by
      simp only [List.forall_mem_cons]
      exact ⟨turns_resetNode powered rfl, turns_resetCommunication powered rfl, by simp⟩
    have keeps : m.commDefaults.can.consumerHb = if m.effective 0 0 = .run then m.can.consumerHb else 0#32 :=
      if_congr (decide_eq_true_iff (p := m.effective 0 0 = .run)) rfl rfl
    intro c mem
    refine ⟨m.resetComm, turns c mem, ?_⟩
    rw [reset]
    refine ⟨?_, out, rfl⟩
    rw [← onBus, ← keeps]
    rfl

/-- Settles O19: each service sends its frame or takes it, and a loss enters the safe state. -/
theorem heartbeatsAreSentAndWatched : Obligations.HeartbeatsAreSentAndWatched := by
  unfold Obligations.HeartbeatsAreSentAndWatched
  intro m node powered onBus up calm
  refine ⟨turns_heartbeat powered ?_, turns_consumedHeartbeat powered node (Mod.heartbeatFrom_onBus onBus up calm _),
    turns_mgmtHeartbeatLost powered (Mod.heartbeatLost_raises up)⟩
  rw [Mod.heartbeat_onBus onBus up calm]
  cases m.sec.recovery <;> cases m.can.nmt <;> rfl

/-- Settles O20: the write's own checks, in their order. -/
theorem consumerHeartbeatIsChecked : Obligations.ConsumerHeartbeatIsChecked := by
  unfold Obligations.ConsumerHeartbeatIsChecked
  intro m fd v powered serves
  exact turns_consumerHb powered fd v (Mod.sdoPut_consumerHb serves fd v)

/-- Settles O21: a PDO is queued by a SYNC or its timer, and leaves its queue as a frame. -/
theorem pdosAreQueuedAndSent : Obligations.PdosAreQueuedAndSent := by
  unfold Obligations.PdosAreQueuedAndSent
  intro m k cob powered onBus up calm t due
  refine ⟨fun other => turns_sync powered cob ?_, fun operational own free others => turns_sync powered cob ?_,
    turns_tpdoEventTimer powered k ?_, fun idle => turns_tpdoSent powered k (Mod.pdoSent_idle idle),
    fun d queued operational => turns_tpdoSent powered k (Mod.pdoSent_frame onBus up calm queued operational)⟩
  case refine_1 =>
    rw [Mod.sync, Mod.otherFrame_onBus onBus up calm]
    exact if_pos other
  case refine_2 =>
    have here : ¬ (m.can.nmt ≠ .operational ∨ m.can.syncCobId.toNat ≠ cob.toNat) := by simp [operational, own]
    rw [Mod.sync, Mod.otherFrame_onBus onBus up calm, if_neg here, foldl_syncPdo k.isLt free others]
    exact Mod.syncPdo_counts free
  case refine_3 =>
    rw [Mod.pdoTimer_up up]
    split
    case isTrue => rfl
    case isFalse =>
      split
      case isTrue free => exact Mod.queuePdo_free free
      case isFalse queued => exact Mod.queuePdo_overruns queued

/-- Settles O22: bus-off is a flag, and the error register is formed of its levels. -/
theorem busOffAndErrorRegisterAreTracked : Obligations.BusOffAndErrorRegisterAreTracked := by
  unfold Obligations.BusOffAndErrorRegisterAreTracked
  intro m powered
  refine ⟨turns_canBusOff powered rfl, turns_busOffRecovery powered rfl,
    fun down => turns_errorRegisterUpdate powered (if_pos down),
    fun up => ⟨{ m with can := { m.can with errorRegister := m.errorLevels } },
      turns_errorRegisterUpdate powered (if_neg (ne_true_of_eq_false up)), rfl, ?_⟩⟩
  obtain ⟨b7, b6, b5, b1, b4, b3, b2, b0⟩ := getLsbD_levels (allUnits.any fun u => m.inFault u.1 u.2) m.voltageBad m.heatBad
    m.commBad m.safe.active
  exact ⟨b7, b6, b5, b1, b4, b3, b2, b0⟩

end Sys2Proof
end

section
/-!
PROOFS. Entering the safe state, and the thermal law (R433, R450, R458, R462, R463).
-/
namespace Sys2Proof.Machine

/-! ### Halting, where no band waits to go dark -/

/-- The module with its stream stopped at the present step boundary. -/
def Mod.halted (m : Mod) : Mod := { m with
  stream := { m.stream with running := false, permit := false }
  boot := { m.boot with work := if m.boot.work = .run then .ready else m.boot.work }
  memStacks := { m.memStacks with ctl := m.memStacks.ctl.zipIdx.map (fun e => { e.1 with slots := idleSlots e.2 }) }
  power := { m.power with paceNow := 0#8, rest := 0#8, hint := none, slewTo := none, deferred := none } }

theorem Mod.haltStream_lit {m : Mod} (lit : ∀ b, (m.band b).dyingAt = none) : m.haltStream = m.halted :=
  Mod.darkenDying_none (m := m.halted) lit

/-! ### Entering the safe state -/

/-- The module whose safe state a cause begins: counted, with its time, and shown by the error register. -/
def Mod.safeEntered (m : Mod) (bit : Nat) : Mod := { m with
  safe := { m.safe with
    active := true, cause := m.safe.cause ||| BitVec.ofNat 16 (2 ^ bit), count := satAdd m.safe.count 1
    entryMs := BitVec.ofNat 32 ((m.clock.timeUs - m.clock.resetUs) / 1000) }
  can := { m.can with errorRegister := m.can.errorRegister ||| 0x80#8 } }

/-- Everything that entering the safe state changes beside reports. -/
theorem Mod.enterSafe_enters {m : Mod} (inactive : m.safe.active = false) (outside : m.lea.st ≠ .running)
    (idle : m.gln.cells = []) (lit : ∀ b, (m.band b).dyingAt = none) (bit : Nat) : ∃ boot power mems,
    Safety.OnlyReports { (m.safeEntered bit).halted with boot := boot, power := power, memStacks := mems } (m.enterSafe bit)
    ∧ power.paceNow = 0#8 ∧ boot.work ≠ .run ∧ boot.run = none ∧ mems.dram = m.memStacks.dram := by
  rw [Mod.enterSafe, if_neg (ne_true_of_eq_false inactive)]
  extract_lets cause _ _ m1 m2 m3 m4 m5
  obtain ⟨p, paced, bands⟩ := repace_frame m1
  have halted : m2 = ({ m1 with power := p } : Mod).halted := by
    unfold m2
    rw [paced]
    exact Mod.haltStream_lit fun b => (congrArg (fun l => (listGet Band.reset l b).dyingAt) bands).trans (lit b)
  have told : m3 = m2 := if_neg (by rw [halted]; exact outside)
  have quiet : m3.leaSignal = m2 := by
    rw [told]
    exact Mod.leaSignal_outside (by rw [halted]; exact outside)
  obtain ⟨boot, power, n, failed, only, work, paceNow, noStep⟩ := failStep_frame m2 stSafeState
  have state4 : m4 = n := (congrArg (Mod.failStep · stSafeState) quiet).trans failed
  obtain ⟨log, out, cairn, jnl, inject, rfl⟩ := only_exists only
  obtain ⟨mems, refreshed, dram⟩ := selfRefresh_frame m4 (by rw [state4, halted]; exact idle)
  refine ⟨boot, power, mems, onlyReports_trans (b := m4.selfRefresh) ?_ (onlyReports_trans (cairnPut_only _ _)
    (Mod.raise_only _ _ _ _)), ?_, ?_, noStep, ?_⟩
  · rw [refreshed, state4, halted]
    rfl
  · rw [paceNow, halted]
    rfl
  · rw [work, halted]
    unfold Mod.halted
    dsimp only
    split
    · nofun
    · assumption
  · rw [dram, state4, halted]
    rfl

/-! ### The thermal law (R450) -/

section
variable {m : Mod}

theorem Mod.movePace_paceNow_le (p : Nat) : (m.movePace p).power.paceNow.toNat ≤ m.power.paceNow.toNat := by
  rcases Nat.lt_trichotomy p m.power.paceNow.toNat with fall | same | rise
  · cases droop : m.power.droop with
    | true =>
      rw [Mod.movePace_droop (Nat.ne_of_lt fall) droop, Mod.deferPace]
      split <;> exact Nat.le_refl _
    | false =>
      rw [Mod.movePace_falls fall droop, BitVec.toNat_ofNat]
      exact (Nat.mod_le _ _).trans fall.le
  · rw [Mod.movePace_same same]
  · cases droop : m.power.droop with
    | true =>
      rw [Mod.movePace_droop (Nat.ne_of_gt rise) droop, Mod.deferPace]
      split <;> exact Nat.le_refl _
    | false => rw [Mod.movePace_rises rise droop]

theorem Mod.setPace_paceNow_le (p : Nat) : (m.setPace p).power.paceNow.toNat ≤ p := by
  unfold Mod.setPace
  split
  case isTrue same => exact same.le
  case isFalse => exact (BitVec.toNat_ofNat _ _).trans_le (Nat.mod_le _ _)

/-- A limit that acts at once bounds the pace of a running stream. -/
theorem Mod.repace_paceNow_le (running : m.stream.running = true) : m.repace.power.paceNow.toNat ≤ m.atOnce := by
  unfold Mod.repace
  extract_lets src shown src' lowered
  have low : lowered.power.paceNow.toNat ≤ m.atOnce := by
    unfold lowered
    split
    case isTrue => exact Mod.setPace_paceNow_le _
    case isFalse high => exact Nat.not_lt.1 high
  rw [if_neg (by exact Bool.not_eq_false _ ▸ running)]
  split
  · exact low
  · exact (Mod.movePace_paceNow_le _).trans low

/-- The thermal limit bounds what acts at once. -/
theorem Mod.atOnce_le_thermal : m.atOnce ≤ max 35 m.thermal.limit.toNat := by
  have listed : (3, m.thermal.limit.toNat) ∈
      m.limits.filter (fun e => e.1 == 2 || e.1 == 3 || e.1 == 4 || e.1 == 6 || e.1 == 7) :=
    List.mem_filter.2 ⟨Mod.mem_limits_standing (.inr List.mem_cons_self), rfl⟩
  have low := lowestLimit_le listed
  unfold Mod.atOnce
  omega

theorem Mod.repace_thermal : m.repace.thermal = m.thermal := by
  obtain ⟨p, paced, -⟩ := repace_frame m
  rw [paced]

/-- A thermal limit acts at once on the allowance and on the pace of a running stream. -/
theorem Mod.repace_within_thermal {low : Nat} (floor : 35 ≤ low) (limit : m.thermal.limit.toNat = low) :
    m.repace.power.paceAllow.toNat ≤ low ∧ (m.stream.running = true → m.repace.power.paceNow.toNat ≤ low) := by
  refine ⟨?_, fun running => ?_⟩
  · have bound : m.allowance ≤ max 35 m.thermal.limit.toNat :=
      Mod.allowance_le (Mod.mem_limits_standing (.inr List.mem_cons_self))
    rw [Mod.repace_paceAllow, BitVec.toNat_ofNat]
    exact (Nat.mod_le _ _).trans (by omega)
  · have pace := Mod.repace_paceNow_le running
    have bound := m.atOnce_le_thermal
    omega

end

/-- How far the hottest control value, or the hottest stack, stands above its bound, in tenths of a degree. -/
def Mod.overheat (m : Mod) : Int := max (m.computeTemp.toInt - 920) (m.maxStack.toInt - 900)

/-- The limit that a hot window leaves. -/
def Mod.throttled (m : Mod) : Nat :=
  let base := if m.stream.running = true ∧ m.power.paceNow.toNat < m.thermal.limit.toNat then m.power.paceNow.toNat
    else m.thermal.limit.toNat
  max 35 (base - 2 * ((m.overheat.toNat + 9) / 10))

/-- The module under the limit that a hot window leaves. -/
def Mod.withThrottle (m : Mod) : Mod := { m with thermal := { m.thermal with
  limit := BitVec.ofNat 8 m.throttled, throttling := true
  throttleWindows := if m.throttled < m.thermal.limit.toNat then satAdd m.thermal.throttleWindows 1
    else m.thermal.throttleWindows } }

theorem Mod.thermalWindow_hot {m : Mod} (hot : 0 < m.overheat) : m.thermalWindow =
    if m.thermal.throttling = true then m.withThrottle.repace
    else (m.withThrottle.raise .thmThrottle noUnit []).repace := by
  have base : (if m.running then min m.thermal.limit.toNat m.power.paceNow.toNat else m.thermal.limit.toNat) =
      if m.stream.running = true ∧ m.power.paceNow.toNat < m.thermal.limit.toNat then m.power.paceNow.toNat
      else m.thermal.limit.toNat := by
    cases running : m.stream.running with
    | false => simp [Mod.running, running]
    | true =>
      simp only [Mod.running, running, if_true, true_and]
      split <;> omega
  rw [← apply_ite Mod.repace]
  refine (if_pos hot).trans ?_
  unfold Mod.withThrottle Mod.throttled
  rw [← base]
  rfl

theorem Mod.thermalWindow_warm {m : Mod} (warm : m.overheat ≤ 0) : m.thermalWindow =
    if m.computeTemp.toInt < 900 ∧ m.maxStack.toInt < 880 then
      ({ m with thermal := { m.thermal with
        limit := BitVec.ofNat 8 (min 160 (m.thermal.limit.toNat + 1)), throttling := false } } : Mod).repace
    else m := if_neg (Int.not_lt.2 warm)

theorem Mod.throttled_lt (m : Mod) : m.throttled < 256 := by
  have pace := m.power.paceNow.isLt
  have limit := m.thermal.limit.isLt
  unfold Mod.throttled
  dsimp only
  split <;> omega

end Sys2Proof.Machine

namespace Sys2Proof

open Machine

/-- Settles O16: in the safe state only the bit is set; entering it halts the stream and fails the running step. -/
theorem enteringSafeStateStopsTheModule : Obligations.EnteringSafeStateStopsTheModule := by
  unfold Obligations.EnteringSafeStateStopsTheModule
  intro m bit
  refine ⟨fun active => if_pos active, fun inactive outside idle lit => ?_⟩
  obtain ⟨boot, power, mems, only, paceNow, work, noStep, dram⟩ := Mod.enterSafe_enters inactive outside idle lit bit.val
  obtain ⟨log, out, cairn, jnl, inject, state⟩ := only_exists only
  simp only [state]
  exact ⟨rfl, rfl, rfl, paceNow, work, noStep, rfl, rfl, dram, rfl, rfl, rfl, rfl, rfl, rfl, rfl⟩

/-- Settles O57: a hot window lowers the limit, a cool one raises it, and any other holds it. -/
theorem thermalLawMovesTheLimit : Obligations.ThermalLawMovesTheLimit := by
  unfold Obligations.ThermalLawMovesTheLimit
  intro m powered c s e was base low k n
  have turns : 0 < e → m.thermalWindow = n := Mod.thermalWindow_hot
  have lowest : 35 ≤ low := Nat.le_max_left _ _
  obtain ⟨j, limit, running, repaced⟩ : ∃ j : Mod, j.thermal.limit = BitVec.ofNat 8 low ∧ j.stream.running = m.stream.running
      ∧ n = j.repace := by
    unfold n
    split
    · exact ⟨k, rfl, rfl, rfl⟩
    · exact ⟨k.raise .thmThrottle noUnit [], by rw [Mod.raise_thermal], by rw [Mod.raise_stream], rfl⟩
  have value : j.thermal.limit.toNat = low := by
    rw [limit]
    exact Nat.mod_eq_of_lt m.throttled_lt
  refine ⟨fun hot => ⟨turns_thermalWindow powered (turns hot), ?_⟩, fun warm coolDie coolStack => ?_, fun warm held => ?_⟩
  · rw [repaced, Mod.repace_thermal, ← running]
    exact ⟨limit, Mod.repace_within_thermal lowest value⟩
  · exact turns_thermalWindow powered ((Mod.thermalWindow_warm warm).trans (if_pos ⟨coolDie, coolStack⟩))
  · exact turns_thermalWindow powered ((Mod.thermalWindow_warm warm).trans (if_neg (by omega)))

end Sys2Proof
end

section
/-!
PROOFS. The two views of a unit: their comparison, the mismatch bits, and forces that wait (R404 to R406).
-/
namespace Sys2Proof.Machine

/-! ### Unit IDs and records -/

theorem classSize_le (cls : Fin 10) : classSize cls.val ≤ 4704 := by
  revert cls
  decide

section
variable {cls : Fin 10} {inst : Nat} (known : inst < classSize cls.val)
include known

/-- The ID of a unit spells its class and its number. -/
theorem toNat_unitId : (unitId cls.val inst).toNat = cls.val * 65536 + inst := by
  have size := classSize_le cls
  have := cls.isLt
  rw [unitId, BitVec.toNat_ofNat, Nat.mod_eq_of_lt (by omega)]

theorem unitId_class : (unitId cls.val inst).toNat / 65536 = cls.val := by
  have size := classSize_le cls
  rw [toNat_unitId known]
  omega

theorem unitId_instance : (unitId cls.val inst).toNat % 65536 = inst := by
  have size := classSize_le cls
  rw [toNat_unitId known]
  omega

theorem unitExists_unitId : unitExists (unitId cls.val inst) = true := by
  have := cls.isLt
  rw [unitExists, unitId_class known, unitId_instance known]
  exact decide_eq_true ⟨by omega, known⟩

end

/-- The records that hold one of a unit: none where nothing is recorded. -/
def onlyRec (u : BitVec 32) (r : UnitRec) : Map UnitRec := if r = UnitRec.none then [] else [(u.toNat, r)]

section
variable {m : Mod} {u : BitVec 32} {r : UnitRec} (recs : m.units.recs = [(u.toNat, r)])
include recs

theorem Mod.unit_only : m.unit u = r := by
  simp [Mod.unit, recs, Map.get]

theorem Mod.setUnit_only (f : UnitRec → UnitRec) :
    m.setUnit u f = { m with units := { m.units with recs := onlyRec u (f r) } } := by
  simp only [Mod.setUnit, recs, Map.modify, Map.get, if_true, Map.set, Map.erase, Map.put, onlyRec]

theorem Mod.setUnit_only_ne (f : UnitRec → UnitRec) (some_ : f r ≠ UnitRec.none) :
    m.setUnit u f = { m with units := { m.units with recs := [(u.toNat, f r)] } } := by
  rw [Mod.setUnit_only recs, onlyRec, if_neg some_]

end

/-! ### What the views read of a record (R404) -/

section
variable {m n : Mod} {cls inst : Nat} {r q : UnitRec} (here : m.unit (unitId cls inst) = r)
  (there : n.unit (unitId cls inst) = q) (rest : n = { m with units := n.units })
  (same : q.mgmtFault = r.mgmtFault ∧ q.dataFault = r.dataFault ∧ q.fenced = r.fenced ∧ q.degraded = r.degraded
    ∧ q.lag = r.lag)
include here there rest same

theorem Mod.mgmtView_same : n.mgmtView cls inst = m.mgmtView cls inst := by
  obtain ⟨mgmtFault, -, fenced, degraded, -⟩ := same
  simp only [Mod.mgmtView, Mod.isFenced, here, there, mgmtFault, fenced, degraded]
  rw [rest]
  rfl

theorem Mod.dataView_same : n.dataView cls inst = m.dataView cls inst := by
  have mgmt := Mod.mgmtView_same here there rest same
  obtain ⟨-, dataFault, -, -, lag⟩ := same
  by_cases band : cls = 1
  · subst band
    simpa only [Mod.dataView, if_true] using mgmt
  · have work : n.workView cls inst = m.workView cls inst := by
      rw [rest]
      unfold Mod.workView
      dsimp only
      split
      case h_2 => exact absurd rfl band
      all_goals rfl
    simp only [Mod.dataView, band, if_false, here, there, dataFault, lag, mgmt, work]

theorem Mod.mismatchWord_same : n.mismatchWord cls inst = m.mismatchWord cls inst := by
  have resetMs : n.resetMs = m.resetMs := by rw [rest]; rfl
  rw [Mod.mismatchWord, Mod.mgmtView_same here there rest same, Mod.dataView_same here there rest same, resetMs]
  rfl

end

/-! ### STATE_COMPARISON (R404, R405) -/

section
variable {m : Mod} {cls : Fin 10} {inst : Nat} {r : UnitRec}

/-- A comparison of the one unit that is recorded, where its record calls for one. -/
theorem Mod.compareStates_only (known : inst < classSize cls.val)
    (recs : m.units.recs = [((unitId cls.val inst).toNat, r)]) (listed : r.lag.isSome = true ∨ r.seen ≠ 0) :
    m.compareStates [] = m.compareUnit cls.val inst := by
  have test : (r.lag.isSome || decide (r.seen ≠ 0)) = true := by simpa using listed
  simp only [Mod.compareStates, List.foldl_nil, recs, List.filter_cons, test, if_true, List.filter_nil, List.foldl_cons,
    unitId_class known, unitId_instance known]

/-- What a unit reports is recorded before the comparison. -/
theorem Mod.compareStates_reported (known : inst < classSize cls.val) (st : Option UState) :
    m.compareStates [(unitId cls.val inst, st)]
      = (m.setUnit (unitId cls.val inst) fun x => { x with lag := st }).compareStates [] := by
  simp only [Mod.compareStates, List.foldl_cons, List.foldl_nil, unitExists_unitId known, if_true]

theorem Mod.compareUnit_agrees (agrees : m.disagrees cls.val inst = false) :
    m.compareUnit cls.val inst = m.setUnit (unitId cls.val inst) fun x => { x with seen := 0 } := if_pos agrees

section
variable (recs : m.units.recs = [((unitId cls.val inst).toNat, r)]) (apart : m.disagrees cls.val inst = true)
include recs apart

theorem Mod.compareUnit_first (unseen : r.seen = 0) :
    m.compareUnit cls.val inst = m.setUnit (unitId cls.val inst) fun x => { x with seen := 1 } := by
  simp only [Mod.compareUnit, apart, Bool.true_eq_false, if_false, Mod.unit_only recs, unseen, if_true]

theorem Mod.compareUnit_known (latched : 1 < r.seen) : m.compareUnit cls.val inst = m := by
  have seen0 : r.seen ≠ 0 := by omega
  have seen1 : r.seen ≠ 1 := by omega
  simp only [Mod.compareUnit, apart, Bool.true_eq_false, if_false, Mod.unit_only recs, seen0, seen1]

theorem Mod.compareUnit_second (seen : r.seen = 1) : m.compareUnit cls.val inst =
    (m.setUnit (unitId cls.val inst) fun x => { x with seen := 2 }).mismatchFound cls.val inst := by
  simp only [Mod.compareUnit, apart, Bool.true_eq_false, if_false, Mod.unit_only recs, seen, Nat.one_ne_zero, if_true]

end

/-- The record of a mismatch that is latched now. -/
def Mod.latchedRec (m : Mod) (cls inst : Nat) (r : UnitRec) : UnitRec :=
  { r with seen := 2, mismatch := true, forceAt := if m.activeUnit cls inst then some m.clock.timeUs else none }

/-- The module with a mismatch latched, counted, and kept where it is the first. -/
def Mod.withMismatch (m : Mod) (cls inst : Nat) (r : UnitRec) : Mod := { m with units := { m.units with
  recs := [((unitId cls inst).toNat, m.latchedRec cls inst r)]
  mismatchCount := satAdd m.units.mismatchCount 1
  firstMismatch := if m.units.firstMismatch = 0#64 then m.mismatchWord cls inst else m.units.firstMismatch } }

/-- A mismatch that is found is latched, and reported. -/
theorem Mod.mismatchFound_only (recs : m.units.recs = [((unitId cls.val inst).toNat, r)]) :
    Safety.OnlyReports (m.withMismatch cls.val inst r)
      ((m.setUnit (unitId cls.val inst) fun x => { x with seen := 2 }).mismatchFound cls.val inst) := by
  rw [Mod.setUnit_only_ne recs _ (by simp [UnitRec.none])]
  generalize seen : ({ m with units := { m.units with recs := [((unitId cls.val inst).toNat, { r with seen := 2 })] } } : Mod) = n
  have nrecs : n.units.recs = [((unitId cls.val inst).toNat, { r with seen := 2 })] := by rw [← seen]
  have word : n.mismatchWord cls.val inst = m.mismatchWord cls.val inst :=
    Mod.mismatchWord_same (Mod.unit_only recs) (Mod.unit_only nrecs) (by rw [← seen]) ⟨rfl, rfl, rfl, rfl, rfl⟩
  have active : n.activeUnit cls.val inst = m.activeUnit cls.val inst := by rw [← seen]; rfl
  have latched : (n.setUnit (unitId cls.val inst) fun x => { x with
      mismatch := true, forceAt := if n.activeUnit cls.val inst then some n.clock.timeUs else none }) =
      { n with units := { n.units with recs := [((unitId cls.val inst).toNat, m.latchedRec cls.val inst r)] } } := by
    rw [Mod.setUnit_only_ne nrecs _ (by simp [UnitRec.none]), active, ← seen]
    rfl
  rw [Mod.mismatchFound, latched, word, ← seen]
  exact onlyReports_trans (Mod.raise_only (m.withMismatch cls.val inst r) _ _ _) (cairnPut_only _ _)

/-! ### MISMATCH_CLEAR and FORCE_TIMEOUT (R405, R406) -/

/-- The clear drops the bit of the one unit recorded, where its views agree. -/
theorem Mod.mismatchClear_only (known : inst < classSize cls.val)
    (recs : m.units.recs = [((unitId cls.val inst).toNat, r)]) :
    m.mismatchClear = { m with units := { m.units with
      recs := if r.mismatch = true ∧ m.disagrees cls.val inst = false then
          onlyRec (unitId cls.val inst) { r with mismatch := false }
        else m.units.recs } } := by
  cases latched : r.mismatch with
  | false =>
    have none : m.mismatchClear = m := by simp [Mod.mismatchClear, recs, latched]
    simp only [none, Bool.false_eq_true, false_and, if_false]
  | true =>
    have clear : m.mismatchClear = if m.disagrees cls.val inst then m
        else m.setUnit (unitId cls.val inst) fun x => { x with mismatch := false } := by
      simp only [Mod.mismatchClear, recs, List.filter_cons, latched, if_true, List.filter_nil, List.foldl_cons, List.foldl_nil,
        unitId_class known, unitId_instance known, BitVec.ofNat_toNat, BitVec.setWidth_eq]
    rw [clear]
    cases m.disagrees cls.val inst with
    | false => simp only [Bool.false_eq_true, if_false, Mod.setUnit_only recs, and_self, if_true]
    | true => simp only [if_true, Bool.true_eq_false, and_false, if_false]

end

theorem Mod.forceTimeout_halts {m : Mod} (outside : m.lea.st ≠ .running) (lit : ∀ b, (m.band b).dyingAt = none) :
    m.forceTimeout =
      if m.stream.running = true ∧ m.units.recs.any (fun e => e.2.forceAt.isSome) = true then
        ((m.mgmtFault 0 0).forceUnits).halted
      else m := by
  have halts : ((m.mgmtFault 0 0).forceUnits).haltStream = ((m.mgmtFault 0 0).forceUnits).halted := Mod.haltStream_lit lit
  rw [Mod.forceTimeout, halts, Mod.leaSignal_outside (by exact outside)]
  rfl

end Sys2Proof.Machine

namespace Sys2Proof

open Machine

/-- Settles O23: a comparison counts, latches or forgets a disagreement, the clear drops the bit of a unit that agrees, and
a force that waits too long halts the stream. -/
theorem mismatchesAreLatchedAndForced : Obligations.MismatchesAreLatchedAndForced := by
  unfold Obligations.MismatchesAreLatchedAndForced
  constructor
  case right => exact fun m powered outside lit => turns_forceTimeout powered (Mod.forceTimeout_halts outside lit)
  case left =>
    intro m cls inst r powered known u only recorded recs
    refine ⟨fun listed => ?comparison, fun st n compared => ?reported, fun fd serves => ?clear, fun fd v other serves => ?refused⟩
    case comparison =>
      have turns {n : Mod} (result : m.compareUnit cls.val inst = n) : Safety.Turns m (.stateComparison []) n :=
        turns_stateComparison powered [] ((Mod.compareStates_only known recs listed).trans result)
      refine ⟨fun agrees => turns ((Mod.compareUnit_agrees agrees).trans (Mod.setUnit_only recs _)),
        fun apart unseen => turns ((Mod.compareUnit_first recs apart unseen).trans (Mod.setUnit_only recs _)),
        fun apart latched => turns (Mod.compareUnit_known recs apart latched),
        fun apart seen => ⟨_, turns (Mod.compareUnit_second recs apart seen), Mod.mismatchFound_only recs⟩⟩
    case reported =>
      have same := turns_stateComparison (m := m.setUnit u fun x => { x with lag := st }) powered [] rfl []
      rw [compared []] at same
      injection same with same
      injection same with same
      exact turns_stateComparison powered _ ((Mod.compareStates_reported known st).trans same.symm)
    case clear =>
      have effect : m.objEffect 0x2402 0 (regBytes 1#8) ObjIn.none = (0, m.mismatchClear) := by
        rw [effect_2402_0, leNat_regBytes]
        rfl
      rw [Mod.mismatchClear_only known recs] at effect
      exact turns_mismatchClear powered fd 1#8
        (Mod.sdoPut_accepted serves fd (check_2402_0 m) effect serves.serving serves.calm)
    case refused =>
      have value : leNat (regBytes v) ≠ 1 := fun one => other (BitVec.eq_of_toNat_eq ((leNat_regBytes v).symm.trans one))
      exact turns_mismatchClear powered fd v (Mod.sdoPut_refused serves fd (check_2402_0 m)
        ((effect_2402_0 m _ _).trans (if_neg value)) (by decide) serves.serving serves.calm)

end Sys2Proof
end

section
/-!
PROOFS. Bring-up: the GO of a step, what a step begins with, and how it ends (R412 to R416, R418, R420, R525).
-/
namespace Sys2Proof.Machine

/-- A whole write is answered by its effect, whatever that leaves of the node. -/
theorem Mod.sdoWhole_answer {m n : Mod} {fd : Bool} {i sub c : Nat} {bs : Bytes} {x : ObjIn} (serves : Safety.Serves m)
    (check : m.writeCheck i sub bs.length = 0) (effect : m.objEffect i sub bs x = (c, n)) :
    m.sdoWhole fd i sub bs x = n.answer fd i sub (sdoWritten c) := by
  have written : m.objWrite i sub bs x = (c, n) := (Mod.objWrite_normal serves.normal i sub bs x check).trans effect
  rw [Mod.sdoWhole, Mod.request_serving serves.serving serves.calm]
  simp only [written, serves.closed, Option.isSome_none, Bool.false_eq_true, if_false]

/-! ### GO (R413) -/

/-- The object of a step's GO takes only 0x01, and then is the GO. -/
theorem goObject {n : Nat} (least : 1 ≤ n) (most : n ≤ 7) (m : Mod) (bs : Bytes) (x : ObjIn) :
    m.writeCheck (0x220F + n) 1 1 = 0
    ∧ m.objEffect (0x220F + n) 1 bs x = onlyOne (leNat bs) m (m.go n x.variants x.barrier.programs) := by
  obtain rfl | rfl | rfl | rfl | rfl | rfl | rfl : n = 1 ∨ n = 2 ∨ n = 3 ∨ n = 4 ∨ n = 5 ∨ n = 6 ∨ n = 7 := by omega
  · exact ⟨check_2210_1 m, effect_2210_1 m bs x⟩
  · exact ⟨check_2211_1 m, effect_2211_1 m bs x⟩
  · exact ⟨check_2212_1 m, effect_2212_1 m bs x⟩
  · exact ⟨check_2213_1 m, effect_2213_1 m bs x⟩
  · exact ⟨check_2214_1 m, effect_2214_1 m bs x⟩
  · exact ⟨check_2215_1 m, effect_2215_1 m bs x⟩
  · exact ⟨check_2216_1 m, effect_2216_1 m bs x⟩

/-- A step or a reset runs, or RESET_N is held low. -/
def Mod.goBusy (m : Mod) : Prop := m.boot.run.isSome = true ∨ m.boot.rst.isSome = true ∨ m.boot.resetHeld = true

/-- A GO to step n is in order. -/
def Mod.goInOrder (m : Mod) (n : Nat) : Prop :=
  if n = 1 then (m.step 1).st ≠ .done
  else if n ≤ 5 then (m.step (n - 1)).st = .done ∧ (m.step n).st ≠ .done
  else if n = 6 then (m.step 5).st = .done ∨ (m.step 5).st = .failed
  else (m.step 6).st = .done

theorem Mod.stepInOrder_iff (m : Mod) (n : Nat) : m.stepInOrder n = true ↔ m.goInOrder n := by
  unfold Mod.stepInOrder Mod.goInOrder
  dsimp only
  split
  · exact decide_eq_true_iff
  · split
    · exact decide_eq_true_iff
    · split <;> exact decide_eq_true_iff

/-- The module whose step n has begun. -/
def Mod.stepBegun (m : Mod) (n : Nat) (maps : List PlantMap) : Mod :=
  let k := m.setStep n { m.step n with st := .running, since := m.clock.timeUs }
  { k with boot := { k.boot with run := some ⟨n, (m.step n).param.toNat, maps⟩ } }

section
variable {m : Mod} {n : Nat} {variants : List PlantMap} {programs : List (Fin 512 × BitVec 64)}

theorem Mod.go_busy (busy : m.goBusy) : m.go n variants programs = (abState, m) := if_pos busy

theorem Mod.go_outOfOrder (free : ¬ m.goBusy) (disorder : ¬ m.goInOrder n) :
    m.go n variants programs = (abState, m.setStep n { m.step n with status := 0xC0#8 }) :=
  (if_neg free).trans (if_pos (Bool.not_eq_true _ ▸ mt (m.stepInOrder_iff n).1 disorder))

/-- A GO in order is accepted, and the step begins. -/
theorem Mod.go_begins (free : ¬ m.goBusy) (order : m.goInOrder n) : m.go n variants programs = (0,
    if n = 1 then (m.stepBegun n variants).railsBegin
    else if n = 2 then (m.stepBegun n variants).trainBegin
    else if n = 7 then (m.stepBegun n variants).startBegin programs
    else m.stepBegun n variants) :=
  (if_neg free).trans (if_neg (ne_false_of_eq_true ((m.stepInOrder_iff n).2 order)))

variable (serves : Safety.Serves m) (fd : Bool) (least : 1 ≤ n) (most : n ≤ 7) {x : ObjIn}
include serves least most

theorem Mod.sdoWhole_go_other {v : BitVec 8} (other : v ≠ 1#8) :
    m.sdoWhole fd (0x220F + n) 1 (regBytes v) x = Safety.refused m fd (0x220F + n) 1 abValue := by
  obtain ⟨check, effect⟩ := goObject least most m (regBytes v) x
  rw [leNat_regBytes] at effect
  have value : v.toNat ≠ 1 := fun one => other (BitVec.eq_of_toNat_eq one)
  exact Mod.sdoWhole_effect serves check (effect.trans (if_neg value)) serves.serving serves.calm

/-- A GO of value 1 is answered as the step's own checks decide. -/
theorem Mod.sdoWhole_go {c : Nat} {k : Mod} (went : m.go n x.variants x.barrier.programs = (c, k)) :
    m.sdoWhole fd (0x220F + n) 1 (regBytes 1#8) x = k.answer fd (0x220F + n) 1 (sdoWritten c) := by
  obtain ⟨check, effect⟩ := goObject least most m (regBytes 1#8) x
  exact Mod.sdoWhole_answer serves check (effect.trans went)

theorem Mod.sdoWhole_go_busy (busy : m.goBusy) :
    m.sdoWhole fd (0x220F + n) 1 (regBytes 1#8) x = Safety.refused m fd (0x220F + n) 1 abState :=
  (Mod.sdoWhole_go serves fd least most (Mod.go_busy busy)).trans (Mod.answer_abort serves fd _ _ _)

theorem Mod.sdoWhole_go_outOfOrder (free : ¬ m.goBusy) (disorder : ¬ m.goInOrder n) :
    m.sdoWhole fd (0x220F + n) 1 (regBytes 1#8) x =
      Safety.refused (m.setStep n { m.step n with status := 0xC0#8 }) fd (0x220F + n) 1 abState :=
  (Mod.sdoWhole_go serves fd least most (Mod.go_outOfOrder free disorder)).trans
    (Mod.answer_serving (m := m.setStep n { m.step n with status := 0xC0#8 }) serves.serving serves.calm _ _ _ _)

/-- The refusals of a GO, whichever command writes its object. -/
theorem Mod.go_refuses {v : BitVec 8} {c : Instr}
    (does : ∀ k, m.sdoWhole fd (0x220F + n) 1 (regBytes v) x = k → Safety.Turns m c k) :
    (v ≠ 1#8 → Safety.Turns m c (Safety.refused m fd (0x220F + n) 1 abValue))
    ∧ (v = 1#8 → m.goBusy → Safety.Turns m c (Safety.refused m fd (0x220F + n) 1 abState))
    ∧ (v = 1#8 → ¬ m.goBusy → ¬ m.goInOrder n → Safety.Turns m c
        (Safety.refused (m.setStep n { m.step n with status := 0xC0#8 }) fd (0x220F + n) 1 abState)) := by
  refine ⟨fun other => does _ (Mod.sdoWhole_go_other serves fd least most other), fun one => ?_, fun one => ?_⟩
  · subst one
    exact fun busy => does _ (Mod.sdoWhole_go_busy serves fd least most busy)
  · subst one
    exact fun free disorder => does _ (Mod.sdoWhole_go_outOfOrder serves fd least most free disorder)

end

/-! ### What a step begins with (R414, R415, R420, R525) -/

section
variable {m : Mod}

/-- The input is outside 40 to 60 V. -/
def Mod.inputBad (m : Mod) : Prop := m.power.inputMv.toNat < 40000 ∨ 60000 < m.power.inputMv.toNat

/-- The coolant does not flow, or is too cold or too warm. -/
def Mod.coolantBad (m : Mod) : Prop :=
  min m.thermal.flowA.toNat m.thermal.flowB.toNat < 3600 ∨ m.thermal.tIn = noTemp ∨ m.thermal.tIn.toInt < 200
    ∨ 450 < m.thermal.tIn.toInt

theorem Mod.railsBegin_input (bad : m.inputBad) : m.railsBegin = m.failStep 0xC2#8 := if_pos bad

theorem Mod.railsBegin_coolant (input : ¬ m.inputBad) (bad : m.coolantBad) : m.railsBegin = m.failStep 0xC3#8 :=
  (if_neg input).trans (if_pos bad)

theorem Mod.railsBegin_on (input : ¬ m.inputBad) (coolant : ¬ m.coolantBad) :
    m.railsBegin = { m with power := { m.power with railsOn := true } } := (if_neg input).trans (if_neg coolant)

theorem Mod.trainBegin_trains (working : m.jnl.train.st ≠ .failed) : m.trainBegin = m.clearMetadata := if_neg working

theorem Mod.trainBegin_retrains (failed : m.jnl.train.st = .failed) : m.trainBegin = m.clearMetadata.jnlRetrainReq :=
  if_pos failed

variable {programs : List (Fin 512 × BitVec 64)}

theorem Mod.startBegin_fails {st : BitVec 8} (status : m.startStatus = st) (bad : st ≠ 0#8) :
    m.startBegin programs = m.failStep st := by
  subst status
  exact if_pos bad

theorem Mod.startBegin_starts (good : m.startStatus = 0#8) : m.startBegin programs = m.startImage programs m.allowance :=
  if_neg (not_not_intro good)

theorem Mod.startStatus_unready (unready : m.isReady = false ∨ m.stream.running = true) : m.startStatus = 0xC8#8 :=
  if_pos unready

theorem Mod.startStatus_ready (ready : m.isReady = true) (stopped : m.stream.running = false) :
    m.startStatus = m.boot.image.elim 0xCB#8 fun im => if im.lea then 0xCC#8 else m.startChecks := by
  have free : ¬ (m.isReady = false ∨ m.running = true) := by simp [ready, Mod.running, stopped]
  refine (if_neg free).trans ?_
  cases m.boot.image <;> rfl

theorem Mod.startStatus_image {im : Image} (ready : m.isReady = true) (stopped : m.stream.running = false)
    (image : m.boot.image = some im) (alone : im.lea = false) : m.startStatus = m.startChecks := by
  rw [Mod.startStatus_ready ready stopped, image, Option.elim_some, if_neg (ne_true_of_eq_false alone)]

theorem Mod.startChecks_consumer (noTest : m.memStacks.testEnable = 0#8) (off : m.can.consumerHb = 0#32) :
    m.startChecks = 0xB5#8 := (if_neg (not_not_intro noTest)).trans (if_pos off)

theorem Mod.startChecks_units (noTest : m.memStacks.testEnable = 0#8) (on : m.can.consumerHb ≠ 0#32) :
    m.startChecks = if m.imageUnitFault then 0xCE#8 else 0#8 := (if_neg (not_not_intro noTest)).trans (if_neg on)

/-! ### The end of a step (R413 to R418, R525) -/

theorem Mod.stepCompletion_none (none : m.boot.run = none) (x : StepEnd) : m.stepCompletion x = m := by
  simp only [Mod.stepCompletion, none]

/-- The step that runs ends in its own way. -/
theorem Mod.stepCompletion_some {w : StepWork} (run : m.boot.run = some w) (x : StepEnd) : m.stepCompletion x =
    if w.step = 1 then (if x.railBad then m.failStep 0xC2#8 else m.endStep 0#8)
    else if w.step = 2 then m.trainEnd x
    else if w.step = 3 then m.headersEnd x
    else if w.step = 4 then m.firmwareEnd w.addr
    else if w.step = 5 then m.selfTestEnd x
    else if w.step = 6 then m.imageEnd w.addr w.variants
    else m.endStep 0#8 := by
  simp only [Mod.stepCompletion, run]

/-- The module that TRAIN has calibrated, with the stacks in FAULT whose interface does not train. -/
def Mod.trainFound (m : Mod) (x : StepEnd) : Mod :=
  x.memStacks.foldl (fun (n : Mod) s => n.dataFault 4 s.val) (m.calibrateAll x.windows)

theorem Mod.trainEnd_up {x : StepEnd} (up : (m.trainFound x).jnl.train.st = .up) :
    m.trainEnd x = if x.memStacks ≠ [] then (m.trainFound x).failStep 0xC4#8 else (m.trainFound x).endStep 0#8 :=
  if_neg (not_not_intro up)

theorem Mod.trainEnd_failed {x : StepEnd} (failed : (m.trainFound x).jnl.train.st = .failed) :
    m.trainEnd x = (m.trainFound x).failStep 0xC4#8 := by
  have down : (m.trainFound x).jnl.train.st ≠ .up := by simp [failed]
  exact (if_pos down).trans (congrArg (Mod.failStep · 0xC4#8) (if_pos failed))

theorem Mod.trainEnd_down {x : StepEnd} (down : (m.trainFound x).jnl.train.st ≠ .up)
    (working : (m.trainFound x).jnl.train.st ≠ .failed) : m.trainEnd x = ((m.trainFound x).jnlFailed).failStep 0xC4#8 :=
  (if_pos down).trans (congrArg (Mod.failStep · 0xC4#8) (if_neg working))

theorem Mod.firmwareEnd_unread {a : Nat} {k : Mod} (read : m.readPackage a = (none, k)) : m.firmwareEnd a = k.failStep 0xC6#8 := by
  unfold Mod.firmwareEnd
  generalize m.readPackage a = found at read ⊢
  subst read
  rfl

/-- The module whose control cores run the package that was read at an address. -/
def Mod.firmwareRuns (n : Mod) (a : Nat) (hdr body : Bytes) : Mod :=
  let fw : CoreFw := ⟨a, pkgLength hdr, BitVec.ofNat 6 (pkgSvn hdr), BitVec.ofNat 32 (pkgVersion hdr),
    BitVec.ofNat 2 (pkgKey hdr), pkgMeasure hdr body⟩
  { n with boot := { n.boot with coreFw := some fw, coresHeld := n.boot.coresHeld &&& ~~~n.liveCores } }

theorem Mod.firmwareEnd_read {a : Nat} {k : Mod} {hdr body : Bytes} (read : m.readPackage a = (some (hdr, body), k)) :
    m.firmwareEnd a =
      if packageStatus k.fuses 2 hdr body ≠ 0#8 then (k.verified 2 (packageStatus k.fuses 2 hdr body)).failStep 0xC6#8
      else ((k.verified 2 (packageStatus k.fuses 2 hdr body)).firmwareRuns a hdr body).setLocks.endStep 0#8 := by
  unfold Mod.firmwareEnd
  generalize m.readPackage a = found at read ⊢
  subst read
  rfl

/-! ### HEADERS: the bands in their order (R525) -/

variable {b : Nat} {bs : List Nat} {fail : Option Nat}

theorem Mod.bringBands_skips (skip : isDark m.plan b = true ∨ (m.band b).closed = true) :
    m.bringBands (b :: bs) fail = m.bringBands bs fail := if_pos skip

theorem Mod.bringBands_stops (lit : isDark m.plan b = false) (opened : (m.band b).closed = false)
    (stop : (m.band b).held = true ∨ fail = some b) : m.bringBands (b :: bs) fail = (false, m.bandFailed b) :=
  (if_neg (by simp [lit, opened])).trans (if_pos stop)

theorem Mod.bringBands_rises (lit : isDark m.plan b = false) (opened : (m.band b).closed = false)
    (free : (m.band b).held = false) (good : fail ≠ some b) : m.bringBands (b :: bs) fail =
      (({ m with cells := m.cells.filter (fun e => bandOf e.1 != b) } : Mod).setBand b
        { m.band b with closed := true }).bringBands bs fail :=
  (if_neg (by simp [lit, opened])).trans (if_neg (by simp [free, good]))

/-! ### DONE and FAILED (R413) -/

/-- The module whose running step has ended in a state, with a status and its duration. -/
def Mod.stepPast (m : Mod) (w : StepWork) (e : StepSt) (st : BitVec 8) : Mod :=
  let k := m.setStep w.step { m.step w.step with
    st := e, status := st, elapsedUs := BitVec.ofNat 32 (m.clock.timeUs - (m.step w.step).since) }
  { k with boot := { k.boot with run := none } }

theorem Mod.failStep_none (none : m.boot.run = none) (st : BitVec 8) : m.failStep st = m := by
  simp only [Mod.failStep, none]

theorem Mod.endStep_none (none : m.boot.run = none) (st : BitVec 8) : m.endStep st = m := by
  simp only [Mod.endStep, none]

theorem Mod.endStep_some {w : StepWork} (run : m.boot.run = some w) (st : BitVec 8) : m.endStep st =
    (m.stepPast w .done st).raise .buStepDone noUnit
      (payload [i1 w.step, i4 (BitVec.ofNat 32 (m.clock.timeUs - (m.step w.step).since)).toNat]) := by
  simp only [Mod.endStep, run]
  rfl

theorem Mod.failStep_some {w : StepWork} (run : m.boot.run = some w) (st : BitVec 8) : m.failStep st =
    (if w.step = 1 then { m.stepPast w .failed st with power := { m.power with railsOn := false } }
      else m.stepPast w .failed st).raise .buStepFailed noUnit (payload [i1 w.step, i1 st.toNat]) := by
  simp only [Mod.failStep, run]
  rfl

end

end Sys2Proof.Machine

namespace Sys2Proof

open Machine

/-- Settles O53: a GO goes by its first failed check, and each step begins and ends in its own way. -/
theorem bringUpStepsRunInOrder : Obligations.BringUpStepsRunInOrder := by
  unfold Obligations.BringUpStepsRunInOrder
  intro m fd v variants programs found powered order busy begun told
  refine ⟨fun serves => ?go, fun none => turns_stepCompletion powered found (Mod.stepCompletion_none none found),
    ?ends, fun n fail => rfl,
    fun n b bs fail => ⟨Mod.bringBands_skips, fun lit opened => ⟨fun held => ?held, fun free bad => ?bad,
      Mod.bringBands_rises lit opened⟩⟩,
    fun n st none => ⟨Mod.failStep_none none st, Mod.endStep_none none st⟩,
    fun n st w run => ⟨Mod.endStep_some run st, Mod.failStep_some run st⟩, turns_stepBoundExpiry powered rfl⟩
  case held =>
    rw [Mod.bringBands_stops lit opened (.inl held), Mod.bandFailed]
    simp only [held, if_true]
  case bad =>
    rw [Mod.bringBands_stops lit opened (.inr bad), Mod.bandFailed]
    simp only [free, Bool.false_eq_true, if_false]
  case go =>
    have rails (v) {k} := turns_rails (m' := k) powered fd v
    have train (v) {k} := turns_train (m' := k) powered fd v
    have headers (v) {k} := turns_headers (m' := k) powered fd v
    have firmware (v) {k} := turns_firmware (m' := k) powered fd v
    have selfTest (v) {k} := turns_selfTest (m' := k) powered fd v
    have imageLoad (v) {k} := turns_imageLoad (m' := k) powered fd v variants
    have start (v) {k} := turns_start (m' := k) powered fd v programs
    refine ⟨?refused, fun free ordered => ?rails, fun free ordered => ?train,
      fun free ordered => headers 1#8 (Mod.sdoWhole_go serves fd (n := 3) (by decide) (by decide) (Mod.go_begins free ordered)),
      fun free ordered => firmware 1#8 (Mod.sdoWhole_go serves fd (n := 4) (by decide) (by decide) (Mod.go_begins free ordered)),
      fun free ordered => selfTest 1#8 (Mod.sdoWhole_go serves fd (n := 5) (by decide) (by decide) (Mod.go_begins free ordered)),
      fun free ordered => imageLoad 1#8 (Mod.sdoWhole_go serves fd (n := 6) (by decide) (by decide) (Mod.go_begins free ordered)),
      fun free ordered => ?start⟩
    case refused =>
      simp only [List.forall_mem_cons]
      exact ⟨Mod.go_refuses serves fd (n := 1) (by decide) (by decide) (fun _ => rails v),
        Mod.go_refuses serves fd (n := 2) (by decide) (by decide) (fun _ => train v),
        Mod.go_refuses serves fd (n := 3) (by decide) (by decide) (fun _ => headers v),
        Mod.go_refuses serves fd (n := 4) (by decide) (by decide) (fun _ => firmware v),
        Mod.go_refuses serves fd (n := 5) (by decide) (by decide) (fun _ => selfTest v),
        Mod.go_refuses serves fd (n := 6) (by decide) (by decide) (fun _ => imageLoad v),
        Mod.go_refuses serves fd (n := 7) (by decide) (by decide) (fun _ => start v), by simp⟩
    case rails =>
      intro k dry badInput
      have turns {j : Mod} (begins : (m.stepBegun 1 []).railsBegin = j) : Safety.Turns m (.rails fd 1#8) (told 1 j) := by
        subst begins
        exact rails 1#8 (Mod.sdoWhole_go serves fd (n := 1) (by decide) (by decide) (Mod.go_begins free ordered))
      exact ⟨fun bad => turns (Mod.railsBegin_input bad), fun input bad => turns (Mod.railsBegin_coolant input bad),
        fun input coolant => turns (Mod.railsBegin_on input coolant)⟩
    case train =>
      intro k clear
      have turns {j : Mod} (begins : (m.stepBegun 2 []).trainBegin = j) : Safety.Turns m (.train fd 1#8) (told 2 j) := by
        subst begins
        exact train 1#8 (Mod.sdoWhole_go serves fd (n := 2) (by decide) (by decide) (Mod.go_begins free ordered))
      exact ⟨fun working => turns (Mod.trainBegin_trains working), fun failed => turns (Mod.trainBegin_retrains failed)⟩
    case start =>
      intro k stop
      have turns {j : Mod} (begins : k.startBegin programs = j) : Safety.Turns m (.start fd 1#8 programs) (told 7 j) := by
        subst begins
        exact start 1#8 (Mod.sdoWhole_go serves fd (n := 7) (by decide) (by decide) (Mod.go_begins free ordered))
      have stops {st : BitVec 8} (status : k.startStatus = st) (bad : st ≠ 0#8) : stop st :=
        turns (Mod.startBegin_fails status bad)
      refine ⟨fun unready => stops (Mod.startStatus_unready unready) (by decide), fun ready stopped =>
        ⟨fun noImage => ?noImage, fun im image => ⟨fun lea => ?ofLea, fun alone => ⟨fun test => ?test, fun noTest off => ?off,
          fun noTest on bad => ?units, fun noTest on good => ?starts⟩⟩⟩⟩
      case noImage => exact stops (by rw [Mod.startStatus_ready ready stopped, noImage]; rfl) (by decide)
      case ofLea => exact stops (by rw [Mod.startStatus_ready ready stopped, image, Option.elim_some, if_pos lea]) (by decide)
      all_goals have status := Mod.startStatus_image ready stopped image alone
      case test => exact stops (status.trans (if_pos test)) (by decide)
      case off => exact stops (status.trans (Mod.startChecks_consumer noTest off)) (by decide)
      case units =>
        exact stops (status.trans ((Mod.startChecks_units noTest on).trans (if_pos bad))) (by decide)
      case starts =>
        have passed : k.startChecks = 0#8 := (Mod.startChecks_units noTest on).trans (if_neg (ne_true_of_eq_false good))
        exact turns (Mod.startBegin_starts (status.trans passed))
  case ends =>
    intro w run ends
    have turns {n : Mod} (result : m.stepCompletion found = n) : ends n := turns_stepCompletion powered found result
    have completes := Mod.stepCompletion_some run found
    refine ⟨?rails, ?train, ?headers, ?firmware, ?selfTest, ?imageLoad, ?start⟩
    all_goals intro step; simp only [step, Nat.reduceEqDiff, if_true, if_false] at completes
    case rails => exact turns completes
    case train =>
      intro k
      refine ⟨fun up good => turns (completes.trans ((Mod.trainEnd_up up).trans (if_neg (not_not_intro good)))),
        fun up bad => turns (completes.trans ((Mod.trainEnd_up up).trans (if_pos bad))),
        fun failed => turns (completes.trans (Mod.trainEnd_failed failed)),
        fun down working => turns (completes.trans (Mod.trainEnd_down down working))⟩
    case headers => exact turns completes
    case firmware =>
      refine ⟨fun k unread => turns (completes.trans (Mod.firmwareEnd_unread unread)), ?_⟩
      intro k hdr body read st n fw
      refine ⟨fun bad => ?_, fun good => ?_⟩
      · exact turns (completes.trans ((Mod.firmwareEnd_read read).trans (if_pos bad)))
      · exact turns (completes.trans ((Mod.firmwareEnd_read read).trans (if_neg (not_not_intro good))))
    case selfTest => exact turns completes
    case imageLoad =>
      intro st k loaded
      have ended : m.imageEnd w.addr w.variants = if st = 0#8 then k.endStep 0#8 else k.failStep st := by
        simp only [Mod.imageEnd, loaded]
      exact turns (completes.trans ended)
    case start => exact turns completes

end Sys2Proof
end


section
/-!
PROOFS. Security: sessions and their rights, the keys and fuses, the firmware update, attestation and debug (R482, R488 to
R500).
-/
namespace Sys2Proof.Machine

/-! ### Writes of the security objects -/

section
variable {m : Mod} (serves : Safety.Serves m) (fd : Bool)
include serves

/-- A write that the session may not make is refused. -/
theorem Mod.sdoPut_unauthorised {w i sub : Nat} {v : BitVec w} (closed : m.writeCheck i sub ((w + 7) / 8) = 0x08000020) :
    m.sdoPut fd i sub v = Safety.refused m fd i sub 0x08000020 := by
  rw [Mod.sdoPut_checked serves fd (by rw [closed]; decide), closed]

/-- A write whose object refuses its value leaves the module. -/
theorem Mod.sdoPut_abort {w i sub c : Nat} {v : BitVec w} (check : m.writeCheck i sub ((w + 7) / 8) = 0)
    (effect : m.objEffect i sub (regBytes v) ObjIn.none = (c, m)) (bad : c ≠ 0) :
    m.sdoPut fd i sub v = Safety.refused m fd i sub c :=
  Mod.sdoPut_refused serves fd check effect bad serves.serving serves.calm

variable {i sub : Nat} (check : m.writeCheck i sub 1 = 0) {k : Nat × Mod}
include check

/-- An object that takes only 0x01 refuses another value. -/
theorem Mod.sdoPut_notOne {v : BitVec 8} (effect : m.objEffect i sub (regBytes v) ObjIn.none = onlyOne (leNat (regBytes v)) m k)
    (other : v ≠ 1#8) : m.sdoPut fd i sub v = Safety.refused m fd i sub abValue := by
  have value : leNat (regBytes v) ≠ 1 := fun one => other (BitVec.eq_of_toNat_eq ((leNat_regBytes v).symm.trans one))
  exact Mod.sdoPut_abort serves fd check (effect.trans (if_neg value)) (by decide)

/-- An object that takes only 0x01 acts on it. -/
theorem Mod.sdoPut_one (effect : m.objEffect i sub (regBytes 1#8) ObjIn.none = onlyOne (leNat (regBytes 1#8)) m k) :
    m.sdoPut fd i sub 1#8 = k.2.answer fd i sub (sdoWritten k.1) :=
  Mod.sdoPut_answered serves fd check (effect.trans (if_pos (leNat_regBytes 1#8)))

end

/-! ### Rights and sessions (R496 to R498) -/

section
variable {m : Mod}

theorem Mod.hasRight_session {t : Session} (session : m.sec.session = some t) (r : Nat) :
    m.hasRight r = bitOf t.rights.toNat r := by
  simp only [Mod.hasRight, session]

theorem Mod.disarm_sec : m.disarm.sec = m.sec := by
  unfold Mod.disarm
  split
  · rfl
  · dsimp only
    split <;> rfl

theorem Mod.endSession_none (none : m.sec.session = none) (cause : Option Nat) : m.endSession cause = m := by
  simp only [Mod.endSession, none]

/-- A session that ends is closed, with debug and the checker's test mode. -/
theorem Mod.endSession_some {t : Session} (session : m.sec.session = some t) (why : Nat) : m.endSession (some why) =
    (({ m.disarm with sec := { m.disarm.sec with session := none, dbgHalt := 0#8 } } : Mod).leaveTest).raise
      .authClosed noUnit (payload [i1 why]) := by
  simp only [Mod.endSession, session, Mod.disarm_sec]

/-- The rights that a request names may be asked for with the key that it names. -/
def Mod.mayAsk (m : Mod) (req : BitVec 32) : Prop :=
  req.toNat / 8 % 32 = 0 ∧ req.toNat / 512 % 128 = 0
  ∧ (if req.getLsbD 8 = true then enrolled m.fuses.svcKey = true else enrolled m.sec.ownerKey = true)
  ∧ (req.getLsbD 0 = true → req.getLsbD 8 = true → enrolled m.sec.ownerKey = false)
  ∧ (req.getLsbD 1 = true → m.sec.profile.getLsbD 1 = true) ∧ (req.getLsbD 2 = true → m.sec.profile.getLsbD 2 = true)

theorem bitOf_toNat {w : Nat} (v : BitVec w) (n : Nat) : bitOf v.toNat n = v.getLsbD n := rfl

theorem bitOf_mod (v : Nat) {n k : Nat} (low : n < k) : bitOf (v % 2 ^ k) n = bitOf v n := by
  simp [bitOf, Nat.testBit_mod_two_pow, low]

theorem Mod.rightsAllowed_iff (req : BitVec 32) : m.rightsAllowed (req.toNat % 2 ^ 3) (req.getLsbD 8) = true ↔
    (if req.getLsbD 8 = true then enrolled m.fuses.svcKey = true else enrolled m.sec.ownerKey = true)
    ∧ (req.getLsbD 0 = true → req.getLsbD 8 = true → enrolled m.sec.ownerKey = false)
    ∧ (req.getLsbD 1 = true → m.sec.profile.getLsbD 1 = true)
    ∧ (req.getLsbD 2 = true → m.sec.profile.getLsbD 2 = true) := by
  simp only [Mod.rightsAllowed, bitOf_mod _ (show 0 < 3 by decide), bitOf_mod _ (show 1 < 3 by decide),
    bitOf_mod _ (show 2 < 3 by decide), bitOf_toNat]
  cases req.getLsbD 8 <;> cases req.getLsbD 0 <;> cases req.getLsbD 1 <;> cases req.getLsbD 2 <;> simp [and_assoc]

/-- A request is refused for what it asks exactly where it may not be asked. -/
theorem Mod.mayAsk_iff (req : BitVec 32) : ¬ m.mayAsk req ↔
    field req.toNat 3 5 ≠ 0 ∨ field req.toNat 9 7 ≠ 0
      ∨ m.rightsAllowed (field req.toNat 0 3) (bitOf req.toNat 8) = false := by
  have rights : field req.toNat 0 3 = req.toNat % 2 ^ 3 := by simp [field]
  rw [rights, bitOf_toNat, ← Bool.not_eq_true, Mod.rightsAllowed_iff, Mod.mayAsk, not_and_or, not_and_or]
  rfl

/-- A session, a verification or a lockout stands in the way of a request. -/
def Mod.authBusy (m : Mod) : Prop :=
  m.sec.session.isSome = true ∨ m.sec.verifying.isSome = true ∨ m.sec.lockout = true

/-- The module that has drawn the challenge of a request. -/
def Mod.challenged (m : Mod) (req : BitVec 32) : Mod := { m with
  sec := { m.sec with challenge := some ⟨Config.challenge m.clock.challengeCtr, BitVec.ofNat 3 (req.toNat % 8), req.getLsbD 8,
    BitVec.ofNat 16 (req.toNat / 65536), m.clock.timeUs⟩ }
  clock := { m.clock with challengeCtr := m.clock.challengeCtr + 1 } }

theorem field_top (req : BitVec 32) : field req.toNat 16 16 = req.toNat / 65536 := by
  have bound := req.isLt
  exact Nat.mod_eq_of_lt (by omega)

theorem setWidth_three (req : BitVec 32) : req.setWidth 3 = BitVec.ofNat 3 (req.toNat % 8) := by
  apply BitVec.eq_of_toNat_eq
  simp

/-- What a request does, in the order of its checks. -/
theorem Mod.authReq_eq (req : BitVec 32) [Decidable (m.mayAsk req)] [Decidable m.authBusy] : m.authReq req =
    if ¬ m.mayAsk req then (abValue, m) else if req.toNat / 65536 = 0 then (0, m)
    else if m.authBusy then (abState, m) else (0, m.challenged req) := by
  simp only [Mod.mayAsk_iff, ← field_top, Mod.authReq, Mod.challenged, ← setWidth_three, bitOf_toNat]
  congr

end

section
variable {m : Mod}

/-- The response is signed, over its challenge, by the key that the challenge names. -/
def Mod.responseGood (m : Mod) (c : Challenge) (sig svc : Bytes) : Prop :=
  if c.service = true then sm3 svc = m.fuses.svcKey ∧ sm2Verify svc (m.authMessage c) sig = true
  else sm2Verify m.sec.ownerKey (m.authMessage c) sig = true

theorem Mod.authKeyOk_iff (c : Challenge) (sig svc : Bytes) : m.authKeyOk c sig svc = true ↔ m.responseGood c sig svc := by
  unfold Mod.authKeyOk Mod.responseGood
  split
  · rw [Bool.and_eq_true, decide_eq_true_iff]
  · rfl

/-- The module whose session has opened. -/
def Mod.sessionOpened (m : Mod) (c : Challenge) : Mod := { m with sec := { m.sec with
  verifying := none, failRun := 0, result := 0#8
  session := some ⟨c.rights, c.service, m.clock.timeUs + c.duration.toNat * 1000000⟩ } }

/-- The module that has rejected a response. -/
def Mod.responseRejected (m : Mod) : Mod :=
  ({ m with sec := { m.sec with
    verifying := none, fails := satAdd m.sec.fails 1, failRun := m.sec.failRun + 1, result := 0xE8#8 } } : Mod).raise
      .authRejected noUnit []

variable {c : Challenge} {sig svc : Bytes} (verifying : m.sec.verifying = some (c, sig))
include verifying

theorem Mod.responseVerified_good (good : m.responseGood c sig svc) : m.responseVerified svc =
    (m.sessionOpened c).raise .authOpened noUnit (payload [i4 (m.sessionOpened c).authState.toNat]) := by
  simp only [Mod.responseVerified, verifying]
  exact if_pos ((Mod.authKeyOk_iff c sig svc).2 good)

/-- A response that does not verify is rejected, and the fifth in a row locks requests out. -/
theorem Mod.responseVerified_bad (bad : ¬ m.responseGood c sig svc) : m.responseVerified svc =
    if m.sec.failRun < 4 then m.responseRejected
    else ({ m.responseRejected with sec := { m.responseRejected.sec with failRun := 0, lockout := true } } : Mod).raise
      .authLockout noUnit [] := by
  simp only [Mod.responseVerified, verifying]
  refine (if_neg (mt (Mod.authKeyOk_iff c sig svc).1 bad)).trans ?_
  simp only [Nat.add_lt_iff_lt_sub_right]
  rfl

end

/-! ### The profile, the fuses and the keys (R487, R488, R496, R500) -/

section
variable {m : Mod}

/-- The profile withdraws a right of the session. -/
def withdraws (t : Session) (v : BitVec 8) : Prop :=
  (t.rights.getLsbD 1 = true ∧ v.getLsbD 1 = false) ∨ (t.rights.getLsbD 2 = true ∧ v.getLsbD 2 = false)

theorem Mod.setProfile_session {t : Session} (session : m.sec.session = some t) (v : BitVec 8) [Decidable (withdraws t v)] :
    m.setProfile v = if withdraws t v then ({ m with sec := { m.sec with profile := v } } : Mod).endSession (some 3)
      else { m with sec := { m.sec with profile := v } } := by
  simp only [Mod.setProfile, session, bitOf_toNat, withdraws]
  congr 1
  simp

/-- A key that FW_REVOKE names has signed a package that runs. -/
def Mod.keyInUse (m : Mod) (v : BitVec 8) : Prop :=
  v.getLsbD (pkgKey (m.slotHeader m.sec.mcSlot)) = true ∨ ∃ f, m.boot.coreFw = some f ∧ v.getLsbD f.key.toNat = true

theorem Mod.fwRevoke_owner {t : Session} (session : m.sec.session = some t) (owner : t.service = false) (v : BitVec 8) :
    m.fwRevoke v = (abAuth, m) := by
  simp only [Mod.fwRevoke, session, owner, if_true]

theorem Mod.fwRevoke_service {t : Session} (session : m.sec.session = some t) (service : t.service = true) (v : BitVec 8)
    [Decidable (m.keyInUse v)] : m.fwRevoke v = if m.keyInUse v then (abValue, m)
      else (0, ({ m with fuses := { m.fuses with revoked := m.fuses.revoked ||| v } } : Mod).raise .secKeyChanged noUnit []) := by
  have used : m.keyInUse v ↔ (v.getLsbD (pkgKey (m.slotHeader m.sec.mcSlot))
      || m.boot.coreFw.elim false fun f => v.getLsbD f.key.toNat) = true := by
    unfold Mod.keyInUse
    cases m.boot.coreFw <;> simp
  simp only [Mod.fwRevoke, session, service, used, bitOf_toNat]
  cases m.boot.coreFw <;> rfl

/-- A value as long as the key stands for itself. -/
theorem padTo_regBytes (key : BitVec 512) : padTo 64 (regBytes key) = regBytes key := by
  have long : (regBytes key).length = 64 := length_regBytes key
  simp [padTo, long]

theorem Mod.setOwnerKey_eq (key : BitVec 512) : m.setOwnerKey (regBytes key) = ({ m with sec := { m.sec with
    ownerKey := regBytes key, ownerOnce := m.sec.ownerOnce || !m.hasRight 0 } } : Mod).raise .secKeyChanged noUnit [] := by
  simp only [Mod.setOwnerKey, padTo_regBytes]

theorem Mod.setImageKey_eq (key : BitVec 512) : m.setImageKey (regBytes key) =
    ({ m with sec := { m.sec with imageKey := regBytes key } } : Mod).raise .secKeyChanged noUnit [] := by
  simp only [Mod.setImageKey, padTo_regBytes]

theorem Mod.ownerMayWrite_iff : m.ownerMayWrite = true ↔
    m.hasRight 0 = true ∨ (enrolled m.sec.ownerKey = false ∧ m.sec.ownerOnce = false) := by
  simp [Mod.ownerMayWrite]

/-! ### The firmware update (R490) -/

theorem Mod.slotMem_eq (slot : BitVec 8) : m.slotMem slot = if slot = 0#8 then m.sec.slotA else m.sec.slotB := rfl

theorem Mod.fwChunk_committing (committing : m.sec.committing.isSome = true) (data : Bytes) :
    m.fwChunk data = (abState, m) := if_pos committing

theorem Mod.fwChunk_long (idle : m.sec.committing = none) {data : Bytes}
    (long : 2097152 < m.sec.fwOffset.toNat + data.length) : m.fwChunk data = (abHigh, m) :=
  (if_neg (by simp [idle])).trans (if_pos long)

theorem Mod.fwChunk_stores (idle : m.sec.committing = none) {data : Bytes}
    (fits : m.sec.fwOffset.toNat + data.length ≤ 2097152) : m.fwChunk data =
      let bytes := memWrite (m.slotMem m.sec.fwSlot) m.sec.fwOffset.toNat data
      let moved : Sec := { m.sec with fwOffset := BitVec.ofNat 32 (m.sec.fwOffset.toNat + data.length) }
      (0, { m with sec :=
        if m.sec.fwSlot = 0#8 then { moved with slotA := bytes } else { moved with slotB := bytes } }) := by
  refine (if_neg (by simp [idle])).trans ((if_neg (by omega)).trans ?_)
  dsimp only
  split <;> rfl

theorem Mod.fwCommit_committing (committing : m.sec.committing.isSome = true) : m.fwCommit = (abState, m) := if_pos committing

theorem Mod.fwCommit_idle (idle : m.sec.committing = none) :
    m.fwCommit = (0, { m with sec := { m.sec with committing := some m.sec.fwSlot } }) := if_neg (by simp [idle])

theorem Mod.verified_recovery (kind : Nat) (st : BitVec 8) : (m.verified kind st).sec.recovery = m.sec.recovery := by
  unfold Mod.verified
  split
  · rfl
  · rw [Mod.raise_sec]
    rfl

/-- The module whose slot has been verified, with a status. -/
def Mod.slotVerified (m : Mod) (st : BitVec 8) : Mod := ({ m with sec := { m.sec with committing := none } } : Mod).verified 1 st

/-- The module that boots a slot next. -/
def Mod.bootsNext (m : Mod) (slot : BitVec 8) : Mod := { m with sec := { m.sec with nextSlot := slot } }

theorem Mod.fwVerified_idle (idle : m.sec.committing = none) : m.fwVerified = m := by
  have none : m.commitVerified = (false, m) := by simp only [Mod.commitVerified, idle]
  rw [Mod.fwVerified, none]
  exact if_neg (by simp)

variable {slot : BitVec 8} (committing : m.sec.committing = some slot)
include committing

theorem Mod.commitVerified_some : m.commitVerified =
    if m.slotStatus slot = 0#8 then (true, (m.slotVerified (m.slotStatus slot)).bootsNext slot)
    else (false, m.slotVerified (m.slotStatus slot)) := by
  simp only [Mod.commitVerified, committing]
  rfl

theorem Mod.fwVerified_bad (bad : m.slotStatus slot ≠ 0#8) : m.fwVerified = m.slotVerified (m.slotStatus slot) := by
  rw [Mod.fwVerified, Mod.commitVerified_some committing, if_neg bad]
  exact if_neg (by simp)

theorem Mod.fwVerified_good (good : m.slotStatus slot = 0#8) : m.fwVerified =
    if m.sec.recovery = true then
      let k := ((((m.slotVerified (m.slotStatus slot)).bootsNext slot).secResult 0#8).runSlot' slot).freshAfter.checkPlan
      (if k.safe.active then k.leaveSafe 5 else k).announce
    else (m.slotVerified (m.slotStatus slot)).bootsNext slot := by
  rw [Mod.fwVerified, Mod.commitVerified_some committing, if_pos good]
  simp only [true_and]
  rfl

end

/-! ### The accumulator that debug reads (R499) -/

section
variable {m : Mod}

theorem Mod.sdoUpload_reading (serves : Safety.Serves m) (fd : Bool) {i sub : Nat} {a : Except Nat Bytes} {n : Mod}
    (reads : m.objRead i sub = (a, n)) : m.sdoUpload true fd i sub = match a with
      | .error c => n.answer fd i sub (.abort c)
      | .ok bs => if bs.length ≤ sdoFits fd then n.answer fd i sub (.data bs)
          else (n.withTransfer (some ⟨false, i, sub, fd, bs.length, bs⟩)).answer fd i sub (.opened bs.length) := by
  rw [Mod.sdoUpload, Mod.request_serving serves.serving serves.calm, if_neg Bool.false_ne_true.symm]
  simp only [serves.closed, Option.isSome_none, Bool.false_eq_true, if_false, reads]
  cases a <;> rfl

set_option maxRecDepth 40000 in
theorem row_4450_3 : objExists 0x4450 = true ∧ objRow 0x4450 3 = some ⟨0x4450, 1, 0x03, 1, .u64, .ro, 0⟩ := by decide

theorem Mod.readCheck_dbgAcc (normal : m.sec.recovery = false) :
    m.readCheck 0x4450 3 = if m.hasRight 1 = false then abAuth else 0 := by
  obtain ⟨exist, row⟩ := row_4450_3
  simp [Mod.readCheck, exist, row, normal]

theorem Mod.objRead_dbgAcc_unauthorised (normal : m.sec.recovery = false) (noRight : m.hasRight 1 = false) :
    m.objRead 0x4450 3 = (.error abAuth, m) := by
  have check : m.readCheck 0x4450 3 = abAuth := (Mod.readCheck_dbgAcc normal).trans (if_pos noRight)
  rw [Mod.objRead, check]
  rfl

/-- The module whose debug read has ended with a status and a word. -/
def Mod.debugged (m : Mod) (st : BitVec 8) (word : BitVec 64) : Mod :=
  { m with sec := { m.sec with dbgStatus := st, dbgAcc := word } }

/-- The word that DBG_SEL names. -/
def Mod.debugSelected (m : Mod) : BitVec 64 :=
  let q := m.sec.dbgSel.toNat
  debugWord (m.cell (q % 2 ^ 13)) (q / 2 ^ 13 % 4) (q / 2 ^ 15 % 16) (q / 2 ^ 19 % 32)

section
variable (normal : m.sec.recovery = false) (right : m.hasRight 1 = true)
include normal right

theorem Mod.objRead_dbgAcc : m.objRead 0x4450 3 =
    (if (m.debugRead m.sec.dbgSel).sec.dbgStatus = 0#8 then .ok (regBytes (m.debugRead m.sec.dbgSel).sec.dbgAcc)
      else .error abNoData, m.debugRead m.sec.dbgSel) := by
  have check : m.readCheck 0x4450 3 = 0 := (Mod.readCheck_dbgAcc normal).trans (if_neg (by simp [right]))
  rw [Mod.objRead, check]
  rfl

theorem Mod.objRead_dbgAcc_running (running : m.sec.dbgHalt ≠ 1#8) :
    m.objRead 0x4450 3 = (.error abNoData, m.debugged 0x21#8 m.sec.dbgAcc) := by
  have read : m.debugRead m.sec.dbgSel = m.debugged 0x21#8 m.sec.dbgAcc := if_neg running
  rw [Mod.objRead_dbgAcc normal right, read]
  exact congrArg (Prod.mk · _) (if_neg (by simp [Mod.debugged]))

theorem Mod.objRead_dbgAcc_halted (halted : m.sec.dbgHalt = 1#8) :
    m.objRead 0x4450 3 = (.ok (regBytes m.debugSelected), m.debugged 0#8 m.debugSelected) := by
  have read : m.debugRead m.sec.dbgSel = m.debugged 0#8 m.debugSelected := by
    simp [Mod.debugRead, halted, Mod.debugged, Mod.debugSelected, field]
  rw [Mod.objRead_dbgAcc normal right, read]
  rfl

end
end

end Sys2Proof.Machine

namespace Sys2Proof

open Machine

/-- Settles O59: a write goes by its first failed check, and each security object then acts by its own rule. -/
theorem securityObjectsKeepTheirRules : Obligations.SecurityObjectsKeepTheirRules := by
  unfold Obligations.SecurityObjectsKeepTheirRules
  classical
  intro m fd v req key data svc powered s put closed
  have closes (n : Mod) (why : Nat) : n.endSession (some why) = closed n why := by
    unfold closed
    cases session : n.sec.session with
    | none => exact Mod.endSession_none session _
    | some t => exact Mod.endSession_some session why
  refine ⟨fun serves => ?writes, fun idle => turns_attestSigned powered (if_pos idle),
    fun signing => turns_attestSigned powered (if_neg (not_not_intro signing)),
    fun none => turns_responseVerified powered svc (by simp only [Mod.responseVerified, show m.sec.verifying = _ from none]),
    fun c sig verifying => ?response, turns_durationEnd powered (closes m 2), turns_challengeExpiry powered rfl,
    turns_lockoutEnd powered rfl, fun idle => turns_fwCommitVerified powered (Mod.fwVerified_idle idle),
    fun slot committing => ?verified⟩
  case response =>
    intro text good ends bad
    refine ⟨fun right => turns_responseVerified powered svc (Mod.responseVerified_good verifying right),
      fun wrong few => ?_, fun wrong many => ?_⟩
    · exact turns_responseVerified powered svc ((Mod.responseVerified_bad verifying wrong).trans (if_pos few))
    · exact turns_responseVerified powered svc ((Mod.responseVerified_bad verifying wrong).trans (if_neg (Nat.not_lt.2 many)))
  case verified =>
    intro st n chosen
    have normal : chosen.sec.recovery = m.sec.recovery := Mod.verified_recovery 1 st
    refine ⟨fun bad => turns_fwCommitVerified powered (Mod.fwVerified_bad committing bad), fun good served => ?_,
      fun good recovers => ?_⟩
    · exact turns_fwCommitVerified powered ((Mod.fwVerified_good committing good).trans
        (if_neg (ne_true_of_eq_false (normal.symm.trans served))))
    · exact turns_fwCommitVerified powered ((Mod.fwVerified_good committing good).trans (if_pos (normal.symm.trans recovers)))
  case writes =>
    have answer (n : Mod) (i sub : Nat) (serving : n.serving = true) (calm : n.inject.armed = false) :
        n.answer fd i sub .done = Safety.accepted n fd i sub := Mod.answer_serving serving calm fd i sub .done
    refine ⟨?rights, fun other => ?onlyOne, fun signing => ?signing, fun idle => ?snapshot, ?request, fun none => ?noChallenge,
      fun c challenge => ?challenge, ?close, fun right => ?admin, ?owner, fun right => ?halt, fun noRight => ?unauthorised,
      fun right running => ?running, fun right halted => ?accumulator, ?chunk, fun committing => ?committing, fun idle => ?commit⟩
    case rights =>
      simp only [List.forall_mem_cons]
      exact ⟨fun no => turns_secProfile powered fd v (Mod.sdoPut_unauthorised serves fd (noauth_4400_1 m 1 no)),
        fun no => turns_svnCommit powered fd v (Mod.sdoPut_unauthorised serves fd (noauth_4400_5 m 1 no)),
        fun no => turns_fwRevoke powered fd v (Mod.sdoPut_unauthorised serves fd (noauth_4401_7 m 1 no)),
        fun no => turns_imageKey powered fd key (Mod.sdoPut_unauthorised serves fd (noauth_4410_4 m 64 no)),
        fun no => turns_dbgHalt powered fd v (Mod.sdoPut_unauthorised serves fd (noauth_4450_1 m 1 no)), by simp⟩
    case onlyOne =>
      simp only [List.forall_mem_cons]
      exact ⟨turns_attGo powered fd v (Mod.sdoPut_notOne serves fd (check_4420_2 m) (effect_4420_2 m _ _) other),
        turns_authClose powered fd v (Mod.sdoPut_notOne serves fd (check_4430_5 m) (effect_4430_5 m _ _) other),
        turns_fwCommit powered fd v (Mod.sdoPut_notOne serves fd (check_4440_4 m) (effect_4440_4 m _ _) other), by simp⟩
    case signing =>
      have refuses : m.attGo = (abState, m) := if_pos signing
      have goes := Mod.sdoPut_one serves fd (check_4420_2 m) (effect_4420_2 m _ _)
      rw [refuses] at goes
      exact turns_attGo powered fd 1#8 (goes.trans (Mod.answer_abort serves fd 0x4420 2 abState))
    case snapshot =>
      intro cc report
      have takes : m.attGo = (0, put { s with attState := 1#8, attReport := report }) := if_neg idle
      have goes := Mod.sdoPut_one serves fd (check_4420_2 m) (effect_4420_2 m _ _)
      rw [takes] at goes
      exact turns_attGo powered fd 1#8 (goes.trans (answer _ 0x4420 2 serves.serving serves.calm))
    case request =>
      intro n rights service owner allowed busy
      have effect : m.objEffect 0x4430 1 (regBytes req) ObjIn.none = m.authReq req := by
        rw [effect_4430_1, ofNat_leNat_regBytes]
      rw [Mod.authReq_eq] at effect
      refine ⟨fun no => ?_, fun yes zero => ?_, fun yes some busy => ?_, fun yes some free => ?_⟩
      · rw [if_pos (show ¬ m.mayAsk req from no)] at effect
        exact turns_authReq powered fd req (Mod.sdoPut_abort serves fd (check_4430_1 m) effect (by decide))
      all_goals rw [if_neg (not_not_intro (show m.mayAsk req from yes))] at effect
      · rw [if_pos (show req.toNat / 65536 = 0 from zero)] at effect
        exact turns_authReq powered fd req
          (Mod.sdoPut_accepted serves fd (check_4430_1 m) effect serves.serving serves.calm)
      all_goals rw [if_neg (show ¬ req.toNat / 65536 = 0 from some)] at effect
      · rw [if_pos (show m.authBusy from busy)] at effect
        exact turns_authReq powered fd req (Mod.sdoPut_abort serves fd (check_4430_1 m) effect (by decide))
      · rw [if_neg (show ¬ m.authBusy from free)] at effect
        exact turns_authReq powered fd req
          (Mod.sdoPut_accepted serves fd (check_4430_1 m) effect serves.serving serves.calm)
    case noChallenge =>
      have refuses : m.authResponse (regBytes key) = (abNoData, put { s with result := 0xE9#8 }) := by
        simp only [Mod.authResponse, show m.sec.challenge = _ from none]
        rfl
      exact turns_authResponse powered fd key (Mod.sdoPut_refused serves fd (check_4430_3 m)
        ((effect_4430_3 m _ _).trans refuses) (by decide) serves.serving serves.calm)
    case challenge =>
      have begins : m.authResponse (regBytes key) =
          (0, put { s with challenge := none, verifying := some (c, regBytes key) }) := by
        simp only [Mod.authResponse, show m.sec.challenge = _ from challenge]
        rfl
      exact turns_authResponse powered fd key (Mod.sdoPut_accepted serves fd (check_4430_3 m)
        ((effect_4430_3 m _ _).trans begins) serves.serving serves.calm)
    case close =>
      rw [← closes]
      exact turns_authClose powered fd 1#8 (Mod.sdoPut_one serves fd (check_4430_5 m) (effect_4430_5 m _ _))
    case admin =>
      refine ⟨fun high => ?tooHigh, ?profile, fun other => ?notOne, ?svn, fun zero => ?noKey,
        fun high => ?noSuchKey, ?revoke, ?imageKey⟩
      case tooHigh =>
        have effect := effect_4400_1 m (regBytes v) ObjIn.none
        rw [leNat_regBytes, if_pos high] at effect
        exact turns_secProfile powered fd v (Mod.sdoPut_abort serves fd (check_4400_1 m right) effect (by decide))
      case notOne =>
        exact turns_svnCommit powered fd v (Mod.sdoPut_notOne serves fd (check_4400_5 m right) (effect_4400_5 m _ _) other)
      case noKey =>
        subst zero
        exact turns_fwRevoke powered fd 0#8
          (Mod.sdoPut_abort serves fd (check_4401_7 m right) (effect_4401_7 m _ _) (by decide))
      case noSuchKey =>
        have effect := effect_4401_7 m (regBytes v) ObjIn.none
        rw [leNat_regBytes, inRange, if_neg (by omega), if_pos high] at effect
        exact turns_fwRevoke powered fd v (Mod.sdoPut_abort serves fd (check_4401_7 m right) effect (by decide))
      case imageKey =>
        have effect := effect_4410_4 m (regBytes key) ObjIn.none
        rw [Mod.setImageKey_eq] at effect
        exact turns_imageKey powered fd key (Mod.sdoPut_answered (v := key) serves fd (check_4410_4 m right) effect)
      case profile =>
        intro low t session n withdrawn
        have effect := effect_4400_1 m (regBytes v) ObjIn.none
        rw [ofNat_leNat_regBytes, leNat_regBytes, if_neg (Nat.not_lt.2 low), Mod.setProfile_session session] at effect
        refine ⟨fun yes => ?_, fun no => ?_⟩
        · rw [if_pos (show withdraws t v from yes), closes] at effect
          exact turns_secProfile powered fd v (Mod.sdoPut_answered (v := v) serves fd (check_4400_1 m right) effect)
        · rw [if_neg (show ¬ withdraws t v from no)] at effect
          exact turns_secProfile powered fd v
            (Mod.sdoPut_accepted serves fd (check_4400_1 m right) effect serves.serving serves.calm)
      case svn =>
        intro mc cc
        exact turns_svnCommit powered fd 1#8 (Mod.sdoPut_one serves fd (check_4400_5 m right) (effect_4400_5 m _ _))
      case revoke =>
        intro least most t session inUse
        have effect := effect_4401_7 m (regBytes v) ObjIn.none
        rw [ofNat_leNat_regBytes, leNat_regBytes, inRange, if_neg (Nat.not_lt.2 least), if_neg (Nat.not_lt.2 most)] at effect
        have refuses {c : Nat} (refused : m.fwRevoke v = (c, m)) (bad : c ≠ 0) :
            Safety.Turns m (.fwRevoke fd v) (Safety.refused m fd 0x4401 7 c) :=
          turns_fwRevoke powered fd v (Mod.sdoPut_abort serves fd (check_4401_7 m right) (effect.trans refused) bad)
        refine ⟨fun owner => refuses (Mod.fwRevoke_owner session owner v) (by decide), fun service used => ?_,
          fun service free => ?_⟩
        · exact refuses ((Mod.fwRevoke_service session service v).trans (if_pos used)) (by decide)
        · exact turns_fwRevoke powered fd v (Mod.sdoPut_answered (v := v) serves fd (check_4401_7 m right)
            (effect.trans ((Mod.fwRevoke_service session service v).trans (if_neg free))))
    case owner =>
      intro open1
      refine ⟨fun no => ?_, fun yes => ?_⟩
      · exact turns_ownerKey powered fd key (Mod.sdoPut_unauthorised serves fd
          (noauth_4410_3 m 64 (Bool.eq_false_iff.2 (mt Mod.ownerMayWrite_iff.1 no))))
      · have effect := effect_4410_3 m (regBytes key) ObjIn.none
        rw [Mod.setOwnerKey_eq] at effect
        exact turns_ownerKey powered fd key
          (Mod.sdoPut_answered (v := key) serves fd (check_4410_3 m (Mod.ownerMayWrite_iff.2 yes)) effect)
    case halt =>
      have check := check_4450_1 m right
      have effect := effect_4450_1 m (regBytes v) ObjIn.none
      rw [ofNat_leNat_regBytes, leNat_regBytes] at effect
      refine ⟨fun high => ?_, fun fits running => ?_, fun fits stopped => ?_⟩
      · exact turns_dbgHalt powered fd v (Mod.sdoPut_abort serves fd check
          (effect.trans ((if_neg (Nat.not_lt_zero _)).trans (if_pos high))) (by decide))
      all_goals replace effect := effect.trans ((if_neg (Nat.not_lt_zero _)).trans (if_neg (Nat.not_lt.2 fits)))
      · exact turns_dbgHalt powered fd v (Mod.sdoPut_abort serves fd check (effect.trans (if_pos running)) (by decide))
      · exact turns_dbgHalt powered fd v
          (Mod.sdoPut_accepted serves fd check (effect.trans (if_neg stopped)) serves.serving serves.calm)
    case unauthorised =>
      exact turns_dbgAcc powered fd ((Mod.sdoUpload_reading serves fd
        (Mod.objRead_dbgAcc_unauthorised serves.normal noRight)).trans (Mod.answer_abort serves fd 0x4450 3 abAuth))
    case running =>
      exact turns_dbgAcc powered fd ((Mod.sdoUpload_reading serves fd
        (Mod.objRead_dbgAcc_running serves.normal right running)).trans
          (Mod.answer_serving (m := m.debugged 0x21#8 m.sec.dbgAcc) serves.serving serves.calm fd 0x4450 3 _))
    case accumulator =>
      intro q word n
      have reads := Mod.sdoUpload_reading serves fd (Mod.objRead_dbgAcc_halted serves.normal right halted)
      have long : (regBytes m.debugSelected).length = 8 := length_regBytes _
      dsimp only at reads
      rw [long] at reads
      refine ⟨fun wide => ?_, fun classic => ?_⟩
      · subst wide
        exact turns_dbgAcc powered true (reads.trans ((if_pos (by decide)).trans
          (Mod.answer_serving (m := m.debugged 0#8 m.debugSelected) serves.serving serves.calm _ _ _ _)))
      · subst classic
        let opened : SdoTransfer := ⟨false, 0x4450, 3, false, 8, regBytes m.debugSelected⟩
        exact turns_dbgAcc powered false (reads.trans ((if_neg (by decide)).trans
          (Mod.answer_serving (m := (m.debugged 0#8 m.debugSelected).withTransfer (some opened)) serves.serving
            serves.calm _ _ _ _)))
    case chunk =>
      intro off bytes moved refuse
      have writes (fits : data.length ≤ 4096) {c : Nat} {n : Mod} (stores : m.fwChunk data = (c, n)) :
          m.sdoWhole fd 0x4440 3 data ObjIn.none = n.answer fd 0x4440 3 (sdoWritten c) :=
        Mod.sdoWhole_answer serves (check_4440_3 m _ fits) ((effect_4440_3 m _ _).trans stores)
      refine ⟨fun long => ?_, fun fits committing => ?_, fun fits idle high => ?_, fun fits idle low => ?_⟩
      · have check : m.writeCheck 0x4440 3 data.length = 0x06070010 :=
          Mod.writeCheck_length row_4440_3.1 row_4440_3.2 (by decide) (by decide) (Mod.mayWrite_rw rfl)
            (decide_eq_false (Nat.not_le.2 long))
        have refused := Mod.objWrite_refused (m := m) 0x4440 3 data ObjIn.none (by rw [check]; decide)
        rw [check] at refused
        exact turns_fwChunk powered fd data (Mod.sdoWhole_refused serves fd 0x4440 3 data ObjIn.none refused)
      · exact turns_fwChunk powered fd data ((writes fits (Mod.fwChunk_committing committing data)).trans
          (Mod.answer_abort serves fd 0x4440 3 abState))
      · exact turns_fwChunk powered fd data ((writes fits (Mod.fwChunk_long idle high)).trans
          (Mod.answer_abort serves fd 0x4440 3 abHigh))
      · exact turns_fwChunk powered fd data ((writes fits (Mod.fwChunk_stores idle low)).trans
          (answer _ 0x4440 3 serves.serving serves.calm))
    case committing =>
      have goes := Mod.sdoPut_one serves fd (check_4440_4 m) (effect_4440_4 m _ _)
      rw [Mod.fwCommit_committing committing] at goes
      exact turns_fwCommit powered fd 1#8 (goes.trans (Mod.answer_abort serves fd 0x4440 4 abState))
    case commit =>
      have goes := Mod.sdoPut_one serves fd (check_4440_4 m) (effect_4440_4 m _ _)
      rw [Mod.fwCommit_idle idle] at goes
      exact turns_fwCommit powered fd 1#8 (goes.trans (answer _ 0x4440 4 serves.serving serves.calm))

end Sys2Proof
end


section
/-!
PROOFS. Attention: the publish word, the walk-complete fence and the walk of a work entry (R291 to R300).
-/
namespace Sys2Proof.Machine

section
variable {m : Mod}

/-! ### The publish word (R292) -/

/-- A write of a whole publish word is discarded, stored or refused. -/
theorem Mod.seqWriteIn_publish (e : Nat) (w : BitVec 128) (writer : BitVec 32) :
    m.seqWriteIn (256 * e) (leBytes 16 w.toNat) writer =
      if writer = reqHost ∧ m.seqShared e = true then
        { m with attn := { m.attn with seqtDiscards := satAdd m.attn.seqtDiscards 1 } }
      else if m.publishOk e w.toNat = true then
        { m with attn := { m.attn with seqt := memWrite m.attn.seqt (256 * e) (leBytes 16 w.toNat) } }
      else m.publishRefuse e writer := by
  have start : 256 * e % 256 = 0 := Nat.mul_mod_right 256 e
  have entry : 256 * e / 256 = e := Nat.mul_div_cancel_left e (by decide)
  have long : (leBytes 16 w.toNat).length = 16 := length_leBytes _ _
  have word : leNat (leBytes 16 w.toNat) = w.toNat := leNat_leBytes 16 _ w.isLt
  have nonempty : leBytes 16 w.toNat ≠ [] := by simp [leBytes]
  simp only [Mod.seqWriteIn, start, entry, long, word, nonempty, if_false]
  by_cases ok : m.publishOk e w.toNat = true <;> simp [ok]

/-! ### The fence (R295) -/

theorem Mod.fenceWrite_pending (pending : m.attn.fencePending = true) (v : Nat) : m.fenceWrite v = m := if_pos pending

theorem Mod.fenceWrite_free (free : m.attn.fencePending = false) (v : Nat) : m.fenceWrite v = { m with attn := { m.attn with
    fencePending := true, fenceEntry := field v 0 12, fenceGen := field v 16 16, fenceStatus := 0#8 } } :=
  if_neg (ne_true_of_eq_false free)

/-- The fence clears once no walk of its entry under another GEN remains. -/
theorem Mod.settleFences_eq : m.settleFences =
    if m.attn.fencePending = true ∧ (∀ x ∈ m.attn.walks, x.entry = m.attn.fenceEntry → x.gen = m.attn.fenceGen)
    then ({ m with attn := { m.attn with fencePending := false } } : Mod).settleSubs else m.settleSubs := by
  have same : (m.attn.walks.all fun w => !(w.entry == m.attn.fenceEntry && w.gen != m.attn.fenceGen)) = true ↔
      ∀ x ∈ m.attn.walks, x.entry = m.attn.fenceEntry → x.gen = m.attn.fenceGen := by
    simp [or_iff_not_imp_left]
  rw [Mod.settleFences, ← apply_ite Mod.settleSubs]
  exact congrArg Mod.settleSubs (if_congr (and_congr_right fun _ => same) rfl rfl)

/-! ### The walk (R294, R298 to R300) -/

theorem Mod.walk_noImage (none : m.boot.image = none) (cmd k : Nat) : m.walk cmd k = m := by
  simp only [Mod.walk, none]

variable {im : Image} {cmd : Nat}

theorem Mod.walk_noCommand (image : m.boot.image = some im) (none : im.attn[cmd]? = none) (k : Nat) : m.walk cmd k = m := by
  simp only [Mod.walk, image, none]

/-- The command of the running image walks its entry k, which lies in the stack region. -/
def Mod.walkRuns (m : Mod) (c : AttnCmd) (k : Nat) : Prop :=
  m.running = true ∧ c.qh ≠ 0 ∧ k < c.count ∧ stackRangeOk (c.addr + 8 * k) 8 = true

/-- The work entry k of a command. -/
def Mod.workEntry (m : Mod) (c : AttnCmd) (k : Nat) : WorkEntry :=
  workF (leNat (pieceBytes (m.readStack (c.addr + 8 * k) 8 2 true (reqCore 0)).1))

variable {cw : BitVec 1024} (image : m.boot.image = some im) (command : im.attn[cmd]? = some cw) {k : Nat}
include image command

theorem Mod.walk_some : m.walk cmd k =
    if m.running = false ∨ (attnF cw).qh = 0 ∨ (attnF cw).count ≤ k
        ∨ stackRangeOk ((attnF cw).addr + 8 * k) 8 = false then m
    else match m.roleCell (m.workEntry (attnF cw) k).role with
      | none => m
      | some cell =>
        if isUsable m.plan cell = false ∨ bitOf m.boot.coresHeld.toNat (bandOf cell) = true then m
        else (m.walkRead (bandOf cell) ((attnF cw).addr + 8 * k) 8 2).2.walkEntry cmd (attnF cw)
          (m.workEntry (attnF cw) k) cell := by
  simp only [Mod.walk, image, command]
  rfl

theorem Mod.walk_idle (idle : ¬ m.walkRuns (attnF cw) k) : m.walk cmd k = m := by
  have stays : m.running = false ∨ (attnF cw).qh = 0 ∨ (attnF cw).count ≤ k
      ∨ stackRangeOk ((attnF cw).addr + 8 * k) 8 = false := by
    rw [← Bool.not_eq_true, ← Bool.not_eq_true, ← Nat.not_lt]
    unfold Mod.walkRuns at idle
    tauto
  exact (Mod.walk_some image command).trans (if_pos stays)

theorem Mod.walk_runs (runs : m.walkRuns (attnF cw) k) : m.walk cmd k =
    match m.roleCell (m.workEntry (attnF cw) k).role with
      | none => m
      | some cell =>
        if isUsable m.plan cell = false ∨ bitOf m.boot.coresHeld.toNat (bandOf cell) = true then m
        else (m.walkRead (bandOf cell) ((attnF cw).addr + 8 * k) 8 2).2.walkEntry cmd (attnF cw)
          (m.workEntry (attnF cw) k) cell := by
  obtain ⟨running, heads, within, inStack⟩ := runs
  exact (Mod.walk_some image command).trans (if_neg (by simp [running, heads, within, inStack]))

theorem Mod.walk_noCell (runs : m.walkRuns (attnF cw) k) (none : m.roleCell (m.workEntry (attnF cw) k).role = none) :
    m.walk cmd k = m := by
  rw [Mod.walk_runs image command runs, none]

theorem Mod.walk_cell (runs : m.walkRuns (attnF cw) k) {cell : Nat}
    (role : m.roleCell (m.workEntry (attnF cw) k).role = some cell) : m.walk cmd k =
      if isUsable m.plan cell = false ∨ bitOf m.boot.coresHeld.toNat (bandOf cell) = true then m
      else (m.walkRead (bandOf cell) ((attnF cw).addr + 8 * k) 8 2).2.walkEntry cmd (attnF cw)
        (m.workEntry (attnF cw) k) cell := by
  rw [Mod.walk_runs image command runs, role]

end

end Sys2Proof.Machine

namespace Sys2Proof

open Machine

/-- Settles O46: a publish word goes by its checks, the fence by the walks that remain, and a walk by its entry's LIVE. -/
theorem sequencesArePublishedAndWalked : Obligations.SequencesArePublishedAndWalked := by
  unfold Obligations.SequencesArePublishedAndWalked
  intro m entry w writer v done cmd k powered e a shut good fence
  have publishes := Mod.seqWriteIn_publish (m := m) e w writer
  refine ⟨fun discarded => turns_publishWrite powered entry w writer (publishes.trans (if_pos discarded)),
    fun taken good => ?stored, fun taken bad => ?refused,
    fun pending => turns_seqtFence powered v (congrArg Mod.settleFences (Mod.fenceWrite_pending pending _)),
    fun free => turns_seqtFence powered v (congrArg Mod.settleFences (Mod.fenceWrite_free free _)),
    fun n => Mod.settleFences_eq, turns_fenceClear powered done rfl,
    fun none => turns_walk powered cmd k (Mod.walk_noImage none cmd k),
    fun im cw image => ⟨fun none => turns_walk powered cmd k (Mod.walk_noCommand image none k), ?walk⟩⟩
  case stored =>
    exact turns_publishWrite powered entry w writer
      (publishes.trans ((if_neg taken).trans (if_pos (decide_eq_true good))))
  case refused =>
    exact turns_publishWrite powered entry w writer
      (publishes.trans ((if_neg taken).trans (if_neg (mt of_decide_eq_true bad))))
  case walk =>
    intro command c at_ runs u
    refine ⟨fun idle => turns_walk powered cmd k (Mod.walk_idle image command idle),
      fun runs none => turns_walk powered cmd k (Mod.walk_noCell image command runs none), ?_⟩
    intro cell runs role core n snap nc x counted empty
    have walks := Mod.walk_cell image command runs role
    refine ⟨fun unusable => turns_walk powered cmd k (walks.trans (if_pos unusable)), fun usable free => ?_⟩
    replace walks := walks.trans (if_neg (by simp [usable, show bitOf _ (bandOf cell) = _ from free]))
    refine ⟨fun dead => turns_walk powered cmd k (walks.trans (if_pos dead)), fun live => ?_⟩
    intro pages r crcBad table z bad told
    replace walks := walks.trans (if_neg (ne_false_of_eq_true live))
    refine ⟨fun noPage => turns_walk powered cmd k (walks.trans (if_pos (List.length_eq_zero_iff.2 noPage))), fun some => ?_⟩
    exact turns_walk powered cmd k (walks.trans (if_neg (mt List.length_eq_zero_iff.1 some)))

end Sys2Proof
end


section
/-!
PROOFS. The DMA engines: the doorbell and the enable of a queue, the start of a descriptor, and how its transfer ends (R265 to
R284).
-/
namespace Sys2Proof.Machine

section
variable {m : Mod}

/-! ### The doorbell and the enable of a queue (R267 to R269) -/

/-- A HEAD would run past the ring, back over what it holds, or past the room for completions. -/
def Mod.headOverruns (m : Mod) (q : Nat) (v : BitVec 16) (comps : Nat) : Prop :=
  2 ^ (m.dmaq q).ringSize.toNat < (v.toNat + 65536 - (m.dmaq q).tail.toNat) % 65536
  ∨ (v.toNat + 65536 - (m.dmaq q).tail.toNat) % 65536 < ((m.dmaq q).head - (m.dmaq q).tail).toNat
  ∨ 2 ^ (m.dmaq q).cqSize.toNat < m.cqNeed q v.toNat comps

theorem Mod.dmaqHead_eq (q : Nat) (v : BitVec 16) (comps : Nat) [Decidable (m.headOverruns q v comps)] :
    m.dmaqHead q v.toNat comps =
      if m.headOverruns q v comps then { m with dma := { m.dma with headOverruns := satAdd m.dma.headOverruns 1 } }
      else (m.setDmaq q { m.dmaq q with head := v }).settleQueue q := by
  have fits : v.toNat % 65536 = v.toNat := Nat.mod_eq_of_lt v.isLt
  have value : BitVec.ofNat 16 v.toNat = v := BitVec.ofNat_toNat 16 v |>.trans (BitVec.setWidth_eq v)
  simp only [Mod.dmaqHead, fits, value, decide_eq_true_iff]
  exact if_congr Iff.rfl rfl rfl

/-- A queue as a write of its control word leaves it before its state follows. -/
def DmaQueue.controlled (x : DmaQueue) (v : Nat) : DmaQueue :=
  { x with
    mode := if x.state = 0#2 then bitOf v 1 else x.mode
    ringHost := bitOf v 2, cqHost := bitOf v 3, enable := bitOf v 0 }

section
variable {q v : Nat}

theorem Mod.dmaqCtrl_empties (enables : bitOf v 0 = true) (disabled : (m.dmaq q).state = 0#2) : m.dmaqCtrl q v =
    (m.setDmaq q { (m.dmaq q).controlled v with
      tail := (m.dmaq q).head, cqHead := (m.dmaq q).head, cqRead := (m.dmaq q).head, state := 1#2, done := 0#48,
      order := [] }).settleQueue q :=
  congrArg (fun x => (m.setDmaq q x).settleQueue q) (if_pos ⟨enables, disabled⟩)

theorem Mod.dmaqCtrl_skips (enables : bitOf v 0 = true) (halted : (m.dmaq q).state = 3#2) : m.dmaqCtrl q v =
    (m.setDmaq q { (m.dmaq q).controlled v with tail := (m.dmaq q).errIndex + 1, state := 1#2 }).settleQueue q := by
  have able : ¬ (bitOf v 0 = true ∧ (m.dmaq q).state = 0#2) := by simp [halted]
  exact congrArg (fun x => (m.setDmaq q x).settleQueue q) ((if_neg able).trans (if_pos ⟨enables, halted⟩))

theorem Mod.dmaqCtrl_plain (plain : bitOf v 0 = false ∨ ((m.dmaq q).state ≠ 0#2 ∧ (m.dmaq q).state ≠ 3#2)) :
    m.dmaqCtrl q v = (m.setDmaq q ((m.dmaq q).controlled v)).settleQueue q := by
  have able : ¬ (bitOf v 0 = true ∧ (m.dmaq q).state = 0#2) := by rcases plain with off | ⟨able, _⟩ <;> simp [*]
  have calm : ¬ (bitOf v 0 = true ∧ (m.dmaq q).state = 3#2) := by rcases plain with off | ⟨_, calm⟩ <;> simp [*]
  exact congrArg (fun x => (m.setDmaq q x).settleQueue q) ((if_neg able).trans (if_neg calm))

end

/-! ### The start of a descriptor (R265, R271, R274) -/

section
variable {op early : Nat} {q : Fin 64} {host : BitVec 512}

/-- A row of an op takes the next descriptor of a queue. -/
def Mod.queueTakes (m : Mod) (op : Nat) (q : Fin 64) (host : BitVec 512) : Prop :=
  m.dma.quiesce = false ∧ m.queueReady q.val true = true
  ∧ m.dma.xfers.length + m.dma.waiting.length < 32 ∧ m.queueTurn q.val = true
  ∧ ((dmaF (m.takeDesc q.val host).2.1).fence = true → m.queueXfers q.val = [])
  ∧ opMatches op (dmaF (m.takeDesc q.val host).2.1) = true

/-- The fence of a descriptor holds while transfers of its queue run. -/
theorem fence_open (fence : Bool) (xs : List Xfer) : (fence && !xs.isEmpty) = false ↔ (fence = true → xs = []) := by
  cases fence <;> cases xs <;> simp

/-- The module that has taken the descriptor of a queue. -/
def Mod.descTaken (m : Mod) (q : Fin 64) (host : BitVec 512) : Mod :=
  let k := (m.takeDesc q.val host).2.2
  { k with dma := { k.dma with turn := (q.val + 1) % 64 } }

theorem Mod.dmaStart_waits (waits : ¬ m.queueTakes op q host) : m.dmaStart op (.queue q host) early = m := by
  unfold Mod.dmaStart
  split
  · rfl
  · refine if_pos fun free => waits ?_
    obtain ⟨ready, room, turn, fence, same⟩ := free
    exact ⟨by simp_all, ready, of_decide_eq_true room, turn, (fence_open _ _).1 fence, same⟩

theorem Mod.dmaStart_takes (takes : m.queueTakes op q host) : m.dmaStart op (.queue q host) early =
    let t := m.takeDesc q.val host
    let k := m.descTaken q host
    let st := m.dmaCheck (dmaF t.2.1) (some t.1)
    if st ≠ 0#8 then k.endXfer { Xfer.new k.dma.nextId t.2.1 (.queue q.val t.1) with early := st } st
    else k.beginXfer t.2.1 (.queue q.val t.1) early := by
  obtain ⟨running, ready, room, turn, fence, same⟩ := takes
  have free : ¬ (32 ≤ m.dma.xfers.length ∨ m.dma.quiesce = true) := by simp [running]; omega
  exact (if_neg free).trans
    (if_neg (not_not_intro ⟨ready, decide_eq_true room, turn, (fence_open _ _).2 fence, same⟩))

variable {row : Fin 96}

theorem Mod.dmaStart_noIssue (none : m.dma.waiting.find? (fun w => w.row == row.val) = none) :
    m.dmaStart op (.stream row) early = m := by
  unfold Mod.dmaStart
  split
  · rfl
  · simp only [none]

/-- A row of an op takes an issue that waits. -/
def Mod.issueTakes (m : Mod) (op : Nat) (w : WaitIssue) : Prop :=
  m.dma.quiesce = false ∧ m.dma.xfers.length < 32 ∧ opMatches op (dmaF w.desc) = true
  ∧ ((dmaF w.desc).fence = true → w.index.isSome = true → m.queueXfers w.dq = [])

/-- The module whose issue has left the ones that wait. -/
def Mod.issueTaken (m : Mod) (w : WaitIssue) : Mod := { m with dma := { m.dma with waiting := m.dma.waiting.erase w } }

variable {w : WaitIssue} (issue : m.dma.waiting.find? (fun w => w.row == row.val) = some w)
include issue

theorem Mod.dmaStart_issueWaits (waits : ¬ m.issueTakes op w) : m.dmaStart op (.stream row) early = m := by
  unfold Mod.dmaStart
  split
  case isTrue => rfl
  case isFalse free =>
    simp only [issue]
    refine if_pos (Decidable.byContradiction fun may => waits ?_)
    obtain ⟨room, running⟩ := not_or.1 free
    obtain ⟨same, opened⟩ := not_or.1 may
    have fence := (fence_open _ _).1 (Bool.not_eq_true _ ▸ opened)
    exact ⟨Bool.not_eq_true _ ▸ running, Nat.lt_of_not_le room, Bool.not_eq_false _ ▸ same,
      fun asks index => fence (Bool.and_eq_true_iff.2 ⟨asks, index⟩)⟩

theorem Mod.dmaStart_issueTakes (takes : m.issueTakes op w) : m.dmaStart op (.stream row) early =
    let st := m.dmaCheck (dmaF w.desc) w.index
    if st ≠ 0#8 then
      match w.index with
      | some i => ((m.issueTaken w).issueFault w.row w.tag w.dq st).queueDone w.dq i (dmaF w.desc) st 0 none
      | none => (m.issueTaken w).issueFault w.row w.tag w.dq st
    else (m.issueTaken w).beginXfer w.desc (.stream (w.row, w.tag) w.xb w.due w.dq w.index) early := by
  obtain ⟨running, room, same, fence⟩ := takes
  have free : ¬ (32 ≤ m.dma.xfers.length ∨ m.dma.quiesce = true) := by simp [running, room]
  have opened : ((dmaF w.desc).fence && w.index.isSome && !(m.queueXfers w.dq).isEmpty) = false :=
    (fence_open _ _).2 fun both => fence (Bool.and_eq_true_iff.1 both).1 (Bool.and_eq_true_iff.1 both).2
  refine (if_neg free).trans ?_
  simp only [issue, same, opened, Bool.true_eq_false, Bool.false_eq_true, or_self, if_false]
  rfl

end

/-! ### What a transfer begins with (R272, R273) -/

/-- No write is made at once where none is asked for. -/
theorem Mod.makeWrites_nil (fuel : Nat) (x : Xfer) (off : Nat) : m.makeWrites fuel x off [] = (x, m) := by
  cases fuel <;> rfl

/-- The module whose transfer runs. -/
def Mod.joined (m : Mod) (z : Xfer) : Mod := { m with dma := { m.dma with xfers := m.dma.xfers ++ [z] } }

/-- The module that has given out a transfer's number. -/
def Mod.numbered (m : Mod) : Mod := { m with dma := { m.dma with nextId := m.dma.freshId + 1 } }

section
variable {d : BitVec 512} (o : XferOwner)

theorem Mod.beginXfer_idle (notLane : (dmaF d).dsp ≠ 2)
    (idle : (dmaF d).empty = true ∨ ((dmaF d).op ≠ 4 ∧ (dmaF d).ssp = 1)) :
    m.beginXfer d o 0 = (m.numbered.joined (Xfer.new m.dma.freshId d o)).pumpReads := by
  rcases idle with empty | ⟨op, ssp⟩
  · simp only [Mod.beginXfer, empty, if_true, List.take_zero, Mod.makeWrites_nil, Nat.zero_min, if_neg notLane]
    rfl
  · simp only [Mod.beginXfer, op, ssp, if_true, if_false, ite_self, List.take_zero, Mod.makeWrites_nil, Nat.zero_min,
      if_neg notLane]
    rfl

theorem Mod.beginXfer_fallow (notLane : (dmaF d).dsp ≠ 2) (full : (dmaF d).empty = false)
    (op : (dmaF d).op = 4) : m.beginXfer d o 0 =
    let r := m.numbered.dmaFallow (dmaF d) (reqDma m.dma.freshId)
    (r.2.joined { Xfer.new m.dma.freshId d o with
      early := r.1, done := if r.1 = 0#8 then (dmaF d).len else 0 }).pumpReads := by
  simp only [Mod.beginXfer, full, op, Bool.false_eq_true, if_true, if_false, List.take_zero, Mod.makeWrites_nil, Nat.zero_min,
    if_neg notLane]
  rfl

theorem Mod.beginXfer_copy (full : (dmaF d).empty = false) (op : (dmaF d).op = 1) (ssp : (dmaF d).ssp = 0)
    (dsp : (dmaF d).dsp = 0) : m.beginXfer d o 0 =
    let r := m.numbered.dmaRead (dmaF d).src (dmaF d).len (dmaF d).cls (reqDma m.dma.freshId)
    (r.2.joined { Xfer.new m.dma.freshId d o with plan := planPieces (some (dmaF d).src) (dmaF d).dst r.1 }).pumpReads := by
  simp only [Mod.beginXfer, full, op, ssp, dsp, Nat.reduceEqDiff, Bool.false_eq_true, if_true, if_false, List.take_zero,
    Mod.makeWrites_nil, Nat.zero_min]
  rfl

end
end

/-! ### The end of a transfer (R275, R280, R284) -/

section
variable {m : Mod} {id : Nat} {z : Xfer}

theorem Mod.transferCompletion_none (none : m.dma.xfers.find? (fun z => z.id == id) = none) (held : Mod → Xfer → Bool) :
    m.transferCompletion id held = m := by
  simp only [Mod.transferCompletion, none]

theorem Mod.transferCompletion_some (found : m.dma.xfers.find? (fun z => z.id == id) = some z) (held : Mod → Xfer → Bool) :
    m.transferCompletion id held = if z.ready = true ∧ held m z = false then m.completeXfer z else m := by
  simp only [Mod.transferCompletion, found]

/-- A transfer all of whose writes are made ends once its narrow writes have left the merge buffer. -/
theorem Mod.completeXfer_made (made : z.plan = []) (notLane : (dmaF z.desc).dsp ≠ 2) : m.completeXfer z =
    let r := m.settleMerges (reqDma z.id)
    let done : Xfer := { z with
      made := 0, merge := z.merge || fxMerge r.1 (reqDma z.id)
      firstBad := firstOf z.firstBad ((fxMergeAt r.1 (reqDma z.id)).bind z.offsetOf) }
    r.2.endXfer done (r.2.xferStatus done) := by
  simp only [Mod.completeXfer, made, List.zipIdx_nil, List.foldl_nil, List.take_nil, Mod.makeWrites_nil, List.length_nil,
    if_neg notLane]

/-- Some scheduled transfer of a row and tag is late. -/
def Mod.missesDue (m : Mod) (row : Fin 96) (tag : Fin 256) : Prop :=
  (∃ z ∈ m.dma.xfers, z.late (row.val, tag.val) m.stream.stepCount.toNat = true)
  ∨ ∃ w ∈ m.dma.waiting, w.late (row.val, tag.val) m.stream.stepCount.toNat = true

section
variable {row : Fin 96} {tag : Fin 256}

theorem Mod.missesDue_iff : m.missesDue row tag ↔
    (m.dma.xfers.any (fun x => x.late (row.val, tag.val) m.stream.stepCount.toNat)
      || m.dma.waiting.any (fun x => x.late (row.val, tag.val) m.stream.stepCount.toNat)) = true := by
  simp only [Mod.missesDue, Bool.or_eq_true, List.any_eq_true]

theorem Mod.deadlineMiss_none (none : ¬ m.missesDue row tag) : m.deadlineMiss row.val tag.val = m :=
  if_pos (Bool.eq_false_iff.2 (mt Mod.missesDue_iff.2 none))

/-- The module that has counted what is late. -/
def Mod.missCounted (m : Mod) (row : Fin 96) (tag : Fin 256) : Mod :=
  let now := m.stream.stepCount.toNat
  { m with dma := { m.dma with
    xfers := m.dma.xfers.map (fun z => if z.late (row.val, tag.val) now then z.counted else z)
    waiting := m.dma.waiting.map (fun w => if w.late (row.val, tag.val) now then { w with due := none } else w)
    deadlineMisses := satAdd m.dma.deadlineMisses 1
    firstMiss := if m.dma.deadlineMisses = 0#64 then
      BitVec.ofNat 64 (now % 2 ^ 48 + row.val * 2 ^ 48 + tag.val * 2 ^ 55) else m.dma.firstMiss
    deadlineRaised := true } }

theorem Mod.deadlineMiss_some (hit : m.missesDue row tag) : m.deadlineMiss row.val tag.val =
    if m.dma.deadlineRaised = true then m.missCounted row tag
    else (m.missCounted row tag).raise .dmaDeadline noUnit (payload [i8 (m.missCounted row tag).dma.firstMiss.toNat]) :=
  if_neg (ne_false_of_eq_true (Mod.missesDue_iff.1 hit))

end

theorem Mod.abortXfers_none (none : m.dma.xfers = []) : m.abortXfers = { m with dma := { m.dma with
    resetAborts := satAdd m.dma.resetAborts 0, notices := List.replicate 8 0#32 } } := by
  simp only [Mod.abortXfers, none, List.length_nil, List.foldl_nil, if_true]

theorem Mod.abortXfers_some (some : m.dma.xfers ≠ []) : m.abortXfers =
    let k := m.dma.xfers.foldl (fun (k : Mod) z => k.endXfer z 0x70#8) m
    let l := m.dma.xfers.length
    ({ k with dma := { k.dma with
      resetAborts := satAdd k.dma.resetAborts l, notices := List.replicate 8 (BitVec.ofNat 32 l) } } : Mod).raise
      .dmaResetAbort noUnit (payload [i8 l]) :=
  if_neg (mt List.length_eq_zero_iff.1 some)

end

end Sys2Proof.Machine

namespace Sys2Proof

open Machine

/-- Settles O45: a queue obeys its doorbell and its control word, a descriptor starts once its row may take it, and a transfer
ends with what it has met. -/
theorem descriptorsMoveTheirBytes : Obligations.DescriptorsMoveTheirBytes := by
  unfold Obligations.DescriptorsMoveTheirBytes
  classical
  intro m q v ctrl comps host row tag early id powered x n past enb y
  have head := Mod.dmaqHead_eq (m := m) q.val v comps
  refine ⟨fun past => turns_dmaqHead powered q v comps (head.trans (if_pos past)),
    fun fits => turns_dmaqHead powered q v comps (head.trans (if_neg fits)),
    fun on disabled => turns_dmaqCtrlEnable powered q ctrl (Mod.dmaqCtrl_empties on disabled),
    fun on halted => turns_dmaqCtrlEnable powered q ctrl (Mod.dmaqCtrl_skips on halted),
    fun plain => turns_dmaqCtrlEnable powered q ctrl (Mod.dmaqCtrl_plain plain), ?queued, ?streamed,
    fun d o notLane => ⟨Mod.beginXfer_idle o notLane, Mod.beginXfer_fallow o notLane, Mod.beginXfer_copy o⟩,
    fun k none on => turns_transferCompletion on id (Mod.transferCompletion_none none _), fun z found => ⟨?held, ?ends⟩,
    ?late, fun calm => turns_resetQuiesceTimeout powered (if_neg (ne_true_of_eq_false calm)), fun quiet none => ?_,
    fun quiet some => ?_⟩
  case queued =>
    have starts {op : Nat} {c : Instr} (turns : ∀ {k}, m.dmaStart op (.queue q host) early = k → Safety.Turns m c k) :
        let t := m.takeDesc q.val host
        let st := m.dmaCheck (dmaF t.2.1) (some t.1)
        let k := m.descTaken q host
        (¬ m.queueTakes op q host → Safety.Turns m c m)
        ∧ (m.queueTakes op q host → st ≠ 0#8 → Safety.Turns m c
            (k.endXfer { Xfer.new k.dma.nextId t.2.1 (.queue q.val t.1) with early := st } st))
        ∧ (m.queueTakes op q host → st = 0#8 → Safety.Turns m c (k.beginXfer t.2.1 (.queue q.val t.1) early)) :=
      ⟨fun waits => turns (Mod.dmaStart_waits waits),
        fun takes bad => turns ((Mod.dmaStart_takes takes).trans (if_pos bad)),
        fun takes good => turns ((Mod.dmaStart_takes takes).trans (if_neg (not_not_intro good)))⟩
    simp only [List.forall_mem_cons]
    exact ⟨starts (turns_dmaCopy powered _ _), starts (turns_transpose powered _ _), starts (turns_scatter powered _ _),
      starts (turns_dmaFallow powered _ _), by simp⟩
  case streamed =>
    have starts {op : Nat} {c : Instr} (turns : ∀ {k}, m.dmaStart op (.stream row) early = k → Safety.Turns m c k) :
        (m.dma.waiting.find? (fun w => w.row == row.val) = none → Safety.Turns m c m)
        ∧ ∀ w, m.dma.waiting.find? (fun w => w.row == row.val) = some w →
          let st := m.dmaCheck (dmaF w.desc) w.index
          let fault := (m.issueTaken w).issueFault w.row w.tag w.dq st
          (¬ m.issueTakes op w → Safety.Turns m c m)
          ∧ (m.issueTakes op w → st ≠ 0#8 → w.index = none → Safety.Turns m c fault)
          ∧ (m.issueTakes op w → st ≠ 0#8 → ∀ i, w.index = some i → Safety.Turns m c
              (fault.queueDone w.dq i (dmaF w.desc) st 0 none))
          ∧ (m.issueTakes op w → st = 0#8 → Safety.Turns m c
              ((m.issueTaken w).beginXfer w.desc (.stream (w.row, w.tag) w.xb w.due w.dq w.index) early)) := by
      refine ⟨fun none => turns (Mod.dmaStart_noIssue none), fun w issue => ?_⟩
      intro st fault
      refine ⟨fun waits => turns (Mod.dmaStart_issueWaits issue waits), fun takes bad none => ?_, fun takes bad i some => ?_,
        fun takes good => turns ((Mod.dmaStart_issueTakes issue takes).trans (if_neg (not_not_intro good)))⟩
      · refine turns ((Mod.dmaStart_issueTakes issue takes).trans ((if_pos bad).trans ?_))
        split
        case h_1 found => exact absurd (found.symm.trans none) (by simp)
        case h_2 => rfl
      · refine turns ((Mod.dmaStart_issueTakes issue takes).trans ((if_pos bad).trans ?_))
        split
        case h_1 j found =>
          obtain rfl : j = i := Option.some.inj (found.symm.trans some)
          rfl
        case h_2 found => exact absurd (found.symm.trans some) (by simp)
    simp only [List.forall_mem_cons]
    exact ⟨starts (turns_dmaCopy powered _ _), starts (turns_transpose powered _ _), starts (turns_scatter powered _ _),
      starts (turns_dmaFallow powered _ _), by simp⟩
  case held =>
    intro waits
    have stays : ¬ (z.ready = true ∧ m.xferHeld z = false) := by rcases waits with rest | held <;> simp [*]
    exact turns_transferCompletion powered id ((Mod.transferCompletion_some found _).trans (if_neg stays))
  case ends =>
    intro ready free made notLane
    exact turns_transferCompletion powered id ((Mod.transferCompletion_some found _).trans
      ((if_pos ⟨ready, free⟩).trans (Mod.completeXfer_made made notLane)))
  case late =>
    intro now d hit k
    exact ⟨fun none => turns_deadlineDue powered row tag (Mod.deadlineMiss_none none),
      fun some told => turns_deadlineDue powered row tag ((Mod.deadlineMiss_some some).trans (if_pos told)),
      fun some silent => turns_deadlineDue powered row tag
        ((Mod.deadlineMiss_some some).trans (if_neg (ne_true_of_eq_false silent)))⟩
  · exact turns_resetQuiesceTimeout powered ((if_pos quiet).trans (Mod.abortXfers_none none))
  · exact turns_resetQuiesceTimeout powered ((if_pos quiet).trans (Mod.abortXfers_some some))

end Sys2Proof
end


section
/-!
PROOFS. What arrives on a hedgerow port: flits and their lanes, LINK flits and their echoes, and replay (R341 to R352).
-/
namespace Sys2Proof.Machine

section
variable {m : Mod} {p : Nat} {f : Bytes} {fec : Bool}

/-! ### A flit arrives (R341, R344) -/

/-- The flit is whole and its codewords were correctable. -/
def flitGood (f : Bytes) (fec : Bool) : Prop := fec = false ∧ hdgIntact f = true

/-- The module that has counted a damaged flit. -/
def Mod.flitBad (m : Mod) : Mod := { m with hdg := { m.hdg with crcFail := satAdd m.hdg.crcFail 1 } }

/-- The module that has acted on the acknowledgements of a flit. -/
def Mod.flitSeen (m : Mod) (p : Nat) (f : Bytes) : Mod :=
  ((m.setPort p { m.port p with train := { (m.port p).train with ueRun := 0 } }).ackLane p false
    (listGet 0#8 f 2).toNat (bitOf (listGet 0#8 f 0).toNat 6)).ackLane p true (listGet 0#8 f 3).toNat
      (bitOf (listGet 0#8 f 0).toNat 7)

/-- A flit of a TYPE is heard while the port is UP, a LINK flit also while LINK flits can be sent. -/
def Mod.hears (m : Mod) (p type : Nat) : Prop := (m.port p).train.st = .up ∨ (type = 3 ∧ (m.port p).train.linkOpen = true)

section
variable {type : Nat} (next : Mod → Mod)

theorem Mod.takeFlit_deaf (deaf : ¬ m.hears p type) : m.takeFlit p type f fec next = m := if_pos deaf

variable (hears : m.hears p type)
include hears

theorem Mod.takeFlit_bad (bad : ¬ flitGood f fec) : m.takeFlit p type f fec next = m.flitBad := by
  have damaged : fec = true ∨ hdgIntact f = false := by
    rw [flitGood, not_and_or, Bool.not_eq_false, Bool.not_eq_true] at bad
    exact bad
  exact (if_neg (not_not_intro hears)).trans (if_pos damaged)

variable (good : flitGood f fec)
include good

theorem Mod.takeFlit_good : m.takeFlit p type f fec next = if hdgType f ≠ type then m else next (m.flitSeen p f) := by
  obtain ⟨whole, intact⟩ := good
  exact (if_neg (not_not_intro hears)).trans (if_neg (by simp [whole, intact]))

theorem Mod.takeFlit_other (other : hdgType f ≠ type) : m.takeFlit p type f fec next = m :=
  (Mod.takeFlit_good next hears good).trans (if_pos other)

theorem Mod.takeFlit_same (same : hdgType f = type) : m.takeFlit p type f fec next = next (m.flitSeen p f) :=
  (Mod.takeFlit_good next hears good).trans (if_neg (not_not_intro same))

end

/-! ### Tokens and lanes (R344, R348) -/

theorem Mod.flitToken_none (x : BarrierIn) (noToken : hdgTok f = false) : m.flitToken p f x = m :=
  if_neg (ne_true_of_eq_false noToken)

theorem Mod.flitToken_unread (x : BarrierIn) (token : hdgTok f = true) (unread : readToken (hdgTokenRegion f) = none) :
    m.flitToken p f x = m := by
  rw [Mod.flitToken, if_pos token, unread]

theorem Mod.flitToken_read (x : BarrierIn) {k : Token} (token : hdgTok f = true)
    (read : readToken (hdgTokenRegion f) = some k) : m.flitToken p f x = m.takeToken (gateOf p) k x := by
  rw [Mod.flitToken, if_pos token, read]

section
variable {be : Bool} {seq : Nat}

theorem Mod.laneTakes_resetting (resetting : ((m.port p).lane be).resetting = true) : m.laneTakes p be seq = (false, m) :=
  if_pos resetting

theorem Mod.laneTakes_expected (calm : ((m.port p).lane be).resetting = false) (same : seq = ((m.port p).lane be).expect) :
    m.laneTakes p be seq = (true, m.setPort p ((m.port p).setLane be { (m.port p).lane be with
      expect := (((m.port p).lane be).expect + 1) % 256, acked := some seq, nak := false })) :=
  (if_neg (ne_true_of_eq_false calm)).trans (if_pos same)

theorem Mod.laneTakes_gap (calm : ((m.port p).lane be).resetting = false) (gap : seq ≠ ((m.port p).lane be).expect) :
    m.laneTakes p be seq =
      (false, (m.setPort p ((m.port p).setLane be { (m.port p).lane be with nak := true })).flitBad) :=
  (if_neg (ne_true_of_eq_false calm)).trans (if_neg gap)

end

/-! ### LINK flits (R342) -/

/-- A LINK flit carries a reserved SUBTYPE or bit. -/
def linkBad (f : Bytes) : Bool := hdgType f == 3 && !linkPayloadOk (hdgPayload f)

/-- What a LINK flit of a SUBTYPE does once its acknowledgements have been acted on. -/
def Mod.linkActs (m : Mod) (p want : Nat) (pl : Bytes) : Mod :=
  if (linkF pl).subtype ≠ want then m
  else if want = 1 then (m.portIdent p pl).sendSettled p else m.portLaneReset p pl

theorem Mod.linkFlit_eq (want : Nat) :
    m.linkFlit p want f fec = m.takeFlit p 3 f (fec || linkBad f) fun n => n.linkActs p want (hdgPayload f) := rfl

section
variable {want : Nat}

theorem Mod.linkFlit_deaf (deaf : (m.port p).train.linkOpen = false) : m.linkFlit p want f fec = m := by
  have closed : ¬ m.hears p 3 := by
    have down : (m.port p).train.st ≠ .up := by
      intro up
      simp [LinkTrain.linkOpen, up] at deaf
    simp [Mod.hears, down, deaf]
  rw [Mod.linkFlit_eq]
  exact Mod.takeFlit_deaf _ closed

variable (hears : (m.port p).train.linkOpen = true)
include hears

theorem Mod.linkFlit_bad (bad : ¬ flitGood f fec ∨ (hdgType f = 3 ∧ linkPayloadOk (hdgPayload f) = false)) :
    m.linkFlit p want f fec = m.flitBad := by
  rw [Mod.linkFlit_eq]
  refine Mod.takeFlit_bad _ (.inr ⟨rfl, hears⟩) ?_
  rcases bad with damaged | ⟨link, reserved⟩
  · exact fun good => damaged ⟨(Bool.or_eq_false_iff.1 good.1).1, good.2⟩
  · exact fun good => by simpa [linkBad, link, reserved] using good.1

variable (good : flitGood f fec)
include good

theorem Mod.linkFlit_other (other : hdgType f ≠ 3) : m.linkFlit p want f fec = m := by
  have clean : flitGood f (fec || linkBad f) := ⟨by simp [good.1, linkBad, other], good.2⟩
  rw [Mod.linkFlit_eq]
  exact Mod.takeFlit_other _ (.inr ⟨rfl, hears⟩) clean other

theorem Mod.linkFlit_acts (link : hdgType f = 3) (sound : linkPayloadOk (hdgPayload f) = true) :
    m.linkFlit p want f fec = (m.flitSeen p f).linkActs p want (hdgPayload f) := by
  have clean : flitGood f (fec || linkBad f) := ⟨by simp [good.1, linkBad, sound], good.2⟩
  rw [Mod.linkFlit_eq]
  exact Mod.takeFlit_same _ (.inr ⟨rfl, hears⟩) clean link

end

section
variable {pl : Bytes}

theorem Mod.portIdent_echo (echo : (linkF pl).echo = true) : m.portIdent p pl =
    if (m.port p).train.waitsFor 1 (linkF pl).serial = true then
      ((m.setPort p { m.port p with train := { (m.port p).train.echoed 1 (linkF pl).serial with
        identEchoed := true } }).storePeer p ((pl.drop 8).take 16)).portIdentDone p
    else m := if_pos echo

theorem Mod.portIdent_asks (asks : (linkF pl).echo = false) : m.portIdent p pl =
    if (m.port p).train.acted.contains (1, (linkF pl).serial) = true then
      m.emitLink p 1 true (linkF pl).serial (m.identBody p)
    else
      let k := (m.setPort p { m.port p with train := { (m.port p).train.act 1 (linkF pl).serial with
        identIn := true } }).storePeer p ((pl.drop 8).take 16)
      (k.emitLink p 1 true (linkF pl).serial (k.identBody p)).portIdentDone p := if_neg (ne_true_of_eq_false asks)

theorem Mod.portLaneReset_echo (echo : (linkF pl).echo = true) : m.portLaneReset p pl =
    let be := bitOf (leNat ((pl.drop 8).take 1)) 0
    let w := (m.port p).setLane be { (m.port p).lane be with resetting := false }
    if (m.port p).train.waitsFor 2 (linkF pl).serial = true then
      (m.setPort p { w with train := (m.port p).train.echoed 2 (linkF pl).serial }).pumpLane 64 p be
    else m := if_pos echo

theorem Mod.portLaneReset_asks (asks : (linkF pl).echo = false) : m.portLaneReset p pl =
    let be := bitOf (leNat ((pl.drop 8).take 1)) 0
    let w := (m.port p).setLane be (((m.port p).lane be).cleared ((m.port p).lane be).resetting)
    if (m.port p).train.acted.contains (2, (linkF pl).serial) = true then
      m.emitLink p 2 true (linkF pl).serial [BitVec.ofNat 8 (b2n be)]
    else ((m.setPort p { w with train := (m.port p).train.act 2 (linkF pl).serial }).emitLink p 2 true
      (linkF pl).serial [BitVec.ofNat 8 (b2n be)]).sendSettled p := if_neg (ne_true_of_eq_false asks)

end

theorem Mod.identAll_eq : m.identAll = (List.range 36).foldl (fun (n : Mod) p =>
    if (n.port p).train.st = .up then n.sendLink p 1 (n.identBody p) else n) m :=
  congrArg (fun step => (List.range 36).foldl step m)
    (funext fun _ => funext fun _ => if_congr decide_eq_true_iff rfl rfl)

/-! ### Replay (R344) -/

section
variable {be : Bool}

theorem Mod.portReplayTimeout_idle (idle : (m.port p).train.st ≠ .up ∨ ((m.port p).lane be).replay = []) :
    m.portReplayTimeout p be = m := if_pos idle

theorem Mod.portReplayTimeout_resends (up : (m.port p).train.st = .up) (some : ((m.port p).lane be).replay ≠ []) :
    m.portReplayTimeout p be =
      let again := (m.setPort p ((m.port p).setLane be { (m.port p).lane be with
        timeouts := ((m.port p).lane be).timeouts + 1 })).replayLane p be
      if 3 ≤ ((m.port p).lane be).timeouts + 1 then again.portRetrain p 3 true else again :=
  if_neg (not_or.2 ⟨not_not_intro up, some⟩)

end
end

end Sys2Proof.Machine

namespace Sys2Proof

open Machine

/-- Settles O48: a flit is heard by the port's state, and its lane, its token and its LINK header then act each by itself. -/
theorem flitsAreTakenByTheirLanes : Obligations.FlitsAreTakenByTheirLanes := by
  unfold Obligations.FlitsAreTakenByTheirLanes
  intro m port f fec be x powered p t good seen bad lea got y pl h
  refine ⟨?flits, fun up good same => ?idle, fun up good same => ⟨fun no => ?leaNot, fun yes => ?lea⟩,
    fun up good same => ⟨fun no => ?beNot, fun yes => ?be⟩,
    fun n => ⟨Mod.flitToken_none x, Mod.flitToken_unread x, fun k => Mod.flitToken_read x⟩,
    fun n seq => ⟨Mod.laneTakes_resetting, Mod.laneTakes_expected, Mod.laneTakes_gap⟩, ?links, fun n => ?linkActs,
    fun link => turns_linkFlitRepeat powered link rfl, turns_identTimer powered Mod.identAll_eq, ?replay⟩
  case flits =>
    have heard {type : Nat} (data : type ≠ 3) {next : Mod → Mod} {c : Instr}
        (turns : ∀ {k}, m.takeFlit p type f fec next = k → Safety.Turns m c k) :
        (t.st ≠ .up → Safety.Turns m c m) ∧ (t.st = .up → ¬good → Safety.Turns m c bad)
        ∧ (t.st = .up → good → hdgType f ≠ type → Safety.Turns m c m) :=
      ⟨fun down => turns (Mod.takeFlit_deaf next (by rintro (up | ⟨link, _⟩) <;> contradiction)),
        fun up damaged => turns (Mod.takeFlit_bad next (.inl up) damaged),
        fun up good other => turns (Mod.takeFlit_other next (.inl up) good other)⟩
    simp only [List.forall_mem_cons]
    exact ⟨heard (by decide) (turns_idleFlit powered port f fec x), heard (by decide) (turns_leaFlit powered port f fec x),
      heard (by decide) (turns_beFlit powered port f fec x), by simp⟩
  case idle => exact turns_idleFlit powered port f fec x (Mod.takeFlit_same _ (.inl up) good same)
  case leaNot =>
    exact turns_leaFlit powered port f fec x ((Mod.takeFlit_same _ (.inl up) good same).trans
      (if_neg (ne_true_of_eq_false no)))
  case lea => exact turns_leaFlit powered port f fec x ((Mod.takeFlit_same _ (.inl up) good same).trans (if_pos yes))
  case beNot =>
    exact turns_beFlit powered port f fec x ((Mod.takeFlit_same _ (.inl up) good same).trans
      (congrArg (Mod.sendSettled · p) (if_neg (ne_true_of_eq_false no))))
  case be =>
    exact turns_beFlit powered port f fec x ((Mod.takeFlit_same _ (.inl up) good same).trans
      (congrArg (Mod.sendSettled · p) (if_pos yes)))
  case links =>
    have heard {want : Nat} {c : Instr} (turns : ∀ {k}, m.linkFlit p want f fec = k → Safety.Turns m c k) :
        (t.linkOpen = false → Safety.Turns m c m)
        ∧ (t.linkOpen = true → (¬good ∨ (hdgType f = 3 ∧ linkPayloadOk pl = false)) → Safety.Turns m c bad)
        ∧ (t.linkOpen = true → good → hdgType f ≠ 3 → Safety.Turns m c m)
        ∧ (t.linkOpen = true → good → hdgType f = 3 → linkPayloadOk pl = true →
            (h.subtype ≠ want → Safety.Turns m c seen)
            ∧ (h.subtype = want → Safety.Turns m c
                (if want = 1 then (seen.portIdent p pl).sendSettled p else seen.portLaneReset p pl))) :=
      ⟨fun deaf => turns (Mod.linkFlit_deaf deaf), fun hears bad => turns (Mod.linkFlit_bad hears bad),
        fun hears good other => turns (Mod.linkFlit_other hears good other), fun hears good link sound =>
        ⟨fun other => turns ((Mod.linkFlit_acts hears good link sound).trans (if_pos other)),
          fun same => turns ((Mod.linkFlit_acts hears good link sound).trans (if_neg (not_not_intro same)))⟩⟩
    simp only [List.forall_mem_cons]
    exact ⟨heard (turns_ident powered port f fec), heard (turns_laneReset powered port f fec), by simp⟩
  case linkActs =>
    intro z body lane
    refine ⟨fun echo waits => (Mod.portIdent_echo echo).trans (if_pos waits),
      fun echo other => (Mod.portIdent_echo echo).trans (if_neg (ne_true_of_eq_false other)),
      fun asks acted => (Mod.portIdent_asks asks).trans (if_pos acted),
      fun asks new => (Mod.portIdent_asks asks).trans (if_neg (ne_true_of_eq_false new)),
      fun echo waits => (Mod.portLaneReset_echo echo).trans (if_pos waits),
      fun echo other => (Mod.portLaneReset_echo echo).trans (if_neg (ne_true_of_eq_false other)),
      fun asks new => (Mod.portLaneReset_asks asks).trans (if_neg (ne_true_of_eq_false new)),
      fun asks acted => (Mod.portLaneReset_asks asks).trans (if_pos acted)⟩
  case replay =>
    intro l k again
    refine ⟨fun idle => turns_replayTimeout powered port be (Mod.portReplayTimeout_idle idle), fun up some few => ?_,
      fun up some many => ?_⟩
    · exact turns_replayTimeout powered port be ((Mod.portReplayTimeout_resends up some).trans
        (if_neg (Nat.not_le.2 (Nat.succ_lt_succ few))))
    · exact turns_replayTimeout powered port be ((Mod.portReplayTimeout_resends up some).trans
        (if_pos (Nat.succ_le_succ many)))

end Sys2Proof
end


section
/-!
PROOFS. The training of a hedgerow port: its events, its failed attempts and its retrains (R349 to R351).
-/
namespace Sys2Proof.Machine

theorem listSet_listSet {α : Type} (l : List α) (i : Nat) (a b : α) : listSet (listSet l i a) i b = listSet l i b := by
  induction l generalizing i with
  | nil => rfl
  | cons x xs ih => cases i with
    | zero => rfl
    | succ i => exact congrArg (x :: ·) (ih i)

section
variable {m : Mod} {p : Nat}

/-! ### A port that is replaced -/

theorem Mod.setPort_setPort (x y : Port) : (m.setPort p x).setPort p y = m.setPort p y := by
  simp only [Mod.setPort, listSet_listSet]

theorem Mod.port_setPort (known : p < m.hdg.ports.length) (x : Port) : (m.setPort p x).port p = x :=
  listGet_listSet_self _ _ _ _ known

/-- The port is replaced in its training only. -/
def Mod.trained (m : Mod) (p : Nat) (u : LinkTrain) : Mod := m.setPort p { m.port p with train := u }

theorem Mod.port_trained (known : p < m.hdg.ports.length) (u : LinkTrain) :
    (m.trained p u).port p = { m.port p with train := u } := Mod.port_setPort known _

theorem Mod.trained_trained (known : p < m.hdg.ports.length) (u w : LinkTrain) :
    (m.trained p u).trained p w = m.trained p w := by
  rw [Mod.trained, Mod.port_trained known, Mod.trained, Mod.setPort_setPort, Mod.trained]

/-! ### Failed attempts (R349, R351) -/

theorem Mod.portDown_eq (cause : Nat) : m.portDown p cause =
    if (m.port p).train.st = .up then
      (m.trained p (m.port p).train.down).raise .hdgPortDown (unitId 7 p) (payload [i1 p, i1 cause])
    else m.trained p (m.port p).train.down := rfl

theorem Mod.portFailed_eq : m.portFailed p =
    (if (m.port p).train.st = .up then
      (m.trained p { (m.port p).train.down with st := .failed }).raise .hdgPortDown (unitId 7 p) (payload [i1 p, i1 7])
    else m.trained p { (m.port p).train.down with st := .failed }).raise .hdgPortFailed (unitId 7 p) [] := rfl

theorem Mod.portDown_trained (known : p < m.hdg.ports.length) (u : LinkTrain) (cause : Nat) :
    (m.trained p u).portDown p cause =
      if u.st = .up then (m.trained p u.down).raise .hdgPortDown (unitId 7 p) (payload [i1 p, i1 cause])
      else m.trained p u.down := by
  rw [Mod.portDown_eq, Mod.port_trained known, Mod.trained_trained known]

theorem Mod.portFailed_trained (known : p < m.hdg.ports.length) (u : LinkTrain) : (m.trained p u).portFailed p =
    (if u.st = .up then
      (m.trained p { u.down with st := .failed }).raise .hdgPortDown (unitId 7 p) (payload [i1 p, i1 7])
    else m.trained p { u.down with st := .failed }).raise .hdgPortFailed (unitId 7 p) [] := by
  rw [Mod.portFailed_eq, Mod.port_trained known, Mod.trained_trained known]

/-- The training with one more failed attempt. -/
def LinkTrain.attempted (t : LinkTrain) : LinkTrain := { t with attempts := t.attempts + 1 }

theorem Mod.portTimeout_unbounded (free : (m.port p).train.st = .down ∨ (m.port p).train.st = .up
    ∨ (m.port p).train.st = .failed) : m.portTimeout p = m := by
  refine if_neg ?_
  rcases free with st | st | st <;> simp [st, LinkSt.bounded]

section
variable (bounded : (m.port p).train.st = .signal ∨ (m.port p).train.st = .align ∨ (m.port p).train.st = .ident
  ∨ (m.port p).train.st = .retrain)
include bounded

theorem Mod.portTimeout_bounded : m.portTimeout p =
    if 3 ≤ (m.port p).train.attempts + 1 then (m.trained p (m.port p).train.attempted).portFailed p
    else (m.trained p (m.port p).train.attempted).portDown p 6 := by
  refine if_pos ?_
  rcases bounded with st | st | st | st <;> rw [st] <;> rfl

variable (known : p < m.hdg.ports.length)
include known

theorem Mod.portTimeout_again (few : (m.port p).train.attempts < 2) : m.portTimeout p =
    if (m.port p).train.st = .up then (m.trained p (m.port p).train.attempted.down).raise .hdgPortDown (unitId 7 p)
      (payload [i1 p, i1 6])
    else m.trained p (m.port p).train.attempted.down :=
  (Mod.portTimeout_bounded bounded).trans
    ((if_neg (Nat.not_le.2 (Nat.succ_lt_succ few))).trans (Mod.portDown_trained known _ 6))

theorem Mod.portTimeout_third (many : 2 ≤ (m.port p).train.attempts) : m.portTimeout p =
    (if (m.port p).train.st = .up then
      (m.trained p { (m.port p).train.attempted.down with st := .failed }).raise .hdgPortDown (unitId 7 p)
        (payload [i1 p, i1 7])
    else m.trained p { (m.port p).train.attempted.down with st := .failed }).raise .hdgPortFailed (unitId 7 p) [] :=
  (Mod.portTimeout_bounded bounded).trans
    ((if_pos (Nat.succ_le_succ many)).trans (Mod.portFailed_trained known _))

end

/-! ### The events of training (R349) -/

theorem Mod.linksTrain_iff :
    m.linksTrain = true ↔ m.power.railsOn = true ∧ m.boot.refclk = true ∧ (m.step 2).st ≠ .notDone := by
  simp [Mod.linksTrain, Mod.phyReady, and_assoc]

theorem Mod.portSignalDone_signal (st : (m.port p).train.st = .signal) :
    m.portSignalDone p = m.trained p { (m.port p).train with st := .align } := if_pos st

theorem Mod.portSignalDone_retrain (st : (m.port p).train.st = .retrain) (first : (m.port p).train.sub = 0) :
    m.portSignalDone p = m.trained p { (m.port p).train with sub := 1 } :=
  (if_neg (by simp [st])).trans (if_pos ⟨st, first⟩)

theorem Mod.portAlignDone_retrain (st : (m.port p).train.st = .retrain) (second : (m.port p).train.sub = 1) :
    m.portAlignDone p = (m.trained p { (m.port p).train with sub := 2 }).sendIdent p :=
  (if_neg (by simp [st])).trans (if_pos ⟨st, second⟩)

/-! ### Codewords and retrains (R350, R351) -/

/-- The module that has counted one more uncorrectable codeword of a port. -/
def Mod.ueCounted (m : Mod) (p : Nat) : Mod :=
  let k := m.trained p ((m.port p).train.oneUe m.clock.timeUs)
  { k with hdg := { k.hdg with fecUncorr := satAdd m.hdg.fecUncorr 1 } }

theorem Mod.portUe_up (up : (m.port p).train.st = .up) : m.portUe p =
    if ((m.port p).train.oneUe m.clock.timeUs).ueTrigger = 0 then m.ueCounted p
    else (m.ueCounted p).portRetrain p ((m.port p).train.oneUe m.clock.timeUs).ueTrigger true :=
  if_neg (not_not_intro up)

section
variable {u : LinkTrain}

theorem LinkTrain.ueTrigger_none (run : u.ueRun < 4) (times : u.ueTimes.length < 8) : u.ueTrigger = 0 :=
  (if_neg (Nat.not_le.2 times)).trans (if_neg (Nat.not_le.2 run))

theorem LinkTrain.ueTrigger_times (times : 8 ≤ u.ueTimes.length) : u.ueTrigger = 1 := if_pos times

theorem LinkTrain.ueTrigger_run (run : 4 ≤ u.ueRun) (times : u.ueTimes.length < 8) : u.ueTrigger = 2 :=
  (if_neg (Nat.not_le.2 times)).trans (if_pos run)

end

theorem Mod.portRetrain_idle (trigger : Nat) (counted : Bool) (idle : (m.port p).train.st ≠ .up) :
    m.portRetrain p trigger counted = m := if_pos idle

/-- A counted retrain is the 16th of the last 60 s. -/
theorem Mod.portRetrain_fails (trigger : Nat) {counted : Bool} (up : (m.port p).train.st = .up) (counts : counted = true)
    (many : 15 ≤ ((m.port p).train.recent m.clock.timeUs).length) : m.portRetrain p trigger counted = m.portFailed p :=
  (if_neg (not_not_intro up)).trans (if_pos ⟨counts, many⟩)

/-! ### The degraded report (R350) -/

/-- The degraded report is made when a window turns a link degraded. -/
theorem degraded_rises {bad was : Bool} : (bad && !was) = true ↔ bad = true ∧ was = false := by
  cases bad <;> cases was <;> decide

/-- The module that has evaluated a window of a port. -/
def Mod.fecCounted (m : Mod) (p corrected received : Nat) : Mod :=
  let k := m.trained p { (m.port p).train with degraded := fecDegraded (m.port p).train.degraded corrected received }
  { k with hdg := { k.hdg with fecCorrected := satAdd k.hdg.fecCorrected corrected } }

theorem Mod.portFec_eq (corrected received : Nat) : m.portFec p corrected received =
    if (fecDegraded (m.port p).train.degraded corrected received && !(m.port p).train.degraded) = true then
      (m.fecCounted p corrected received).raise .hdgFecDegraded (unitId 7 p) []
    else m.fecCounted p corrected received := rfl

/-! ### RETRAIN_REQ (R351) -/

theorem Mod.portRetrainReq_up (st : (m.port p).train.st = .up) : m.portRetrainReq p = m.portRetrain p 4 false := by
  simp only [Mod.portRetrainReq, st]

theorem Mod.portRetrainReq_training (st : (m.port p).train.st = .signal ∨ (m.port p).train.st = .align
    ∨ (m.port p).train.st = .ident) : m.portRetrainReq p = m.trained p (m.port p).train.down := by
  rcases st with st | st | st <;> simp only [Mod.portRetrainReq, st, Mod.portDown_eq, reduceCtorEq, if_false]

theorem Mod.portRetrainReq_idle (st : (m.port p).train.st = .down ∨ (m.port p).train.st = .retrain) :
    m.portRetrainReq p = m := by
  rcases st with st | st <;> simp only [Mod.portRetrainReq, st]

theorem Mod.portRetrainReq_failed (st : (m.port p).train.st = .failed) : m.portRetrainReq p =
    (m.setPort p { m.port p with
      train := { (m.port p).train.down with attempts := 0, retrains := [] }, fault := false }).clearFault 7 p := by
  simp only [Mod.portRetrainReq, st, Mod.portRevive, if_true]

end

end Sys2Proof.Machine

namespace Sys2Proof

open Machine

/-- Settles O49: each event of training leads from its own state, and failures and retrains are counted as R350 and R351
say. -/
theorem portsTrainAndRetrain : Obligations.PortsTrainAndRetrain := by
  unfold Obligations.PortsTrainAndRetrain
  intro m port fd v corrected received powered p x t set down failed ready
  have known (count : m.hdg.ports.length = 36) : p < m.hdg.ports.length := count ▸ port.isLt
  refine ⟨fun ready st => turns_portSignalDetected powered port (if_pos ⟨Mod.linksTrain_iff.2 ready, st⟩),
    fun other => turns_portSignalDetected powered port (if_neg ?unready),
    fun st => turns_portSignalDone powered port (Mod.portSignalDone_signal st),
    fun st first => turns_portSignalDone powered port (Mod.portSignalDone_retrain st first),
    fun st no => turns_portSignalDone powered port ((if_neg st).trans (if_neg no)),
    fun st => turns_portAlignDone powered port (if_pos st),
    fun st second => turns_portAlignDone powered port (Mod.portAlignDone_retrain st second),
    fun st no => turns_portAlignDone powered port ((if_neg st).trans (if_neg no)),
    fun free => turns_portStateTimeout powered port (Mod.portTimeout_unbounded free),
    fun bounded => ⟨fun few count => turns_portStateTimeout powered port (Mod.portTimeout_again bounded (known count) few),
      fun many count => turns_portStateTimeout powered port (Mod.portTimeout_third bounded (known count) many)⟩,
    ?codeword, fun trigger counted => ?retrain, ?window, fun serves high => ?refused, fun serves => ?request⟩
  case unready =>
    rintro ⟨links, st⟩
    exact other.elim (· (Mod.linksTrain_iff.1 links)) (· st)
  case codeword =>
    intro u n
    have counts (up : t.st = .up) := Mod.portUe_up (m := m) (p := p) up
    refine ⟨fun idle => turns_portCodewordUe powered port (if_pos idle), fun up run times => ?_, fun up times => ?_,
      fun up run times => ?_⟩
    · exact turns_portCodewordUe powered port ((counts up).trans (if_pos (LinkTrain.ueTrigger_none run times)))
    · have trigger : u.ueTrigger = 1 := LinkTrain.ueTrigger_times times
      exact turns_portCodewordUe powered port ((counts up).trans
        ((if_neg (by rw [show LinkTrain.ueTrigger _ = 1 from trigger]; decide)).trans
          (congrArg (n.portRetrain p · true) trigger)))
    · have trigger : u.ueTrigger = 2 := LinkTrain.ueTrigger_run run times
      exact turns_portCodewordUe powered port ((counts up).trans
        ((if_neg (by rw [show LinkTrain.ueTrigger _ = 2 from trigger]; decide)).trans
          (congrArg (n.portRetrain p · true) trigger)))
  case retrain =>
    intro rs
    refine ⟨Mod.portRetrain_idle trigger counted, Mod.portRetrain_fails trigger, fun up free => ?_⟩
    have allowed : ¬ (counted = true ∧ 15 ≤ rs.length) := by
      rintro ⟨counts, many⟩
      exact free.elim (fun no => Bool.false_ne_true (no.symm.trans counts)) (Nat.not_lt.2 many)
    exact (if_neg (not_not_intro up)).trans (if_neg allowed)
  case window =>
    intro d k n
    have window := Mod.portFec_eq (m := m) (p := p) corrected received
    refine ⟨fun bad was =>
        turns_fecWindow powered port corrected received (window.trans (if_pos (degraded_rises.2 ⟨bad, was⟩))),
      fun same => turns_fecWindow powered port corrected received (window.trans (if_neg fun rises => ?_))⟩
    obtain ⟨bad, was⟩ := degraded_rises.1 rises
    exact same.elim (fun good => Bool.false_ne_true (good.symm.trans bad))
      (fun on => Bool.false_ne_true (was.symm.trans on))
  case refused =>
    have effect := effect_3803_0 m (regBytes v) ObjIn.none
    rw [leNat_regBytes, if_pos high] at effect
    exact turns_retrainReq powered fd v (Mod.sdoPut_abort serves fd (check_3803_0 m) effect (by decide))
  case request =>
    intro req told
    have small : (BitVec.ofNat 8 p).toNat = p := by
      have low : p < 36 := port.isLt
      rw [BitVec.toNat_ofNat]
      omega
    have acts {n : Mod} (does : m.portRetrainReq p = n) : Safety.Turns m req (told n) := by
      have effect := effect_3803_0 m (regBytes (BitVec.ofNat 8 p)) ObjIn.none
      rw [leNat_regBytes, small, if_neg (Nat.not_lt.2 (Nat.le_of_lt_succ port.isLt)), does] at effect
      exact turns_retrainReq powered fd _
        (Mod.sdoPut_answered (v := BitVec.ofNat 8 p) serves fd (check_3803_0 m) effect)
    exact ⟨fun st => acts (Mod.portRetrainReq_up st), fun st => acts (Mod.portRetrainReq_training st),
      fun st => acts (Mod.portRetrainReq_idle st), fun st => acts (Mod.portRetrainReq_failed st)⟩

end Sys2Proof
end


section
/-!
PROOFS. Lea transfers and best-effort messages (R353 to R363).
-/
namespace Sys2Proof.Machine

section
variable {m : Mod} {p : Nat}

/-! ### A repeat falls due (R354) -/

/-- The list of a port that a direction names, past its no-operations. -/
def Port.nextList (x : Port) (recv : Bool) : XferList := (if recv then x.recv else x.send).skip 4096

/-- The present repeat of a list is due, and may take its tag. -/
def Mod.repeatDue (m : Mod) (p : Nat) (recv : Bool) (e : EntryF) : Prop :=
  m.running = true ∧ ((m.port p).nextList recv).busy = false
  ∧ e.start + ((m.port p).nextList recv).rep * e.period ≤ m.stream.stepCount.toNat
  ∧ m.tagFree e.row e.tag = true ∧ ¬(recv = true ∧ (m.port p).fault = true)

/-- The module whose list has begun its repeat, and holds its tag. -/
def Mod.repeatBegun (m : Mod) (p : Nat) (recv : Bool) (e : EntryF) : Mod :=
  let x := m.port p
  let l1 : XferList := { x.nextList recv with busy := true, done := 0 }
  (m.setPort p (if recv then { x with recv := l1 } else { x with send := l1 })).holdTag e.row e.tag false

section
variable {recv : Bool}

theorem Mod.transferDue_none (none : ((m.port p).nextList recv).current = none) : m.transferDue p recv = m := by
  rw [Port.nextList] at none
  simp only [Mod.transferDue, none]

variable {e : EntryF} (current : ((m.port p).nextList recv).current = some e)
include current

theorem Mod.transferDue_some [Decidable (m.repeatDue p recv e)] : m.transferDue p recv =
    if m.repeatDue p recv e then
      let n := m.repeatBegun p recv e
      if recv then n.drainRecv ((m.port p).leaIn.length + 1) p
      else
        let a := e.addrAt ((m.port p).nextList recv).rep
        let r := n.deviceRead a e.len e.cls (reqPort p)
        let ws := r.2.sentMarks (toMarked r.1)
        ((r.2.noteMarks p true a ws).queueLane p false (dataFlits 1 ws)).sendSettled p
    else m := by
  rw [Port.nextList] at current
  simp only [Mod.transferDue, current, decide_eq_true_iff]
  exact if_congr Iff.rfl rfl rfl

end

/-! ### The doorbell of a send queue (R361) -/

theorem Mod.beqHead_past {q : Nat} {v : BitVec 16} (past : 2 ^ (m.beq q).ringSize.toNat < (v - (m.beq q).tail).toNat) :
    m.beqHead q v = { m with dma := { m.dma with headOverruns := satAdd m.dma.headOverruns 1 } } := if_pos past

/-! ### A message arrives (R359, R360, R363) -/

section
variable {op : Nat}

theorem Mod.beArrive_none (none : (m.port p).inbox = []) : m.beArrive p op = m := by
  simp only [Mod.beArrive, none]

/-- The words of a message's body, with their marks. -/
def MsgBuf.words (msg : MsgBuf) : List (Bytes × Bool) :=
  payloadWords (msg.data.drop 32)
    (msg.marks.zipIdx.foldl (fun v i => if i.1 = true ∧ 4 ≤ i.2 then v + 2 ^ (i.2 - 4) else v) 0)

/-- The module that has taken the oldest message of a port. -/
def Mod.msgTaken (m : Mod) (p : Nat) (rest : List MsgBuf) : Mod := m.setPort p { m.port p with inbox := rest }

variable {msg : MsgBuf} {rest : List MsgBuf} (oldest : (m.port p).inbox = msg :: rest)
include oldest

theorem Mod.beArrive_some : m.beArrive p op =
    let h := beHdr msg.data
    let n := m.msgTaken p rest
    if h.op ≠ 1 ∧ h.op ≠ 2 then n
    else if h.op ≠ op then m
    else if h.hops = 0 then n.beDrop
    else if h.dest ≠ m.hdg.fleetId.toNat then n.beForward h (msg.words.take (h.len / 8))
    else if h.op = 1 then (n.noteMarks p false 0 msg.words).beDeliver h msg.words
    else n.beSettle h.id (BitVec.ofNat 8 h.status) := by
  simp only [Mod.beArrive, oldest]
  rfl

theorem Mod.beArrive_reserved (not1 : (beHdr msg.data).op ≠ 1) (not2 : (beHdr msg.data).op ≠ 2) :
    m.beArrive p op = m.msgTaken p rest := (Mod.beArrive_some oldest).trans (if_pos ⟨not1, not2⟩)

theorem Mod.beArrive_other (known : (beHdr msg.data).op = 1 ∨ (beHdr msg.data).op = 2) (other : (beHdr msg.data).op ≠ op) :
    m.beArrive p op = m :=
  (Mod.beArrive_some oldest).trans ((if_neg (by tauto)).trans (if_pos other))

variable (known : op = 1 ∨ op = 2) (same : (beHdr msg.data).op = op)
include known same

theorem Mod.beArrive_same : m.beArrive p op =
    let h := beHdr msg.data
    let n := m.msgTaken p rest
    if h.hops = 0 then n.beDrop
    else if h.dest ≠ m.hdg.fleetId.toNat then n.beForward h (msg.words.take (h.len / 8))
    else if h.op = 1 then (n.noteMarks p false 0 msg.words).beDeliver h msg.words
    else n.beSettle h.id (BitVec.ofNat 8 h.status) :=
  (Mod.beArrive_some oldest).trans ((if_neg (by rw [same]; tauto)).trans (if_neg (not_not_intro same)))

variable (alive : (beHdr msg.data).hops ≠ 0)
include alive

theorem Mod.beArrive_forwards (elsewhere : (beHdr msg.data).dest ≠ m.hdg.fleetId.toNat) : m.beArrive p op =
    (m.msgTaken p rest).beForward (beHdr msg.data) (msg.words.take ((beHdr msg.data).len / 8)) :=
  (Mod.beArrive_same oldest known same).trans ((if_neg alive).trans (if_pos elsewhere))

theorem Mod.beArrive_here (here : (beHdr msg.data).dest = m.hdg.fleetId.toNat) : m.beArrive p op =
    if (beHdr msg.data).op = 1 then
      ((m.msgTaken p rest).noteMarks p false 0 msg.words).beDeliver (beHdr msg.data) msg.words
    else (m.msgTaken p rest).beSettle (beHdr msg.data).id (BitVec.ofNat 8 (beHdr msg.data).status) :=
  (Mod.beArrive_same oldest known same).trans ((if_neg alive).trans (if_neg (not_not_intro here)))

end

section
variable {h : BeHdr} {ws : List (Bytes × Bool)}

theorem Mod.beDeliver_outside (outside : m.inWindows h.addr h.len = false) :
    m.beDeliver h ws = m.beForward ⟨h.src, h.dest, h.cls, 0, 0, 64, 2, 0xA1, h.id⟩ [] := by
  simp only [Mod.beDeliver, outside, Bool.false_and, Bool.false_eq_true, if_false]

theorem Mod.beDeliver_inside (inside : m.inWindows h.addr h.len = true) (some : h.len ≠ 0) : m.beDeliver h ws =
    (m.writeStack h.addr (ws.take (h.len / 8)) h.cls false (reqPort 0)).2.beForward
      ⟨h.src, h.dest, h.cls, 0, 0, 64, 2, if (ws.take (h.len / 8)).any (fun w => w.2) then 0x40 else 0, h.id⟩ [] := by
  simp only [Mod.beDeliver, inside, some, Bool.true_and, bne_iff_ne, ne_eq, not_false_iff, if_true]

end

/-! ### A message is settled (R363) -/

section
variable {id : Nat}

theorem Mod.beSettle_none (none : m.hdg.msgs.find? (fun e => e.msgId == id && e.status.isNone) = none) (st : BitVec 8) :
    m.beSettle id st = m := by
  simp only [Mod.beSettle, none]

theorem Mod.beSettle_late {e : BeMsg} (found : m.hdg.msgs.find? (fun e => e.msgId == id && e.status.isNone) = some e) :
    m.beSettle id 0xA0#8 = (({ m with hdg := { m.hdg with
      msgs := m.hdg.msgs.map (fun z => if z = e then { z with status := some 0xA0#8 } else z) } } : Mod).beFlush 65536
        e.queue).beqPump 65536 e.queue := by
  have late : (if e.marked = true ∧ 0xA0#8 = 0#8 then 0x40#8 else 0xA0#8) = 0xA0#8 := if_neg (by simp)
  simp only [Mod.beSettle, found, late]

end
end

end Sys2Proof.Machine

namespace Sys2Proof

open Machine

/-- Settles O50: a repeat begins once it is due, and a message goes by its OP, its HOPS and its destination. -/
theorem transfersAndMessagesMove : Obligations.TransfersAndMessagesMove := by
  unfold Obligations.TransfersAndMessagesMove
  classical
  intro m port recv q v id powered p x l b
  refine ⟨fun none => turns_leaTransferDue powered port recv (Mod.transferDue_none none), ?due,
    fun past => turns_hdgBeqHead powered q v (Mod.beqHead_past past),
    fun fits => turns_hdgBeqHead powered q v (if_neg (Nat.not_lt.2 fits)), ?arrive, ?forward,
    fun none => turns_ackTimeout powered id (Mod.beSettle_none none _),
    fun e found => turns_ackTimeout powered id (Mod.beSettle_late found)⟩
  case due =>
    intro e current due l1 n
    have begins := Mod.transferDue_some (m := m) (p := p) (recv := recv) current
    refine ⟨fun early => turns_leaTransferDue powered port recv (begins.trans (if_neg early)), fun due receives => ?_,
      fun due sends => ?_⟩
    · exact turns_leaTransferDue powered port recv (begins.trans ((if_pos due).trans (if_pos receives)))
    · exact turns_leaTransferDue powered port recv
        (begins.trans ((if_pos due).trans (if_neg (ne_true_of_eq_false sends))))
  case arrive =>
    have arrives {op : Nat} (known : op = 1 ∨ op = 2) {c : Instr}
        (turns : ∀ {k}, m.beArrive p op = k → Safety.Turns m c k) :
        (x.inbox = [] → Safety.Turns m c m)
        ∧ ∀ msg rest, x.inbox = msg :: rest →
          let h := beHdr msg.data
          let ws := msg.words
          let n := m.msgTaken p rest
          (h.op ≠ 1 → h.op ≠ 2 → Safety.Turns m c n)
          ∧ (h.op = 1 ∨ h.op = 2 → h.op ≠ op → Safety.Turns m c m)
          ∧ (h.op = op → h.hops = 0 → Safety.Turns m c n.beDrop)
          ∧ (h.op = op → h.hops ≠ 0 → h.dest ≠ m.hdg.fleetId.toNat →
              Safety.Turns m c (n.beForward h (ws.take (h.len / 8))))
          ∧ (h.op = op → h.hops ≠ 0 → h.dest = m.hdg.fleetId.toNat → op = 2 →
              Safety.Turns m c (n.beSettle h.id (BitVec.ofNat 8 h.status)))
          ∧ (h.op = op → h.hops ≠ 0 → h.dest = m.hdg.fleetId.toNat → op = 1 →
              let k := n.noteMarks p false 0 ws
              let data := ws.take (h.len / 8)
              let ack (k : Mod) (st : Nat) : Mod := k.beForward ⟨h.src, h.dest, h.cls, 0, 0, 64, 2, st, h.id⟩ []
              (k.inWindows h.addr h.len = false → Safety.Turns m c (ack k 0xA1))
              ∧ (k.inWindows h.addr h.len = true → h.len ≠ 0 → Safety.Turns m c
                  (ack (k.writeStack h.addr data h.cls false (reqPort 0)).2
                    (if data.any (fun w => w.2) then 0x40 else 0)))) := by
      refine ⟨fun none => turns (Mod.beArrive_none none), fun msg rest oldest => ?_⟩
      refine ⟨fun not1 not2 => turns (Mod.beArrive_reserved oldest not1 not2),
        fun known other => turns (Mod.beArrive_other oldest known other),
        fun same ended => turns ((Mod.beArrive_same oldest known same).trans (if_pos ended)),
        fun same alive elsewhere => turns (Mod.beArrive_forwards oldest known same alive elsewhere),
        fun same alive here ack => turns ((Mod.beArrive_here oldest known same alive here).trans (if_neg ?_)), ?_⟩
      · rw [same, ack]
        decide
      · intro same alive here write
        have delivers := (Mod.beArrive_here oldest known same alive here).trans (if_pos (same.trans write))
        exact ⟨fun outside => turns (delivers.trans (Mod.beDeliver_outside outside)),
          fun inside some => turns (delivers.trans (Mod.beDeliver_inside inside some))⟩
    exact List.forall_mem_cons.2 ⟨arrives (.inl rfl) (turns_beWrite powered port),
      List.forall_mem_cons.2 ⟨arrives (.inr rfl) (turns_beAck powered port), by simp⟩⟩
  case forward =>
    intro h ws gate ups
    refine ⟨fun stuck => if_pos stuck, fun alive known some => if_neg ?_⟩
    rintro (ended | unknown | none)
    · exact alive ended
    · exact Nat.not_lt.2 known unknown
    · exact some none

end Sys2Proof
end


section
/-!
PROOFS. The Jaeno link: its flits, its identification, its training and its retrains (R341 to R350, R368 to R372).
-/
namespace Sys2Proof.Machine

section
variable {m : Mod} {f : Bytes} {fec : Bool}

/-! ### A flit arrives (R341, R344, R369) -/

/-- The flit is whole and its codewords were correctable. -/
def jnlGood (f : Bytes) (fec : Bool) : Prop := fec = false ∧ jnlIntact f = true

theorem jnlBad_iff : ¬ jnlGood f fec ↔ fec = true ∨ jnlIntact f = false := by
  rw [jnlGood, not_and_or, Bool.not_eq_false, Bool.not_eq_true]

/-- The module that has counted a damaged flit of the link. -/
def Mod.jnlFlitBad (m : Mod) : Mod := { m with jnl := { m.jnl with crcFail := satAdd m.jnl.crcFail 1 } }

/-- The module that has acted on the acknowledgement of a flit. -/
def Mod.jnlSeen (m : Mod) (f : Bytes) : Mod :=
  (m.setJnl { m.jnl.train with ueRun := 0 }).jnlAck (field (leNat (f.take 4)) 14 10) (bitOf (leNat (f.take 4)) 24)

section
variable {comps : List Nat}

theorem Mod.jnlData_down (down : m.jnl.train.st ≠ .up) : m.jnlData f fec comps = m := if_pos down

variable (up : m.jnl.train.st = .up)
include up

theorem Mod.jnlData_bad (bad : ¬ jnlGood f fec) : m.jnlData f fec comps = m.jnlFlitBad :=
  (if_neg (not_not_intro up)).trans (if_pos (jnlBad_iff.1 bad))

variable (good : jnlGood f fec)
include good

theorem Mod.jnlData_other (other : 2 ≤ field (leNat (f.take 4)) 0 4) : m.jnlData f fec comps = m :=
  (if_neg (not_not_intro up)).trans ((if_neg (mt jnlBad_iff.2 (not_not_intro good))).trans (if_pos other))

/-- A flit that is no LINK flit is acknowledged; a DATA flit is then taken by its SEQ. -/
theorem Mod.jnlData_seen (kind : field (leNat (f.take 4)) 0 4 < 2) : m.jnlData f fec comps =
    let n := m.jnlSeen f
    let l := n.jnl.lane
    if field (leNat (f.take 4)) 0 4 = 0 then n
    else if field (leNat (f.take 4)) 4 10 = l.expect then
      ({ n with jnl := { n.jnl with
        lane := { l with expect := (l.expect + 1) % 1024, acked := some l.expect, nak := false } } } : Mod).jnlPayload f comps
    else { n with jnl := { n.jnl with lane := { l with nak := true }, crcFail := satAdd n.jnl.crcFail 1 } } :=
  (if_neg (not_not_intro up)).trans
    ((if_neg (mt jnlBad_iff.2 (not_not_intro good))).trans (if_neg (Nat.not_le.2 kind)))

theorem Mod.jnlData_idle (idle : field (leNat (f.take 4)) 0 4 = 0) : m.jnlData f fec comps = m.jnlSeen f :=
  (Mod.jnlData_seen up good (by rw [idle]; decide)).trans (if_pos idle)

theorem Mod.jnlData_data (data : field (leNat (f.take 4)) 0 4 = 1) : m.jnlData f fec comps =
    let n := m.jnlSeen f
    let l := n.jnl.lane
    if field (leNat (f.take 4)) 4 10 = l.expect then
      ({ n with jnl := { n.jnl with
        lane := { l with expect := (l.expect + 1) % 1024, acked := some l.expect, nak := false } } } : Mod).jnlPayload f comps
    else { n with jnl := { n.jnl with lane := { l with nak := true }, crcFail := satAdd n.jnl.crcFail 1 } } :=
  (Mod.jnlData_seen up good (by rw [data]; decide)).trans (if_neg (by rw [data]; decide))

end

/-! ### Identification (R370) -/

/-- The LINK payload of a flit. -/
def jnlBody (f : Bytes) : Bytes := (f.drop 12).take 240

theorem Mod.jnlIdent_deaf (deaf : m.jnl.train.linkOpen = false) : m.jnlIdent f fec = m := if_pos (by simp [deaf])

section
variable (hears : m.jnl.train.linkOpen = true)
include hears

theorem Mod.jnlIdent_bad (bad : ¬ jnlGood f fec ∨ (field (leNat (f.take 1)) 0 4 = 2 ∧ jnlLinkOk (jnlBody f) = false)) :
    m.jnlIdent f fec = m.jnlFlitBad := by
  refine (if_neg (not_not_intro hears)).trans (if_pos ?_)
  rw [jnlBad_iff] at bad
  rcases bad with (damaged | broken) | ⟨link, reserved⟩
  · simp [damaged]
  · simp [broken]
  · rw [jnlBody] at reserved
    simp [link, reserved]

theorem Mod.jnlIdent_other (good : jnlGood f fec) (other : field (leNat (f.take 1)) 0 4 ≠ 2) : m.jnlIdent f fec = m :=
  (if_neg (not_not_intro hears)).trans ((if_neg (by simp [good.1, good.2, other])).trans (if_pos other))

theorem Mod.jnlIdent_takes (good : jnlGood f fec) (link : field (leNat (f.take 1)) 0 4 = 2)
    (sound : jnlLinkOk (jnlBody f) = true) : m.jnlIdent f fec = m.jnlTakeIdent (jnlBody f) := by
  rw [jnlBody] at sound
  exact (if_neg (not_not_intro hears)).trans
    ((if_neg (by simp [good.1, good.2, sound])).trans (if_neg (not_not_intro link)))

end

theorem LinkSt.bounded_iff (st : LinkSt) :
    st.bounded = true ↔ st = .signal ∨ st = .align ∨ st = .ident ∨ st = .retrain := by
  cases st <;> simp [LinkSt.bounded]

section
variable {pl : Bytes}

/-- The MAX_READ of an IDENT. -/
def identRead (pl : Bytes) : Nat := leNat ((((pl.drop 8).take 16).drop 14).take 2)

/-- The MAX_READ of an IDENT is in its range. -/
def identFits (pl : Bytes) : Prop := identRead pl % 64 = 0 ∧ 64 ≤ identRead pl ∧ identRead pl ≤ 4096

/-- The module that has stored the peer's identification. -/
def Mod.identStored (m : Mod) (pl : Bytes) : Mod := { m with jnl := { m.jnl with
  peerPart := ((pl.drop 8).take 16).take 13, peerRev := listGet 0#8 ((pl.drop 8).take 16) 13, maxRead := identRead pl } }

theorem Mod.jnlTakeIdent_unfit (unfit : ¬ identFits pl) :
    m.jnlTakeIdent pl = if m.jnl.train.st.bounded = true then m.jnlAttemptFailed else m := by
  refine if_pos ?_
  rw [identFits, identRead] at unfit
  omega

variable (fits : identFits pl)
include fits

theorem Mod.jnlTakeIdent_fits : m.jnlTakeIdent pl =
    if (linkF pl).echo = true then
      if m.jnl.train.waitsFor 1 (linkF pl).serial = true then
        ((m.setJnl { m.jnl.train.echoed 1 (linkF pl).serial with identEchoed := true }).identStored pl).jnlIdentDone
      else m
    else if m.jnl.train.acted.contains (1, (linkF pl).serial) = true then m.jnlSendLink true (linkF pl).serial
    else (((m.setJnl { m.jnl.train.act 1 (linkF pl).serial with identIn := true }).identStored pl).jnlSendLink true
      (linkF pl).serial).jnlIdentDone := by
  refine if_neg ?_
  rw [identFits, identRead] at fits
  omega

theorem Mod.jnlTakeIdent_echo (echo : (linkF pl).echo = true) : m.jnlTakeIdent pl =
    if m.jnl.train.waitsFor 1 (linkF pl).serial = true then
      ((m.setJnl { m.jnl.train.echoed 1 (linkF pl).serial with identEchoed := true }).identStored pl).jnlIdentDone
    else m := (Mod.jnlTakeIdent_fits fits).trans (if_pos echo)

theorem Mod.jnlTakeIdent_asks (asks : (linkF pl).echo = false) : m.jnlTakeIdent pl =
    if m.jnl.train.acted.contains (1, (linkF pl).serial) = true then m.jnlSendLink true (linkF pl).serial
    else (((m.setJnl { m.jnl.train.act 1 (linkF pl).serial with identIn := true }).identStored pl).jnlSendLink true
      (linkF pl).serial).jnlIdentDone := (Mod.jnlTakeIdent_fits fits).trans (if_neg (ne_true_of_eq_false asks))

end

/-! ### Replay, training and retrains (R369, R371, R372) -/

theorem Mod.jnlReplayTimeout_idle (idle : m.jnl.train.st ≠ .up ∨ m.jnl.lane.replay = []) : m.jnlReplayTimeout = m :=
  if_pos idle

theorem Mod.jnlReplayTimeout_resends (up : m.jnl.train.st = .up) (some : m.jnl.lane.replay ≠ []) : m.jnlReplayTimeout =
    let n : Mod := { m with jnl := { m.jnl with
      lane := { m.jnl.lane with timeouts := m.jnl.lane.timeouts + 1 }, replays := satAdd m.jnl.replays 1 } }
    if 3 ≤ m.jnl.lane.timeouts + 1 then n.jnlResend.jnlRetrain true else n.jnlResend :=
  if_neg (not_or.2 ⟨not_not_intro up, some⟩)

theorem Mod.jnlSignalDone_retrain (st : m.jnl.train.st = .retrain) (first : m.jnl.train.sub = 0) :
    m.jnlSignalDone = m.setJnl { m.jnl.train with sub := 1 } := (if_neg (by simp [st])).trans (if_pos ⟨st, first⟩)

theorem Mod.jnlAlignDone_retrain (st : m.jnl.train.st = .retrain) (second : m.jnl.train.sub = 1) :
    m.jnlAlignDone = (m.setJnl { m.jnl.train with sub := 2 }).jnlSendIdent :=
  (if_neg (by simp [st])).trans (if_pos ⟨st, second⟩)

theorem Mod.jnlRetrain_fails {counted : Bool} (up : m.jnl.train.st = .up) (counts : counted = true)
    (many : 15 ≤ (m.jnl.train.recent m.clock.timeUs).length) : m.jnlRetrain counted = m.jnlFailed :=
  (if_neg (not_not_intro up)).trans (if_pos ⟨counts, many⟩)

/-- The module that has counted one more uncorrectable codeword of the link. -/
def Mod.jnlUeCounted (m : Mod) : Mod := { m with jnl := { m.jnl with
  train := m.jnl.train.oneUe m.clock.timeUs, fecUncorr := satAdd m.jnl.fecUncorr 1 } }

theorem Mod.jnlUe_up (up : m.jnl.train.st = .up) : m.jnlUe =
    if (m.jnl.train.oneUe m.clock.timeUs).ueTrigger = 0 then m.jnlUeCounted else m.jnlUeCounted.jnlRetrain true :=
  if_neg (not_not_intro up)

theorem LinkTrain.ueTrigger_some {u : LinkTrain} (some : 4 ≤ u.ueRun ∨ 8 ≤ u.ueTimes.length) : u.ueTrigger ≠ 0 := by
  by_cases times : 8 ≤ u.ueTimes.length
  · rw [LinkTrain.ueTrigger_times times]
    decide
  · rw [LinkTrain.ueTrigger_run (some.resolve_right times) (Nat.not_le.1 times)]
    decide

theorem Mod.jnlRetrainReq_up (st : m.jnl.train.st = .up) : m.jnlRetrainReq = m.jnlRetrain false := by
  simp only [Mod.jnlRetrainReq, st]

theorem Mod.jnlRetrainReq_training (st : m.jnl.train.st = .signal ∨ m.jnl.train.st = .align ∨ m.jnl.train.st = .ident) :
    m.jnlRetrainReq = m.setJnl m.jnl.train.down := by
  rcases st with st | st | st <;> simp only [Mod.jnlRetrainReq, st]

theorem Mod.jnlRetrainReq_idle (st : m.jnl.train.st = .down ∨ m.jnl.train.st = .retrain) : m.jnlRetrainReq = m := by
  rcases st with st | st <;> simp only [Mod.jnlRetrainReq, st]

theorem Mod.jnlRetrainReq_failed (st : m.jnl.train.st = .failed) :
    m.jnlRetrainReq = (m.setJnl { m.jnl.train.down with attempts := 0, retrains := [] }).clearFault 8 0 := by
  simp only [Mod.jnlRetrainReq, st]

end

end Sys2Proof.Machine

namespace Sys2Proof

open Machine

/-- Settles O51: a flit is heard by the link's state and taken by its SEQ, and the events of training count as those of a
port do. -/
theorem jaenoLinkTrainsAndCarriesFlits : Obligations.JaenoLinkTrainsAndCarriesFlits := by
  unfold Obligations.JaenoLinkTrainsAndCarriesFlits
  intro m f fec fd comps v corrected received powered j t good kind bad head seen sl pl h rd store ready timed attempt
  have bounded : t.st.bounded = true ↔ timed := LinkSt.bounded_iff t.st
  refine ⟨fun down => turns_jnlFlit powered f fec comps (Mod.jnlData_down down),
    fun up bad => turns_jnlFlit powered f fec comps (Mod.jnlData_bad up bad),
    fun up good other => turns_jnlFlit powered f fec comps (Mod.jnlData_other up good other),
    fun up good idle => turns_jnlFlit powered f fec comps (Mod.jnlData_idle up good idle),
    fun up good data => ⟨fun same => turns_jnlFlit powered f fec comps ((Mod.jnlData_data up good data).trans (if_pos same)),
      fun gap => turns_jnlFlit powered f fec comps ((Mod.jnlData_data up good data).trans (if_neg gap))⟩,
    fun deaf => turns_jnlIdent powered f fec (Mod.jnlIdent_deaf deaf),
    fun hears bad => turns_jnlIdent powered f fec (Mod.jnlIdent_bad hears bad),
    fun hears good other => turns_jnlIdent powered f fec (Mod.jnlIdent_other hears good other),
    fun hears good link sound => ?ident, ?replay,
    fun ready st => turns_jnlSignalDetected powered (if_pos ⟨Mod.linksTrain_iff.2 ready, st⟩),
    fun other => turns_jnlSignalDetected powered (if_neg ?unready), fun st => turns_jnlSignalDone powered (if_pos st),
    fun st first => turns_jnlSignalDone powered (Mod.jnlSignalDone_retrain st first),
    fun st no => turns_jnlSignalDone powered ((if_neg st).trans (if_neg no)),
    fun st => turns_jnlAlignDone powered (if_pos st),
    fun st second => turns_jnlAlignDone powered (Mod.jnlAlignDone_retrain st second),
    fun st no => turns_jnlAlignDone powered ((if_neg st).trans (if_neg no)),
    fun free => turns_jnlStateTimeout powered (if_neg (mt bounded.1 free)),
    fun timed => turns_jnlStateTimeout powered (if_pos (bounded.2 timed)),
    ⟨fun few => if_neg (Nat.not_le.2 (Nat.succ_lt_succ few)), fun many => if_pos (Nat.succ_le_succ many)⟩,
    fun n counted => ?retrain, ?codeword, ?window, fun serves => ?request⟩
  case ident =>
    intro fits
    have takes := Mod.jnlIdent_takes hears good link sound
    have unfit (no : ¬ fits) := takes.trans (Mod.jnlTakeIdent_unfit (pl := pl) no)
    exact ⟨fun no timed => turns_jnlIdent powered f fec ((unfit no).trans (if_pos (bounded.2 timed))),
      fun no free => turns_jnlIdent powered f fec ((unfit no).trans (if_neg (mt bounded.1 free))),
      fun fits echo other => turns_jnlIdent powered f fec
        (takes.trans ((Mod.jnlTakeIdent_echo fits echo).trans (if_neg (ne_true_of_eq_false other)))),
      fun fits echo waits => turns_jnlIdent powered f fec
        (takes.trans ((Mod.jnlTakeIdent_echo fits echo).trans (if_pos waits))),
      fun fits asks acted => turns_jnlIdent powered f fec
        (takes.trans ((Mod.jnlTakeIdent_asks fits asks).trans (if_pos acted))),
      fun fits asks new => turns_jnlIdent powered f fec
        (takes.trans ((Mod.jnlTakeIdent_asks fits asks).trans (if_neg (ne_true_of_eq_false new))))⟩
  case replay =>
    intro n again
    exact ⟨fun idle => turns_jnlReplayTimeout powered (Mod.jnlReplayTimeout_idle idle),
      fun up some few => turns_jnlReplayTimeout powered
        ((Mod.jnlReplayTimeout_resends up some).trans (if_neg (Nat.not_le.2 (Nat.succ_lt_succ few)))),
      fun up some many => turns_jnlReplayTimeout powered
        ((Mod.jnlReplayTimeout_resends up some).trans (if_pos (Nat.succ_le_succ many)))⟩
  case unready =>
    rintro ⟨links, st⟩
    exact other.elim (· (Mod.linksTrain_iff.1 links)) (· st)
  case retrain =>
    intro u rs
    refine ⟨fun idle => if_pos idle, Mod.jnlRetrain_fails, fun up free => (if_neg (not_not_intro up)).trans (if_neg ?_)⟩
    rintro ⟨counts, many⟩
    exact free.elim (fun no => Bool.false_ne_true (no.symm.trans counts)) (Nat.not_lt.2 many)
  case codeword =>
    intro u n
    exact ⟨fun idle => turns_jnlCodewordUe powered (if_pos idle),
      fun up run times => turns_jnlCodewordUe powered
        ((Mod.jnlUe_up up).trans (if_pos (LinkTrain.ueTrigger_none run times))),
      fun up some => turns_jnlCodewordUe powered ((Mod.jnlUe_up up).trans (if_neg (LinkTrain.ueTrigger_some some)))⟩
  case window =>
    intro d n
    refine ⟨fun bad was => turns_jnlFecWindow powered corrected received (if_pos (degraded_rises.2 ⟨bad, was⟩)),
      fun same => turns_jnlFecWindow powered corrected received (if_neg fun rises => ?_)⟩
    obtain ⟨bad, was⟩ := degraded_rises.1 rises
    exact same.elim (fun good => Bool.false_ne_true (good.symm.trans bad))
      (fun on => Bool.false_ne_true (was.symm.trans on))
  case request =>
    intro told
    have acts {n : Mod} (does : m.jnlRetrainReq = n) : Safety.Turns m (.jnlRetrainReq fd 1#8) (told n) := by
      subst does
      exact turns_jnlRetrainReq powered fd 1#8 (Mod.sdoPut_one serves fd (check_3841_0 m) (effect_3841_0 m _ _))
    exact ⟨fun other => turns_jnlRetrainReq powered fd v
        (Mod.sdoPut_notOne serves fd (check_3841_0 m) (effect_3841_0 m _ _) other),
      fun st => acts (Mod.jnlRetrainReq_up st), fun st => acts (Mod.jnlRetrainReq_training st),
      fun st => acts (Mod.jnlRetrainReq_idle st), fun st => acts (Mod.jnlRetrainReq_failed st)⟩

end Sys2Proof
end


section
/-!
PROOFS. Host requests: their order, the window's blocks, completions, the interrupt registers and the mirror's page (R368 to
R384).
-/
namespace Sys2Proof.Machine

section
variable {m : Mod}

/-! ### The order of host requests (R225, R374) -/

/-- The module in which one more request waits. -/
def Mod.hostQueued (m : Mod) (q : HostReq) : Mod := { m with jnl := { m.jnl with hostQ := m.jnl.hostQ ++ [q] } }

theorem Mod.reqHeldAt_hostQ (qs : List HostReq) (q : HostReq) :
    ({ m with jnl := { m.jnl with hostQ := qs } } : Mod).reqHeldAt q = m.reqHeldAt q := rfl

theorem Mod.hostRequest_down (down : m.jnl.train.st ≠ .up) (q : HostReq) : m.hostRequest q = m := if_neg down

/-- Behind a request that a program holds, another one waits. -/
theorem Mod.hostRequest_stalled (up : m.jnl.train.st = .up) {h : HostReq} {rest : List HostReq}
    (front : m.jnl.hostQ = h :: rest) (noted : h.heldAt.isSome = true) (held : (m.reqHeldAt h).isSome = true) (q : HostReq) :
    m.hostRequest q = m.hostQueued q := by
  obtain ⟨w, word⟩ := Option.isSome_iff_exists.1 held
  have first : (m.hostQueued q).jnl.hostQ = h :: (rest ++ [q]) := congrArg (· ++ [q]) front
  have still : (m.hostQueued q).reqHeldAt h = some w := (Mod.reqHeldAt_hostQ _ h).trans word
  refine (if_pos up).trans ?_
  change (m.hostQueued q).hostPump ((m.hostQueued q).jnl.hostQ.length + 1) = m.hostQueued q
  simp only [Mod.hostPump, first, still, noted, if_true]

/-- A request that no program holds is served, where none waits before it. -/
theorem Mod.hostRequest_taken (up : m.jnl.train.st = .up) (free : m.jnl.hostQ = []) {q : HostReq} (fresh : q.heldAt = none)
    (loose : m.reqHeldAt q = none) : m.hostRequest q = (m.serveHost q).hostPump 1 := by
  have emptied : ({ m with jnl := { m.jnl with hostQ := [] } } : Mod) = m := by rw [← free]
  simp [Mod.hostRequest, up, free, Mod.pumpHost, Mod.hostPump, Mod.reqHeldAt_hostQ, loose, fresh, emptied]

theorem Mod.hostPump_empty (free : m.jnl.hostQ = []) : m.hostPump 1 = m := by
  simp only [Mod.hostPump, free]

theorem Mod.memoryWritePacket_none {bs : Bytes} (none : bs = [] ∨ 4096 < bs.length) (off : Nat) (ep : Bool) (comps : Nat) :
    m.memoryWritePacket off bs ep comps = m := if_pos none

theorem Mod.memoryReadPacket_request {n : Nat} (fits : n ≤ 4096) (off tag : Nat) :
    m.memoryReadPacket off n tag = m.hostRequest ⟨false, off, [], n, false, tag, 0, none⟩ := if_neg (Nat.not_lt.2 fits)

theorem Mod.memoryReadPacket_long {n : Nat} (long : 4096 < n) (off tag : Nat) : m.memoryReadPacket off n tag =
    if m.jnl.train.st = .up then m.sendPacket ⟨packetHeader 3 true false tag 0 2 0, []⟩ else m := if_pos long

theorem Mod.memoryReadPacket_down (down : m.jnl.train.st ≠ .up) (off n tag : Nat) : m.memoryReadPacket off n tag = m := by
  by_cases long : 4096 < n
  · exact (Mod.memoryReadPacket_long long off tag).trans (if_neg down)
  · exact (Mod.memoryReadPacket_request (Nat.not_lt.1 long) off tag).trans (Mod.hostRequest_down down _)

theorem Mod.serveHost_write {off : Nat} {bs : Bytes} (one : winParts off bs.length = [(off, bs.length)]) (ep : Bool)
    (comps : Nat) : m.serveHost ⟨true, off, bs, 0, ep, 0, comps, none⟩ = m.winWrite off bs ep comps := by
  simp only [Mod.serveHost, if_true, one, List.foldl_cons, List.foldl_nil, Nat.sub_self, List.drop_zero, List.take_length]

theorem Mod.serveHost_read {off n : Nat} (one : winParts off n = [(off, n)]) (tag : Nat) :
    m.serveHost ⟨false, off, [], n, false, tag, 0, none⟩ =
      let x := m.winRead off n
      x.2.sendPacket ⟨packetHeader 3 true x.1.2 tag n 0 0, x.1.1⟩ := by
  simp only [Mod.serveHost, Bool.false_eq_true, if_false, one, List.foldl_cons, List.foldl_nil, List.nil_append, Bool.false_or]

/-! ### The blocks of the window (R373, R376, R384) -/

section
variable {off : Nat} {bs : Bytes} {ep : Bool} {comps : Nat}

theorem Mod.winWrite_silent (silent : m.answers (winBlock off) = false) : m.winWrite off bs ep comps = m.unassignedWin :=
  if_pos silent

theorem Mod.winWrite_mirror {o : Nat} (block : winBlock off = .mirror o) : m.winWrite off bs ep comps = m := by
  simp [Mod.winWrite, block, Mod.answers]

theorem Mod.winWrite_globals {o : Nat} (block : winBlock off = .globals o) :
    m.winWrite off bs ep comps = m.winReg o bs (m.writeGlobal o bs) := by
  simp [Mod.winWrite, block, Mod.answers]

variable (ready : m.jnl.ready = true)
include ready

theorem Mod.winWrite_dma {q o : Nat} (block : winBlock off = .dma q o) :
    m.winWrite off bs ep comps = m.winReg o bs (m.writeDmaReg q o bs comps) := by
  simp [Mod.winWrite, block, Mod.answers, ready]

theorem Mod.winWrite_mailbox {n o : Nat} (block : winBlock off = .mailbox n o) : m.winWrite off bs ep comps =
    if o < 0x1000 then m.winReg o bs (m.writeMailbox n o bs)
    else { m with jnl := { m.jnl with ccMem := memWrite m.jnl.ccMem (n * 0x100000 + o) bs } } := by
  simp [Mod.winWrite, block, Mod.answers, ready]

theorem Mod.winWrite_fence {o : Nat} (block : winBlock off = .fence o) :
    m.winWrite off bs ep comps = m.winReg o bs (m.writeFence o bs) := by
  simp [Mod.winWrite, block, Mod.answers, ready]

theorem Mod.winWrite_seqt {o : Nat} (block : winBlock off = .seqt o) :
    m.winWrite off bs ep comps = m.seqWriteAll 4098 o bs reqHost := by
  simp [Mod.winWrite, block, Mod.answers, ready]

theorem Mod.winWrite_aperture {o : Nat} (block : winBlock off = .aperture o) :
    m.winWrite off bs ep comps = m.apertureWrite (m.jnl.apertureBase.toNat + o) bs ep comps := by
  simp [Mod.winWrite, block, Mod.answers, ready]

end

section
variable {d : Nat} {bs : Bytes} {ep : Bool} {comps : Nat}

theorem Mod.apertureWrite_stack (inStack : stackRange d bs.length = true) :
    m.apertureWrite d bs ep comps = (m.writeStack d [(bs, ep)] 7 false reqHost).2 := if_pos inStack

variable (outside : stackRange d bs.length = false)
include outside

theorem Mod.apertureWrite_register {k : Nat} (region : regionAt d = .register k) :
    m.apertureWrite d bs ep comps = m.regStore k bs reqHost comps := by
  simp only [Mod.apertureWrite, outside, Bool.false_eq_true, if_false, region]

theorem Mod.apertureWrite_core {n k : Nat} (region : regionAt d = .core n k) : m.apertureWrite d bs ep comps =
    if k + bs.length ≤ 0x100000 then m.writeCore n k bs else m.countDiscard 1 d := by
  simp only [Mod.apertureWrite, outside, Bool.false_eq_true, if_false, region]

end

/-! ### Completions (R368, R379) -/

section
variable {tag cst : Nat} {data : Bytes} {ep : Bool}

theorem Mod.hostCompletion_down (down : m.jnl.train.st ≠ .up) : m.hostCompletion tag data ep cst = m := if_pos down

variable (up : m.jnl.train.st = .up)
include up

theorem Mod.hostCompletion_none (none : m.jnl.reads.find? (fun r => r.tag == tag) = none) :
    m.hostCompletion tag data ep cst = m.hostWriteError tag cst := by
  refine (if_neg (not_not_intro up)).trans ?_
  rw [none]

variable {r : HostRead} (found : m.jnl.reads.find? (fun r => r.tag == tag) = some r)
include found

theorem Mod.hostCompletion_xfer {x : Nat × Nat} (xfer : r.xfer = some x) :
    m.hostCompletion tag data ep cst = m.hostData r x.1 x.2 data ep cst := by
  refine (if_neg (not_not_intro up)).trans ?_
  simp only [found, xfer]

theorem Mod.hostCompletion_record {x : Nat × Nat} (noXfer : r.xfer = none) (record : r.record = some x) :
    m.hostCompletion tag data ep cst = m.tokenData r x.1 x.2 data (ep || cst != 0) := by
  refine (if_neg (not_not_intro up)).trans ?_
  simp only [found, noXfer, record]

end

/-! ### The interrupt registers (R381) -/

section
variable {o : Nat} (small : o < 0x100)
include small

theorem winBlock_globals : winBlock o = .globals o := if_pos small

theorem winParts_globals : winParts o 8 = [(o, 8)] := by
  have fits : 8 ≤ 4096 - o % 4096 := by omega
  simp only [winParts, winBlock_globals small, fits, if_true]

/-- With no request held, a write of a whole global register is served at once. -/
theorem Mod.hostReg_globals (aligned : o % 8 = 0) (up : m.jnl.train.st = .up) (free : m.jnl.hostQ = []) (v : BitVec 64) :
    m.hostReg o (regBytes v) = ((m.writeGlobal o (regBytes v)).getD m.unassignedWin).hostPump 1 := by
  have len : (regBytes v).length = 8 := length_regBytes v
  have outside : ∀ k, winBlock o ≠ .aperture k := by simp [winBlock_globals small]
  have one : winParts o (regBytes v).length = [(o, (regBytes v).length)] := by rw [len, winParts_globals small]
  have whole : regAligned o (regBytes v).length = true := regAligned_regBytes aligned v
  rw [Mod.hostReg, Mod.memoryWritePacket_request m _ (by omega) (by omega),
    Mod.hostRequest_taken up free rfl (Mod.reqHeldAt_outside m outside), Mod.serveHost_write one,
    Mod.winWrite_globals (winBlock_globals small), Mod.winReg, if_pos whole]

end

section
variable (v : BitVec 64)

theorem Mod.writeGlobal_pendLow : m.writeGlobal 0x40 (regBytes v) = some (m.clearPend v.toNat) := by
  simp only [Mod.writeGlobal, Mod.readGlobal, regMerge_regBytes (off := 0x40) rfl]

theorem Mod.writeGlobal_pendHigh :
    m.writeGlobal 0x48 (regBytes v) = some (m.clearPend (field v.toNat 0 18 * 2 ^ 64)) := by
  simp only [Mod.writeGlobal, Mod.readGlobal, regMerge_regBytes (off := 0x48) rfl]

theorem Mod.writeGlobal_maskLow :
    m.writeGlobal 0x30 (regBytes v) = some (m.setMask (field m.jnl.intMask.toNat 64 18 * 2 ^ 64 + v.toNat)) := by
  simp only [Mod.writeGlobal, Mod.readGlobal, regMerge_regBytes (off := 0x30) rfl]

theorem Mod.writeGlobal_maskHigh : m.writeGlobal 0x38 (regBytes v) =
    some (m.setMask (field m.jnl.intMask.toNat 0 64 + field v.toNat 0 18 * 2 ^ 64)) := by
  simp only [Mod.writeGlobal, Mod.readGlobal, regMerge_regBytes (off := 0x38) rfl]

end

/-! ### The mirror's page (R380) -/

theorem Mod.hrmLine_idle (core line : Nat) (bs : Bytes)
    (idle : m.jnl.hrmEnable = false ∨ stackRange (m.jnl.hrmSrc.toNat + 128 * line) 128 = false) :
    m.hrmLine core line bs = m := by
  refine if_neg ?_
  rcases idle with off | outside <;> simp [*]

theorem Mod.hrmLine_writes (core line : Nat) (bs : Bytes) (enabled : m.jnl.hrmEnable = true)
    (inStack : stackRange (m.jnl.hrmSrc.toNat + 128 * line) 128 = true) :
    m.hrmLine core line bs = m.coreWriteStack core (m.jnl.hrmSrc.toNat + 128 * line) (bs.take 128) 3 :=
  if_pos (Bool.and_eq_true_iff.2 ⟨enabled, inStack⟩)

theorem filter_range_line : ∀ line : Fin 32, (List.range 32).filter (fun i => decide (i = line.val)) = [line.val] := by decide

/-- A line of the page that a core has written is copied, and no other line. -/
theorem Mod.hrmCopy_line (enabled : m.jnl.hrmEnable = true) (core : Nat) (line : Fin 32) :
    m.hrmCopy core (m.jnl.hrmSrc.toNat + 128 * line.val) 128 =
      let p := (m.coreReadStack core (m.jnl.hrmSrc.toNat + 128 * line.val) 128 3).1
      m.hostWrite (m.jnl.hrmDst.toNat + 128 * line.val) (pieceBytes p) (piecePoison p) := by
  have lines : (List.range 32).filter (fun i => decide (m.jnl.hrmSrc.toNat + 128 * line.val < m.jnl.hrmSrc.toNat + 128 * i + 128
      ∧ m.jnl.hrmSrc.toNat + 128 * i < m.jnl.hrmSrc.toNat + 128 * line.val + 128)) = [line.val] := by
    rw [← filter_range_line line]
    refine List.filter_congr fun i _ => decide_eq_decide.2 ?_
    omega
  refine (if_neg (ne_false_of_eq_true enabled)).trans ?_
  rw [lines]
  rfl

end

end Sys2Proof.Machine

namespace Sys2Proof

open Machine

/-- Settles O52: requests are served in their order, each by the block it names, and completions go to what asked. -/
theorem hostRequestsTakeEffectInOrder : Obligations.HostRequestsTakeEffectInOrder := by
  unfold Obligations.HostRequestsTakeEffectInOrder
  intro m a v bs ep high comps len tag cst core line powered j up w r queue stalled
  have packet (some : bs ≠ []) (fits : bs.length ≤ 4096) : m.memoryWritePacket a.toNat bs ep comps = m.hostRequest w :=
    m.memoryWritePacket_request _ (List.length_pos_iff.2 some) fits _ _
  refine ⟨fun down => ?down, fun none => turns_memoryWrite powered a bs ep comps (Mod.memoryWritePacket_none none _ _ _),
    fun up some fits h rest front noted held => turns_memoryWrite powered a bs ep comps
      ((packet some fits).trans (Mod.hostRequest_stalled up front noted held w)),
    fun up fits h rest front noted held => turns_memoryRead powered a len tag
      ((Mod.memoryReadPacket_request fits _ _).trans (Mod.hostRequest_stalled up front noted held r)),
    fun up some fits free loose => ⟨fun one => ?write, ?served⟩, fun n => Mod.hostPump_empty, ?blocks,
    fun long up => turns_memoryRead powered a len tag ((Mod.memoryReadPacket_long long _ _).trans (if_pos up)),
    fun fits up free loose one => ?read,
    fun up none => turns_completion powered tag bs ep cst (Mod.hostCompletion_none up none),
    fun q up found => ⟨fun x xfer => turns_completion powered tag bs ep cst (Mod.hostCompletion_xfer up found xfer),
      fun x noXfer record => turns_completion powered tag bs ep cst (Mod.hostCompletion_record up found noXfer record)⟩,
    fun up free => ?interrupts, fun idle => turns_hrmCopy powered core line bs (Mod.hrmLine_idle _ _ bs idle),
    fun enabled inStack => turns_hrmCopy powered core line bs (Mod.hrmLine_writes _ _ bs enabled inStack),
    fun enabled => Mod.hrmCopy_line enabled core.val line⟩
  case down =>
    simp only [List.forall_mem_cons]
    exact ⟨turns_memoryWrite powered a bs ep comps (Mod.memoryWritePacket_down down _ _ _ _),
      turns_memoryRead powered a len tag (Mod.memoryReadPacket_down down _ _ _),
      turns_completion powered tag bs ep cst (Mod.hostCompletion_down down),
      turns_jnlIntPend powered high v (Mod.memoryWritePacket_down down _ _ _ _),
      turns_jnlIntMask powered high v (Mod.memoryWritePacket_down down _ _ _ _), by simp⟩
  case write =>
    exact turns_memoryWrite powered a bs ep comps ((packet some fits).trans ((Mod.hostRequest_taken up free rfl loose).trans
      (congrArg (Mod.hostPump 1) (Mod.serveHost_write one ep comps))))
  case served =>
    exact turns_memoryWrite powered a bs ep comps ((packet some fits).trans (Mod.hostRequest_taken up free rfl loose))
  case read =>
    exact turns_memoryRead powered a len tag ((Mod.memoryReadPacket_request fits _ _).trans
      ((Mod.hostRequest_taken up free rfl loose).trans (congrArg (Mod.hostPump 1) (Mod.serveHost_read one _))))
  case blocks =>
    intro lost reg
    refine ⟨Mod.winWrite_silent, fun none => Mod.winWrite_none m none bs ep comps, fun o => Mod.winWrite_mirror,
      fun o => Mod.winWrite_globals, fun ready => ⟨fun q o => Mod.winWrite_dma ready, fun n o block low => ?mailbox,
      fun n o block above => ?memory, fun o => Mod.winWrite_fence ready, fun o => Mod.winWrite_seqt ready,
      fun o block => ?aperture⟩⟩
    case mailbox => exact (Mod.winWrite_mailbox ready block).trans (if_pos low)
    case memory => exact (Mod.winWrite_mailbox ready block).trans (if_neg (Nat.not_lt.2 above))
    case aperture =>
      intro d
      have writes := Mod.winWrite_aperture (bs := bs) (ep := ep) (comps := comps) ready block
      exact ⟨fun inStack => writes.trans (Mod.apertureWrite_stack inStack),
        fun outside => ⟨fun k region => writes.trans (Mod.apertureWrite_register outside region),
          fun n k region => writes.trans (Mod.apertureWrite_core outside region)⟩⟩
  case interrupts =>
    intro k mask
    have pends (n : Nat) : (m.clearPend n).hostPump 1 = m.clearPend n := Mod.hostPump_empty free
    cases high
    · exact ⟨turns_jnlIntPend powered false v ((Mod.hostReg_globals (by decide) (by decide) up free v).trans
          ((congrArg (fun n => (Option.getD n m.unassignedWin).hostPump 1) (Mod.writeGlobal_pendLow v)).trans (pends _))),
        turns_jnlIntMask powered false v ((Mod.hostReg_globals (by decide) (by decide) up free v).trans
          (congrArg (fun n => (Option.getD n m.unassignedWin).hostPump 1) (Mod.writeGlobal_maskLow v)))⟩
    · exact ⟨turns_jnlIntPend powered true v ((Mod.hostReg_globals (by decide) (by decide) up free v).trans
          ((congrArg (fun n => (Option.getD n m.unassignedWin).hostPump 1) (Mod.writeGlobal_pendHigh v)).trans (pends _))),
        turns_jnlIntMask powered true v ((Mod.hostReg_globals (by decide) (by decide) up free v).trans
          (congrArg (fun n => (Option.getD n m.unassignedWin).hostPump 1) (Mod.writeGlobal_maskHigh v)))⟩

end Sys2Proof
end
